-- ==== Sys2Proof/Word.lean ====
section
/-!
DEFINITION. The word types: a byte and a 32-bit register word (R17).
-/

namespace Sys2Proof

/-- One byte of memory, an image, a frame or a command. -/
abbrev Byte := BitVec 8

/-- One register word (R17). -/
abbrev Word32 := BitVec 32

end Sys2Proof
end

