-- ==== Sys2Proof/Syntax.lean ====
section
/-!
DEFINITION. The commands of the block and the outside inputs they carry.
-/

namespace Sys2Proof


/-- The fuse fields that the FUSE instruction selects (Table 20.2). -/
inductive FuseField where
  | keyHash (i : Nat)
  | revoke (i : Nat)
  | svn
  | imageKey
  | debugKeyHash
  | lifecycle
  deriving DecidableEq, Repr

/-- An 802.1AS Sync with its Follow_Up as an Ethernet port takes it (R53, R54): the port, the grandmaster's clock identity,
the gPTP time in ns of the instant of its reception, and the port's sync receipt timeout in reference ticks. -/
structure SyncMsg where
  port : Nat
  gm : Nat
  time : Nat
  timeout : Nat
  deriving DecidableEq, Repr

/-- A unit's own report that the island compares with its record (Table 16.4): unit kind, unit index, and the value the unit
reports. -/
structure UnitReport where
  kind : Nat
  index : Nat
  value : Nat
  deriving DecidableEq, Repr

/-- What a network request that times out was made for (R584). -/
inductive NetWork where
  /-- A command, by its identity. -/
  | command (id : Nat)
  /-- A request item being landed or judged. -/
  | request
  /-- A response being read out on an interface. -/
  | response (iface : Nat)
  /-- An item that a device producer was writing to a queue, in slots. -/
  | item (q slots : Nat)
  /-- A record of a stream, an item of a vision channel, a range image of a lidar intake, or a hop of a capture. -/
  | record (n : Nat)
  | channel (n : Nat)
  | lidar (n : Nat)
  | capture (n : Nat)
  /-- A record of the island, which is reissued. -/
  | island
  deriving DecidableEq, Repr

/-- A physical fault of a tensor core while it runs one command, as its checks meet it (R285, R288, R290, R313, R320). -/
inductive TcFault where
  /-- Bit `bit` of the weight in cell (k, n) of a pass is flipped after the load. -/
  | weight (core pass k n bit : Nat)
  /-- Bit `bit` of output `n` of row `row` of a pass is flipped before the checksum adder. -/
  | drain (core pass row n bit : Nat)
  /-- The checker of the core always passes, or always fails. -/
  | checker (core : Nat) (pass : Bool)
  /-- The two address generators of `tc.conv` disagree for a row of a pass. -/
  | feed (core pass row : Nat)
  /-- A residue or table-parity mismatch in an output row of the vector unit. -/
  | residue (core row : Nat)
  /-- A transform network's parity fails at a block or row, or its known-answer test fails. -/
  | parity (core place : Nat)
  | kat (core : Nat)
  deriving DecidableEq, Repr


/-- A mismatch that the embedding engine's checks find (R386): the gather unit, the output row, and whether it is of the
residue check and not of the address generators. -/
structure EmbFault where
  unit : Nat
  row : Nat
  residue : Bool
  deriving DecidableEq, Repr

/-- A fundamental phasor pair of a phase: V1 and I1, real and imaginary parts in mV and mA × 2^−31. -/
structure TidePhasor where
  vr : Int
  vi : Int
  ir : Int
  ii : Int
  deriving DecidableEq, Repr


/-- The commands of the block: one constructor for each row of spec/opcode_table.json.  Each carries `dt`, the
reference ticks (40 ns, R50) since the previous command, and what its row takes from outside the block. -/
inductive Instr where
  /-- POWER_ON_RESET_RELEASE (R647): An always-on input becomes valid, the always-on domain leaves power-on reset, and a cold start begins. -/
  | powerOnResetRelease (dt : Nat) (main : Bool) (bak : Bool)
  /-- POWER_ON_RESET_ENTRY (R647): The always-on input in use falls below 2.95 V and the always-on domain enters power-on reset, stopping Tide and releasing its pulse outputs. -/
  | powerOnResetEntry (dt : Nat)
  /-- PORST_N_RELEASE (R684): PORST_N is released after a low level of at least 1 µs, which abandons any attempt and begins a cold start. -/
  | porstNRelease (dt : Nat) (low : Nat)
  /-- PORST_N_ASSERT (R108): PORST_N goes low during an attempt, and the device abandons that attempt at once. -/
  | porstNAssert (dt : Nat)
  /-- AON_STEP (R93): Start step AON reads the ferroelectric boot record and clears the retained verdict. -/
  | aonStep (dt : Nat)
  /-- ISLAND_STEP (R551): Start step ISLAND runs island BIST and forces a mismatch on every Eclipse comparator. -/
  | islandStep (dt : Nat) (bist : Bool) (passed : List Nat)
  /-- SELECT_STEP (R100): Once PMIC_PG is high, start step SELECT reads both slot headers and chooses a slot, or on a warm start checks the retained verdict. -/
  | selectStep (dt : Nat) (strobe : Bool)
  /-- VERIFY_STEP (R89): Start step VERIFY reads the image, checks its signature, decrypts it, checks hashes and content rules, and retains the verdict. -/
  | verifyStep (dt : Nat) (strobe : Bool)
  /-- SEAL_STEP (R104): Start step SEAL hands the sealed section to Tide, which starts, continues or changes seal. -/
  | sealStep (dt : Nat)
  /-- DRAM_STEP (R93): Start step DRAM applies the MEMC entries, trains or restores DRAM, initialises inline ECC and copies or checks the image. -/
  | dramStep (dt : Nat) (trained : Bool)
  /-- BIST_STEP (R95): Start step BIST runs logic BIST of every tensor core and fails the attempt if a core in a partition fails. -/
  | bistStep (dt : Nat) (failed : List Nat)
  /-- WEIGHTS_STEP (R84): Start step WEIGHTS loads every weight block from UFS and hashes it, or on a warm start hashes it in DRAM. -/
  | weightsStep (dt : Nat) (fails : List (Nat × Nat))
  /-- LINKS_STEP (R96): Start step LINKS applies the interface settings and trains the links. -/
  | linksStep (dt : Nat)
  /-- BRINGUP_STEP (R181): Start step BRINGUP applies the remaining tables, copies the PLACE sections, runs the known-answer tests and SIO script 0, and runs every initial command list. -/
  | bringupStep (dt : Nat) (kats : List Nat) (drbg : Bool) (sio : Option (Nat × Bool))
  /-- ARM_STEP (R69): Start step ARM waits for STEPPED or ACQ_WAIT and then arms the fusion groups. -/
  | armStep (dt : Nat)
  /-- ACQ_WAIT_EXPIRE (R58): ACQ_WAIT passes without a first Sync, and the groups are armed on Orbit's own count. -/
  | acqWaitExpire (dt : Nat)
  /-- START_DONE (R36): Step DONE enters IN_SERVICE, raises SAFE_FAULT_N, and on a cold start sets FAILS to 0 and writes the last-good record. -/
  | startDone (dt : Nat)
  /-- START_STEP_TIMEOUT (R93): A start step exceeds its limit and the attempt fails with TIMEOUT. -/
  | startStepTimeout (dt : Nat)
  /-- START_RETRY_DELAY_EXPIRE (R101): The 100 ms wait after a failed attempt, or after a failed warm start, ends and a cold start begins. -/
  | startRetryDelayExpire (dt : Nat)
  /-- WARM_START (R98): A warm start begins after a compute reset, or when PMIC_PG returns. -/
  | warmStart (dt : Nat)
  /-- PMIC_PG_FALL (R654): PMIC_PG falls: the switched domains are isolated, DRAM enters self-refresh and the PMIC_PG source is raised. -/
  | pmicPgFall (dt : Nat) (kept : Bool)
  /-- PMIC_PG_RISE (R98): PMIC_PG returns high, starting the pending warm start or letting SELECT proceed. -/
  | pmicPgRise (dt : Nat)
  /-- ORBIT_RATE_CHECK (R52): Each 1 ms of island time, the progress of Orbit time is compared and ORBIT_RATE is raised for an excursion. -/
  | orbitRateCheck (dt : Nat) (progress : Nat)
  /-- SYNC_RECEIVED (R54): An 802.1AS Sync with Follow_Up is received, which may choose the active port, step or slew Orbit, and change the Orbit state. -/
  | syncReceived (dt : Nat) (msgs : List SyncMsg)
  /-- SYNC_RECEIPT_TIMEOUT (R55): The active port's sync receipt timeout passes, and Orbit switches port or enters HOLDOVER. -/
  | syncReceiptTimeout (dt : Nat)
  /-- HOLD_LIMIT_EXPIRE (R54): HOLDOVER has lasted HOLD_LIMIT seconds and Orbit enters FREE_RUN. -/
  | holdLimitExpire (dt : Nat)
  /-- FG_FRAME_PENDING (R63): Orbit time reaches T − W ÷ 2, a frame becomes pending, and its kept items are judged into it. -/
  | fgFramePending (dt : Nat) (g : Nat)
  /-- FG_DEADLINE (R65): Orbit time reaches T + D, the frame becomes ready and its hold members are resolved. -/
  | fgDeadline (dt : Nat) (g : Nat)
  /-- FG_DESCRIPTOR_EMIT (R68): A ready frame whose predecessor has been emitted writes its descriptor and signals its event, or is discarded as an overrun. -/
  | fgDescriptorEmit (dt : Nat) (g : Nat)
  /-- COMMAND_PICK (R135): At a command boundary, a thread runs the fetch checks and picks the highest-priority ready command, consuming its header wait. -/
  | commandPick (dt : Nat) (ts : List Nat)
  /-- COMMAND_COMPLETE (R138): An issued command completes, its writes become visible, its progress word and record are committed, and it signals. -/
  | commandComplete (dt : Nat) (cmd : Nat)
  /-- CHECKPOINT (R149): A long command reaches a checkpoint, writes its progress word and takes any pending abort, stop or fence. -/
  | checkpoint (dt : Nat) (cmd : Nat)
  /-- CQ_RECORD_RELEASE (R139): A completion queue gains space and a held completion record is committed. -/
  | cqRecordRelease (dt : Nat) (cq : Nat)
  /-- SEQ_NOP (R156): Does nothing beyond the header's fence, wait and signal. -/
  | seqNop (dt : Nat) (cmd : Nat)
  /-- SEQ_SIGNAL (R157): Adds to up to four events and satisfies the waits that become ready. -/
  | seqSignal (dt : Nat) (cmd : Nat)
  /-- SEQ_WAIT (R157): Waits for an event to reach a threshold, optionally consuming it. -/
  | seqWait (dt : Nat) (cmd : Nat)
  /-- SEQ_WAIT_TIMEOUT (R157): TIMEOUT µs pass without satisfaction and the wait fails with WAIT_TIMEOUT. -/
  | seqWaitTimeout (dt : Nat) (cmd : Nat)
  /-- SEQ_SET_EVENT (R145): Writes an event, ordered after every add issued before it. -/
  | seqSetEvent (dt : Nat) (cmd : Nat)
  /-- SEQ_TIMER (R157): Starts a wait for a relative delay or an absolute Orbit time. -/
  | seqTimer (dt : Nat) (cmd : Nat)
  /-- SEQ_TIMER_EXPIRE (R157): The delay of seq.timer passes and the command completes. -/
  | seqTimerExpire (dt : Nat) (cmd : Nat)
  /-- SEQ_REG_WRITE (R158): Makes a masked write to a permitted rw field, or fails with REG_DENIED. -/
  | seqRegWrite (dt : Nat) (cmd : Nat)
  /-- SEQ_REG_READ (R158): Copies a register to memory, or fails with REG_DENIED for SAFE, MTR, DBG or an unmapped window. -/
  | seqRegRead (dt : Nat) (cmd : Nat)
  /-- SEQ_MEM_WRITE (R156): Writes immediate 8 B values to memory. -/
  | seqMemWrite (dt : Nat) (cmd : Nat)
  /-- SEQ_CALL (R159): Runs a command list from memory, nesting to depth 4, with an implicit fence at its end. -/
  | seqCall (dt : Nat) (cmd : Nat)
  /-- SEQ_BRANCH (R159): Jumps within a called list if its condition holds. -/
  | seqBranch (dt : Nat) (cmd : Nat)
  /-- SEQ_LOOP_SET (R156): Sets a loop counter of the thread. -/
  | seqLoopSet (dt : Nat) (cmd : Nat)
  /-- SEQ_LOOP (R157): Decrements a loop counter and jumps if it is not zero. -/
  | seqLoop (dt : Nat) (cmd : Nat)
  /-- SEQ_DOORBELL (R157): Rings a queue's doorbell and reports acceptance or rejection to RESULT. -/
  | seqDoorbell (dt : Nat) (cmd : Nat)
  /-- QUEUE_STOP (R157): seq.queue_ctl STOP stops the target at its next command boundary or checkpoint. -/
  | queueStop (dt : Nat) (cmd : Nat)
  /-- QUEUE_START (R140): seq.queue_ctl START resumes a stopped queue at RPTR. -/
  | queueStart (dt : Nat) (cmd : Nat)
  /-- QUEUE_START_SKIP (R140): seq.queue_ctl START_SKIP advances RPTR past the failed or suspended command and resumes. -/
  | queueStartSkip (dt : Nat) (cmd : Nat)
  /-- QUEUE_FLUSH (R126): seq.queue_ctl FLUSH discards uncommitted slots and advances the generation. -/
  | queueFlush (dt : Nat) (cmd : Nat)
  /-- QUEUE_FLUSH_DISCARD (R126): seq.queue_ctl FLUSH_DISCARD also discards committed slots and writes FLUSHED records. -/
  | queueFlushDiscard (dt : Nat) (cmd : Nat)
  /-- QUEUE_RELEASE (R157): seq.queue_ctl RELEASE advances RPTR of a data or completion queue by COUNT. -/
  | queueRelease (dt : Nat) (cmd : Nat)
  /-- SEQ_ABORT (R153): Sends an abort to the queue's completion arbiter and writes its outcome. -/
  | seqAbort (dt : Nat) (cmd : Nat)
  /-- SEQ_NOTIFY (R156): Writes a NOTE record with a 48 B payload. -/
  | seqNotify (dt : Nat) (cmd : Nat)
  /-- JOB_WATCHDOG_EXPIRE (R179): A job's elapsed time exceeds BUDGET, and a JOB_WATCHDOG record is written and the fault raised. -/
  | jobWatchdogExpire (dt : Nat) (p : Nat)
  /-- DEADLOCK_DETECT (R210): The deadlock conditions hold for DL_TIME, and DEADLOCK and WAIT records are written and the fault raised. -/
  | deadlockDetect (dt : Nat) (p : Nat)
  /-- THREAD_WATCHDOG_EXPIRE (R582): A thread stays ISSUING for THREAD_US without a boundary, and a THREAD record is written. -/
  | threadWatchdogExpire (dt : Nat) (t : Nat)
  /-- ENGINE_HEARTBEAT_LOSS (R583): No heartbeat arrives from an engine for 8 µs, and a HEARTBEAT record is written. -/
  | engineHeartbeatLoss (dt : Nat) (cls : Nat) (inst : Nat) (last : Nat)
  /-- NETWORK_TIMEOUT (R584): A network transaction timer reaches NET_US, a NET_TIMEOUT record is written, and the command or work is failed or lost. -/
  | networkTimeout (dt : Nat) (cls : Nat) (inst : Nat) (addr : Nat) (work : NetWork)
  /-- LATE_RESPONSE (R584): A network response arriving after its timeout is discarded and counted. -/
  | lateResponse (dt : Nat)
  /-- STATUS_READ (R198): Intake control answers COUNT registers, or REG_DENIED. -/
  | statusRead (dt : Nat)
  /-- LOG_READ (R198): Intake control returns the most recent records of Q0, Q1 or Q2. -/
  | logRead (dt : Nat)
  /-- METER_READ (R532): Intake control has the snapshot port take a Tide snapshot into Q4–Q7 and answers from it, or answers BUSY. -/
  | meterRead (dt : Nat)
  /-- SUBMIT (R191): Intake control accepts a request, opens a window entry, lands the item, and on a JOB route commits a seq.call. -/
  | submit (dt : Nat)
  /-- ABORT (R195): Intake control aborts a target request by its window entry state. -/
  | abort (dt : Nat)
  /-- RESPONSE_ITEM (R192): A partition's response item is matched to an open window entry and sent, or discarded as an orphan. -/
  | responseItem (dt : Nat) (q : Nat)
  /-- REFRESH_REPORT_READ (R361): Every 4 ms, the refresh-rate reports are read and the refresh interval is set from the worst. -/
  | refreshReportRead (dt : Nat) (rates : List Nat)
  /-- CSI2_FRAME_START (R229): A frame-start packet is stamped, opens a frame, picks a buffer and rearms the stream watchdog. -/
  | csi2FrameStart (dt : Nat) (port : Nat) (vc : Nat) (fn : Nat) (sub : Nat) (corrected : Bool)
  /-- CSI2_LINE_PACKET (R226): A long packet is checked and the line passes through the stream stage and channels. -/
  | csi2LinePacket (dt : Nat) (port : Nat) (vc : Nat) (dtype : Nat) (line : List Nat) (crcOk : Bool) (corrected : Bool) (sub : Nat)
  /-- CSI2_FRAME_END (R227): A frame-end packet closes the frame, fills missing lines and marks it BAD. -/
  | csi2FrameEnd (dt : Nat) (port : Nat) (vc : Nat) (fn : Nat) (corrected : Bool)
  /-- CSI2_PACKET_DISCARD (R223): An unsupported or unmatched packet is discarded and counted. -/
  | csi2PacketDiscard (dt : Nat) (port : Nat) (header : Bool)
  /-- STREAM_WATCHDOG_EXPIRE (R229): The stream watchdog expires, closing any open frame SHORT and raising VFE_STREAM_LOSS for a SAFETY stream. -/
  | streamWatchdogExpire (dt : Nat) (n : Nat)
  /-- VISION_ITEM_COMPLETE (R251): A vision item's header word 0 is written last and the completion is reported to Orbit. -/
  | visionItemComplete (dt : Nat) (kind : Nat) (n : Nat)
  /-- VISION_KAT (R249): Once per source period, a SAFETY channel runs its known-answer test and checks KAT_CRC. -/
  | visionKat (dt : Nat) (chan : Nat) (bad : Bool)
  /-- LIDAR_PACKET_PARSE (R238): The vision engine parses a landed lidar packet into range-image cells, opening or closing scans. -/
  | lidarPacketParse (dt : Nat) (lid : Nat)
  /-- SCAN_TIMEOUT (R239): SCAN_TIMEOUT passes and the scan closes INCOMPLETE. -/
  | scanTimeout (dt : Nat) (lid : Nat)
  /-- LIDAR_WATCHDOG_EXPIRE (R239): The lidar watchdog expires, and the expiry is counted with VFE_STREAM_LOSS for a SAFETY intake. -/
  | lidarWatchdogExpire (dt : Nat) (lid : Nat)
  /-- VFE_SET_CROP (R256): Moves the crop window of a steerable channel from the next frame start. -/
  | vfeSetCrop (dt : Nat) (cmd : Nat)
  /-- VFE_HOLD (R257): Holds the buffer that contains an item. -/
  | vfeHold (dt : Nat) (cmd : Nat)
  /-- VFE_RELEASE (R257): Releases a held vision buffer. -/
  | vfeRelease (dt : Nat) (cmd : Nat)
  /-- VFE_ROI_RESIZE (R258): Resamples boxes of a tensor on the command resampler. -/
  | vfeRoiResize (dt : Nat) (cmd : Nat)
  /-- TC_MMA (R280): Matrix product in passes, with checksum checks, bias, requantisation and ReLU. -/
  | tcMma (dt : Nat) (cmd : Nat) (faults : List TcFault)
  /-- TC_TRANSPOSE (R295): Makes a transposed copy. -/
  | tcTranspose (dt : Nat) (cmd : Nat) (faults : List TcFault)
  /-- TC_VOP (R291): Applies an elementwise vector operation. -/
  | tcVop (dt : Nat) (cmd : Nat) (faults : List TcFault)
  /-- TC_VREDUCE (R292): Reduces each row to one value. -/
  | tcVreduce (dt : Nat) (cmd : Nat) (faults : List TcFault)
  /-- TC_SOFTMAX (R293): Row softmax with scale and masks. -/
  | tcSoftmax (dt : Nat) (cmd : Nat) (faults : List TcFault)
  /-- TC_NORM (R294): Layer or RMS normalisation. -/
  | tcNorm (dt : Nat) (cmd : Nat) (faults : List TcFault)
  /-- TC_SELFTEST (R288): Exercises the checksum checker with a clean pass and an injected pass. -/
  | tcSelftest (dt : Nat) (cmd : Nat) (faults : List TcFault)
  /-- TC_CONV (R311): Implicit-GEMM convolution with duplicated address generators. -/
  | tcConv (dt : Nat) (cmd : Nat) (faults : List TcFault)
  /-- TC_WCONV (R319): Winograd 3×3 convolution with a known-answer test and parity-checked transforms. -/
  | tcWconv (dt : Nat) (cmd : Nat) (faults : List TcFault)
  /-- TC_WXFORM (R321): Winograd weight transform. -/
  | tcWxform (dt : Nat) (cmd : Nat) (faults : List TcFault)
  /-- TC_S2D (R322): Space-to-depth. -/
  | tcS2d (dt : Nat) (cmd : Nat) (faults : List TcFault)
  /-- TC_D2S (R322): Depth-to-space. -/
  | tcD2s (dt : Nat) (cmd : Nat) (faults : List TcFault)
  /-- TC_HALO (R325): Halo exchange between the cores of a band cut, with a barrier. -/
  | tcHalo (dt : Nat) (cmd : Nat)
  /-- SCRUB_WINDOW (R345): In each window of I cycles, a scrubber reads its next row, correcting or poisoning words. -/
  | scrubWindow (dt : Nat) (ram : Nat) (b : Nat)
  /-- SCRUB_FORCED (R347): A scrub pass unfinished after 200 ms takes one cycle in 256 and raises its notice. -/
  | scrubForced (dt : Nat) (ram : Nat)
  /-- PATROL_READ (R360): The patrol reads inline-ECC ranges at its rate, correcting or poisoning words. -/
  | patrolRead (dt : Nat) (n : Nat)
  /-- LINK_ECC_REISSUE (R359): A DRAM request with an uncorrectable link error is reissued, failing with DRAM_LINK after two reissues. -/
  | linkEccReissue (dt : Nat) (addr : Nat) (good : Bool) (work : NetWork)
  /-- COPY_LINEAR (R353): Copies LENGTH bytes. -/
  | copyLinear (dt : Nat) (cmd : Nat)
  /-- COPY_STRIDED (R353): Copies planes of strided rows. -/
  | copyStrided (dt : Nat) (cmd : Nat)
  /-- COPY_TRANSPOSE (R353): Makes a transposed copy. -/
  | copyTranspose (dt : Nat) (cmd : Nat)
  /-- COPY_FILL (R353): Fills a range with an 8 B pattern. -/
  | copyFill (dt : Nat) (cmd : Nat)
  /-- EMB_GATHER (R379): Gathers table rows with or without pooling. -/
  | embGather (dt : Nat) (cmd : Nat) (faults : List EmbFault)
  /-- EMB_PUT (R384): Quantises vectors and writes them as table rows. -/
  | embPut (dt : Nat) (cmd : Nat) (faults : List EmbFault)
  /-- SEL_ARGMAX (R398): Finds the largest or smallest element of each row. -/
  | selArgmax (dt : Nat) (cmd : Nat) (bad : Option Nat)
  /-- SEL_TOPK (R401): Finds the K first elements of each row, in order. -/
  | selTopk (dt : Nat) (cmd : Nat) (bad : Option Nat)
  /-- SEL_SAMPLE (R405): Samples one element per row under temperature, top-k and top-p. -/
  | selSample (dt : Nat) (cmd : Nat) (bad : Option Nat)
  /-- SEL_SORT (R402): Produces a full ordering of each row. -/
  | selSort (dt : Nat) (cmd : Nat) (bad : Option Nat)
  /-- STREAM_SEED (R409): sel.stream SEED instantiates a random stream. -/
  | streamSeed (dt : Nat) (cmd : Nat)
  /-- STREAM_SAVE (R409): sel.stream SAVE writes a stream context. -/
  | streamSave (dt : Nat) (cmd : Nat)
  /-- STREAM_LOAD (R409): sel.stream LOAD loads a stream context after checking it. -/
  | streamLoad (dt : Nat) (cmd : Nat)
  /-- STREAM_CLEAR (R409): sel.stream CLEAR zeroises a stream. -/
  | streamClear (dt : Nat) (cmd : Nat)
  /-- SEL_XMERGE (R412): Sends the local list to every rank and merges once every list has arrived. -/
  | selXmerge (dt : Nat) (cmd : Nat) (bad : Bool)
  /-- XMERGE_LIST_RECEIVED (R413): A received list is matched, held, dropped, or fails the command on a mismatch. -/
  | xmergeListReceived (dt : Nat) (bad : Bool)
  /-- XMERGE_TIMEOUT (R413): TIMEOUT passes before every list has arrived and the command fails with COLL_TIMEOUT. -/
  | xmergeTimeout (dt : Nat) (cmd : Nat)
  /-- XMERGE_HOLD_EXPIRE (R413): A held list with no local command is dropped after 1 s. -/
  | xmergeHoldExpire (dt : Nat)
  /-- TOK_ENCODE (R437): Turns text into tokens with cut rules. -/
  | tokEncode (dt : Nat) (cmd : Nat)
  /-- TOK_DECODE (R440): Turns tokens into text with holdback. -/
  | tokDecode (dt : Nat) (cmd : Nat)
  /-- SLOT_OPEN (R446): tok.slot OPEN opens a slot with a new epoch. -/
  | slotOpen (dt : Nat) (cmd : Nat)
  /-- SLOT_CLOSE (R446): tok.slot CLOSE flushes the holdback and closes a slot. -/
  | slotClose (dt : Nat) (cmd : Nat)
  /-- TOK_LIST (R447): Lists the live slots of the partition. -/
  | tokList (dt : Nat) (cmd : Nat)
  /-- TOK_MASK (R449): Applies grammar masks to logit rows. -/
  | tokMask (dt : Nat) (cmd : Nat)
  /-- TOK_STEP (R450): Takes chosen tokens into their slots, advancing grammar and text or finishing. -/
  | tokStep (dt : Nat) (cmd : Nat)
  /-- SAMPLE_FRAME (R472): Each 48 kHz frame gathers inputs, runs the filter bank, adaptation, mixer and governor, and sends the outputs of frame n − 2. -/
  | sampleFrame (dt : Nat) (inputs : List (Nat × Int)) (padA : Bool) (padB : Bool) (residue : Bool) (deadline : Bool) (readback : List Nat)
  /-- AUDIO_BLOCK_END (R480): At each 1 ms block end, divergence, coefficient energy and clamp counts are judged. -/
  | audioBlockEnd (dt : Nat)
  /-- PORT_LOCK_LOSS (R464): Two expected frame-sync edges missing put a port in clock fault. -/
  | portLockLoss (dt : Nat) (n : Nat)
  /-- PORT_RELOCK (R464): After 100 ms of lock, a port leaves clock fault. -/
  | portRelock (dt : Nat) (n : Nat)
  /-- PRIORITY_MUTE_ONSET (R481): A mute channel asserts, and the mute sets in and fades every class but PRIORITY. -/
  | priorityMuteOnset (dt : Nat) (b : Bool)
  /-- MUTE_RELEASE (R483): Both channels deassert and the mute ramps up over 480 periods. -/
  | muteRelease (dt : Nat)
  /-- MUTE_DISCREPANCY (R482): A disagreement lasts DISC_TIME and raises the mute-discrepancy fault. -/
  | muteDiscrepancy (dt : Nat)
  /-- RATE_SWITCH (R484): After the ramp-down, a port switches rate at a frame boundary, relocks and ramps up. -/
  | rateSwitch (dt : Nat) (n : Nat)
  /-- SLAVE_RATE_SETTLE (R485): A slave port's frame sync settles at its other rate and the port takes it up. -/
  | slaveRateSettle (dt : Nat) (n : Nat)
  /-- HOP_COMPLETE (R491): A capture hop item is written, word 0 last, queued and reported to Orbit. -/
  | hopComplete (dt : Nat) (cap : Nat)
  /-- ACU_PLAY (R493): Schedules a hop of samples on playback channels at PLAY_AT. -/
  | acuPlay (dt : Nat) (cmd : Nat)
  /-- ACU_HOLD (R491): Holds a capture buffer. -/
  | acuHold (dt : Nat) (cmd : Nat)
  /-- ACU_RELEASE (R491): Releases a capture buffer. -/
  | acuRelease (dt : Nat) (cmd : Nat)
  /-- ACU_DUCK (R495): Ramps the PROGRAM duck gain to GAIN over RAMP ms. -/
  | acuDuck (dt : Nat) (cmd : Nat)
  /-- ANC_RESUME (R476): acu.anc RESUME clears the command, governor, divergence and datapath causes, optionally restoring W. -/
  | ancResume (dt : Nat) (cmd : Nat)
  /-- ANC_HOLD (R476): acu.anc HOLD freezes adaptation. -/
  | ancHold (dt : Nat) (cmd : Nat)
  /-- ANC_STOP (R476): acu.anc STOP sets COMMAND_STOP and fades the anti-noise. -/
  | ancStop (dt : Nat) (cmd : Nat)
  /-- ACU_RATE (R484): Starts a port's switch between RATE and RATE_ALT. -/
  | acuRate (dt : Nat) (cmd : Nat)
  /-- METER_SAMPLE (R510): Each 8 kHz sample is calibrated, range-selected and apportioned to the pulse outputs. -/
  | meterSample (dt : Nat) (xs : List Int)
  /-- CYCLE_CLOSE (R516): A line cycle or pseudo-cycle closes, quantities are formed and energy is added to the registers. -/
  | cycleClose (dt : Nat) (frac : Nat) (mhz : Nat) (ph : List TidePhasor)
  /-- LATCH (R521): At every NCYC-th cycle, the register set is latched and a commit begins. -/
  | latch (dt : Nat)
  /-- TIDE_COMMIT_COMPLETE (R523): A totals record write to ferroelectric RAM completes and becomes valid. -/
  | tideCommitComplete (dt : Nat)
  /-- MAINS_LOCK_CHANGE (R514): The tracker gains or loses mains lock, closing the running cycle. -/
  | mainsLockChange (dt : Nat) (gained : Bool) (frac : Nat) (mhz : Nat) (ph : List TidePhasor)
  /-- HARMONIC_WINDOW (R517): A 10- or 12-cycle window of harmonics, THD and Q completes. -/
  | harmonicWindow (dt : Nat) (harm : List (Nat × List (Nat × Nat))) (derived : List (Nat × Nat × Nat))
  /-- MCLK_FAULT (R507): MTR_MCLK misses 4 edges, or runs 10 ms clean, and the clock fault starts or ends. -/
  | mclkFault (dt : Nat) (on : Bool)
  /-- CHANNEL_FAULT (R507): A bitstream shows no transition for 1 ms, or transitions for 10 ms, and channel fault starts or ends. -/
  | channelFault (dt : Nat) (c : Nat) (on : Bool)
  /-- OVERLOAD (R507): A 10 ms ones density outside 0.05–0.95 starts or ends overload. -/
  | overload (dt : Nat) (c : Nat) (on : Bool)
  /-- PULSE_INPUT_ACCEPT (R526): A pulse-input level stable for DEB ms is accepted and counted. -/
  | pulseInputAccept (dt : Nat) (k : Nat)
  /-- PULSE_OUTPUT_TIMER (R528): A test pulse output's PW period ends, and the next pulse is emitted from its pending quanta. -/
  | pulseOutputTimer (dt : Nat) (j : Nat)
  /-- MTR_SNAP (R533): Writes a Tide snapshot body to DEST. -/
  | mtrSnap (dt : Nat) (cmd : Nat)
  /-- AON_INPUT_FAIL (R648): An always-on input falls below 3.10 V, and the supervisor switches input or raises the supply-loss warning. -/
  | aonInputFail (dt : Nat) (bak : Bool)
  /-- AON_INPUT_VALID (R647): An input becomes valid after 1 ms, which ends any warning and may select that input. -/
  | aonInputValid (dt : Nat) (bak : Bool)
  /-- AON_BACK_TO_MAIN (R648): VAON_MAIN has been valid for 100 ms while on backup, and the supervisor switches back. -/
  | aonBackToMain (dt : Nat)
  /-- RAIL_MONITOR_FAULT (R655): A rail stays outside nominal ± 7 % for 5 µs and SUPPLY_MONITOR is raised. -/
  | railMonitorFault (dt : Nat) (r : Nat) (on : Bool)
  /-- DOMAIN_POWER_GOOD_TIMEOUT (R658): A domain reports no power-good within 200 µs and SUPPLY_MONITOR is raised. -/
  | domainPowerGoodTimeout (dt : Nat) (d : Nat)
  /-- CLOCK_MONITOR_WINDOW (R661): Each 10 µs window compares a domain's clock with the crystal and raises CLOCK_MONITOR for an excursion. -/
  | clockMonitorWindow (dt : Nat) (c : Nat) (count : Nat)
  /-- THERMAL_READING (R664): Every 100 µs, the sensors are read and clusters throttle, step up or trip THERMAL. -/
  | thermalReading (dt : Nat) (readings : List Int)
  /-- LOCKSTEP_MISMATCH (R550): A comparator finds an output or signature mismatch, withholds outputs and stops the pair. -/
  | lockstepMismatch (dt : Nat) (pair : Nat)
  /-- SPLIT_HANDOVER_BEGIN (R554): The island consumes SPLIT_EVT and starts pausing a pair's threads. -/
  | splitHandoverBegin (dt : Nat)
  /-- SPLIT_HANDOVER_COMPLETE (R555): Every thread is paused, the final compare matches, core 1 is released and PAIR_SPLIT is raised. -/
  | splitHandoverComplete (dt : Nat) (mismatch : Bool)
  /-- SPLIT_TIMEOUT (R556): Pausing does not complete within 100 µs and SPLIT_TIMEOUT is raised. -/
  | splitTimeout (dt : Nat)
  /-- ISLAND_WATCHDOG_EXPIRE (R558): The island's window watchdog is missed and ISLAND_WATCHDOG is raised. -/
  | islandWatchdogExpire (dt : Nat)
  /-- OSC_CROSS_CHECK (R558): Each 1 ms of crystal time, the island oscillator is checked and OSC_CROSS is raised on a 5 % difference. -/
  | oscCrossCheck (dt : Nat) (count : Nat)
  /-- FAULT_RECORD_WRITE (R564): The island writes the fault record to Q1, a persistent-log entry, and decides escalation. -/
  | faultRecordWrite (dt : Nat)
  /-- ISLAND_RESTART (R562): After an OUT fault, the island resets, repeats its self-test, records, and completes the passage to OUT_OF_SERVICE. -/
  | islandRestart (dt : Nat) (passed : Bool)
  /-- COMPUTE_RESET_ASSERT (R586): The island asserts the compute reset on the blocks of Table 16.3. -/
  | computeResetAssert (dt : Nat)
  /-- COMPUTE_RESET_RELEASE (R586): After 100 µs, the compute reset is released and a warm start begins. -/
  | computeResetRelease (dt : Nat)
  /-- ISLAND_SUPERVISION_CYCLE (R567): Every 500 µs, the island services its watchdog, compares unit states with its record, and toggles the heartbeat. -/
  | islandSupervisionCycle (dt : Nat) (reports : List UnitReport)
  /-- PIN_READBACK_SAMPLE (R568): Every 10 µs, the safety pins are sampled and PIN_READBACK is raised after 1 ms stuck. -/
  | pinReadbackSample (dt : Nat) (faultPad : Bool) (hbPad : Bool)
  /-- PLOG_COUNT_READ (R602): A read of RST.PLOG_COUNT takes a new snapshot of the 16 latest persistent-log entries. -/
  | plogCountRead (dt : Nat)
  /-- COUNTER_LOW_WORD_READ (R24): A read of the lowest word of a 64-bit or 96-bit counter takes its snapshot. -/
  | counterLowWordRead (dt : Nat) (addr : Nat)
  /-- REGISTER_WRITE (R27): A write to a register field without behaviour of its own sets it under its access type. -/
  | registerWrite (dt : Nat) (addr : Nat) (value : Nat) (mask : Nat)
  /-- ETH_FRAME_RECEIVE (R617): A received Ethernet frame is sorted into 802.1AS, ARP, request segment, lidar packet or drop. -/
  | ethFrameReceive (dt : Nat) (p : Nat) (sub : Nat) (frame : List Byte)
  /-- REASSEMBLY_TIMEOUT (R619): A key still incomplete after REASM_MS is discarded. -/
  | reassemblyTimeout (dt : Nat) (p : Nat)
  /-- RESPONSE_SEND (R613): The link engine sends a response message on the interface of its request. -/
  | responseSend (dt : Nat) (iface : Nat)
  /-- CAN_FRAME_RECEIVE (R626): A CAN FD request frame is added to the message under construction. -/
  | canFrameReceive (dt : Nat) (k : Nat) (id : Nat) (ide : Bool) (fd : Bool) (data : List Byte)
  /-- CAN_GAP_TIMEOUT (R626): GAP_MS passes between frames and the message under construction is discarded. -/
  | canGapTimeout (dt : Nat) (k : Nat)
  /-- REQ_DOORBELL (R623): A PCIe REQ_DOORBELL write treats the request window slots as one message. -/
  | reqDoorbell (dt : Nat) (v : Nat) (data : List Byte)
  /-- RSP_RPTR_WRITE (R624): The host advances RSP_RPTR, freeing space for waiting responses. -/
  | rspRptrWrite (dt : Nat) (v : Nat)
  /-- INT_CLEAR (R22): A write of 1 to INT.RESPONSE clears it, unless it is set in the same cycle. -/
  | intClear (dt : Nat) (same : Bool)
  /-- PCIE_PERST_N (R678): PCIE_PERST_N low resets the PCIe endpoint's link and configuration state. -/
  | pciePerstN (dt : Nat) (level : Bool)
  /-- LINK_TRAINING_ATTEMPT (R627): A chip-link port runs a training attempt and reaches UP on a matching HELLO. -/
  | linkTrainingAttempt (dt : Nat) (p : Nat) (st : Nat) (hello : Option (Nat × Nat × Nat))
  /-- LINK_FRAME_RECEIVE (R629): A chip-link frame is checked, acknowledged or NACKed, forwarded or delivered. -/
  | linkFrameReceive (dt : Nat) (p : Nat) (frame : List Byte)
  /-- LINK_ACK_TIMEOUT (R629): A frame is not acknowledged within 10 µs, or is replayed 4 times, and the port retrains. -/
  | linkAckTimeout (dt : Nat) (p : Nat)
  /-- LINK_PUT (R634): Sends a buffer as PUT frames into a remote window and completes on PUT_ACK. -/
  | linkPut (dt : Nat) (cmd : Nat)
  /-- LINK_PUT_TIMEOUT (R634): TIMEOUT passes without a PUT_ACK and link.put fails. -/
  | linkPutTimeout (dt : Nat) (cmd : Nat)
  /-- LINK_SIO (R636): Runs an SIO script of I²C, SPI, GPIO and delay operations. -/
  | linkSio (dt : Nat) (cmd : Nat) (fail : Option (Nat × Bool)) (reads : List Byte)
  /-- IDCODE (R699): The JTAG IDCODE instruction reads 0x1048_077D. -/
  | idcode (dt : Nat)
  /-- SAMPLE_PRELOAD (R699): The JTAG SAMPLE/PRELOAD instruction samples or preloads the boundary register. -/
  | samplePreload (dt : Nat) (pins : List Bool) (shift : List Bool)
  /-- EXTEST (R700): The JTAG EXTEST instruction drives the outputs from boundary cells, except the observe-only pins. -/
  | extest (dt : Nat) (shift : List Bool)
  /-- BYPASS (R699): BYPASS, or a disallowed instruction, selects the 1-bit bypass register. -/
  | bypass (dt : Nat) (code : Nat)
  /-- DBG_AUTH_CAPTURE (R701): DBG_AUTH capture draws a fresh nonce and presents the challenge. -/
  | dbgAuthCapture (dt : Nat)
  /-- DBG_AUTH_RESPONSE (R702): The island verifies a signed response and sets the session level, locking after three rejections. -/
  | dbgAuthResponse (dt : Nat) (resp : List Byte)
  /-- DBG_ACC (R706): Makes one debug word access within the reach of the session level. -/
  | dbgAcc (dt : Nat) (addr : Nat) (data : Nat) (op : Nat)
  /-- FUSE (R697): Programs and verifies a fuse field, including the lifecycle advance to FIELD. -/
  | fuse (dt : Nat) (f : FuseField) (data : List Byte) (verified : Bool)
  /-- TRST_N_ASSERT (R693): TRST_N low holds only the JTAG test access port in reset. -/
  | trstNAssert (dt : Nat) (low : Bool)
  /-- DBG_RETURN_WRITE (R696): A level-2 write of 1 to DBG.CTRL.RETURN advances FIELD to RETURN and disables the image key. -/
  | dbgReturnWrite (dt : Nat)
  /-- FRAM_DATA_READ (R706): A read of DBG.FRAM_DATA returns the ferroelectric word at OFFSET and adds 4 to OFFSET. -/
  | framDataRead (dt : Nat)
  /-- TMUX_SEL_WRITE (R709): A write of TMUX_SEL brings an internal signal to a test-multiplexer pin. -/
  | tmuxSelWrite (dt : Nat) (n : Nat) (v : Nat)
  /-- PORT_FIRST_LOCK (R486): The slave port that CLK_SRC names first locks, and the sample clock and the master ports start. -/
  | portFirstLock (dt : Nat) (n : Nat)
  /-- PMIC_PG_RETURN_WAIT_EXPIRE (R108): 100 ms after PMIC_PG returns high following an attempt abandoned in STARTING, a new cold start begins. -/
  | pmicPgReturnWaitExpire (dt : Nat)
  /-- PULSE_INPUT_EDGE (R526): A raw edge on a pulse input is stamped by Orbit and restarts the debounce of that input. -/
  | pulseInputEdge (dt : Nat) (k : Nat) (level : Bool) (sub : Nat)
  /-- ETH_LINK_CHANGE (R613): An Ethernet port's link goes up or down, which changes ETH.STATUS and whether its responses are sent or discarded. -/
  | ethLinkChange (dt : Nat) (p : Nat) (up : Bool)
  /-- PCIE_LINK_CHANGE (R622): The PCIe link trains up or goes down, which changes PCIE.STATUS and whether responses can be sent. -/
  | pcieLinkChange (dt : Nat) (up : Bool) (gen : Nat) (width : Nat)
  /-- CAN_BUS_OFF (R625): A CAN controller changes its fault-confinement state, enters bus-off and is counted, or recovers under ISO 11898-1. -/
  | canBusOff (dt : Nat) (k : Nat) (state : Nat)
  /-- PLL_LOSS_OF_LOCK (R661): A domain's PLL reports loss of lock, and CLOCK_MONITOR is raised and CLK.CLK_FAULT set. -/
  | pllLossOfLock (dt : Nat) (p : Nat) (lost : Bool)
  /-- UNDEFINED_REQUEST_TYPE (R189): Intake control takes a request item whose TYPE is none of Table 5.7 and answers it MALFORMED, or refuses it at check 1. -/
  | undefinedRequestType (dt : Nat)
  deriving DecidableEq, Repr

end Sys2Proof
end

