-- ==== Sys2Proof/Decode.lean ====
section
/-!
DEFINITION. The command that a word of the opcode table spells.  No row of the table gives bits, so no word spells one.
-/

namespace Sys2Proof

/-- The command spelled by the `nbits`-bit word `w`: every row of the table has an empty list of fields. -/
def decodeTableWord (_nbits _w : Nat) : Option Instr := none

end Sys2Proof
end

