-- ==== Sys2Proof/Config.lean ====
section
/-!
DEFINITION. What the spec leaves open: constants with no body, so that nothing can be proved of their values.
-/

namespace Sys2Proof

/-- A free number, drawn at the state's counter `freeCtr`. -/
opaque Config.freeNat : Nat → Nat

/-- A free integer, drawn at the state's counter `freeCtr`. -/
opaque Config.freeInt : Nat → Int

/-- The offset, in units in the last place, by which a function that R277 and Table 7.4 bound only by an error differs
from the exact value: a function of the operation and of its operand's code, so that a run repeats itself. -/
opaque Config.ulpOffset : Nat → Nat → Int

/-- The error, within the bounds of R235, of a depth arithmetic result: a function of the operands. -/
opaque Config.tofOffset : Nat → Nat → Int

/-- The value, as a function of plane, column and row, of a colour plane that a filter array does not hold (R232). -/
opaque Config.openSample : Nat → Nat → Nat → Nat

/-- Whether candidate lists whose records are in order both as FP32 and as INT32 values are merged as FP32 ones: a function of
the records in rank order (R412). -/
opaque Config.mergeFloat : List Nat → Bool

/-- The rank among equals of a record of a merge: a function of the records in rank order and of its place (R400, R412). -/
opaque Config.mergeTie : List Nat → Nat → Nat

/-- A word of a boot record in the ferroelectric memory, whose layout is not given: a function of the record's sequence number and of
the place (R101, Table 16.7). -/
opaque Config.recordWord : Nat → Nat → Nat

/-- The levels of the GPIO inputs at a reference tick. -/
opaque Config.gpioLevel : Nat → Nat

end Sys2Proof
end

