-- ==== Sys2Proof/Machine/Sparse.lean ====
section
/-!
DEFINITION. Sparse maps as plain data: a list of (key, value) pairs with keys strictly rising and no value equal
to the default that an unlisted key reads as, so that equal maps are equal lists.
-/

namespace Sys2Proof.Machine

/-- The value at key `k`; `d` where no pair lists it. -/
def Sparse.get {β : Type} (d : β) : List (Nat × β) → Nat → β
  | [], _ => d
  | (i, v) :: m, k => if i = k then v else if k < i then d else Sparse.get d m k

/-- The map with key `k` set to `v`; writing the default removes the pair. -/
def Sparse.put {β : Type} [DecidableEq β] (d : β) : List (Nat × β) → Nat → β → List (Nat × β)
  | [], k, v => if v = d then [] else [(k, v)]
  | (i, w) :: m, k, v =>
    if i = k then (if v = d then m else (k, v) :: m)
    else if k < i then (if v = d then (i, w) :: m else (k, v) :: (i, w) :: m)
    else (i, w) :: Sparse.put d m k v

/-- The map with every key of `[lo, hi)` back at the default. -/
def Sparse.clear {β : Type} (m : List (Nat × β)) (lo hi : Nat) : List (Nat × β) :=
  m.filter fun p => p.1 < lo || hi ≤ p.1

/-- The first key is above `b` and the keys rise from there. -/
def Sparse.risingFrom {β : Type} : Option Nat → List (Nat × β) → Bool
  | _, [] => true
  | none, (i, _) :: m => Sparse.risingFrom (some i) m
  | some b, (i, _) :: m => decide (b < i) && Sparse.risingFrom (some i) m

/-- The canonical form: keys strictly rising, no pair holding the default. -/
def Sparse.wf {β : Type} [DecidableEq β] (d : β) (m : List (Nat × β)) : Bool :=
  Sparse.risingFrom none m && m.all fun p => decide (p.2 ≠ d)

end Sys2Proof.Machine
end

