-- ==== Sys2Proof/Machine/RegMap.lean ====
section
/-!
DEFINITION. The register map: one row per register field of the spec's register tables, with its address (R17),
its index strides and counts, its bits, its access type (R27, Table 0.5) and its reset value.  A row named
`BLOCK_REGISTER_FIELD` carries the spec's own name BLOCK.REGISTER.FIELD.  A field of 64, 96 or 256 bits covers
consecutive words from its lowest address.
-/

namespace Sys2Proof.Machine

/-- Access types of Table 0.5 that occur in the register tables. -/
inductive Access where
  | rw | ro | wo | rws
  deriving DecidableEq, Repr

/-- One register field: element (i, j) lies at `addr + s1 * i + s2 * j`, bits `lo` to `lo + width - 1`. -/
structure RegRow where
  addr : Nat
  s1 : Nat
  c1 : Nat
  s2 : Nat
  c2 : Nat
  lo : Nat
  width : Nat
  acc : Access
  reset : Nat
  deriving DecidableEq, Repr

namespace R


/-! TOP: 01_device_overview.md, Table 1.7. -/

def TOP_ID_PART : RegRow := ⟨0x00F000000000, 0x0, 1, 0x0, 1, 0, 16, .ro, 1152⟩
def TOP_ID_VENDOR : RegRow := ⟨0x00F000000000, 0x0, 1, 0x0, 1, 16, 16, .ro, 31806⟩

/-! TOP: 01_device_overview.md, Table 1.8. -/

def TOP_REV_DIGIT : RegRow := ⟨0x00F000000004, 0x0, 1, 0x0, 1, 0, 4, .ro, 0⟩
def TOP_REV_LETTER : RegRow := ⟨0x00F000000004, 0x0, 1, 0x0, 1, 4, 4, .ro, 1⟩

/-! TOP: 01_device_overview.md, Table 1.9. -/

def TOP_SVC_STATE : RegRow := ⟨0x00F000000008, 0x0, 1, 0x0, 1, 0, 3, .ro, 0⟩
def TOP_SVC_TIDE_RUN : RegRow := ⟨0x00F000000008, 0x0, 1, 0x0, 1, 3, 1, .ro, 0⟩
def TOP_SVC_SAFE_COUNT : RegRow := ⟨0x00F000000008, 0x0, 1, 0x0, 1, 8, 8, .ro, 0⟩

/-! TOP: 01_device_overview.md, Table 1.10. -/

def TOP_SVC_TIME_TIME : RegRow := ⟨0x00F000000010, 0x0, 1, 0x0, 1, 0, 64, .ro, 0⟩

/-! TOP: 01_device_overview.md, Table 1.11. -/

def TOP_CAB_FN_MONITOR : RegRow := ⟨0x00F000000018, 0x0, 1, 0x0, 1, 0, 1, .ro, 0⟩
def TOP_CAB_FN_DOOR : RegRow := ⟨0x00F000000018, 0x0, 1, 0x0, 1, 1, 1, .ro, 0⟩
def TOP_CAB_FN_SEPARATE : RegRow := ⟨0x00F000000018, 0x0, 1, 0x0, 1, 2, 1, .ro, 0⟩
def TOP_CAB_FN_ANC : RegRow := ⟨0x00F000000018, 0x0, 1, 0x0, 1, 3, 1, .ro, 0⟩
def TOP_CAB_FN_ASSIST : RegRow := ⟨0x00F000000018, 0x0, 1, 0x0, 1, 4, 1, .ro, 0⟩
def TOP_CAB_FN_ADVICE : RegRow := ⟨0x00F000000018, 0x0, 1, 0x0, 1, 5, 1, .ro, 0⟩

/-! TIME: 02_orbit_time_and_fusion_groups.md, Table 2.6. -/

def TIME_NOW_TIME : RegRow := ⟨0x00F000010000, 0x0, 1, 0x0, 1, 0, 64, .ro, 0⟩
def TIME_STATUS_STATE : RegRow := ⟨0x00F000010010, 0x0, 1, 0x0, 1, 0, 3, .ro, 0⟩
def TIME_STATUS_PORT : RegRow := ⟨0x00F000010010, 0x0, 1, 0x0, 1, 3, 1, .ro, 0⟩
def TIME_STATUS_STEPPED : RegRow := ⟨0x00F000010010, 0x0, 1, 0x0, 1, 4, 1, .ro, 0⟩
def TIME_STATUS_ARMED : RegRow := ⟨0x00F000010010, 0x0, 1, 0x0, 1, 5, 1, .ro, 0⟩
def TIME_GM_OFFSET_OFFSET : RegRow := ⟨0x00F000010018, 0x0, 1, 0x0, 1, 0, 64, .ro, 0⟩
def TIME_RATE_CORR : RegRow := ⟨0x00F000010020, 0x0, 1, 0x0, 1, 0, 32, .ro, 0⟩
def TIME_CFG_PORT_SEL : RegRow := ⟨0x00F000010024, 0x0, 1, 0x0, 1, 0, 2, .rws, 0⟩
def TIME_CFG_ACQ_WAIT : RegRow := ⟨0x00F000010024, 0x0, 1, 0x0, 1, 8, 8, .rws, 0⟩
def TIME_CFG_HOLD_LIMIT : RegRow := ⟨0x00F000010024, 0x0, 1, 0x0, 1, 16, 16, .rws, 60⟩
def TIME_ETH0_DLY_RX : RegRow := ⟨0x00F000010028, 0x0, 1, 0x0, 1, 0, 16, .rws, 0⟩
def TIME_ETH0_DLY_TX : RegRow := ⟨0x00F000010028, 0x0, 1, 0x0, 1, 16, 16, .rws, 0⟩
def TIME_ETH1_DLY_RX : RegRow := ⟨0x00F00001002C, 0x0, 1, 0x0, 1, 0, 16, .rws, 0⟩
def TIME_ETH1_DLY_TX : RegRow := ⟨0x00F00001002C, 0x0, 1, 0x0, 1, 16, 16, .rws, 0⟩
def TIME_GM_ID_ID : RegRow := ⟨0x00F000010030, 0x0, 1, 0x0, 1, 0, 64, .ro, 0⟩
def TIME_TALLY_SYNC_LOSS : RegRow := ⟨0x00F000010038, 0x0, 1, 0x0, 1, 0, 16, .ro, 0⟩
def TIME_TALLY_PORT_SWITCH : RegRow := ⟨0x00F000010038, 0x0, 1, 0x0, 1, 16, 16, .ro, 0⟩

/-! TIME: 02_orbit_time_and_fusion_groups.md, Table 2.7. -/

def TIME_FG_CFG_ENABLE : RegRow := ⟨0x00F000011000, 0x100, 32, 0x0, 1, 0, 1, .rws, 0⟩
def TIME_FG_CFG_PART : RegRow := ⟨0x00F000011000, 0x100, 32, 0x0, 1, 1, 2, .rws, 0⟩
def TIME_FG_CFG_QUEUE : RegRow := ⟨0x00F000011000, 0x100, 32, 0x0, 1, 3, 9, .rws, 0⟩
def TIME_FG_CFG_EVENT : RegRow := ⟨0x00F000011000, 0x100, 32, 0x0, 1, 12, 12, .rws, 0⟩
def TIME_FG_CFG_GLOBAL : RegRow := ⟨0x00F000011000, 0x100, 32, 0x0, 1, 24, 1, .rws, 0⟩
def TIME_FG_PERIOD_P : RegRow := ⟨0x00F000011004, 0x100, 32, 0x0, 1, 0, 32, .rws, 0⟩
def TIME_FG_PHASE_PHASE : RegRow := ⟨0x00F000011008, 0x100, 32, 0x0, 1, 0, 32, .rws, 0⟩
def TIME_FG_WINDOW_W : RegRow := ⟨0x00F00001100C, 0x100, 32, 0x0, 1, 0, 32, .rws, 0⟩
def TIME_FG_DEADLINE_D : RegRow := ⟨0x00F000011010, 0x100, 32, 0x0, 1, 0, 32, .rws, 0⟩
def TIME_FG_HOLD_HOLD_MAX : RegRow := ⟨0x00F000011014, 0x100, 32, 0x0, 1, 0, 32, .rws, 0⟩
def TIME_FG_ABSENT_ABSENT_LIMIT : RegRow := ⟨0x00F000011018, 0x100, 32, 0x0, 1, 0, 8, .rws, 0⟩
def TIME_FG_MEMBER_USED : RegRow := ⟨0x00F000011020, 0x100, 32, 0x4, 8, 0, 1, .rws, 0⟩
def TIME_FG_MEMBER_KIND : RegRow := ⟨0x00F000011020, 0x100, 32, 0x4, 8, 1, 4, .rws, 0⟩
def TIME_FG_MEMBER_SOURCE : RegRow := ⟨0x00F000011020, 0x100, 32, 0x4, 8, 5, 8, .rws, 0⟩
def TIME_FG_MEMBER_HOLD : RegRow := ⟨0x00F000011020, 0x100, 32, 0x4, 8, 13, 1, .rws, 0⟩
def TIME_FG_MOFS_OFFSET : RegRow := ⟨0x00F000011040, 0x100, 32, 0x4, 8, 0, 32, .rws, 0⟩
def TIME_FG_EMITTED_COUNT : RegRow := ⟨0x00F000011080, 0x100, 32, 0x0, 1, 0, 32, .ro, 0⟩
def TIME_FG_LATE_COUNT : RegRow := ⟨0x00F000011084, 0x100, 32, 0x0, 1, 0, 32, .ro, 0⟩
def TIME_FG_UNMATCHED_COUNT : RegRow := ⟨0x00F000011088, 0x100, 32, 0x0, 1, 0, 32, .ro, 0⟩
def TIME_FG_SUPERSEDED_COUNT : RegRow := ⟨0x00F00001108C, 0x100, 32, 0x0, 1, 0, 32, .ro, 0⟩
def TIME_FG_OVERRUN_COUNT : RegRow := ⟨0x00F000011090, 0x100, 32, 0x0, 1, 0, 32, .ro, 0⟩
def TIME_FG_DISCARD_COUNT : RegRow := ⟨0x00F000011094, 0x100, 32, 0x0, 1, 0, 32, .ro, 0⟩

/-! BOOT: 03_jenold_image_and_start.md, Table 3.10. -/

def BOOT_STATUS_STEP : RegRow := ⟨0x00F000060000, 0x0, 1, 0x0, 1, 0, 4, .ro, 0⟩
def BOOT_STATUS_WARM : RegRow := ⟨0x00F000060000, 0x0, 1, 0x0, 1, 4, 1, .ro, 0⟩
def BOOT_STATUS_SLOT : RegRow := ⟨0x00F000060000, 0x0, 1, 0x0, 1, 5, 1, .ro, 0⟩
def BOOT_STATUS_FALLBACK : RegRow := ⟨0x00F000060000, 0x0, 1, 0x0, 1, 6, 1, .ro, 0⟩
def BOOT_STATUS_SEALED : RegRow := ⟨0x00F000060000, 0x0, 1, 0x0, 1, 7, 1, .ro, 0⟩
def BOOT_STATUS_FAILS : RegRow := ⟨0x00F000060000, 0x0, 1, 0x0, 1, 8, 3, .ro, 0⟩
def BOOT_FAIL_CODE : RegRow := ⟨0x00F000060004, 0x0, 1, 0x0, 1, 0, 8, .ro, 0⟩
def BOOT_FAIL_STEP : RegRow := ⟨0x00F000060004, 0x0, 1, 0x0, 1, 8, 4, .ro, 0⟩
def BOOT_FAIL_SLOT : RegRow := ⟨0x00F000060004, 0x0, 1, 0x0, 1, 12, 1, .ro, 0⟩
def BOOT_FAIL_WARM : RegRow := ⟨0x00F000060004, 0x0, 1, 0x0, 1, 13, 1, .ro, 0⟩
def BOOT_FAIL_SECTION : RegRow := ⟨0x00F000060004, 0x0, 1, 0x0, 1, 16, 6, .ro, 0⟩
def BOOT_GEN_IMAGE_GEN : RegRow := ⟨0x00F000060008, 0x0, 1, 0x0, 1, 0, 32, .ro, 0⟩
def BOOT_SVN_IMAGE : RegRow := ⟨0x00F00006000C, 0x0, 1, 0x0, 1, 0, 8, .ro, 0⟩
def BOOT_SVN_FUSED : RegRow := ⟨0x00F00006000C, 0x0, 1, 0x0, 1, 8, 8, .ro, 0⟩
def BOOT_SVN_KEY_SLOT : RegRow := ⟨0x00F00006000C, 0x0, 1, 0x0, 1, 16, 2, .ro, 0⟩
def BOOT_SVN_REVOKED : RegRow := ⟨0x00F00006000C, 0x0, 1, 0x0, 1, 18, 4, .ro, 0⟩
def BOOT_SEAL_CRC_CRC : RegRow := ⟨0x00F000060010, 0x0, 1, 0x0, 1, 0, 32, .ro, 0⟩
def BOOT_SLOT_A_GEN_GEN : RegRow := ⟨0x00F000060014, 0x0, 1, 0x0, 1, 0, 32, .ro, 0⟩
def BOOT_SLOT_B_GEN_GEN : RegRow := ⟨0x00F000060018, 0x0, 1, 0x0, 1, 0, 32, .ro, 0⟩
def BOOT_BAD_A_BAD : RegRow := ⟨0x00F00006001C, 0x0, 1, 0x0, 1, 0, 1, .ro, 0⟩
def BOOT_BAD_B_BAD : RegRow := ⟨0x00F00006001C, 0x0, 1, 0x0, 1, 1, 1, .ro, 0⟩
def BOOT_BIST_FAILED : RegRow := ⟨0x00F000060020, 0x0, 1, 0x0, 1, 0, 16, .ro, 0⟩
def BOOT_TALLY_COLD : RegRow := ⟨0x00F000060024, 0x0, 1, 0x0, 1, 0, 16, .ro, 0⟩
def BOOT_TALLY_WARM : RegRow := ⟨0x00F000060024, 0x0, 1, 0x0, 1, 16, 16, .ro, 0⟩
def BOOT_STEP_US_US : RegRow := ⟨0x00F000060040, 0x4, 11, 0x0, 1, 0, 32, .ro, 0⟩

/-! QUE: 04_queues_commands_events.md, Table 4.16. -/

def QUE_SUMMARY_CONFIGURED : RegRow := ⟨0x00F000080000, 0x0, 1, 0x0, 1, 0, 10, .ro, 0⟩
def QUE_SUMMARY_STOPPED : RegRow := ⟨0x00F000080000, 0x0, 1, 0x0, 1, 10, 10, .ro, 0⟩
def QUE_SUMMARY_FENCED : RegRow := ⟨0x00F000080000, 0x0, 1, 0x0, 1, 20, 10, .ro, 0⟩
def QUE_STOPPED_BITS : RegRow := ⟨0x00F000080100, 0x4, 16, 0x0, 1, 0, 32, .ro, 0⟩
def QUE_FENCED_BITS : RegRow := ⟨0x00F000080200, 0x4, 16, 0x0, 1, 0, 32, .ro, 0⟩

/-! QUE: 04_queues_commands_events.md, Table 4.17. -/

def QUE_DOORBELL_WPTR : RegRow := ⟨0x00F000088000, 0x40, 512, 0x0, 1, 0, 17, .wo, 0⟩
def QUE_DOORBELL_GEN : RegRow := ⟨0x00F000088000, 0x40, 512, 0x0, 1, 24, 8, .wo, 0⟩
def QUE_CFG_KIND : RegRow := ⟨0x00F000088004, 0x40, 512, 0x0, 1, 0, 2, .ro, 0⟩
def QUE_CFG_PART : RegRow := ⟨0x00F000088004, 0x40, 512, 0x0, 1, 2, 2, .ro, 0⟩
def QUE_CFG_LOG2_SLOTS : RegRow := ⟨0x00F000088004, 0x40, 512, 0x0, 1, 4, 5, .ro, 0⟩
def QUE_CFG_PRODUCER : RegRow := ⟨0x00F000088004, 0x40, 512, 0x0, 1, 9, 3, .ro, 0⟩
def QUE_CFG_THREAD : RegRow := ⟨0x00F000088004, 0x40, 512, 0x0, 1, 12, 6, .ro, 0⟩
def QUE_CFG_CQ : RegRow := ⟨0x00F000088004, 0x40, 512, 0x0, 1, 18, 9, .ro, 0⟩
def QUE_PRIO_PRIORITY : RegRow := ⟨0x00F000088008, 0x40, 512, 0x0, 1, 0, 3, .rw, 0⟩
def QUE_WPTR_WPTR : RegRow := ⟨0x00F00008800C, 0x40, 512, 0x0, 1, 0, 17, .ro, 0⟩
def QUE_RPTR_RPTR : RegRow := ⟨0x00F000088010, 0x40, 512, 0x0, 1, 0, 17, .ro, 0⟩
def QUE_STATE_STATE : RegRow := ⟨0x00F000088014, 0x40, 512, 0x0, 1, 0, 3, .ro, 0⟩
def QUE_STATE_GEN : RegRow := ⟨0x00F000088014, 0x40, 512, 0x0, 1, 8, 8, .ro, 0⟩
def QUE_SEQNO_NEXT : RegRow := ⟨0x00F000088018, 0x40, 512, 0x0, 1, 0, 64, .ro, 0⟩
def QUE_ERR_CODE : RegRow := ⟨0x00F000088020, 0x40, 512, 0x0, 1, 0, 8, .ro, 0⟩
def QUE_ERR_SLOT : RegRow := ⟨0x00F000088020, 0x40, 512, 0x0, 1, 8, 4, .ro, 0⟩
def QUE_ERR_DEPTH : RegRow := ⟨0x00F000088020, 0x40, 512, 0x0, 1, 12, 3, .ro, 0⟩
def QUE_ERR_SEQNO_SEQNO : RegRow := ⟨0x00F000088024, 0x40, 512, 0x0, 1, 0, 64, .ro, 0⟩
def QUE_REJECT_GEN : RegRow := ⟨0x00F00008802C, 0x40, 512, 0x0, 1, 0, 16, .ro, 0⟩
def QUE_REJECT_RANGE : RegRow := ⟨0x00F00008802C, 0x40, 512, 0x0, 1, 16, 16, .ro, 0⟩
def QUE_DISCARD_SLOTS : RegRow := ⟨0x00F000088030, 0x40, 512, 0x0, 1, 0, 32, .ro, 0⟩
def QUE_CQ_STALL_COUNT : RegRow := ⟨0x00F000088034, 0x40, 512, 0x0, 1, 0, 32, .ro, 0⟩

/-! EVT: 04_queues_commands_events.md, Table 4.18. -/

def EVT_READ_SEL_EVENT : RegRow := ⟨0x00F000090000, 0x0, 1, 0x0, 1, 0, 12, .rw, 0⟩
def EVT_READ_SEL_PART : RegRow := ⟨0x00F000090000, 0x0, 1, 0x0, 1, 12, 2, .rw, 0⟩
def EVT_READ_SEL_GLOBAL : RegRow := ⟨0x00F000090000, 0x0, 1, 0x0, 1, 14, 1, .rw, 0⟩
def EVT_READ_DATA_VALUE : RegRow := ⟨0x00F000090004, 0x0, 1, 0x0, 1, 0, 32, .ro, 0⟩
def EVT_OVF_PART : RegRow := ⟨0x00F000090010, 0x0, 1, 0x0, 1, 0, 4, .ro, 0⟩
def EVT_OVF_GLOBAL : RegRow := ⟨0x00F000090010, 0x0, 1, 0x0, 1, 4, 1, .ro, 0⟩
def EVT_OVF_FIRST_EVENT : RegRow := ⟨0x00F000090014, 0x0, 1, 0x0, 1, 0, 12, .ro, 0⟩
def EVT_OVF_FIRST_PART : RegRow := ⟨0x00F000090014, 0x0, 1, 0x0, 1, 12, 2, .ro, 0⟩
def EVT_OVF_FIRST_GLOBAL : RegRow := ⟨0x00F000090014, 0x0, 1, 0x0, 1, 14, 1, .ro, 0⟩
def EVT_OVF_FIRST_VALID : RegRow := ⟨0x00F000090014, 0x0, 1, 0x0, 1, 31, 1, .ro, 0⟩

/-! SEQ: 04_queues_commands_events.md, Table 4.19. -/

def SEQ_STATE_STATE : RegRow := ⟨0x00F0000A1000, 0x40, 64, 0x0, 1, 0, 3, .ro, 0⟩
def SEQ_STATE_QUEUE : RegRow := ⟨0x00F0000A1000, 0x40, 64, 0x0, 1, 3, 9, .ro, 0⟩
def SEQ_STATE_DEPTH : RegRow := ⟨0x00F0000A1000, 0x40, 64, 0x0, 1, 12, 3, .ro, 0⟩
def SEQ_WAIT_EVENT : RegRow := ⟨0x00F0000A1004, 0x40, 64, 0x0, 1, 0, 12, .ro, 0⟩
def SEQ_WAIT_GLOBAL : RegRow := ⟨0x00F0000A1004, 0x40, 64, 0x0, 1, 12, 1, .ro, 0⟩
def SEQ_WAIT_THR_THRESHOLD : RegRow := ⟨0x00F0000A1008, 0x40, 64, 0x0, 1, 0, 32, .ro, 0⟩
def SEQ_LOOP_COUNT : RegRow := ⟨0x00F0000A1010, 0x40, 64, 0x4, 4, 0, 32, .ro, 0⟩
def SEQ_OUTSTANDING_COUNT : RegRow := ⟨0x00F0000A1020, 0x40, 64, 0x0, 1, 0, 5, .ro, 0⟩

/-! PART: 05_partitions_jobs_bandwidth.md, Table 5.11. -/

def PART_BW_DELIV_DELIV : RegRow := ⟨0x00F0000B0000, 0x0, 1, 0x0, 1, 0, 32, .ro, 0⟩
def PART_BW_LIMIT_LIMIT : RegRow := ⟨0x00F0000B0004, 0x0, 1, 0x0, 1, 0, 32, .ro, 0⟩
def PART_BW_SUM_SUM : RegRow := ⟨0x00F0000B0008, 0x0, 1, 0x0, 1, 0, 32, .ro, 0⟩
def PART_BW_CUT_CUT : RegRow := ⟨0x00F0000B000C, 0x0, 1, 0x0, 1, 0, 4, .ro, 0⟩
def PART_BW_CUT_EXHAUST : RegRow := ⟨0x00F0000B000C, 0x0, 1, 0x0, 1, 4, 1, .ro, 0⟩
def PART_CUT_COUNT_COUNT : RegRow := ⟨0x00F0000B0010, 0x0, 1, 0x0, 1, 0, 32, .ro, 0⟩
def PART_SYS_RD_G_G : RegRow := ⟨0x00F0000B0014, 0x0, 1, 0x0, 1, 0, 32, .ro, 0⟩
def PART_SYS_WR_G_G : RegRow := ⟨0x00F0000B0018, 0x0, 1, 0x0, 1, 0, 32, .ro, 0⟩
def PART_INTAKE_ACCEPT_COUNT : RegRow := ⟨0x00F0000B0100, 0x0, 1, 0x0, 1, 0, 32, .ro, 0⟩
def PART_INTAKE_REFUSE_COUNT : RegRow := ⟨0x00F0000B0104, 0x0, 1, 0x0, 1, 0, 32, .ro, 0⟩
def PART_INTAKE_DUP_COUNT : RegRow := ⟨0x00F0000B0108, 0x0, 1, 0x0, 1, 0, 32, .ro, 0⟩
def PART_INTAKE_ORPHAN_COUNT : RegRow := ⟨0x00F0000B010C, 0x0, 1, 0x0, 1, 0, 32, .ro, 0⟩
def PART_INTAKE_LOST_COUNT : RegRow := ⟨0x00F0000B0110, 0x0, 1, 0x0, 1, 0, 32, .ro, 0⟩

/-! PART: 05_partitions_jobs_bandwidth.md, Table 5.12. -/

def PART_CFG_CORES : RegRow := ⟨0x00F0000B1000, 0x100, 4, 0x0, 1, 0, 16, .ro, 0⟩
def PART_CFG_PAIRS : RegRow := ⟨0x00F0000B1000, 0x100, 4, 0x0, 1, 16, 8, .ro, 0⟩
def PART_CFG_CRIT : RegRow := ⟨0x00F0000B1000, 0x100, 4, 0x0, 1, 24, 2, .ro, 0⟩
def PART_CFG_ENABLED : RegRow := ⟨0x00F0000B1000, 0x100, 4, 0x0, 1, 26, 1, .ro, 0⟩
def PART_JOB_ACTIVE : RegRow := ⟨0x00F0000B1004, 0x100, 4, 0x0, 1, 0, 1, .ro, 0⟩
def PART_JOB_QUEUE : RegRow := ⟨0x00F0000B1004, 0x100, 4, 0x0, 1, 1, 9, .ro, 0⟩
def PART_JOB_SEQNO_SEQNO : RegRow := ⟨0x00F0000B1008, 0x100, 4, 0x0, 1, 0, 64, .ro, 0⟩
def PART_JOB_ELAPSED_US : RegRow := ⟨0x00F0000B1010, 0x100, 4, 0x0, 1, 0, 32, .ro, 0⟩
def PART_JOB_BUDGET_US : RegRow := ⟨0x00F0000B1014, 0x100, 4, 0x0, 1, 0, 32, .ro, 0⟩
def PART_JOBS_COUNT : RegRow := ⟨0x00F0000B1018, 0x100, 4, 0x0, 1, 0, 32, .ro, 0⟩
def PART_RD_EFF_G : RegRow := ⟨0x00F0000B1020, 0x100, 4, 0x0, 1, 0, 32, .ro, 0⟩
def PART_WR_EFF_G : RegRow := ⟨0x00F0000B1024, 0x100, 4, 0x0, 1, 0, 32, .ro, 0⟩
def PART_LNK_G_G : RegRow := ⟨0x00F0000B1028, 0x100, 4, 0x0, 1, 0, 32, .ro, 0⟩
def PART_RD_BYTES_BYTES : RegRow := ⟨0x00F0000B1030, 0x100, 4, 0x0, 1, 0, 64, .ro, 0⟩
def PART_WR_BYTES_BYTES : RegRow := ⟨0x00F0000B1038, 0x100, 4, 0x0, 1, 0, 64, .ro, 0⟩
def PART_DL_DL_TIME : RegRow := ⟨0x00F0000B1040, 0x100, 4, 0x0, 1, 0, 10, .ro, 0⟩
def PART_DL_QUIET : RegRow := ⟨0x00F0000B1040, 0x100, 4, 0x0, 1, 10, 1, .ro, 0⟩

/-! VFE: 06_vision_and_range_intake.md, Table 6.12. -/

def VFE_STATUS_RUN : RegRow := ⟨0x00F000200000, 0x0, 1, 0x0, 1, 0, 1, .ro, 0⟩
def VFE_STR_LOAD_PXS : RegRow := ⟨0x00F000200004, 0x0, 1, 0x0, 1, 0, 32, .ro, 0⟩
def VFE_CH_LOAD_CPS : RegRow := ⟨0x00F000200008, 0x0, 1, 0x0, 1, 0, 32, .ro, 0⟩
def VFE_PORT_LINK_SYNC : RegRow := ⟨0x00F000200100, 0x20, 8, 0x0, 1, 0, 1, .ro, 0⟩
def VFE_PORT_LINK_STOP : RegRow := ⟨0x00F000200100, 0x20, 8, 0x0, 1, 1, 1, .ro, 0⟩
def VFE_PORT_ECC_CORR : RegRow := ⟨0x00F000200104, 0x20, 8, 0x0, 1, 0, 16, .ro, 0⟩
def VFE_PORT_ECC_DROP : RegRow := ⟨0x00F000200104, 0x20, 8, 0x0, 1, 16, 16, .ro, 0⟩
def VFE_PORT_CRC_COUNT : RegRow := ⟨0x00F000200108, 0x20, 8, 0x0, 1, 0, 32, .ro, 0⟩
def VFE_PORT_DT_DROP_COUNT : RegRow := ⟨0x00F00020010C, 0x20, 8, 0x0, 1, 0, 32, .ro, 0⟩
def VFE_STR_FRAMES_COUNT : RegRow := ⟨0x00F000201000, 0x40, 16, 0x0, 1, 0, 32, .ro, 0⟩
def VFE_STR_BAD_COUNT : RegRow := ⟨0x00F000201004, 0x40, 16, 0x0, 1, 0, 32, .ro, 0⟩
def VFE_STR_LOST_COUNT : RegRow := ⟨0x00F000201008, 0x40, 16, 0x0, 1, 0, 32, .ro, 0⟩
def VFE_STR_TOF_BREAK_COUNT : RegRow := ⟨0x00F00020100C, 0x40, 16, 0x0, 1, 0, 32, .ro, 0⟩
def VFE_STR_DROP_COUNT : RegRow := ⟨0x00F000201010, 0x40, 16, 0x0, 1, 0, 32, .ro, 0⟩
def VFE_STR_LAST_FS_TIME : RegRow := ⟨0x00F000201018, 0x40, 16, 0x0, 1, 0, 64, .ro, 0⟩
def VFE_CH_ITEMS_COUNT : RegRow := ⟨0x00F000202000, 0x40, 32, 0x0, 1, 0, 32, .ro, 0⟩
def VFE_CH_DROP_COUNT : RegRow := ⟨0x00F000202004, 0x40, 32, 0x0, 1, 0, 32, .ro, 0⟩
def VFE_CH_HELD_BUFS : RegRow := ⟨0x00F000202008, 0x40, 32, 0x0, 1, 0, 8, .ro, 0⟩
def VFE_CH_CROP_XY_X : RegRow := ⟨0x00F00020200C, 0x40, 32, 0x0, 1, 0, 16, .ro, 0⟩
def VFE_CH_CROP_XY_Y : RegRow := ⟨0x00F00020200C, 0x40, 32, 0x0, 1, 16, 16, .ro, 0⟩
def VFE_CH_CROP_WH_W : RegRow := ⟨0x00F000202010, 0x40, 32, 0x0, 1, 0, 16, .ro, 0⟩
def VFE_CH_CROP_WH_H : RegRow := ⟨0x00F000202010, 0x40, 32, 0x0, 1, 16, 16, .ro, 0⟩
def VFE_CH_KAT_FAIL_COUNT : RegRow := ⟨0x00F000202014, 0x40, 32, 0x0, 1, 0, 32, .ro, 0⟩
def VFE_LID_SCANS_COUNT : RegRow := ⟨0x00F000203000, 0x40, 4, 0x0, 1, 0, 32, .ro, 0⟩
def VFE_LID_PARSE_COUNT : RegRow := ⟨0x00F000203004, 0x40, 4, 0x0, 1, 0, 32, .ro, 0⟩
def VFE_LID_DUP_COUNT : RegRow := ⟨0x00F000203008, 0x40, 4, 0x0, 1, 0, 32, .ro, 0⟩
def VFE_LID_LATE_COUNT : RegRow := ⟨0x00F00020300C, 0x40, 4, 0x0, 1, 0, 32, .ro, 0⟩
def VFE_LID_LOST_COUNT : RegRow := ⟨0x00F000203010, 0x40, 4, 0x0, 1, 0, 32, .ro, 0⟩
def VFE_LID_DROP_COUNT : RegRow := ⟨0x00F000203014, 0x40, 4, 0x0, 1, 0, 32, .ro, 0⟩

/-! TC: 07_tensor_core.md, Table 7.10. -/

def TC_STATUS_BUSY : RegRow := ⟨0x00F000100000, 0x10000, 16, 0x0, 1, 0, 1, .ro, 0⟩
def TC_STATUS_POWERED : RegRow := ⟨0x00F000100000, 0x10000, 16, 0x0, 1, 1, 1, .ro, 0⟩
def TC_STATUS_IN_PART : RegRow := ⟨0x00F000100000, 0x10000, 16, 0x0, 1, 2, 1, .ro, 0⟩
def TC_GATE_ROWGRP : RegRow := ⟨0x00F000100004, 0x10000, 16, 0x0, 1, 0, 5, .ro, 0⟩
def TC_GATE_COLGRP : RegRow := ⟨0x00F000100004, 0x10000, 16, 0x0, 1, 8, 5, .ro, 0⟩
def TC_CHK_TOL_FAC : RegRow := ⟨0x00F000100010, 0x10000, 16, 0x8, 4, 0, 8, .rws, 16⟩
def TC_CHK_ABS_ABS : RegRow := ⟨0x00F000100014, 0x10000, 16, 0x8, 4, 0, 32, .rws, 0⟩
def TC_CHK_ROWS_COUNT : RegRow := ⟨0x00F000100030, 0x10000, 16, 0x0, 1, 0, 64, .ro, 0⟩
def TC_CHK_FAIL_COUNT : RegRow := ⟨0x00F000100038, 0x10000, 16, 0x0, 1, 0, 32, .ro, 0⟩
def TC_CHK_NONFINITE_COUNT : RegRow := ⟨0x00F00010003C, 0x10000, 16, 0x0, 1, 0, 32, .ro, 0⟩
def TC_CHK_WORST_RATIO : RegRow := ⟨0x00F000100040, 0x10000, 16, 0x0, 1, 0, 32, .ro, 0⟩
def TC_VEC_RESIDUE_COUNT : RegRow := ⟨0x00F000100044, 0x10000, 16, 0x0, 1, 0, 32, .ro, 0⟩
def TC_SELFTEST_RUNS : RegRow := ⟨0x00F000100048, 0x10000, 16, 0x0, 1, 0, 16, .ro, 0⟩
def TC_SELFTEST_FAILS : RegRow := ⟨0x00F000100048, 0x10000, 16, 0x0, 1, 16, 16, .ro, 0⟩
def TC_LAST_ERR_DETAIL : RegRow := ⟨0x00F00010004C, 0x10000, 16, 0x0, 1, 0, 64, .ro, 0⟩

/-! TC: 08_convolution_mapping.md, Table 8.7. -/

def TC_XFORM_PARITY : RegRow := ⟨0x00F000100060, 0x10000, 16, 0x0, 1, 0, 16, .ro, 0⟩
def TC_XFORM_KAT_FAIL : RegRow := ⟨0x00F000100060, 0x10000, 16, 0x0, 1, 16, 16, .ro, 0⟩
def TC_KAT_RUNS_COUNT : RegRow := ⟨0x00F000100064, 0x10000, 16, 0x0, 1, 0, 32, .ro, 0⟩
def TC_FEED_MISMATCH_COUNT : RegRow := ⟨0x00F000100068, 0x10000, 16, 0x0, 1, 0, 32, .ro, 0⟩
def TC_HALO_BYTES_BYTES : RegRow := ⟨0x00F00010006C, 0x10000, 16, 0x0, 1, 0, 64, .ro, 0⟩
def TC_HALO_WAIT_WAIT : RegRow := ⟨0x00F000100074, 0x10000, 16, 0x0, 1, 0, 1, .ro, 0⟩

/-! TC: 09_memory_scratchpad_dram.md, Table 9.10. -/

def TC_SCRUB_PASSES : RegRow := ⟨0x00F000100080, 0x10000, 16, 0x0, 1, 0, 16, .ro, 0⟩
def TC_SCRUB_FORCED : RegRow := ⟨0x00F000100080, 0x10000, 16, 0x0, 1, 16, 16, .ro, 0⟩
def TC_ECC_CE : RegRow := ⟨0x00F000100084, 0x10000, 16, 0x0, 1, 0, 16, .ro, 0⟩
def TC_ECC_UE : RegRow := ⟨0x00F000100084, 0x10000, 16, 0x0, 1, 16, 16, .ro, 0⟩
def TC_LAST_UE_OFFSET : RegRow := ⟨0x00F000100088, 0x10000, 16, 0x0, 1, 0, 23, .ro, 0⟩

/-! MEMC: 09_memory_scratchpad_dram.md, Table 9.11. -/

def MEMC_CFG_SPEED : RegRow := ⟨0x00F000300000, 0x0, 1, 0x0, 1, 0, 3, .rws, 4⟩
def MEMC_CFG_DENSITY : RegRow := ⟨0x00F000300000, 0x0, 1, 0x0, 1, 4, 2, .rws, 0⟩
def MEMC_CFG_PATROL : RegRow := ⟨0x00F000300000, 0x0, 1, 0x0, 1, 16, 16, .rws, 100⟩
def MEMC_SRAM_CE_LIMIT_LIMIT : RegRow := ⟨0x00F000300004, 0x0, 1, 0x0, 1, 0, 16, .rws, 1000⟩
def MEMC_STATUS_TRAINED : RegRow := ⟨0x00F000300010, 0x0, 1, 0x0, 1, 0, 1, .ro, 0⟩
def MEMC_STATUS_RATE : RegRow := ⟨0x00F000300010, 0x0, 1, 0x0, 1, 1, 2, .ro, 0⟩
def MEMC_STATUS_ECC_ANY : RegRow := ⟨0x00F000300010, 0x0, 1, 0x0, 1, 3, 1, .ro, 0⟩
def MEMC_RATE_CHANGES_COUNT : RegRow := ⟨0x00F000300014, 0x0, 1, 0x0, 1, 0, 32, .ro, 0⟩
def MEMC_IECC_CE : RegRow := ⟨0x00F000300018, 0x0, 1, 0x0, 1, 0, 16, .ro, 0⟩
def MEMC_IECC_UE : RegRow := ⟨0x00F000300018, 0x0, 1, 0x0, 1, 16, 16, .ro, 0⟩
def MEMC_LINK_RETRY_COUNT : RegRow := ⟨0x00F00030001C, 0x0, 1, 0x0, 1, 0, 32, .ro, 0⟩
def MEMC_LINK_FAIL_COUNT : RegRow := ⟨0x00F000300020, 0x0, 1, 0x0, 1, 0, 32, .ro, 0⟩
def MEMC_LAST_UE_ADDR_ADDR : RegRow := ⟨0x00F000300028, 0x0, 1, 0x0, 1, 0, 48, .ro, 0⟩
def MEMC_PATROL_PASSES_COUNT : RegRow := ⟨0x00F000300030, 0x0, 1, 0x0, 1, 0, 32, .ro, 0⟩
def MEMC_CH_RATE_RATE : RegRow := ⟨0x00F000300100, 0x4, 32, 0x0, 1, 0, 2, .ro, 0⟩
def MEMC_SRAM_SCRUB_PASSES : RegRow := ⟨0x00F000308000, 0x10, 18, 0x0, 1, 0, 16, .ro, 0⟩
def MEMC_SRAM_SCRUB_FORCED : RegRow := ⟨0x00F000308000, 0x10, 18, 0x0, 1, 16, 16, .ro, 0⟩
def MEMC_SRAM_ECC_CE : RegRow := ⟨0x00F000308004, 0x10, 18, 0x0, 1, 0, 16, .ro, 0⟩
def MEMC_SRAM_ECC_UE : RegRow := ⟨0x00F000308004, 0x10, 18, 0x0, 1, 16, 16, .ro, 0⟩
def MEMC_SRAM_LAST_UE_OFFSET : RegRow := ⟨0x00F000308008, 0x10, 18, 0x0, 1, 0, 24, .ro, 0⟩

/-! EMB: 10_embedding_engine.md, Table 10.6. -/

def EMB_STATUS_BUSY : RegRow := ⟨0x00F000210000, 0x0, 1, 0x0, 1, 0, 1, .ro, 0⟩
def EMB_STATUS_PART : RegRow := ⟨0x00F000210000, 0x0, 1, 0x0, 1, 1, 2, .ro, 0⟩
def EMB_ROWS_READ_COUNT : RegRow := ⟨0x00F000210008, 0x0, 1, 0x0, 1, 0, 64, .ro, 0⟩
def EMB_HOT_READ_COUNT : RegRow := ⟨0x00F000210010, 0x0, 1, 0x0, 1, 0, 64, .ro, 0⟩
def EMB_OOB_COUNT : RegRow := ⟨0x00F000210018, 0x0, 1, 0x0, 1, 0, 32, .ro, 0⟩
def EMB_ADDR_MISMATCH_COUNT : RegRow := ⟨0x00F00021001C, 0x0, 1, 0x0, 1, 0, 32, .ro, 0⟩
def EMB_RESIDUE_COUNT : RegRow := ⟨0x00F000210020, 0x0, 1, 0x0, 1, 0, 32, .ro, 0⟩
def EMB_DESC_LO_BASE_LO : RegRow := ⟨0x00F000210100, 0x10, 4, 0x0, 1, 0, 32, .rws, 0⟩
def EMB_DESC_HI_BASE_HI : RegRow := ⟨0x00F000210104, 0x10, 4, 0x0, 1, 0, 16, .rws, 0⟩
def EMB_DESC_HI_COUNT : RegRow := ⟨0x00F000210104, 0x10, 4, 0x0, 1, 16, 7, .rws, 0⟩

/-! SEL: 11_select_engine.md, Table 11.8. -/

def SEL_STATUS_BUSY : RegRow := ⟨0x00F000220000, 0x0, 1, 0x0, 1, 0, 1, .ro, 0⟩
def SEL_STATUS_PART : RegRow := ⟨0x00F000220000, 0x0, 1, 0x0, 1, 1, 2, .ro, 0⟩
def SEL_STATUS_XM_WAIT : RegRow := ⟨0x00F000220000, 0x0, 1, 0x0, 1, 3, 1, .ro, 0⟩
def SEL_ELEMENTS_COUNT : RegRow := ⟨0x00F000220008, 0x0, 1, 0x0, 1, 0, 64, .ro, 0⟩
def SEL_DRAWS_COUNT : RegRow := ⟨0x00F000220010, 0x0, 1, 0x0, 1, 0, 64, .ro, 0⟩
def SEL_NAN_ROWS_COUNT : RegRow := ⟨0x00F000220018, 0x0, 1, 0x0, 1, 0, 32, .ro, 0⟩
def SEL_EMPTY_ROWS_COUNT : RegRow := ⟨0x00F00022001C, 0x0, 1, 0x0, 1, 0, 32, .ro, 0⟩
def SEL_CHECK_FAIL_COUNT : RegRow := ⟨0x00F000220020, 0x0, 1, 0x0, 1, 0, 32, .ro, 0⟩
def SEL_XM_DONE_COUNT : RegRow := ⟨0x00F000220024, 0x0, 1, 0x0, 1, 0, 32, .ro, 0⟩
def SEL_XM_TIMEOUT_COUNT : RegRow := ⟨0x00F000220028, 0x0, 1, 0x0, 1, 0, 32, .ro, 0⟩
def SEL_XM_DROP_COUNT : RegRow := ⟨0x00F00022002C, 0x0, 1, 0x0, 1, 0, 32, .ro, 0⟩
def SEL_STREAM_RANGE_FIRST : RegRow := ⟨0x00F000220100, 0x4, 4, 0x0, 1, 0, 7, .rws, 0⟩
def SEL_STREAM_RANGE_COUNT : RegRow := ⟨0x00F000220100, 0x4, 4, 0x0, 1, 8, 8, .rws, 0⟩
def SEL_STREAM_VALID_BITS : RegRow := ⟨0x00F000220200, 0x4, 4, 0x0, 1, 0, 32, .ro, 0⟩

/-! TOK: 12_comet_token_engine.md, Table 12.16. -/

def TOK_STATUS_LANE_BUSY : RegRow := ⟨0x00F000230000, 0x0, 1, 0x0, 1, 0, 4, .ro, 0⟩
def TOK_STATUS_SLOT_BUSY : RegRow := ⟨0x00F000230000, 0x0, 1, 0x0, 1, 4, 1, .ro, 0⟩
def TOK_BYTES_IN_COUNT : RegRow := ⟨0x00F000230008, 0x0, 1, 0x0, 1, 0, 64, .ro, 0⟩
def TOK_TOKENS_OUT_COUNT : RegRow := ⟨0x00F000230010, 0x0, 1, 0x0, 1, 0, 64, .ro, 0⟩
def TOK_INPUT_CUT_COUNT : RegRow := ⟨0x00F000230018, 0x0, 1, 0x0, 1, 0, 32, .ro, 0⟩
def TOK_TOKENS_CUT_COUNT : RegRow := ⟨0x00F00023001C, 0x0, 1, 0x0, 1, 0, 32, .ro, 0⟩
def TOK_REPLACED_COUNT : RegRow := ⟨0x00F000230020, 0x0, 1, 0x0, 1, 0, 32, .ro, 0⟩
def TOK_DEAD_COUNT : RegRow := ⟨0x00F000230024, 0x0, 1, 0x0, 1, 0, 32, .ro, 0⟩
def TOK_FORCED_COUNT : RegRow := ⟨0x00F000230028, 0x0, 1, 0x0, 1, 0, 32, .ro, 0⟩
def TOK_VIOLATION_COUNT : RegRow := ⟨0x00F00023002C, 0x0, 1, 0x0, 1, 0, 32, .ro, 0⟩
def TOK_STALE_COUNT : RegRow := ⟨0x00F000230030, 0x0, 1, 0x0, 1, 0, 32, .ro, 0⟩
def TOK_TABLE_ERR_COUNT : RegRow := ⟨0x00F000230034, 0x0, 1, 0x0, 1, 0, 32, .ro, 0⟩
def TOK_SLOT_RANGE_FIRST : RegRow := ⟨0x00F000230100, 0x4, 4, 0x0, 1, 0, 7, .rws, 0⟩
def TOK_SLOT_RANGE_COUNT : RegRow := ⟨0x00F000230100, 0x4, 4, 0x0, 1, 8, 8, .rws, 0⟩
def TOK_SLOT_CTRL_ACTIVE : RegRow := ⟨0x00F000231000, 0x10, 128, 0x0, 1, 0, 1, .ro, 0⟩
def TOK_SLOT_CTRL_FINISHED : RegRow := ⟨0x00F000231000, 0x10, 128, 0x0, 1, 1, 1, .ro, 0⟩
def TOK_SLOT_CTRL_REASON : RegRow := ⟨0x00F000231000, 0x10, 128, 0x0, 1, 2, 3, .ro, 0⟩
def TOK_SLOT_CTRL_VOCAB : RegRow := ⟨0x00F000231000, 0x10, 128, 0x0, 1, 5, 3, .ro, 0⟩
def TOK_SLOT_CTRL_GRAMMAR : RegRow := ⟨0x00F000231000, 0x10, 128, 0x0, 1, 8, 7, .ro, 0⟩
def TOK_SLOT_CTRL_EPOCH : RegRow := ⟨0x00F000231000, 0x10, 128, 0x0, 1, 16, 16, .ro, 0⟩
def TOK_SLOT_SEQ_STATE : RegRow := ⟨0x00F000231004, 0x10, 128, 0x0, 1, 0, 16, .ro, 0⟩
def TOK_SLOT_SEQ_COUNT : RegRow := ⟨0x00F000231004, 0x10, 128, 0x0, 1, 16, 16, .ro, 0⟩
def TOK_SLOT_OUT_USED : RegRow := ⟨0x00F000231008, 0x10, 128, 0x0, 1, 0, 32, .ro, 0⟩
def TOK_SLOT_HOLD_BYTES : RegRow := ⟨0x00F00023100C, 0x10, 128, 0x0, 1, 0, 24, .ro, 0⟩
def TOK_SLOT_HOLD_N : RegRow := ⟨0x00F00023100C, 0x10, 128, 0x0, 1, 24, 2, .ro, 0⟩

/-! ACU: 13_acoustic_engine.md, Table 13.14. -/

def ACU_STATUS_SP_RUN : RegRow := ⟨0x00F000240000, 0x0, 1, 0x0, 1, 0, 1, .ro, 0⟩
def ACU_STATUS_BP_RUN : RegRow := ⟨0x00F000240000, 0x0, 1, 0x0, 1, 1, 1, .ro, 0⟩
def ACU_STATUS_LOCKED : RegRow := ⟨0x00F000240000, 0x0, 1, 0x0, 1, 2, 1, .ro, 0⟩
def ACU_STATUS_ANC_STATE : RegRow := ⟨0x00F000240000, 0x0, 1, 0x0, 1, 3, 2, .ro, 0⟩
def ACU_STATUS_ANC_CAUSE : RegRow := ⟨0x00F000240000, 0x0, 1, 0x0, 1, 8, 8, .ro, 0⟩
def ACU_MUTE_A : RegRow := ⟨0x00F000240004, 0x0, 1, 0x0, 1, 0, 1, .ro, 0⟩
def ACU_MUTE_B : RegRow := ⟨0x00F000240004, 0x0, 1, 0x0, 1, 1, 1, .ro, 0⟩
def ACU_MUTE_MUTED : RegRow := ⟨0x00F000240004, 0x0, 1, 0x0, 1, 2, 1, .ro, 0⟩
def ACU_MUTE_DISC : RegRow := ⟨0x00F000240004, 0x0, 1, 0x0, 1, 3, 1, .ro, 0⟩
def ACU_DUCK_GAIN : RegRow := ⟨0x00F000240008, 0x0, 1, 0x0, 1, 0, 16, .ro, 0⟩
def ACU_GOV_TRIPS_COUNT : RegRow := ⟨0x00F000240010, 0x0, 1, 0x0, 1, 0, 32, .ro, 0⟩
def ACU_DIV_TRIPS_COUNT : RegRow := ⟨0x00F000240014, 0x0, 1, 0x0, 1, 0, 32, .ro, 0⟩
def ACU_RESIDUE_COUNT : RegRow := ⟨0x00F000240018, 0x0, 1, 0x0, 1, 0, 32, .ro, 0⟩
def ACU_DEADLINE_COUNT : RegRow := ⟨0x00F00024001C, 0x0, 1, 0x0, 1, 0, 32, .ro, 0⟩
def ACU_READBACK_COUNT : RegRow := ⟨0x00F000240020, 0x0, 1, 0x0, 1, 0, 32, .ro, 0⟩
def ACU_DISC_FAULTS_COUNT : RegRow := ⟨0x00F000240024, 0x0, 1, 0x0, 1, 0, 32, .ro, 0⟩
def ACU_MUTES_COUNT : RegRow := ⟨0x00F000240028, 0x0, 1, 0x0, 1, 0, 32, .ro, 0⟩
def ACU_RATE_CHANGES_COUNT : RegRow := ⟨0x00F00024002C, 0x0, 1, 0x0, 1, 0, 32, .ro, 0⟩
def ACU_PORT_STAT_LOCKED : RegRow := ⟨0x00F000240100, 0x10, 6, 0x0, 1, 0, 1, .ro, 0⟩
def ACU_PORT_STAT_ALT : RegRow := ⟨0x00F000240100, 0x10, 6, 0x0, 1, 1, 1, .ro, 0⟩
def ACU_PORT_STAT_CHANGING : RegRow := ⟨0x00F000240100, 0x10, 6, 0x0, 1, 2, 1, .ro, 0⟩
def ACU_PORT_STAT_FAULT : RegRow := ⟨0x00F000240100, 0x10, 6, 0x0, 1, 3, 1, .ro, 0⟩
def ACU_PORT_FAULTS_COUNT : RegRow := ⟨0x00F000240104, 0x10, 6, 0x0, 1, 0, 32, .ro, 0⟩
def ACU_GOV_PEAK_COUNT : RegRow := ⟨0x00F000240200, 0x10, 96, 0x0, 1, 0, 32, .ro, 0⟩
def ACU_GOV_MS_M : RegRow := ⟨0x00F000240204, 0x10, 96, 0x0, 1, 0, 32, .ro, 0⟩
def ACU_CAP_HOPS_COUNT : RegRow := ⟨0x00F000241000, 0x20, 4, 0x0, 1, 0, 32, .ro, 0⟩
def ACU_CAP_DROP_COUNT : RegRow := ⟨0x00F000241004, 0x20, 4, 0x0, 1, 0, 32, .ro, 0⟩
def ACU_CAP_QDROP_COUNT : RegRow := ⟨0x00F000241008, 0x20, 4, 0x0, 1, 0, 32, .ro, 0⟩
def ACU_CAP_HELD_BUFS : RegRow := ⟨0x00F00024100C, 0x20, 4, 0x0, 1, 0, 8, .ro, 0⟩
def ACU_PLAY_HOPS_COUNT : RegRow := ⟨0x00F000241100, 0x20, 8, 0x0, 1, 0, 32, .ro, 0⟩
def ACU_PLAY_GAP_COUNT : RegRow := ⟨0x00F000241104, 0x20, 8, 0x0, 1, 0, 32, .ro, 0⟩
def ACU_PLAY_OVERLAP_COUNT : RegRow := ⟨0x00F000241108, 0x20, 8, 0x0, 1, 0, 32, .ro, 0⟩
def ACU_PLAY_LATE_COUNT : RegRow := ⟨0x00F00024110C, 0x20, 8, 0x0, 1, 0, 32, .ro, 0⟩
def ACU_PLAY_FULL_COUNT : RegRow := ⟨0x00F000241110, 0x20, 8, 0x0, 1, 0, 32, .ro, 0⟩

/-! MTR: 14_tide_metering.md, Table 14.16. -/

def MTR_STATUS_RUN : RegRow := ⟨0x00F000250000, 0x0, 1, 0x0, 1, 0, 1, .ro, 0⟩
def MTR_STATUS_MAINS_LOCK : RegRow := ⟨0x00F000250000, 0x0, 1, 0x0, 1, 1, 1, .ro, 0⟩
def MTR_STATUS_MCLK_FAULT : RegRow := ⟨0x00F000250000, 0x0, 1, 0x0, 1, 2, 1, .ro, 0⟩
def MTR_STATUS_TOTALS_LOST : RegRow := ⟨0x00F000250000, 0x0, 1, 0x0, 1, 3, 1, .ro, 0⟩
def MTR_STATUS_CH_FAULT : RegRow := ⟨0x00F000250000, 0x0, 1, 0x0, 1, 4, 10, .ro, 0⟩
def MTR_STATUS_ON_BACKUP : RegRow := ⟨0x00F000250000, 0x0, 1, 0x0, 1, 14, 1, .ro, 0⟩
def MTR_STATUS_PULSE_OVERRUN : RegRow := ⟨0x00F000250000, 0x0, 1, 0x0, 1, 15, 2, .ro, 0⟩
def MTR_STATUS_PAIR_HIGH : RegRow := ⟨0x00F000250000, 0x0, 1, 0x0, 1, 17, 2, .ro, 0⟩
def MTR_SEAL_CRC : RegRow := ⟨0x00F000250004, 0x0, 1, 0x0, 1, 0, 32, .ro, 0⟩
def MTR_LATCH_CFG_NCYC : RegRow := ⟨0x00F000250008, 0x0, 1, 0x0, 1, 0, 16, .ro, 0⟩
def MTR_LATCH_CFG_WIRING : RegRow := ⟨0x00F000250008, 0x0, 1, 0x0, 1, 16, 2, .ro, 0⟩
def MTR_LATCH_CFG_F_NOM : RegRow := ⟨0x00F000250008, 0x0, 1, 0x0, 1, 18, 1, .ro, 0⟩
def MTR_FREQ_MHZ : RegRow := ⟨0x00F00025000C, 0x0, 1, 0x0, 1, 0, 32, .ro, 0⟩
def MTR_LATCH_SEQ_COUNT : RegRow := ⟨0x00F000250010, 0x0, 1, 0x0, 1, 0, 64, .ro, 0⟩
def MTR_LATCH_CYC_COUNT : RegRow := ⟨0x00F000250018, 0x0, 1, 0x0, 1, 0, 16, .ro, 0⟩
def MTR_COMMITS_COUNT : RegRow := ⟨0x00F00025001C, 0x0, 1, 0x0, 1, 0, 32, .ro, 0⟩
def MTR_LOSS_COMMITS_COUNT : RegRow := ⟨0x00F000250020, 0x0, 1, 0x0, 1, 0, 32, .ro, 0⟩
def MTR_EVT_COUNT_COUNT : RegRow := ⟨0x00F000250024, 0x0, 1, 0x0, 1, 0, 32, .ro, 0⟩
def MTR_POWERUPS_COUNT : RegRow := ⟨0x00F000250028, 0x0, 1, 0x0, 1, 0, 32, .ro, 0⟩
def MTR_RANGE_SWITCHES_COUNT : RegRow := ⟨0x00F00025002C, 0x0, 1, 0x0, 1, 0, 32, .ro, 0⟩
def MTR_E_NWH : RegRow := ⟨0x00F000250100, 0x10, 20, 0x0, 1, 0, 96, .ro, 0⟩
def MTR_PCNT_COUNT : RegRow := ⟨0x00F000250300, 0x8, 4, 0x0, 1, 0, 64, .ro, 0⟩

/-! SAFE: 15_safety_mechanisms.md, Table 15.4. -/

def SAFE_STATUS_LATCH : RegRow := ⟨0x00F000020000, 0x0, 1, 0x0, 1, 0, 1, .ro, 0⟩
def SAFE_STATUS_FAULT_PIN : RegRow := ⟨0x00F000020000, 0x0, 1, 0x0, 1, 1, 1, .ro, 0⟩
def SAFE_STATUS_HB_PIN : RegRow := ⟨0x00F000020000, 0x0, 1, 0x0, 1, 2, 1, .ro, 0⟩
def SAFE_STATUS_ISLAND_RESTARTED : RegRow := ⟨0x00F000020000, 0x0, 1, 0x0, 1, 3, 1, .ro, 0⟩
def SAFE_LAST_SOURCE : RegRow := ⟨0x00F000020004, 0x0, 1, 0x0, 1, 0, 8, .ro, 0⟩
def SAFE_LAST_INSTANCE : RegRow := ⟨0x00F000020004, 0x0, 1, 0x0, 1, 16, 9, .ro, 0⟩
def SAFE_LAST_TIME_TIME : RegRow := ⟨0x00F000020008, 0x0, 1, 0x0, 1, 0, 64, .ro, 0⟩
def SAFE_RECORDS_COUNT : RegRow := ⟨0x00F000020010, 0x0, 1, 0x0, 1, 0, 32, .ro, 0⟩
def SAFE_ECLIPSE_TEST_PASSED : RegRow := ⟨0x00F000020014, 0x0, 1, 0x0, 1, 0, 9, .ro, 0⟩
def SAFE_FAULT_CFG_REACT : RegRow := ⟨0x00F000020100, 0x4, 256, 0x0, 1, 0, 2, .rws, 0⟩
def SAFE_FAULT_CFG_DEFINED : RegRow := ⟨0x00F000020100, 0x4, 256, 0x0, 1, 2, 1, .ro, 0⟩
def SAFE_FAULT_CFG_CLASS : RegRow := ⟨0x00F000020100, 0x4, 256, 0x0, 1, 3, 2, .ro, 0⟩
def SAFE_FAULT_COUNT_COUNT : RegRow := ⟨0x00F000020500, 0x4, 256, 0x0, 1, 0, 16, .ro, 0⟩
def SAFE_PAIR_CFG_MODE : RegRow := ⟨0x00F000020900, 0x10, 8, 0x0, 1, 0, 2, .rws, 0⟩
def SAFE_PAIR_CFG_SPLIT_EVT : RegRow := ⟨0x00F000020900, 0x10, 8, 0x0, 1, 4, 12, .rws, 0⟩
def SAFE_PAIR_STAT_SPLIT : RegRow := ⟨0x00F000020904, 0x10, 8, 0x0, 1, 0, 1, .ro, 0⟩
def SAFE_PAIR_STAT_PAUSING : RegRow := ⟨0x00F000020904, 0x10, 8, 0x0, 1, 1, 1, .ro, 0⟩
def SAFE_PAIR_STAT_MISMATCH : RegRow := ⟨0x00F000020904, 0x10, 8, 0x0, 1, 2, 1, .ro, 0⟩
def SAFE_SPLIT_TIME_TIME : RegRow := ⟨0x00F000020908, 0x10, 8, 0x0, 1, 0, 64, .ro, 0⟩

/-! RST: 16_reset_and_recovery.md, Table 16.10. -/

def RST_CFG_ESC_M : RegRow := ⟨0x00F000030000, 0x0, 1, 0x0, 1, 0, 4, .rws, 3⟩
def RST_CFG_ESC_W : RegRow := ⟨0x00F000030000, 0x0, 1, 0x0, 1, 16, 12, .rws, 600⟩
def RST_WD_CFG_THREAD_US : RegRow := ⟨0x00F000030004, 0x0, 1, 0x0, 1, 0, 10, .rws, 100⟩
def RST_WD_CFG_NET_US : RegRow := ⟨0x00F000030004, 0x0, 1, 0x0, 1, 16, 14, .rws, 1000⟩
def RST_STATUS_ASSERTED : RegRow := ⟨0x00F000030008, 0x0, 1, 0x0, 1, 0, 1, .ro, 0⟩
def RST_STATUS_HELD : RegRow := ⟨0x00F000030008, 0x0, 1, 0x0, 1, 1, 1, .ro, 0⟩
def RST_STATUS_ESC_COUNT : RegRow := ⟨0x00F000030008, 0x0, 1, 0x0, 1, 2, 4, .ro, 0⟩
def RST_COUNTS_RESETS : RegRow := ⟨0x00F00003000C, 0x0, 1, 0x0, 1, 0, 16, .ro, 0⟩
def RST_COUNTS_SUPERSEDED : RegRow := ⟨0x00F00003000C, 0x0, 1, 0x0, 1, 16, 16, .ro, 0⟩
def RST_LAST_CAUSE_SOURCE : RegRow := ⟨0x00F000030010, 0x0, 1, 0x0, 1, 0, 8, .ro, 0⟩
def RST_LAST_CAUSE_INSTANCE : RegRow := ⟨0x00F000030010, 0x0, 1, 0x0, 1, 16, 9, .ro, 0⟩
def RST_LAST_TIME_TIME : RegRow := ⟨0x00F000030018, 0x0, 1, 0x0, 1, 0, 64, .ro, 0⟩
def RST_LATE_RESP_COUNT : RegRow := ⟨0x00F000030020, 0x0, 1, 0x0, 1, 0, 32, .ro, 0⟩
def RST_PLOG_COUNT_NEXT : RegRow := ⟨0x00F000030030, 0x0, 1, 0x0, 1, 0, 32, .ro, 0⟩
def RST_ESC_TIME_TIME : RegRow := ⟨0x00F000030040, 0x8, 15, 0x0, 1, 0, 64, .ro, 0⟩
def RST_LAST_JOB_ACTIVE : RegRow := ⟨0x00F000030100, 0x10, 4, 0x0, 1, 0, 1, .ro, 0⟩
def RST_LAST_JOB_QUEUE : RegRow := ⟨0x00F000030100, 0x10, 4, 0x0, 1, 1, 9, .ro, 0⟩
def RST_LAST_ELAPSED_US : RegRow := ⟨0x00F000030104, 0x10, 4, 0x0, 1, 0, 32, .ro, 0⟩
def RST_PLOG_LAST_ENTRY : RegRow := ⟨0x00F000031000, 0x20, 16, 0x0, 1, 0, 256, .ro, 0⟩

/-! ETH: 17_external_interfaces.md, Table 17.18. -/

def ETH_STATUS_UP : RegRow := ⟨0x00F000400000, 0x100, 2, 0x0, 1, 0, 1, .ro, 0⟩
def ETH_STATUS_MODE : RegRow := ⟨0x00F000400000, 0x100, 2, 0x0, 1, 1, 2, .ro, 0⟩
def ETH_RX_DROP_RX_DROP : RegRow := ⟨0x00F000400004, 0x100, 2, 0x0, 1, 0, 32, .ro, 0⟩
def ETH_RX_MALFORMED_RX_MALFORMED : RegRow := ⟨0x00F000400008, 0x100, 2, 0x0, 1, 0, 32, .ro, 0⟩
def ETH_RX_BUSY_RX_BUSY : RegRow := ⟨0x00F00040000C, 0x100, 2, 0x0, 1, 0, 32, .ro, 0⟩
def ETH_REASM_FULL_REASM_FULL : RegRow := ⟨0x00F000400010, 0x100, 2, 0x0, 1, 0, 16, .ro, 0⟩
def ETH_REASM_TIMEOUT_REASM_TIMEOUT : RegRow := ⟨0x00F000400010, 0x100, 2, 0x0, 1, 16, 16, .ro, 0⟩
def ETH_TX_DROP_TX_DROP : RegRow := ⟨0x00F000400014, 0x100, 2, 0x0, 1, 0, 32, .ro, 0⟩
def ETH_RX_HOLD_DROP_RX_HOLD_DROP : RegRow := ⟨0x00F000400018, 0x100, 2, 0x0, 1, 0, 32, .ro, 0⟩
def ETH_LID_DROP_LID_DROP : RegRow := ⟨0x00F000400200, 0x4, 4, 0x0, 1, 0, 32, .ro, 0⟩

/-! PCIE: 17_external_interfaces.md, Table 17.18. -/

def PCIE_STATUS_UP : RegRow := ⟨0x00F000410000, 0x0, 1, 0x0, 1, 0, 1, .ro, 0⟩
def PCIE_STATUS_GEN : RegRow := ⟨0x00F000410000, 0x0, 1, 0x0, 1, 1, 3, .ro, 0⟩
def PCIE_STATUS_WIDTH : RegRow := ⟨0x00F000410000, 0x0, 1, 0x0, 1, 4, 3, .ro, 0⟩
def PCIE_DB_IGNORED_DB_IGNORED : RegRow := ⟨0x00F000410004, 0x0, 1, 0x0, 1, 0, 16, .ro, 0⟩
def PCIE_TX_DROP_TX_DROP : RegRow := ⟨0x00F000410004, 0x0, 1, 0x0, 1, 16, 16, .ro, 0⟩

/-! CAN: 17_external_interfaces.md, Table 17.18. -/

def CAN_STATUS_STATUS : RegRow := ⟨0x00F000420000, 0x10, 4, 0x0, 1, 0, 2, .ro, 0⟩
def CAN_BUS_OFF_BUS_OFF : RegRow := ⟨0x00F000420004, 0x10, 4, 0x0, 1, 0, 16, .ro, 0⟩
def CAN_RX_MALFORMED_RX_MALFORMED : RegRow := ⟨0x00F000420004, 0x10, 4, 0x0, 1, 16, 16, .ro, 0⟩
def CAN_RX_BUSY_RX_BUSY : RegRow := ⟨0x00F000420008, 0x10, 4, 0x0, 1, 0, 16, .ro, 0⟩
def CAN_TX_DROP_TX_DROP : RegRow := ⟨0x00F000420008, 0x10, 4, 0x0, 1, 16, 16, .ro, 0⟩

/-! LINK: 17_external_interfaces.md, Table 17.18. -/

def LINK_STATE_STATE : RegRow := ⟨0x00F000430000, 0x10, 2, 0x0, 1, 0, 3, .ro, 0⟩
def LINK_RETRAINS_RETRAINS : RegRow := ⟨0x00F000430004, 0x10, 2, 0x0, 1, 0, 16, .ro, 0⟩
def LINK_REPLAYS_REPLAYS : RegRow := ⟨0x00F000430004, 0x10, 2, 0x0, 1, 16, 16, .ro, 0⟩
def LINK_CRC_ERR_CRC_ERR : RegRow := ⟨0x00F000430008, 0x10, 2, 0x0, 1, 0, 32, .ro, 0⟩
def LINK_NO_ROUTE_NO_ROUTE : RegRow := ⟨0x00F000430100, 0x0, 1, 0x0, 1, 0, 32, .ro, 0⟩

/-! NVM: 17_external_interfaces.md, Table 17.18. -/

def NVM_UFS_BYTES_UFS_BYTES : RegRow := ⟨0x00F000440000, 0x0, 1, 0x0, 1, 0, 64, .ro, 0⟩
def NVM_UFS_RETRIES_UFS_RETRIES : RegRow := ⟨0x00F000440008, 0x0, 1, 0x0, 1, 0, 32, .ro, 0⟩

/-! SIO: 17_external_interfaces.md, Table 17.18. -/

def SIO_I2C_NACK_I2C_NACK : RegRow := ⟨0x00F000450000, 0x4, 4, 0x0, 1, 0, 32, .ro, 0⟩
def SIO_GPIO_IN_GPIO_IN : RegRow := ⟨0x00F000450010, 0x0, 1, 0x0, 1, 0, 32, .ro, 0⟩

/-! PWR: 18_supplies_power_clocks.md, Table 18.6. -/

def PWR_AON_MAIN_VALID : RegRow := ⟨0x00F000040000, 0x0, 1, 0x0, 1, 0, 1, .ro, 0⟩
def PWR_AON_BAK_VALID : RegRow := ⟨0x00F000040000, 0x0, 1, 0x0, 1, 1, 1, .ro, 0⟩
def PWR_AON_ON_BAK : RegRow := ⟨0x00F000040000, 0x0, 1, 0x0, 1, 2, 1, .ro, 0⟩
def PWR_AON_WARN : RegRow := ⟨0x00F000040000, 0x0, 1, 0x0, 1, 3, 1, .ro, 0⟩
def PWR_AON_SWITCHES_COUNT : RegRow := ⟨0x00F000040004, 0x0, 1, 0x0, 1, 0, 32, .ro, 0⟩
def PWR_WARNINGS_COUNT : RegRow := ⟨0x00F000040008, 0x0, 1, 0x0, 1, 0, 32, .ro, 0⟩
def PWR_PMIC_PG : RegRow := ⟨0x00F00004000C, 0x0, 1, 0x0, 1, 0, 1, .ro, 0⟩
def PWR_PMIC_FALLS : RegRow := ⟨0x00F00004000C, 0x0, 1, 0x0, 1, 16, 16, .ro, 0⟩
def PWR_PG_WAIT_US_US : RegRow := ⟨0x00F000040010, 0x0, 1, 0x0, 1, 0, 32, .ro, 0⟩
def PWR_DOMAINS_ON : RegRow := ⟨0x00F000040014, 0x0, 1, 0x0, 1, 1, 14, .ro, 0⟩
def PWR_CORES_ON : RegRow := ⟨0x00F000040018, 0x0, 1, 0x0, 1, 0, 16, .ro, 0⟩
def PWR_RAILS_OUT : RegRow := ⟨0x00F00004001C, 0x0, 1, 0x0, 1, 0, 6, .ro, 0⟩
def PWR_TEMP_T : RegRow := ⟨0x00F000040100, 0x4, 10, 0x0, 1, 0, 16, .ro, 0⟩
def PWR_TEMP_MAX : RegRow := ⟨0x00F000040100, 0x4, 10, 0x0, 1, 16, 16, .ro, 0⟩

/-! CLK: 18_supplies_power_clocks.md, Table 18.7. -/

def CLK_TC_MAX_MHZ : RegRow := ⟨0x00F000050000, 0x4, 4, 0x0, 1, 0, 12, .rws, 1200⟩
def CLK_THERM_CFG_T_THROT : RegRow := ⟨0x00F000050010, 0x0, 1, 0x0, 1, 0, 8, .rws, 115⟩
def CLK_THERM_CFG_T_TRIP : RegRow := ⟨0x00F000050010, 0x0, 1, 0x0, 1, 8, 8, .rws, 125⟩
def CLK_TC_FREQ_MHZ : RegRow := ⟨0x00F000050020, 0x4, 4, 0x0, 1, 0, 12, .ro, 1000⟩
def CLK_TC_FREQ_LEVEL : RegRow := ⟨0x00F000050020, 0x4, 4, 0x0, 1, 12, 3, .ro, 0⟩
def CLK_THROTTLE_STEPS_COUNT : RegRow := ⟨0x00F000050030, 0x4, 4, 0x0, 1, 0, 32, .ro, 0⟩
def CLK_CLK_FAULT_DOMAIN : RegRow := ⟨0x00F000050040, 0x0, 1, 0x0, 1, 1, 25, .ro, 0⟩
def CLK_PLL_LOCK_LOCKED : RegRow := ⟨0x00F000050044, 0x0, 1, 0x0, 1, 0, 8, .ro, 0⟩

/-! DBG: 20_debug_access.md, Table 20.7. -/

def DBG_STATUS_LIFECYCLE : RegRow := ⟨0x00F000070000, 0x0, 1, 0x0, 1, 0, 2, .ro, 0⟩
def DBG_STATUS_LEVEL : RegRow := ⟨0x00F000070000, 0x0, 1, 0x0, 1, 2, 2, .ro, 0⟩
def DBG_STATUS_HOLD : RegRow := ⟨0x00F000070000, 0x0, 1, 0x0, 1, 4, 1, .ro, 0⟩
def DBG_STATUS_AUTH_LOCK : RegRow := ⟨0x00F000070000, 0x0, 1, 0x0, 1, 5, 1, .ro, 0⟩
def DBG_STATUS_FUSE_ERR : RegRow := ⟨0x00F000070000, 0x0, 1, 0x0, 1, 6, 1, .ro, 0⟩
def DBG_CTRL_HOLD_REQ : RegRow := ⟨0x00F000070004, 0x0, 1, 0x0, 1, 0, 1, .rw, 0⟩
def DBG_CTRL_RETURN : RegRow := ⟨0x00F000070004, 0x0, 1, 0x0, 1, 1, 1, .wo, 0⟩
def DBG_AUTH_FAIL_COUNT : RegRow := ⟨0x00F000070008, 0x0, 1, 0x0, 1, 0, 16, .ro, 0⟩
def DBG_DENIED_COUNT : RegRow := ⟨0x00F000070008, 0x0, 1, 0x0, 1, 16, 16, .ro, 0⟩
def DBG_FRAM_SEL_OFFSET : RegRow := ⟨0x00F000070010, 0x0, 1, 0x0, 1, 0, 18, .rw, 0⟩
def DBG_FRAM_DATA_DATA : RegRow := ⟨0x00F000070014, 0x0, 1, 0x0, 1, 0, 32, .ro, 0⟩
def DBG_TMUX_SEL_SIG : RegRow := ⟨0x00F000070100, 0x4, 16, 0x0, 1, 0, 8, .rw, 0⟩
def DBG_TMUX_SEL_ARG : RegRow := ⟨0x00F000070100, 0x4, 16, 0x0, 1, 8, 8, .rw, 0⟩

/-- Every field row of block TOP. -/
def allTOP : List RegRow :=
  [TOP_ID_PART, TOP_ID_VENDOR, TOP_REV_DIGIT, TOP_REV_LETTER, TOP_SVC_STATE, TOP_SVC_TIDE_RUN, TOP_SVC_SAFE_COUNT, TOP_SVC_TIME_TIME, TOP_CAB_FN_MONITOR, TOP_CAB_FN_DOOR, TOP_CAB_FN_SEPARATE, TOP_CAB_FN_ANC, TOP_CAB_FN_ASSIST, TOP_CAB_FN_ADVICE]
/-- Every field row of block TIME. -/
def allTIME : List RegRow :=
  [TIME_NOW_TIME, TIME_STATUS_STATE, TIME_STATUS_PORT, TIME_STATUS_STEPPED, TIME_STATUS_ARMED, TIME_GM_OFFSET_OFFSET, TIME_RATE_CORR, TIME_CFG_PORT_SEL, TIME_CFG_ACQ_WAIT, TIME_CFG_HOLD_LIMIT, TIME_ETH0_DLY_RX, TIME_ETH0_DLY_TX, TIME_ETH1_DLY_RX, TIME_ETH1_DLY_TX, TIME_GM_ID_ID, TIME_TALLY_SYNC_LOSS, TIME_TALLY_PORT_SWITCH, TIME_FG_CFG_ENABLE, TIME_FG_CFG_PART, TIME_FG_CFG_QUEUE, TIME_FG_CFG_EVENT, TIME_FG_CFG_GLOBAL, TIME_FG_PERIOD_P, TIME_FG_PHASE_PHASE] ++
  [TIME_FG_WINDOW_W, TIME_FG_DEADLINE_D, TIME_FG_HOLD_HOLD_MAX, TIME_FG_ABSENT_ABSENT_LIMIT, TIME_FG_MEMBER_USED, TIME_FG_MEMBER_KIND, TIME_FG_MEMBER_SOURCE, TIME_FG_MEMBER_HOLD, TIME_FG_MOFS_OFFSET, TIME_FG_EMITTED_COUNT, TIME_FG_LATE_COUNT, TIME_FG_UNMATCHED_COUNT, TIME_FG_SUPERSEDED_COUNT, TIME_FG_OVERRUN_COUNT, TIME_FG_DISCARD_COUNT]
/-- Every field row of block BOOT. -/
def allBOOT : List RegRow :=
  [BOOT_STATUS_STEP, BOOT_STATUS_WARM, BOOT_STATUS_SLOT, BOOT_STATUS_FALLBACK, BOOT_STATUS_SEALED, BOOT_STATUS_FAILS, BOOT_FAIL_CODE, BOOT_FAIL_STEP, BOOT_FAIL_SLOT, BOOT_FAIL_WARM, BOOT_FAIL_SECTION, BOOT_GEN_IMAGE_GEN, BOOT_SVN_IMAGE, BOOT_SVN_FUSED, BOOT_SVN_KEY_SLOT, BOOT_SVN_REVOKED, BOOT_SEAL_CRC_CRC, BOOT_SLOT_A_GEN_GEN, BOOT_SLOT_B_GEN_GEN, BOOT_BAD_A_BAD, BOOT_BAD_B_BAD, BOOT_BIST_FAILED, BOOT_TALLY_COLD, BOOT_TALLY_WARM] ++
  [BOOT_STEP_US_US]
/-- Every field row of block QUE. -/
def allQUE : List RegRow :=
  [QUE_SUMMARY_CONFIGURED, QUE_SUMMARY_STOPPED, QUE_SUMMARY_FENCED, QUE_STOPPED_BITS, QUE_FENCED_BITS, QUE_DOORBELL_WPTR, QUE_DOORBELL_GEN, QUE_CFG_KIND, QUE_CFG_PART, QUE_CFG_LOG2_SLOTS, QUE_CFG_PRODUCER, QUE_CFG_THREAD, QUE_CFG_CQ, QUE_PRIO_PRIORITY, QUE_WPTR_WPTR, QUE_RPTR_RPTR, QUE_STATE_STATE, QUE_STATE_GEN, QUE_SEQNO_NEXT, QUE_ERR_CODE, QUE_ERR_SLOT, QUE_ERR_DEPTH, QUE_ERR_SEQNO_SEQNO, QUE_REJECT_GEN] ++
  [QUE_REJECT_RANGE, QUE_DISCARD_SLOTS, QUE_CQ_STALL_COUNT]
/-- Every field row of block EVT. -/
def allEVT : List RegRow :=
  [EVT_READ_SEL_EVENT, EVT_READ_SEL_PART, EVT_READ_SEL_GLOBAL, EVT_READ_DATA_VALUE, EVT_OVF_PART, EVT_OVF_GLOBAL, EVT_OVF_FIRST_EVENT, EVT_OVF_FIRST_PART, EVT_OVF_FIRST_GLOBAL, EVT_OVF_FIRST_VALID]
/-- Every field row of block SEQ. -/
def allSEQ : List RegRow :=
  [SEQ_STATE_STATE, SEQ_STATE_QUEUE, SEQ_STATE_DEPTH, SEQ_WAIT_EVENT, SEQ_WAIT_GLOBAL, SEQ_WAIT_THR_THRESHOLD, SEQ_LOOP_COUNT, SEQ_OUTSTANDING_COUNT]
/-- Every field row of block PART. -/
def allPART : List RegRow :=
  [PART_BW_DELIV_DELIV, PART_BW_LIMIT_LIMIT, PART_BW_SUM_SUM, PART_BW_CUT_CUT, PART_BW_CUT_EXHAUST, PART_CUT_COUNT_COUNT, PART_SYS_RD_G_G, PART_SYS_WR_G_G, PART_INTAKE_ACCEPT_COUNT, PART_INTAKE_REFUSE_COUNT, PART_INTAKE_DUP_COUNT, PART_INTAKE_ORPHAN_COUNT, PART_INTAKE_LOST_COUNT, PART_CFG_CORES, PART_CFG_PAIRS, PART_CFG_CRIT, PART_CFG_ENABLED, PART_JOB_ACTIVE, PART_JOB_QUEUE, PART_JOB_SEQNO_SEQNO, PART_JOB_ELAPSED_US, PART_JOB_BUDGET_US, PART_JOBS_COUNT, PART_RD_EFF_G] ++
  [PART_WR_EFF_G, PART_LNK_G_G, PART_RD_BYTES_BYTES, PART_WR_BYTES_BYTES, PART_DL_DL_TIME, PART_DL_QUIET]
/-- Every field row of block VFE. -/
def allVFE : List RegRow :=
  [VFE_STATUS_RUN, VFE_STR_LOAD_PXS, VFE_CH_LOAD_CPS, VFE_PORT_LINK_SYNC, VFE_PORT_LINK_STOP, VFE_PORT_ECC_CORR, VFE_PORT_ECC_DROP, VFE_PORT_CRC_COUNT, VFE_PORT_DT_DROP_COUNT, VFE_STR_FRAMES_COUNT, VFE_STR_BAD_COUNT, VFE_STR_LOST_COUNT, VFE_STR_TOF_BREAK_COUNT, VFE_STR_DROP_COUNT, VFE_STR_LAST_FS_TIME, VFE_CH_ITEMS_COUNT, VFE_CH_DROP_COUNT, VFE_CH_HELD_BUFS, VFE_CH_CROP_XY_X, VFE_CH_CROP_XY_Y, VFE_CH_CROP_WH_W, VFE_CH_CROP_WH_H, VFE_CH_KAT_FAIL_COUNT, VFE_LID_SCANS_COUNT] ++
  [VFE_LID_PARSE_COUNT, VFE_LID_DUP_COUNT, VFE_LID_LATE_COUNT, VFE_LID_LOST_COUNT, VFE_LID_DROP_COUNT]
/-- Every field row of block TC. -/
def allTC : List RegRow :=
  [TC_STATUS_BUSY, TC_STATUS_POWERED, TC_STATUS_IN_PART, TC_GATE_ROWGRP, TC_GATE_COLGRP, TC_CHK_TOL_FAC, TC_CHK_ABS_ABS, TC_CHK_ROWS_COUNT, TC_CHK_FAIL_COUNT, TC_CHK_NONFINITE_COUNT, TC_CHK_WORST_RATIO, TC_VEC_RESIDUE_COUNT, TC_SELFTEST_RUNS, TC_SELFTEST_FAILS, TC_LAST_ERR_DETAIL, TC_XFORM_PARITY, TC_XFORM_KAT_FAIL, TC_KAT_RUNS_COUNT, TC_FEED_MISMATCH_COUNT, TC_HALO_BYTES_BYTES, TC_HALO_WAIT_WAIT, TC_SCRUB_PASSES, TC_SCRUB_FORCED, TC_ECC_CE] ++
  [TC_ECC_UE, TC_LAST_UE_OFFSET]
/-- Every field row of block MEMC. -/
def allMEMC : List RegRow :=
  [MEMC_CFG_SPEED, MEMC_CFG_DENSITY, MEMC_CFG_PATROL, MEMC_SRAM_CE_LIMIT_LIMIT, MEMC_STATUS_TRAINED, MEMC_STATUS_RATE, MEMC_STATUS_ECC_ANY, MEMC_RATE_CHANGES_COUNT, MEMC_IECC_CE, MEMC_IECC_UE, MEMC_LINK_RETRY_COUNT, MEMC_LINK_FAIL_COUNT, MEMC_LAST_UE_ADDR_ADDR, MEMC_PATROL_PASSES_COUNT, MEMC_CH_RATE_RATE, MEMC_SRAM_SCRUB_PASSES, MEMC_SRAM_SCRUB_FORCED, MEMC_SRAM_ECC_CE, MEMC_SRAM_ECC_UE, MEMC_SRAM_LAST_UE_OFFSET]
/-- Every field row of block EMB. -/
def allEMB : List RegRow :=
  [EMB_STATUS_BUSY, EMB_STATUS_PART, EMB_ROWS_READ_COUNT, EMB_HOT_READ_COUNT, EMB_OOB_COUNT, EMB_ADDR_MISMATCH_COUNT, EMB_RESIDUE_COUNT, EMB_DESC_LO_BASE_LO, EMB_DESC_HI_BASE_HI, EMB_DESC_HI_COUNT]
/-- Every field row of block SEL. -/
def allSEL : List RegRow :=
  [SEL_STATUS_BUSY, SEL_STATUS_PART, SEL_STATUS_XM_WAIT, SEL_ELEMENTS_COUNT, SEL_DRAWS_COUNT, SEL_NAN_ROWS_COUNT, SEL_EMPTY_ROWS_COUNT, SEL_CHECK_FAIL_COUNT, SEL_XM_DONE_COUNT, SEL_XM_TIMEOUT_COUNT, SEL_XM_DROP_COUNT, SEL_STREAM_RANGE_FIRST, SEL_STREAM_RANGE_COUNT, SEL_STREAM_VALID_BITS]
/-- Every field row of block TOK. -/
def allTOK : List RegRow :=
  [TOK_STATUS_LANE_BUSY, TOK_STATUS_SLOT_BUSY, TOK_BYTES_IN_COUNT, TOK_TOKENS_OUT_COUNT, TOK_INPUT_CUT_COUNT, TOK_TOKENS_CUT_COUNT, TOK_REPLACED_COUNT, TOK_DEAD_COUNT, TOK_FORCED_COUNT, TOK_VIOLATION_COUNT, TOK_STALE_COUNT, TOK_TABLE_ERR_COUNT, TOK_SLOT_RANGE_FIRST, TOK_SLOT_RANGE_COUNT, TOK_SLOT_CTRL_ACTIVE, TOK_SLOT_CTRL_FINISHED, TOK_SLOT_CTRL_REASON, TOK_SLOT_CTRL_VOCAB, TOK_SLOT_CTRL_GRAMMAR, TOK_SLOT_CTRL_EPOCH, TOK_SLOT_SEQ_STATE, TOK_SLOT_SEQ_COUNT, TOK_SLOT_OUT_USED, TOK_SLOT_HOLD_BYTES] ++
  [TOK_SLOT_HOLD_N]
/-- Every field row of block ACU. -/
def allACU : List RegRow :=
  [ACU_STATUS_SP_RUN, ACU_STATUS_BP_RUN, ACU_STATUS_LOCKED, ACU_STATUS_ANC_STATE, ACU_STATUS_ANC_CAUSE, ACU_MUTE_A, ACU_MUTE_B, ACU_MUTE_MUTED, ACU_MUTE_DISC, ACU_DUCK_GAIN, ACU_GOV_TRIPS_COUNT, ACU_DIV_TRIPS_COUNT, ACU_RESIDUE_COUNT, ACU_DEADLINE_COUNT, ACU_READBACK_COUNT, ACU_DISC_FAULTS_COUNT, ACU_MUTES_COUNT, ACU_RATE_CHANGES_COUNT, ACU_PORT_STAT_LOCKED, ACU_PORT_STAT_ALT, ACU_PORT_STAT_CHANGING, ACU_PORT_STAT_FAULT, ACU_PORT_FAULTS_COUNT, ACU_GOV_PEAK_COUNT] ++
  [ACU_GOV_MS_M, ACU_CAP_HOPS_COUNT, ACU_CAP_DROP_COUNT, ACU_CAP_QDROP_COUNT, ACU_CAP_HELD_BUFS, ACU_PLAY_HOPS_COUNT, ACU_PLAY_GAP_COUNT, ACU_PLAY_OVERLAP_COUNT, ACU_PLAY_LATE_COUNT, ACU_PLAY_FULL_COUNT]
/-- Every field row of block MTR. -/
def allMTR : List RegRow :=
  [MTR_STATUS_RUN, MTR_STATUS_MAINS_LOCK, MTR_STATUS_MCLK_FAULT, MTR_STATUS_TOTALS_LOST, MTR_STATUS_CH_FAULT, MTR_STATUS_ON_BACKUP, MTR_STATUS_PULSE_OVERRUN, MTR_STATUS_PAIR_HIGH, MTR_SEAL_CRC, MTR_LATCH_CFG_NCYC, MTR_LATCH_CFG_WIRING, MTR_LATCH_CFG_F_NOM, MTR_FREQ_MHZ, MTR_LATCH_SEQ_COUNT, MTR_LATCH_CYC_COUNT, MTR_COMMITS_COUNT, MTR_LOSS_COMMITS_COUNT, MTR_EVT_COUNT_COUNT, MTR_POWERUPS_COUNT, MTR_RANGE_SWITCHES_COUNT, MTR_E_NWH, MTR_PCNT_COUNT]
/-- Every field row of block SAFE. -/
def allSAFE : List RegRow :=
  [SAFE_STATUS_LATCH, SAFE_STATUS_FAULT_PIN, SAFE_STATUS_HB_PIN, SAFE_STATUS_ISLAND_RESTARTED, SAFE_LAST_SOURCE, SAFE_LAST_INSTANCE, SAFE_LAST_TIME_TIME, SAFE_RECORDS_COUNT, SAFE_ECLIPSE_TEST_PASSED, SAFE_FAULT_CFG_REACT, SAFE_FAULT_CFG_DEFINED, SAFE_FAULT_CFG_CLASS, SAFE_FAULT_COUNT_COUNT, SAFE_PAIR_CFG_MODE, SAFE_PAIR_CFG_SPLIT_EVT, SAFE_PAIR_STAT_SPLIT, SAFE_PAIR_STAT_PAUSING, SAFE_PAIR_STAT_MISMATCH, SAFE_SPLIT_TIME_TIME]
/-- Every field row of block RST. -/
def allRST : List RegRow :=
  [RST_CFG_ESC_M, RST_CFG_ESC_W, RST_WD_CFG_THREAD_US, RST_WD_CFG_NET_US, RST_STATUS_ASSERTED, RST_STATUS_HELD, RST_STATUS_ESC_COUNT, RST_COUNTS_RESETS, RST_COUNTS_SUPERSEDED, RST_LAST_CAUSE_SOURCE, RST_LAST_CAUSE_INSTANCE, RST_LAST_TIME_TIME, RST_LATE_RESP_COUNT, RST_PLOG_COUNT_NEXT, RST_ESC_TIME_TIME, RST_LAST_JOB_ACTIVE, RST_LAST_JOB_QUEUE, RST_LAST_ELAPSED_US, RST_PLOG_LAST_ENTRY]
/-- Every field row of block ETH. -/
def allETH : List RegRow :=
  [ETH_STATUS_UP, ETH_STATUS_MODE, ETH_RX_DROP_RX_DROP, ETH_RX_MALFORMED_RX_MALFORMED, ETH_RX_BUSY_RX_BUSY, ETH_REASM_FULL_REASM_FULL, ETH_REASM_TIMEOUT_REASM_TIMEOUT, ETH_TX_DROP_TX_DROP, ETH_RX_HOLD_DROP_RX_HOLD_DROP, ETH_LID_DROP_LID_DROP]
/-- Every field row of block PCIE. -/
def allPCIE : List RegRow :=
  [PCIE_STATUS_UP, PCIE_STATUS_GEN, PCIE_STATUS_WIDTH, PCIE_DB_IGNORED_DB_IGNORED, PCIE_TX_DROP_TX_DROP]
/-- Every field row of block CAN. -/
def allCAN : List RegRow :=
  [CAN_STATUS_STATUS, CAN_BUS_OFF_BUS_OFF, CAN_RX_MALFORMED_RX_MALFORMED, CAN_RX_BUSY_RX_BUSY, CAN_TX_DROP_TX_DROP]
/-- Every field row of block LINK. -/
def allLINK : List RegRow :=
  [LINK_STATE_STATE, LINK_RETRAINS_RETRAINS, LINK_REPLAYS_REPLAYS, LINK_CRC_ERR_CRC_ERR, LINK_NO_ROUTE_NO_ROUTE]
/-- Every field row of block NVM. -/
def allNVM : List RegRow :=
  [NVM_UFS_BYTES_UFS_BYTES, NVM_UFS_RETRIES_UFS_RETRIES]
/-- Every field row of block SIO. -/
def allSIO : List RegRow :=
  [SIO_I2C_NACK_I2C_NACK, SIO_GPIO_IN_GPIO_IN]
/-- Every field row of block PWR. -/
def allPWR : List RegRow :=
  [PWR_AON_MAIN_VALID, PWR_AON_BAK_VALID, PWR_AON_ON_BAK, PWR_AON_WARN, PWR_AON_SWITCHES_COUNT, PWR_WARNINGS_COUNT, PWR_PMIC_PG, PWR_PMIC_FALLS, PWR_PG_WAIT_US_US, PWR_DOMAINS_ON, PWR_CORES_ON, PWR_RAILS_OUT, PWR_TEMP_T, PWR_TEMP_MAX]
/-- Every field row of block CLK. -/
def allCLK : List RegRow :=
  [CLK_TC_MAX_MHZ, CLK_THERM_CFG_T_THROT, CLK_THERM_CFG_T_TRIP, CLK_TC_FREQ_MHZ, CLK_TC_FREQ_LEVEL, CLK_THROTTLE_STEPS_COUNT, CLK_CLK_FAULT_DOMAIN, CLK_PLL_LOCK_LOCKED]
/-- Every field row of block DBG. -/
def allDBG : List RegRow :=
  [DBG_STATUS_LIFECYCLE, DBG_STATUS_LEVEL, DBG_STATUS_HOLD, DBG_STATUS_AUTH_LOCK, DBG_STATUS_FUSE_ERR, DBG_CTRL_HOLD_REQ, DBG_CTRL_RETURN, DBG_AUTH_FAIL_COUNT, DBG_DENIED_COUNT, DBG_FRAM_SEL_OFFSET, DBG_FRAM_DATA_DATA, DBG_TMUX_SEL_SIG, DBG_TMUX_SEL_ARG]

/-- Every field row of the map. -/
def all : List RegRow :=
  allTOP ++
  allTIME ++
  allBOOT ++
  allQUE ++
  allEVT ++
  allSEQ ++
  allPART ++
  allVFE ++
  allTC ++
  allMEMC ++
  allEMB ++
  allSEL ++
  allTOK ++
  allACU ++
  allMTR ++
  allSAFE ++
  allRST ++
  allETH ++
  allPCIE ++
  allCAN ++
  allLINK ++
  allNVM ++
  allSIO ++
  allPWR ++
  allCLK ++
  allDBG

end R

/-- Address of element (i, j) of a row. -/
def RegRow.at (r : RegRow) (i j : Nat) : Nat := r.addr + r.s1 * i + r.s2 * j

/-- Words a row's element covers. -/
def RegRow.words (r : RegRow) : Nat := (r.lo + r.width + 31) / 32

/-- A register file with every element of row `r` at its reset value. -/
def RegRow.init (r : RegRow) (m : List (Nat × Word32)) : List (Nat × Word32) :=
  if r.reset = 0 then m else
  (List.range r.c1).foldl (fun m i => (List.range r.c2).foldl (fun m j =>
    let a := r.at i j
    Sparse.put 0#32 m a (Sparse.get 0#32 m a ||| BitVec.ofNat 32 (r.reset <<< r.lo))) m) m

/-- Class of a fault source of Table 15.1: 0 OUT, 1 D, 2 N, 3 I; none for a reserved source (R559). -/
def sourceClass (s : Nat) : Option Nat :=
  if s ≤ 3 then some 0
  else if s = 4 ∨ s = 5 then some 1
  else if 0x10 ≤ s ∧ s ≤ 0x17 then some 1
  else if s = 0x18 then some 3
  else if 0x19 ≤ s ∧ s ≤ 0x50 then some 1
  else if s = 0x51 ∨ s = 0x52 then some 2
  else if 0x53 ≤ s ∧ s ≤ 0x55 then some 1
  else if s = 0x56 then some 2
  else if 0x57 ≤ s ∧ s ≤ 0x59 then some 1
  else if s = 0x60 ∨ s = 0x61 then some 1
  else if 0x68 ≤ s ∧ s ≤ 0x6A then some 1
  else if s = 0x6C then some 1
  else if s = 0x70 then some 2
  else if s = 0x71 ∨ s = 0x72 then some 1
  else if 0x73 ≤ s ∧ s ≤ 0x75 then some 2
  else if 0x80 ≤ s ∧ s ≤ 0x83 then some 1
  else if s = 0x84 then some 3
  else none

/-- SAFE.FAULT_CFG of source `s` at reset (Table 15.4): REACT, DEFINED and CLASS. -/
def faultCfgReset (s : Nat) : Nat :=
  match sourceClass s with
  | none => 0
  | some 0 => 2 + 4
  | some 1 => 1 + 4 + 8
  | some 2 => 0 + 4 + 16
  | some _ => 0 + 4 + 24

/-- Every register at its reset value. -/
def regsReset : List (Nat × Word32) :=
  (List.range 256).foldl (fun m s => Sparse.put 0#32 m (0x00F000020100 + 4 * s) (BitVec.ofNat 32 (faultCfgReset s)))
    (R.all.foldl (fun m r => r.init m) [])

end Sys2Proof.Machine
end

