-- ==== Sys2Proof/Machine/State.lean ====
section
/-!
DEFINITION. The state of the block as plain data: the registers, the memories, and what the rules name beside them;
the machine after reset; and why a step can stop.
-/

namespace Sys2Proof.Machine

open Sys2Proof

/-! ### Memory words (09) -/

/-- What the check bits of a memory word say of it (R340 to R343, R358). -/
inductive Health where
  | good
  /-- One bit differs: the next read corrects it. -/
  | correctable
  /-- The next read finds it uncorrectable and poisons it. -/
  | uncorrectable
  | poisoned
  deriving DecidableEq, Repr

/-! ### Orbit (02) -/

/-- What one Ethernet port's 802.1AS instance has heard (R53 to R55): the grandmaster's identity, the time of its last
Sync and its receipt timeout, both in reference ticks. -/
structure SyncPort where
  gm : Nat := 0
  last : Option Nat := none
  timeout : Nat := 0
  deriving DecidableEq, Repr

/-- The time base (R49 to R57) beside its registers. -/
structure Orbit where
  /-- Orbit time in ns (R49). -/
  now : Nat := 0
  /-- Fraction of a ns carried by the addend (R50), in units of 10^-9 ns. -/
  sub : Nat := 0
  /-- The frequency-tracking part of the rate correction, in parts per billion (R50, R55). -/
  freq : Int := 0
  /-- LOCKED operation, newest first: (ticks, rate correction) (R55). -/
  locked : List (Nat × Int) := []
  port0 : SyncPort := {}
  port1 : SyncPort := {}
  /-- Consecutive Syncs within 100 ns, and beyond 500 ns (R54). -/
  near : Nat := 0
  far : Nat := 0
  /-- Tick at which HOLDOVER was entered (R54). -/
  holdAt : Nat := 0
  /-- Tick at which ARM began to wait (R58). -/
  armAt : Nat := 0
  deriving DecidableEq, Repr

/-- A member item placed in a fusion frame (R63, R64). -/
structure FgItem where
  ref : Int
  addr : Nat
  pseq : Nat
  deriving DecidableEq, Repr

/-- A pending fusion frame (R63, R65): its nominal instant, the items by member, which of them are held, and whether
it has become ready (and then whether before its deadline). -/
structure FgFrame where
  t : Nat
  items : List (Nat × FgItem) := []
  held : List Nat := []
  ready : Option Bool := none
  deriving DecidableEq, Repr

/-- A fusion group beside its registers (R63 to R69). -/
structure FgGroup where
  seq : Nat := 0
  frames : List FgFrame := []
  /-- Nominal instant of the next frame to become pending; nothing before arming. -/
  next : Option Nat := none
  /-- Nominal instant of the first frame opened since arming. -/
  first : Nat := 0
  kept : List (Nat × FgItem) := []
  carried : List (Nat × FgItem) := []
  absent : List (Nat × Nat) := []
  overrun : Bool := false
  deriving DecidableEq, Repr

/-! ### Image and start (03) -/

/-- One section of the image in use: its type, its SFLAGS and its plaintext. -/
structure Section where
  type : Nat
  flags : Nat
  bytes : List Byte
  deriving DecidableEq, Repr

/-- The image in use: header bytes, section table bytes and the sections in table order (R78 to R82). -/
structure Image where
  hdr : List Byte
  table : List Byte
  secs : List Section
  deriving DecidableEq, Repr

/-- The ferroelectric boot record (R101). -/
structure BootRec where
  fails : Nat := 0
  slot : Nat := 0
  badA : Option Nat := none
  badB : Option Nat := none
  fallback : Bool := false
  failReg : Nat := 0
  cold : Nat := 0
  warm : Nat := 0
  verdict : Option (Nat × Nat × Nat × Nat) := none
  deriving DecidableEq, Repr

/-- The retained verdict (R94): slot, generation, home and size, with the header and section table, and whether the DRAM
training was saved. -/
structure Verdict where
  slot : Nat
  gen : Nat
  home : Nat
  size : Nat
  hdr : List Byte
  table : List Byte
  trained : Bool
  deriving DecidableEq, Repr

/-- Where the start sequence stands. -/
inductive Phase where
  /-- The always-on domain is in power-on reset. -/
  | por
  /-- A step of Table 3.7 is in progress (its code is BOOT.STATUS.STEP). -/
  | step
  /-- Waiting 100 ms after a failed attempt (R99, R101). -/
  | retry
  /-- An attempt was abandoned by PORST_N, which is low (R108). -/
  | porst
  /-- An attempt was abandoned by PMIC_PG, which has not returned (R108). -/
  | pgLost
  /-- PMIC_PG has returned after an abandoned attempt; 100 ms run (R108). -/
  | pgBack
  /-- No start is in progress. -/
  | idle
  deriving DecidableEq, Repr

/-- The one-time-programmable fuses (R88, Table 20.2). -/
structure Fuses where
  keyHash : List (Nat × List Byte) := []
  revoked : List Nat := []
  svn : Nat := 0
  imageKey : Option (List Byte) := none
  imageKeyOff : Bool := false
  debugKey : Option (List Byte) := none
  lifecycle : Nat := 1
  /-- The die's 16-byte unique identifier (R701), which no command changes. -/
  dieId : Nat := 0
  deriving DecidableEq, Repr

/-- The start sequence beside its registers. -/
structure Boot where
  phase : Phase := .por
  /-- Tick at which the current step, or the current wait, began. -/
  since : Nat := 0
  /-- Tick at which the attempt began. -/
  begun : Nat := 0
  /-- The two alternating copies of the boot record with their sequence numbers (R101). -/
  recA : Option (Nat × BootRec) := none
  recB : Option (Nat × BootRec) := none
  verdict : Option Verdict := none
  /-- Tick since which SELECT has waited for PMIC_PG (R654). -/
  pgSince : Option Nat := none
  /-- A warm start is pending on PMIC_PG (R98, R605). -/
  warmOnPg : Bool := false
  /-- A warm start is to begin: the compute reset was released, or PMIC_PG has returned. -/
  warmDue : Bool := false
  /-- The fusion groups were armed in this cold start (R56). -/
  armedOnce : Bool := false
  /-- UFS_RST_N has been released (Table 3.8). -/
  ufsOut : Bool := false
  /-- IMAGE_GEN of the two headers as the last SELECT read them (R101). -/
  gens : Nat × Nat := (0, 0)
  /-- The change that waited before this attempt's SEAL step handed one to Tide (R104). -/
  sealBefore : Option (Option (List Byte × Nat)) := none
  deriving DecidableEq, Repr

/-! ### Queues, commands and threads (04) -/

/-- A command that START takes again (R137, R140, R729): its pointer, its slots and the SEQNO it keeps. -/
structure Redo where
  ptr : Nat
  slots : Nat
  seqno : Nat
  deriving DecidableEq, Repr

/-- A queue beside its registers (R119, R122). -/
structure QueueX where
  base : Nat := 0
  consumer : Nat := 0
  /-- Command queues: pointer of the first command that was never taken. -/
  fetch : Nat := 0
  /-- Commands to take again, lowest SEQNO first; RPTR is at the first of them. -/
  redo : List Redo := []
  /-- A failure has stopped the queue since it was last started (R137). -/
  failed : Bool := false
  /-- SEQNOs aborted before they were taken (Table 4.13). -/
  aborted : List Nat := []
  deriving DecidableEq, Repr

/-- Where a taken command stands (R136). -/
inductive Stage where
  /-- Picked, waiting in its fence stage. -/
  | fence
  /-- In its execute stage; an engine may have begun it. -/
  | exec
  /-- A `seq.wait` waiting on its event. -/
  | waitEvent
  /-- A `seq.timer` waiting on its time. -/
  | waitTimer
  /-- A `seq.call` whose list runs. -/
  | called
  /-- Waiting for something outside: lists, a barrier, an acknowledgement. -/
  | waiting
  /-- Executed with the status in `status`; its completion is due. -/
  | done
  /-- Its completion record is held (R139). -/
  | held
  deriving DecidableEq, Repr

/-- A command taken from a queue or from a called list. -/
structure Cmd where
  id : Nat
  queue : Nat
  thread : Nat
  part : Nat
  seqno : Nat
  depth : Nat
  /-- Slot offset in its list (Table 4.8), or its ring pointer at depth 0. -/
  offset : Nat
  /-- Identity of the queue command through which it was issued. -/
  root : Nat
  /-- The `seq.call` whose list it belongs to; nothing for a command taken from a queue. -/
  call : Option Nat := none
  words : List Nat
  stage : Stage
  status : Nat := 0
  detail : Nat := 0
  /-- Units of work done (Table 4.11). -/
  units : Nat := 0
  /-- An engine has begun it. -/
  begun : Bool := false
  /-- The arbiter has decided ABORTED (R152). -/
  aborted : Bool := false
  /-- A stop is to take effect at its next checkpoint (R729). -/
  stopping : Bool := false
  /-- Its signal is withheld (R154). -/
  mute : Bool := false
  /-- Reference tick at which its execute stage began, and its time limit (ticks, or Orbit ns for `seq.timer`). -/
  start : Nat := 0
  limit : Option Nat := none
  /-- Order in which waits began (R142). -/
  order : Nat := 0
  deriving DecidableEq, Repr

/-- A completion record not yet committed (R139). -/
structure HeldRec where
  queue : Nat
  cq : Nat
  seqno : Nat
  words : List Nat
  /-- The command that completes when the record is committed. -/
  finish : Option Nat
  counted : Bool := false
  deriving DecidableEq, Repr

/-- One called list of a thread (R159). -/
structure Frame where
  call : Nat
  addr : Nat
  slots : Nat
  pos : Nat
  deriving DecidableEq, Repr

/-- A sequencer thread beside its registers. -/
structure Thread where
  /-- The command that holds the thread. -/
  cur : Option Nat := none
  /-- Called lists, innermost first. -/
  frames : List Frame := []
  /-- Reference tick of its last command boundary (R582). -/
  boundary : Nat := 0
  deriving DecidableEq, Repr

/-! ### Partitions and intake (05) -/

/-- The job that holds a partition's grant, beside PART.JOB: its command, its start and whether its watchdog fired. -/
structure Job where
  cmd : Nat
  start : Nat
  fired : Bool := false
  /-- An initial list (R181) has no watchdog. -/
  initial : Bool := false
  deriving DecidableEq, Repr

/-- A regulator (R200): effective guarantee and ceiling in MB/s, depth in bytes, its two buckets in bytes, and the tick of
their last filling. -/
structure Regulator where
  g : Nat := 0
  c : Nat := 0
  depth : Nat := 0
  gTok : Nat := 0
  cTok : Nat := 0
  at_ : Nat := 0
  deriving DecidableEq, Repr

/-- Addresses a response goes back to over Ethernet (R613). -/
structure EthAddr where
  mac : Nat := 0
  ip : Nat := 0
  port : Nat := 0
  deriving DecidableEq, Repr

/-- An entry of a client's window (R194). -/
structure WinEntry where
  reqId : Nat
  route : Nat
  iface : Nat
  /-- Word 0 of the request, for its answer. -/
  word0 : Nat
  isAbort : Bool
  /-- SEQNO of the placed `seq.call` (R191). -/
  seqno : Option Nat := none
  /-- Status when closed. -/
  closed : Option Nat := none
  /-- Pointer of its item in REQ_QUEUE, to know a flush (R196). -/
  itemQ : Nat := 0
  itemPtr : Nat := 0
  deriving DecidableEq, Repr

/-- Deadlock detector of a partition (R208, R210): since when the conditions hold, and whether it has fired. -/
structure Deadlock where
  since : Option Nat := none
  fired : Bool := false
  deriving DecidableEq, Repr

/-! ### Safety and recovery (15, 16) -/

/-- A set latch of the fault hub (R560): what the record of Table 15.2 takes. -/
structure Latch where
  src : Nat
  time : Nat
  quality : Nat
  inst : Nat
  detail : Nat
  react : Nat
  first : Bool
  before : Nat
  after : Nat
  /-- Tick of the raise (R573). -/
  tick : Nat
  deriving DecidableEq, Repr

/-- A persistent-log entry to be written (Table 16.8). -/
structure PlogEntry where
  code : Nat
  src : Nat := 0
  inst : Nat := 0
  before : Nat := 0
  after : Nat := 0
  value : Nat := 0
  detail : Nat := 0
  time : Nat := 0
  cold : Nat := 0
  deriving DecidableEq, Repr

/-- Where the compute reset stands (R586, R597). -/
inductive ResetPhase where
  | none
  /-- SAFE was entered; the island has not yet decided escalation. -/
  | undecided
  /-- Decided: to be asserted. -/
  | due
  /-- Asserted since a tick. -/
  | asserted (since : Nat)
  /-- Held until a cold start. -/
  | held
  deriving DecidableEq, Repr

/-- A hand-over in progress (R554, R555): the pair and the tick of the consumption. -/
structure Handover where
  pair : Nat
  since : Nat
  deriving DecidableEq, Repr

/-- The fault hub, the island and recovery beside their registers. -/
structure Hub where
  /-- Set latches, oldest first. -/
  latches : List Latch := []
  /-- Excursions in progress (R726): (mechanism, instance). -/
  excursions : List (Nat × Nat) := []
  /-- Next SEQ of a fault record. -/
  recSeq : Nat := 0
  /-- Next SEQ of a start record. -/
  startSeq : Nat := 0
  /-- Start records of Q0, newest last, at most 64 (R116, R121). -/
  startRecs : List (List Nat) := []
  /-- Tick at which the hub last began a service-state change. -/
  changed : Option Nat := none
  /-- A class-OUT fault holds the island until its restart; the state at the raise (R562). -/
  outFrom : Option Nat := none
  /-- The island failed its self-test after a class-OUT fault. -/
  islandDead : Bool := false
  reset : ResetPhase := .none
  /-- The entry into SAFE was caused by PMIC_PG (R586). -/
  byPg : Bool := false
  /-- Persistent-log entries not yet written, oldest first (R601). -/
  plogDue : List PlogEntry := []
  /-- Next INDEX of the persistent log (R601). -/
  plogNext : Nat := 0
  handover : Option Handover := none
  /-- Tick of the island's last watchdog service (R558). -/
  served : Nat := 0
  /-- Level driven on SAFE_FAULT_N and on SAFE_HEARTBEAT. -/
  faultN : Bool := false
  heartbeat : Bool := false
  /-- Tick since which each pad has differed from the driven level, or last toggled (R568). -/
  pinBad : Option Nat := none
  hbBad : Option Nat := none
  /-- DRAM link reissues in progress: address and failed attempts (R359, R593). -/
  reissue : List (Nat × Nat) := []
  deriving DecidableEq, Repr

/-! ### Interfaces (17) -/

/-- A message under reassembly on an Ethernet port (R619). -/
structure Reasm where
  ip : Nat
  client : Nat
  reqId : Nat
  segs : Nat
  back : EthAddr
  got : List (Nat × List Byte) := []
  first : Nat
  deriving DecidableEq, Repr

/-- A CAN message under construction (R626). -/
structure CanMsg where
  bytes : List Byte
  nextSeq : Nat
  last : Nat
  deriving DecidableEq, Repr

/-- A frame kept in a chip-link replay buffer (R629). -/
structure LinkTx where
  seq : Nat
  frame : List Byte
  sent : Nat
  replays : Nat := 0
  deriving DecidableEq, Repr

/-- A chip-link port beside its registers (R627 to R629). -/
structure LinkPort where
  nextSeq : Nat := 0
  expect : Nat := 0
  replay : List LinkTx := []
  credits : Nat := 64
  /-- Frames waiting for credit or for the port. -/
  waiting : List (List Byte) := []
  deriving DecidableEq, Repr

/-- A transfer arriving from another rank: how far it has come, and whether its later frames are dropped (R634). -/
structure PutIn where
  rank : Nat
  xfer : Nat
  dropped : Bool
  deriving DecidableEq, Repr

/-- A transfer sent by a `link.put` (R634): the command, its XFER and RANK, and its reference tick. -/
structure PutOut where
  cmd : Nat
  xfer : Nat
  rank : Nat
  start : Nat
  deriving DecidableEq, Repr

/-- A frame held while the network is in reset (R640): the interface (0 and 1 Ethernet, 3 to 6 CAN, 7 and 8 chip links), its
stamp with the quality, and its bytes. -/
structure HeldIn where
  iface : Nat
  stamp : Nat
  quality : Nat
  bytes : List Byte
  deriving DecidableEq, Repr

/-- A candidate list assembled from XMERGE frames (R632) or held complete (R413). -/
structure XList where
  coll : Nat
  rank : Nat
  k : Nat
  dir : Nat
  g : Nat
  recs : List (Nat × List Nat) := []
  got : List Nat := []
  lastSeen : Bool := false
  total : Nat := 0
  since : Nat := 0
  deriving DecidableEq, Repr

/-- The host and chip-link interfaces beside their registers. -/
structure Ifaces where
  reasm0 : List Reasm := []
  reasm1 : List Reasm := []
  lidarSeq : List (Nat × Nat) := []
  /-- PCIe request and response windows (Table 17.9). -/
  reqWin : List Host.Cell := []
  rspWin : List Host.Cell := []
  reqDone : Nat := 0
  reqStatus : Nat := 0
  rspW : Nat := 0
  rspR : Nat := 0
  intr : Bool := false
  can : List (Nat × CanMsg) := []
  port0 : LinkPort := {}
  port1 : LinkPort := {}
  xfer : Nat := 0
  putsIn : List PutIn := []
  /-- Return addresses by (port, client, request) (R613). -/
  back : List (Nat × Nat × Nat × EthAddr) := []
  /-- The INTERFACES section applied at LINKS, or the part of it that the last-good record holds (R105). -/
  cfg : List Byte := []
  /-- What has arrived while the network is in reset (R588, R640), oldest first. -/
  waiting : List HeldIn := []
  /-- Request messages that intake control takes without queues (R639): interface and bytes, with the header as landed. -/
  direct : List (Nat × List Byte) := []
  /-- Answers of intake control that do not stand in a queue: interface and message, with TIME still to be written. -/
  unsent : List (Nat × List Byte) := []
  /-- Transfers of `link.put` that wait for their PUT_ACK. -/
  puts : List PutOut := []
  /-- Candidate lists (R413, R632): being assembled, complete and not yet judged, held, and matched to the executing command. -/
  lists : List XList := []
  ready : List XList := []
  held : List XList := []
  matched : List XList := []
  /-- A PCIe doorbell held PENDING (R640). -/
  bell : Option (Nat × Nat) := none
  gpioDir : Nat := 0
  gpioOut : Nat := 0
  deriving DecidableEq, Repr

/-! ### Memory upkeep (09) -/

/-- The scrubber of an SRAM (R345, R347): the next row of each bank, the tick at which the pass began, and whether it is
forced. -/
structure Scrub where
  rows : List (Nat × Nat) := []
  began : Nat := 0
  forced : Bool := false
  deriving DecidableEq, Repr

/-! ### Supplies and debug (18, 20) -/

/-- Supplies, clocks and thermal control beside their registers. -/
structure Power where
  /-- Tick since which VAON_MAIN has been valid (R648). -/
  mainSince : Option Nat := none
  /-- Domains that have lost power since they were last configured. -/
  lost : List Nat := []
  /-- A switched domain has been powered in this cold start (R655). -/
  armed : Bool := false
  /-- Successive bad windows by clock domain (R661). -/
  badWindows : List (Nat × Nat) := []
  /-- Tick of the last ladder step, and since when every reading has been low, by cluster (R665). -/
  stepAt : List (Nat × Nat) := []
  coolSince : List (Nat × Nat) := []
  /-- Successive readings at or above T_TRIP by sensor (R666). -/
  hot : List (Nat × Nat) := []
  /-- Sensors read since the cold start (PWR.TEMP.MAX), and whether the ladder is in effect (R663). -/
  seen : List Nat := []
  ladder : Bool := false
  /-- PLLs that have reported loss of lock (R661). -/
  pllLost : List Nat := []
  /-- PORST_N and PCIE_PERST_N levels. -/
  porstN : Bool := true
  perstN : Bool := false
  deriving DecidableEq, Repr

/-- The debug port beside its registers. -/
structure Debug where
  ir : Nat := 0x01
  /-- Challenge nonce in force, not yet answered (R701, R702). -/
  nonce : Option (List Byte) := none
  rejects : Nat := 0
  /-- What the next DBG_ACC capture reports: data and STATUS (Table 20.5). -/
  accData : Nat := 0
  accStatus : Nat := 0
  /-- Boundary register, and whether EXTEST drives the outputs (R700). -/
  boundary : List Bool := []
  extest : Bool := false
  /-- RETURN was requested; it takes effect at the next cold start (R696). -/
  returnDue : Bool := false
  fieldDue : Bool := false
  /-- This cold start is a debug-hold start (R704, R705). -/
  holdStart : Bool := false
  trstN : Bool := true
  deriving DecidableEq, Repr

/-! ### Acoustic engine (13) -/

/-- A gain that moves linearly (R475, R476): its code in force, in 1/32768; where the move began and where it goes; the step,
in 1/(32768 × den) a sample period, and the periods moved. -/
structure Ramp where
  g : Nat
  g0 : Nat
  tgt : Nat
  step : Nat := 0
  den : Nat := 1
  j : Nat := 0
  deriving DecidableEq, Repr

/-- What was computed for an output frame (R472): the sources of its inputs, the anti-noise, and the gains a, duck and mute
and of the ports. -/
structure SoundFrame where
  inputs : List (Nat × Int)
  y : List Int
  a : Nat
  duck : Nat
  mute : Nat
  ports : List Nat
  deriving DecidableEq, Repr

/-- The governor of an output entry (R478, R479): clamps in this block; whether it may trip; whether a trip fell within this
block; and what re-arming still needs. -/
structure GovSlot where
  clamps : Nat := 0
  armed : Bool := true
  mid : Bool := false
  below : Bool := false
  quiet : Bool := false
  deriving DecidableEq, Repr

/-- What is judged of a 1 ms block (R479, R480): Σ err² by error microphone, and clamps by output entry. -/
structure SoundBlock where
  energy : List Nat
  clamps : List Nat
  deriving DecidableEq, Repr

/-- A hop under capture, or complete and not yet written (R490, R491): rows newest first. -/
structure CapHop where
  first : Nat
  quality : Nat
  buf : Option Nat
  frames : Nat := 0
  rows : List (List Int) := []
  gap : Bool := false
  muted : Bool := false
  deriving DecidableEq, Repr

/-- A capture: the next SEQ, where the rotation stands, held buffers, complete items by buffer, the hop under way, and hops
to be written. -/
structure Capture where
  seq : Nat := 0
  next : Nat := 0
  held : List Nat := []
  items : List (Nat × Nat) := []
  hop : Option CapHop := none
  ready : List CapHop := []
  deriving DecidableEq, Repr

/-- A hop queued on a playback channel (R493): the output frame of its first sample, and samples in Q1.31. -/
structure PlayHop where
  start : Nat
  samples : List Int
  deriving DecidableEq, Repr

/-- A playback channel: queued hops, and the end of the last one placed. -/
structure PlayChan where
  hops : List PlayHop := []
  ended : Option Nat := none
  deriving DecidableEq, Repr

/-- A TDM port beside its registers: since when it has not been locked, the gain of its slots (R484), the rate it changes to,
and successive frames whose read-back differed (R477). -/
structure AcuPort where
  since : Nat := 0
  ramp : Ramp := ⟨32768, 32768, 32768, 0, 1, 0⟩
  change : Option Bool := none
  bad : Nat := 0
  deriving DecidableEq, Repr

/-- The acoustic engine beside its registers. -/
structure Acoustic where
  /-- The sample-path area holds what the section gives it (R471). -/
  loaded : Bool := false
  /-- The next sample frame, and the Orbit time of the last. -/
  frame : Nat := 0
  last : Option Nat := none
  /-- Frames computed and not yet sent, oldest first: nothing for the first two. -/
  pipe : List (Option SoundFrame) := [none, none]
  a : Ramp := ⟨0, 0, 0, 0, 1, 0⟩
  mute : Ramp := ⟨32768, 32768, 32768, 0, 1, 0⟩
  duck : Ramp := ⟨32768, 32768, 32768, 0, 1, 0⟩
  ports : List (Nat × AcuPort) := []
  gov : List (Nat × GovSlot) := []
  /-- Σ err² of the running block, by error microphone. -/
  energy : List Nat := []
  /-- The block that ended last, until it is judged. -/
  block : Option SoundBlock := none
  /-- 48 × Es of the last judged block. -/
  lastEs : Option (List Nat) := none
  /-- Baselines: 48 × El as (numerator, binary fraction bits). -/
  base : Option (List (Nat × Nat)) := none
  /-- Successive blocks above the baseline, by error microphone. -/
  aboveBase : List Nat := []
  /-- W_HOME holds an uncorrectable word (R476). -/
  homeBad : Bool := false
  /-- Levels of AMUTE_A and AMUTE_B sampled last, as active. -/
  rawA : Bool := false
  rawB : Bool := false
  /-- Tick at which the disagreement of the mute channels began (R482). -/
  disc : Option Nat := none
  /-- First frame of the captures' first hops. -/
  capStart : Nat := 0
  caps : List (Nat × Capture) := []
  plays : List (Nat × PlayChan) := []
  deriving DecidableEq, Repr

/-! ### Tide (14) -/

/-- What Tide sums over samples (R516): the weight so far, in 1/(3 × 2^40) of a sample, and the weighted products: v² and i² and
v × i of phases 1 to 3, VDC, IDC and their product, IN² and SPARE², and HIGH² of the pairs, in mV and mA × 2^−31. -/
structure TideAcc where
  w : Nat := 0
  sums : List Int := []
  deriving DecidableEq, Repr

/-- The last closed cycle as QUANT reports it. -/
structure TideCycle where
  acc : TideAcc
  phasors : List TidePhasor
  mhz : Nat
  deriving DecidableEq, Repr

/-- A latched set (R521): registers exact, pulse counts, its Orbit time and quality, LATCH_SEQ and cycles. -/
structure TideLatch where
  e : List Nat := []
  pcnt : List Nat := []
  taken : Nat := 0
  quality : Nat := 0
  seq : Nat := 0
  cycles : Nat := 0
  deriving DecidableEq, Repr

/-- A commit (R523): its KIND, the record's bytes 0x10 to 0x1FB, and once begun the copy, SEQ and tick. -/
structure TideCommit where
  kind : Nat
  body : List Byte
  begun : Option (Nat × Nat × Nat) := none
  deriving DecidableEq, Repr

/-- A range pair (R513): whether HIGH is selected, a switch is armed, cycles below DOWN, and the sign of the last sample. -/
structure TidePair where
  high : Bool := true
  armed : Bool := false
  low : Nat := 0
  neg : Bool := false
  deriving DecidableEq, Repr

/-- A pulse input (R526): raw and accepted level, tick of the last edge, stamp of the edge that began the change, and the stamp
kept with the count. -/
structure TideIn where
  raw : Bool := false
  level : Bool := false
  since : Nat := 0
  began : Option Nat := none
  stamp : Nat := 0
  deriving DecidableEq, Repr

/-- A test pulse output (R528): pending energy × CONST, what of this cycle's running increment is in it, the pin, and since when
the output is active, or released after a pulse. -/
structure TideOut where
  pend : Int := 0
  given : Int := 0
  low : Bool := false
  busy : Option Nat := none
  deriving DecidableEq, Repr

/-- A deferred or written event (R534): CODE, CH, VALUE, AUX, TIME and QUALITY. -/
structure TideEvent where
  code : Nat
  ch : Nat
  value : Nat
  aux : Nat
  time : Nat
  quality : Nat
  deriving DecidableEq, Repr

/-- Tide beside its registers. -/
structure Tide where
  /-- The sealed body that runs (R508), and the one taken up at the next latch, with their BODY_CRC (R535). -/
  body : List Byte := []
  next : Option (List Byte × Nat) := none
  /-- The running registers (R518), exact: in 1/(86400 × 2^102) of their unit. -/
  e : List Nat := []
  /-- PCNT as of the last cycle close. -/
  pcntLive : List Nat := []
  latched : TideLatch := {}
  /-- A latch due: taken at the close of its cycle, not yet published. -/
  due : Option TideLatch := none
  /-- Sums of the running cycle, and those of it not yet in the registers (R524). -/
  cycle : TideAcc := {}
  energy : TideAcc := {}
  /-- Products of the last sample. -/
  last : List Int := []
  quant : Option TideCycle := none
  /-- Cycles of the running harmonic window, whether it holds a change of lock, and the last window: by channel its harmonics,
  and by phase THD_V, THD_I and Q (R517), all FP32 codes. -/
  window : Nat := 0
  windowBad : Bool := false
  harm : List (Nat × List (Nat × Nat)) := []
  derived : List (Nat × Nat × Nat) := []
  pairs : List (Nat × TidePair) := []
  /-- Orbit time and quality of the last sample. -/
  stamp : Nat := 0
  quality : Nat := 0
  /-- Conditions that last, by code and channel, since a tick (R507, R515). -/
  since : List ((Nat × Nat) × Nat) := []
  /-- Successive cycles whose phase sequence differs from the state in force (R515). -/
  seqDiffers : Nat := 0
  ins : List (Nat × TideIn) := []
  outs : List (Nat × TideOut) := []
  commits : List TideCommit := []
  /-- Events that wait for a supply-loss commit (R539). -/
  held : List TideEvent := []
  /-- The next of Q4 to Q7, and snapshot answers that wait to be sent: interface, word 0, queue (R532). -/
  port : Nat := 0
  answers : List (Nat × Nat × Nat) := []
  deriving DecidableEq, Repr

/-! ### Select engine (11) -/

/-- A random stream's CTR_DRBG state: Key, V and the reseed counter (R407). -/
structure Stream where
  key : List Byte := []
  v : List Byte := []
  count : Nat := 0
  deriving DecidableEq, Repr

/-! ### Comet (12) -/

/-- A slot of the slot table (R444). -/
structure Slot where
  active : Bool := false
  finished : Bool := false
  reason : Nat := 0
  vocab : Nat := 0
  grammar : Nat := 0
  state : Nat := 0
  count : Nat := 0
  maxNew : Nat := 0
  emitSpecial : Bool := false
  hold : List Byte := []
  out : Nat := 0
  outSize : Nat := 0
  used : Nat := 0
  epoch : Nat := 0
  /-- The sequence has come to its first byte (R439). -/
  led : Bool := false
  deriving DecidableEq, Repr

/-! ### Vision engine (06) -/

/-- A source of vision items (R250, R251): its next SEQ, the buffer at which its rotation stands, the held buffers, the
complete items by buffer, and the buffers picked for items not yet complete. -/
structure VisSource where
  seq : Nat := 0
  next : Nat := 0
  held : List Nat := []
  items : List (Nat × Nat) := []
  work : List Nat := []
  deriving DecidableEq, Repr

/-- A finished item whose header's word 0 is still to be written (R251): what its header says, and its bytes from byte 64. -/
structure VisItem where
  kind : Nat
  source : Nat
  buf : Nat
  addr : Nat
  fn : Nat
  badLines : Nat := 0
  missing : Nat := 0
  flags : Nat
  fs : Nat
  ref : Nat
  quality : Nat
  stamps : Nat := 0
  w : Nat
  h : Nat
  c : Nat
  dtype : Nat
  levels : Nat := 1
  body : List Byte
  deriving DecidableEq, Repr

/-- A frame under way: frame number, stamp and its quality, lines after R231 newest first, bad lines, lines beyond HEIGHT, line-group stamps
newest first with the quality of the first, and the buffers picked for its record and its channels (R225 to R227, R251). -/
structure VisFrame where
  fn : Nat
  fs : Nat
  fsQuality : Nat := 0
  quality : Nat
  lines : List (List Nat) := []
  bad : Nat := 0
  long : Bool := false
  stamps : List Nat := []
  record : Option Nat := none
  chans : List (Nat × Nat) := []
  deriving DecidableEq, Repr

/-- A depth set under construction (R234): phases complete, the phase-0 frame without its lines, and what its frames have
been marked with. -/
structure TofSet where
  phases : Nat := 0
  first : VisFrame
  bad : Nat := 0
  marked : Bool := false
  deriving DecidableEq, Repr

/-- A stream: its open frame, the Orbit time at which its watchdog was armed, its depth set. -/
structure VisStream where
  frame : Option VisFrame := none
  armed : Option Nat := none
  set : Option TofSet := none
  deriving DecidableEq, Repr

/-- A scan under way (R239): its stamp and quality, its number, its buffer, and the filled cells: range and intensity. -/
structure VisScan where
  stamp : Nat
  quality : Nat
  n : Nat
  buf : Option Nat
  cells : List (Nat × Option Nat) := []
  deriving DecidableEq, Repr

/-- A lidar intake: its open scan, scans opened, and the Orbit time at which its watchdog was armed. -/
structure VisLidar where
  scan : Option VisScan := none
  scans : Nat := 0
  armed : Option Nat := none
  deriving DecidableEq, Repr

/-- The vision engine beside its registers.  Sources are numbered 256 × kind + number. -/
structure Vision where
  streams : List (Nat × VisStream) := []
  lidars : List (Nat × VisLidar) := []
  sources : List (Nat × VisSource) := []
  /-- Finished items, oldest first. -/
  items : List VisItem := []
  /-- Windows that `vfe.set_crop` has set, by channel, until the next frame start. -/
  crops : List (Nat × List Nat) := []
  deriving DecidableEq, Repr

/-! ### What leaves the block -/

/-- What leaves the block during one command. -/
inductive Output where
  /-- A response message on an interface (R613), with its Ethernet return address. -/
  | response (iface : Nat) (back : EthAddr) (msg : List Byte)
  /-- An ARP reply on an Ethernet port. -/
  | arpReply (port : Nat) (ip : Nat)
  /-- A chip-link frame on a port. -/
  | linkFrame (port : Nat) (frame : List Byte)
  /-- An operation on a sensor-control bus or a GPIO pin (Table 17.17). -/
  | sio (op : Nat)
  /-- One sample period of an acoustic output: port, slot, sample. -/
  | audio (port slot : Nat) (sample : Int)
  /-- A pulse on a Tide test output. -/
  | pulse (out : Nat)
  /-- Bits shifted out of the debug port. -/
  | tdo (bits value : Nat)
  /-- An MSI-X vector signalled. -/
  | msix
  /-- A pulse on a test-multiplexer pin (R709). -/
  | tmux (pin : Nat)
  deriving DecidableEq, Repr

/-! ### The state -/

/-- The state of the block. -/
structure State where
  /-- Commands waiting, first in, first out. -/
  pending : List Instr := []
  /-- Reference ticks of 40 ns that have passed (R50). -/
  tick : Nat := 0
  /-- The model's own counter: what the free values are drawn at. -/
  freeCtr : Nat := 0
  /-- What left the block during the last command. -/
  out : List Output := []
  /-- Register words by address; an unlisted word is 0. -/
  regs : List (Nat × Word32) := []
  /-- Snapshots of multi-word counters by the address of their lowest word (R24). -/
  snaps : List (Nat × Option Nat) := []
  /-- DRAM and SRAM bytes by address (Table 9.1); an unlisted byte reads 0. -/
  mem : List Host.Cell := []
  /-- Words that are not good, by address: 16 B words of SRAM, 8 B words of inline-ECC ranges (R340, R358). -/
  health : List (Nat × Health) := []
  /-- Ferroelectric RAM bytes by offset (Table 16.7); an unlisted byte reads 0. -/
  fram : List Host.Cell := []
  /-- Boot flash bytes by offset (R76); an unlisted byte reads 0. -/
  flash : List Host.Cell := []
  /-- UFS model store bytes by unit × 2^80 + offset (R638). -/
  ufs : List Host.Cell := []
  orbit : Orbit := {}
  groups : List (Nat × FgGroup) := []
  boot : Boot := {}
  /-- Scrubbers by SRAM: the entry index of Table 9.11, or 0x100 + n for a scratchpad. -/
  scrubbers : List (Nat × Scrub) := []
  /-- How far the patrol has come in its walk of the data of the inline-ECC ranges (R360). -/
  patrolAt : Nat := 0
  fuses : Fuses := {}
  image : Option Image := none
  /-- The image's BRINGUP tables are in force. -/
  applied : Bool := false
  /-- A compute reset or a loss of power has taken the queues away until the next BRINGUP (R587). -/
  queuesLost : Bool := false
  queues : List (Nat × QueueX) := []
  cmds : List Cmd := []
  nextId : Nat := 0
  held : List HeldRec := []
  threads : List (Nat × Thread) := []
  /-- Threads may pick and engines run (R167). -/
  running : Bool := false
  /-- Initial lists have completed: job grants are given (R181). -/
  grants : Bool := false
  events : List (Nat × Word32) := []
  jobs : List (Nat × Job) := []
  regulators : List (Nat × Regulator) := []
  windows : List (Nat × List WinEntry) := []
  deadlocks : List (Nat × Deadlock) := []
  hub : Hub := {}
  ifaces : Ifaces := {}
  power : Power := {}
  dbg : Debug := {}
  acu : Acoustic := {}
  tide : Tide := {}
  /-- The embedding engine's descriptor file: descriptors of 64 bytes by partition (R375). -/
  embFile : List (Nat × List (List Byte)) := []
  /-- The instantiated random streams by number (R407). -/
  streams : List (Nat × Option Stream) := []
  /-- Comet's slot table (R444). -/
  slots : List (Nat × Slot) := []
  vis : Vision := {}
  /-- The model's own: ranges written by the effect of an aborted command, whose content R154 leaves unspecified. -/
  wrote : Option (List (Nat × Nat)) := none
  deriving DecidableEq, Repr

/-- The machine in power-on reset: every register at its reset value, nothing applied, nothing in memory, the start
sequence waiting for an always-on input (R92, R647). -/
def State.reset : State := { regs := regsReset }

/-- Why a step can fault.  No rule of the spec stops the block, so no meaning raises one: the type has one member that
nothing constructs (safe). -/
inductive Fault where
  /-- Raised by nothing; safe. -/
  | none
  deriving DecidableEq, Repr

/-- Why a command can be refused. -/
inductive Refusal where
  /-- The dispatch, for a command whose meaning is not written yet; safe. -/
  | notModelled (mnemonic : String)
  deriving DecidableEq, Repr

end Sys2Proof.Machine
end

