-- ==== Sys2Proof/Machine/Ops.lean ====
section
/-!
DEFINITION. The named operations over registers, memory, time and free values, and the byte-order and bit-field helpers
they use.
-/

namespace Sys2Proof.Machine

open Sys2Proof

/-! ### Bit fields and bytes (R14, R15) -/

/-- Bits `hi` down to `lo` of `w`. -/
def bits (w hi lo : Nat) : Nat := (w >>> lo) % 2 ^ (hi + 1 - lo)

/-- Bit `n` of `w`. -/
def bit (w n : Nat) : Bool := w.testBit n

/-- 1 for true, 0 for false. -/
def ofBool (b : Bool) : Nat := if b then 1 else 0

/-- `a` put into a list in order, before its equals. -/
def insertBy {α : Type} (le : α → α → Bool) (a : α) : List α → List α
  | [] => [a]
  | b :: l => if le a b then a :: b :: l else b :: insertBy le a l

/-- A list put in order, equals left in theirs. -/
def sortBy {α : Type} (le : α → α → Bool) (l : List α) : List α := l.foldr (insertBy le) []

/-- `w` read in two's complement on `n` bits. -/
def signed (n w : Nat) : Int := if w % 2 ^ n < 2 ^ (n - 1) then (w % 2 ^ n : Nat) else ((w % 2 ^ n : Nat) : Int) - 2 ^ n

/-- The `n`-bit two's complement code of `x`. -/
def unsigned (n : Nat) (x : Int) : Nat := (x % 2 ^ n).toNat

/-- The little-endian value of a byte string. -/
def leNat : List Byte → Nat
  | [] => 0
  | b :: bs => b.toNat + 256 * leNat bs

/-- The `n` bytes of `v`, least significant first. -/
def leBytes : Nat → Nat → List Byte
  | 0, _ => []
  | n + 1, v => BitVec.ofNat 8 v :: leBytes n (v / 256)

/-- `n` bytes of `bs` from offset `o`, zero beyond its end. -/
def slice (bs : List Byte) (o n : Nat) : List Byte :=
  let t := (bs.drop o).take n
  t ++ List.replicate (n - t.length) 0#8

/-- The `n`-byte little-endian field of `bs` at offset `o`. -/
def field (bs : List Byte) (o n : Nat) : Nat := leNat (slice bs o n)

/-- The bytes of a list of 64-bit words. -/
def wordsBytes (ws : List Nat) : List Byte := ws.flatMap (leBytes 8)

/-- A byte string cut into 64-bit words, `n` of them. -/
def bytesWords (bs : List Byte) (n : Nat) : List Nat := (List.range n).map fun i => field bs (8 * i) 8

/-- `⌈a ÷ b⌉`. -/
def ceilDiv (a b : Nat) : Nat := (a + b - 1) / b

/-- `x` held to `[lo, hi]`. -/
def clampInt (lo hi x : Int) : Int := if x < lo then lo else if hi < x then hi else x

/-- The first element of a list that meets a test, replaced. -/
def updateFirst {α : Type} (p : α → Bool) (f : α → α) : List α → List α
  | [] => []
  | a :: l => if p a then f a :: l else a :: updateFirst p f l

/-! ### CRC-32/ISO-HDLC -/

/-- One bit of the reflected division by 0x04C11DB7. -/
def crcBit (c : Nat) : Nat := if c % 2 = 1 then (c / 2) ^^^ 0xEDB88320 else c / 2

/-- One byte into the running remainder. -/
def crcByte (c : Nat) (b : Byte) : Nat :=
  crcBit (crcBit (crcBit (crcBit (crcBit (crcBit (crcBit (crcBit (c ^^^ b.toNat))))))))

/-- CRC-32/ISO-HDLC of a byte string. -/
def crc32 (bs : List Byte) : Nat := (bs.foldl crcByte 0xFFFFFFFF) ^^^ 0xFFFFFFFF

/-! ### The LFSR of R288 -/

/-- A step of the LFSR of R288. -/
def lfsrStep (s : Nat) : Nat :=
  let b := (bits s 0 0 + bits s 2 2 + bits s 3 3 + bits s 5 5) % 2
  s / 2 + 2 ^ 15 * b

/-- `n` output bits as a value, and the state after them. -/
def lfsrBits : Nat → Nat → Nat × Nat
  | 0, s => (0, s)
  | n + 1, s => let r := lfsrBits n (lfsrStep s); (s % 2 + 2 * r.1, r.2)

/-! ### Registers (R17, R27) -/

/-- The register word at address `a`. -/
def State.regWord (s : State) (a : Nat) : Nat := (Sparse.get 0#32 s.regs a).toNat

/-- The register word at address `a` set to `v`. -/
def State.setRegWord (s : State) (a v : Nat) : State := { s with regs := Sparse.put 0#32 s.regs a (BitVec.ofNat 32 v) }

/-- The `n` register words from address `a` as one number, low word first. -/
def State.regWords (s : State) (a : Nat) : Nat → Nat
  | 0 => 0
  | n + 1 => s.regWord a + 2 ^ 32 * s.regWords (a + 4) n

/-- The `n` register words from address `a` set to the number `v`. -/
def State.setRegWords (s : State) (a v : Nat) : Nat → State
  | 0 => s
  | n + 1 => (s.setRegWord a v).setRegWords (a + 4) (v / 2 ^ 32) n

/-- The value of element (i, j) of a register field. -/
def State.reg (s : State) (r : RegRow) (i : Nat := 0) (j : Nat := 0) : Nat :=
  bits (s.regWords (r.at i j) r.words) (r.lo + r.width - 1) r.lo

/-- Element (i, j) of a register field set to `v`, cut to the field's width. -/
def State.setReg (s : State) (r : RegRow) (v : Nat) (i : Nat := 0) (j : Nat := 0) : State :=
  let old := s.regWords (r.at i j) r.words
  let low := old % 2 ^ r.lo
  let high := old / 2 ^ (r.lo + r.width)
  s.setRegWords (r.at i j) (low + 2 ^ r.lo * (v % 2 ^ r.width) + 2 ^ (r.lo + r.width) * high) r.words

/-- A counter field with `n` added; it saturates at its largest value. -/
def State.incReg (s : State) (r : RegRow) (i : Nat := 0) (j : Nat := 0) (n : Nat := 1) : State :=
  s.setReg r (min (s.reg r i j + n) (2 ^ r.width - 1)) i j

/-- Whether a one-bit field is 1. -/
def State.flag (s : State) (r : RegRow) (i : Nat := 0) (j : Nat := 0) : Bool := s.reg r i j != 0

/-- Every register of `[lo, hi)` back at its reset value, and its snapshots forgotten. -/
def State.resetRegs (s : State) (lo hi : Nat) : State :=
  { s with
    regs := (regsReset.filter fun p => decide (lo ≤ p.1 ∧ p.1 < hi)).foldl (fun m p => Sparse.put 0#32 m p.1 p.2)
              (Sparse.clear s.regs lo hi)
    snaps := Sparse.clear s.snaps lo hi }

/-! ### Memory (R15, Table 9.1) -/

/-- The byte of memory at address `a`. -/
def State.byte (s : State) (a : Nat) : Byte := Sparse.get 0#8 s.mem a

/-- The byte of memory at address `a` set to `v`. -/
def State.setByte (s : State) (a : Nat) (v : Byte) : State := { s with mem := Sparse.put 0#8 s.mem a v }

/-- `n` bytes of memory from address `a`. -/
def State.bytes (s : State) (a : Nat) : Nat → List Byte
  | 0 => []
  | n + 1 => s.byte a :: s.bytes (a + 1) n

/-- A byte string written to memory from address `a`. -/
def State.setBytes (s : State) (a : Nat) : List Byte → State
  | [] => s
  | b :: bs => (s.setByte a b).setBytes (a + 1) bs

/-- The `n`-byte little-endian value in memory at address `a`. -/
def State.load (s : State) (a n : Nat) : Nat := leNat (s.bytes a n)

/-- The `n`-byte little-endian value `v` stored in memory at address `a`. -/
def State.store (s : State) (a n v : Nat) : State := s.setBytes a (leBytes n v)

/-- Memory of `[lo, hi)` back at what an unlisted byte reads as. -/
def State.clearMem (s : State) (lo hi : Nat) : State :=
  { s with mem := Sparse.clear s.mem lo hi, health := Sparse.clear s.health lo hi }

/-- `n` bytes of a byte store from offset `a`. -/
def cellBytes (m : List Host.Cell) (a : Nat) : Nat → List Byte
  | 0 => []
  | n + 1 => Sparse.get 0#8 m a :: cellBytes m (a + 1) n

/-- A byte string written to a byte store from offset `a`. -/
def setCellBytes (m : List Host.Cell) (a : Nat) : List Byte → List Host.Cell
  | [] => m
  | b :: bs => setCellBytes (Sparse.put 0#8 m a b) (a + 1) bs

/-! ### Keyed lists -/

/-- The thread `t`'s state. -/
def State.thread (s : State) (t : Nat) : Thread := Sparse.get {} s.threads t

def State.setThread (s : State) (t : Nat) (x : Thread) : State := { s with threads := Sparse.put {} s.threads t x }

/-- The queue `q`'s hidden state. -/
def State.queueX (s : State) (q : Nat) : QueueX := Sparse.get {} s.queues q

def State.setQueueX (s : State) (q : Nat) (x : QueueX) : State := { s with queues := Sparse.put {} s.queues q x }

/-- The value of an event: partition events at 4096 × partition + number, global events from 16384 (R141). -/
def State.event (s : State) (e : Nat) : Nat := (Sparse.get 0#32 s.events e).toNat

def State.setEvent (s : State) (e v : Nat) : State := { s with events := Sparse.put 0#32 s.events e (BitVec.ofNat 32 v) }

/-- The command with identity `c`. -/
def State.cmd? (s : State) (c : Nat) : Option Cmd := s.cmds.find? fun x => x.id == c

def State.setCmd (s : State) (x : Cmd) : State := { s with cmds := updateFirst (fun y => y.id == x.id) (fun _ => x) s.cmds }

def State.dropCmd (s : State) (c : Nat) : State := { s with cmds := s.cmds.filter fun x => x.id != c }

/-! ### Time (R49 to R52) -/

/-- The rate correction in force, in parts per billion (R50). -/
def State.rate (s : State) : Int := signed 32 (s.reg R.TIME_RATE_CORR)

/-- Orbit time advanced by `dt` reference ticks at a rate correction: each tick adds 40 ns adjusted by the correction,
the fraction carried (R50).  LOCKED operation is remembered for the average of R55. -/
def Orbit.advance (o : Orbit) (dt : Nat) (rate : Int) (locked : Bool) : Orbit :=
  let total := o.sub + dt * 40 * (1000000000 + rate).toNat
  { o with
    now := (o.now + total / 1000000000) % 2 ^ 64
    sub := total % 1000000000
    locked :=
      if locked && dt != 0 then
        match o.locked with
        | (n, r) :: l => if r = rate then (n + dt, r) :: l else (dt, rate) :: (n, r) :: l
        | [] => [(dt, rate)]
      else o.locked }

/-- Orbit time. -/
def State.now (s : State) : Nat := s.orbit.now

/-- The quality byte of a stamp: the Orbit state (R60). -/
def State.quality (s : State) : Nat := s.reg R.TIME_STATUS_STATE

/-- Reference ticks in `us` microseconds. -/
def usTicks (us : Nat) : Nat := us * 25

/-- Reference ticks in `ms` milliseconds. -/
def msTicks (ms : Nat) : Nat := ms * 25000

/-! ### Free values and outputs -/

/-- A free number below `n`, and the counter advanced. -/
def State.freeBelow (s : State) (n : Nat) : Nat × State :=
  (Config.freeNat s.freeCtr % n, { s with freeCtr := s.freeCtr + 1 })

/-- A free integer of magnitude at most `m`, and the counter advanced. -/
def State.freeWithin (s : State) (m : Nat) : Int × State :=
  (clampInt (-(m : Int)) m (Config.freeInt s.freeCtr), { s with freeCtr := s.freeCtr + 1 })

/-- A range of memory left unspecified. -/
def State.scramble (s : State) (a n : Nat) : State :=
  { s.setBytes a (leBytes n (Config.freeNat s.freeCtr)) with freeCtr := s.freeCtr + 1 }

/-- A stamp of an edge `sub` ns into the current tick: Orbit time there, within the error bound of Table 2.2. -/
def State.stamp (s : State) (sub bound : Nat) : Nat × State :=
  let (e, s) := s.freeWithin bound
  ((((s.now + min sub 39 : Nat) : Int) + e).toNat, s)

/-- Something leaves the block. -/
def State.emit (s : State) (o : Output) : State := { s with out := s.out ++ [o] }

/-- Pulses on the test-multiplexer pins that carry signal `sig` with argument `arg` (R709, Table 20.6). -/
def State.tmuxPulses (s : State) (sig arg : Nat) : List Output :=
  ((List.range 16).filter fun n => s.reg R.DBG_TMUX_SEL_SIG n == sig && s.reg R.DBG_TMUX_SEL_ARG n == arg).map .tmux

def State.tmuxPulse (s : State) (sig arg : Nat) : State := { s with out := s.out ++ s.tmuxPulses sig arg }

/-! ### Service state (R35) -/

/-- TOP.SVC.STATE: 0 STARTING, 1 IN_SERVICE, 2 SAFE, 3 OUT_OF_SERVICE, 4 CONFIG_FAULT. -/
def State.svc (s : State) : Nat := s.reg R.TOP_SVC_STATE

/-- A change of service state, stamped (R36). -/
def State.setSvc (s : State) (c : Nat) : State := (s.setReg R.TOP_SVC_STATE c).setReg R.TOP_SVC_TIME_TIME s.now

end Sys2Proof.Machine
end

