-- ==== Sys2Proof/Machine/Queue.lean ====
section
/-!
DEFINITION. Queues as every producer and consumer uses them: slots, doorbells, release, the device's own producers, and
the answers of intake control (R119 to R130, R192, R728).
-/

namespace Sys2Proof.Machine

open Sys2Proof

/-! ### Queue states of Table 4.5 -/

def qDisabled : Nat := 0
def qIdle : Nat := 1
def qActive : Nat := 2
def qStopped : Nat := 3
def qFenced : Nat := 4

/-- QUE.STATE.STATE of queue `q`. -/
def State.qState (s : State) (q : Nat) : Nat := s.reg R.QUE_STATE_STATE q

def State.setQState (s : State) (q v : Nat) : State := s.setReg R.QUE_STATE_STATE v q

/-- Slots S of the ring of queue `q`. -/
def State.qSize (s : State) (q : Nat) : Nat := 2 ^ s.reg R.QUE_CFG_LOG2_SLOTS q

def State.wptr (s : State) (q : Nat) : Nat := s.reg R.QUE_WPTR_WPTR q
def State.rptr (s : State) (q : Nat) : Nat := s.reg R.QUE_RPTR_RPTR q
def State.gen (s : State) (q : Nat) : Nat := s.reg R.QUE_STATE_GEN q

/-- `(a − b) mod 2S` of queue `q`. -/
def State.ptrDiff (s : State) (q a b : Nat) : Nat := (a + 2 * s.qSize q - b) % (2 * s.qSize q)

/-- A pointer of queue `q` advanced by `n` slots (R119). -/
def State.ptrAdd (s : State) (q p n : Nat) : Nat := (p + n) % (2 * s.qSize q)

/-- Committed slots of queue `q`. -/
def State.qCount (s : State) (q : Nat) : Nat := s.ptrDiff q (s.wptr q) (s.rptr q)

/-- Free space of queue `q`, in slots. -/
def State.qFree (s : State) (q : Nat) : Nat := s.qSize q - s.qCount q

/-- Address of the slot at pointer `p` of queue `q` (R119). -/
def State.slotAddr (s : State) (q p : Nat) : Nat := (s.queueX q).base + 64 * (p % s.qSize q)

/-- The 64 bytes of the slot at pointer `p` of queue `q`. -/
def State.slot (s : State) (q p : Nat) : List Byte := s.bytes (s.slotAddr q p) 64

/-- Slots written from pointer `p` of queue `q` upwards. -/
def State.putSlots (s : State) (q p : Nat) : List (List Byte) → State
  | [] => s
  | b :: bs => (s.setBytes (s.slotAddr q p) (slice b 0 64)).putSlots q (s.ptrAdd q p 1) bs

/-- Whether a command of queue `q` has been taken and has not yet completed. -/
def State.qBusy (s : State) (q : Nat) : Bool := s.cmds.any fun c => c.queue == q

/-! ### Doorbells (R125) -/

/-- The cause for which a doorbell of queue `q` is rejected, 0 if it is accepted (R125, Table 4.5).  The conditions are
judged in the order in which R125 lists them. -/
def State.doorbellCause (s : State) (q wptr gen : Nat) : Nat :=
  if s.qState q = qFenced then 0x31
  else if s.qState q = qDisabled then 0x33
  else if 2 * s.qSize q ≤ wptr then 0x33
  else if gen ≠ s.gen q then 0x32
  else if s.qSize q < s.ptrDiff q wptr (s.rptr q) then 0x33
  else if s.qFree q < s.ptrDiff q wptr (s.wptr q) then 0x33
  else 0

/-- A doorbell judged: its cause, and the state after it (R125, R128). -/
def State.doorbell (s : State) (q wptr gen : Nat) : Nat × State :=
  let cause := s.doorbellCause q wptr gen
  if cause = 0 then
    let s := s.setReg R.QUE_WPTR_WPTR wptr q
    (0, if s.qState q = qIdle ∧ s.qCount q ≠ 0 then s.setQState q qActive else s)
  else if cause = 0x33 then (cause, s.incReg R.QUE_REJECT_RANGE q)
  else (cause, s.incReg R.QUE_REJECT_GEN q)

/-- One of the device's own producers writes an item of slots to queue `q` and rings (R124, R728): whether the item was
committed.  A rejected item is lost and its slots counted in QUE.DISCARD. -/
def State.produce (s : State) (q : Nat) (item : List (List Byte)) : Bool × State :=
  let w := s.wptr q
  let ok := s.doorbellCause q (s.ptrAdd q w item.length) (s.gen q) = 0
  let s1 := if ok then s.putSlots q w item else s
  let r := s1.doorbell q (s.ptrAdd q w item.length) (s.gen q)
  if ok then (true, r.2) else (false, r.2.incReg R.QUE_DISCARD_SLOTS q 0 item.length)

/-- Whether queue `q` accepts an item of `n` slots. -/
def State.hasRoom (s : State) (q n : Nat) : Bool :=
  s.qState q != qDisabled && s.qState q != qFenced && decide (n ≤ s.qFree q)

/-- `n` slots of queue `q` released by its consumer; a data or completion queue that is then empty is IDLE (R128). -/
def State.release (s : State) (q n : Nat) : State :=
  let s := s.setReg R.QUE_RPTR_RPTR (s.ptrAdd q (s.rptr q) n) q
  if s.qState q = qActive ∧ s.qCount q = 0 ∧ s.reg R.QUE_CFG_KIND q ≠ 0 ∧ 32 ≤ q then s.setQState q qIdle
  else if s.qState q = qActive ∧ s.qCount q = 0 ∧ q < 32 then s.setQState q qIdle
  else s

/-- A record written to Q1 or Q2: intake control releases the oldest when a new one needs room (R198). -/
def State.record (s : State) (q : Nat) (words : List Nat) : State :=
  let s := if s.qState q ≠ qDisabled ∧ s.qFree q = 0 then s.release q 1 else s
  (s.produce q [wordsBytes words]).2

/-- A Q2 record of four leading words (Tables 5.10 and 16.2). -/
def State.q2 (s : State) (w0 w2 w3 w4 : Nat) : State := s.record 2 [w0, s.now, w2, w3, w4, 0, 0, 0]

/-- The records a log holds, oldest first (R198): Q0 from the island's ring, Q1 and Q2 from their queues. -/
def State.logRecords (s : State) (log : Nat) : List (List Byte) :=
  if log = 0 then s.hub.startRecs.map wordsBytes
  else (List.range (s.qCount log)).map fun i => s.slot log (s.ptrAdd log (s.rptr log) i)

/-! ### Answers of intake control (R192, Table 5.9) -/

/-- A response item: header and body, in slots. -/
def responseItem (word0 status dup detail : Nat) (body : List Byte) : List (List Byte) :=
  let hdr := wordsBytes [word0, body.length + 2 ^ 32 * status + 2 ^ 40 * dup, 0, detail, 0, 0, 0, 0]
  hdr :: (List.range (ceilDiv body.length 64)).map fun i => slice body (64 * i) 64

/-- The tables of clients and routes are in force, outside CONFIG_FAULT (R190). -/
def State.hasTables (s : State) : Bool := s.applied && s.svc != 4

/-- Requests and answers pass without queues: none are applied, or CONFIG_FAULT (R639). -/
def State.noQueues (s : State) : Bool := !s.hasTables || s.queuesLost

/-- Items pass system queue `q` by: no queues are applied, or the image does not configure it (R122). -/
def State.passedBy (s : State) (q : Nat) : Bool := s.noQueues || s.qState q == qDisabled

/-- Intake control answers a request of interface `iface`, without its response queue where that is passed by. -/
def State.answer (s : State) (iface word0 status dup detail : Nat) (body : List Byte) : State :=
  if !s.passedBy (16 + iface) then (s.produce (16 + iface) (responseItem word0 status dup detail body)).2
  else { s with ifaces.unsent := s.ifaces.unsent ++
    [(iface, wordsBytes [word0, body.length + 2 ^ 32 * status + 2 ^ 40 * dup, 0, detail, 0, 0, 0, 0] ++ body)] }

/-- The window of the client at entry index `i`, oldest entry first (R194). -/
def State.window (s : State) (i : Nat) : List WinEntry := Sparse.get [] s.windows i

def State.setWindow (s : State) (i : Nat) (w : List WinEntry) : State := { s with windows := Sparse.put [] s.windows i w }

/-- An open window entry answered with an empty body and closed. -/
def State.closeEntry (s : State) (i : Nat) (e : WinEntry) (status detail : Nat) : State :=
  let s := s.answer e.iface e.word0 status 0 detail []
  s.setWindow i (updateFirst (fun x => x.reqId == e.reqId && x.closed.isNone)
    (fun x => { x with closed := some status }) (s.window i))

/-- Every open request answered NOT_COMPLETED and closed (R197). -/
def State.closeAll (s : State) : State :=
  (List.range 64).foldl (fun s i =>
    (s.window i).foldl (fun s e => if e.closed.isNone then s.closeEntry i e 0x06 0 else s) s) s

end Sys2Proof.Machine
end

