-- ==== Sys2Proof/Machine/Domains.lean ====
section
/-!
DEFINITION. Power domains and the memories they hold (Tables 9.1, 9.8 and 18.2).
-/

namespace Sys2Proof.Machine

open Sys2Proof

/-- First address of the scratchpad of core `n`, of cluster memory `c`, and of sequencer memory `p` (Table 9.1). -/
def spadBase (n : Nat) : Nat := 0x00E000000000 + 0x1000000 * n
def cmemBase (c : Nat) : Nat := 0x00E100000000 + 0x1000000 * c
def seqMemBase (p : Nat) : Nat := 0x00E205000000 + 0x40000 * p
def visionMem : Nat := 0x00E200000000
def cometMem : Nat := 0x00E201000000
def selectMem : Nat := 0x00E202000000
def embedMem : Nat := 0x00E203000000
def acousticMem : Nat := 0x00E204000000
def islandMem : Nat := 0x00E206000000

/-- The engine-local and core memories of a power domain: (base, size). -/
def domainMemories (d : Nat) : List (Nat × Nat) :=
  if 1 ≤ d ∧ d ≤ 4 then
    (cmemBase (d - 1), 0x800000) :: (List.range 4).map fun k => (spadBase (4 * (d - 1) + k), 0x600000)
  else if d = 5 then [(visionMem, 0x400000)]
  else if d = 6 then [(acousticMem, 0x200000)]
  else if d = 7 then [(cometMem, 0x600000)]
  else if d = 8 then [(selectMem, 0x200000), (embedMem, 0x100000)]
  else if d = 9 then (List.range 8).map fun p => (seqMemBase p, 0x40000)
  else []

/-- The SRAMs of a power domain, by the index of their scrubbers. -/
def domainSrams (d : Nat) : List Nat :=
  if 1 ≤ d ∧ d ≤ 4 then (d - 1) :: (List.range 4).map fun k => 0x100 + 4 * (d - 1) + k
  else if d = 5 then [4] else if d = 6 then [8] else if d = 7 then [5] else if d = 8 then [6, 7]
  else if d = 9 then (List.range 8).map fun p => 9 + p
  else []

/-- The memories of a domain zero-filled (R365), with no word poisoned; their scrub passes begin anew (R370).  Comet's slots
go with domain 7, and with domain 6 the acoustic ports, clock and mix stop (R489). -/
def State.zeroDomain (s : State) (d : Nat) : State :=
  let s := (domainMemories d).foldl (fun s m => s.clearMem m.1 (m.1 + m.2)) s
  let s := if d = 7 then { s with slots := [] } else s
  let s := if d = 6 then (({ s with acu := {} }).setReg R.ACU_STATUS_SP_RUN 0).setReg R.ACU_STATUS_BP_RUN 0 else s
  { s with scrubbers := (domainSrams d).foldl (fun m i => Sparse.put {} m i { began := s.tick }) s.scrubbers }

/-- PWR.DOMAINS bit `d`. -/
def State.powered (s : State) (d : Nat) : Bool := bit (s.reg R.PWR_DOMAINS_ON <<< 1) d

/-- PWR.CORES bit `n`. -/
def State.corePowered (s : State) (n : Nat) : Bool := bit (s.reg R.PWR_CORES_ON) n

/-- Bit `n` of a register field set or cleared. -/
def State.setBit (s : State) (r : RegRow) (n : Nat) (v : Bool) (i : Nat := 0) (j : Nat := 0) : State :=
  let x := s.reg r i j
  s.setReg r (if v then x ||| 2 ^ n else if x.testBit n then x - 2 ^ n else x) i j

/-- A tensor core powered or unpowered, with TC.STATUS.POWERED (R657). -/
def State.powerCore (s : State) (n : Nat) (on : Bool) : State :=
  (s.setBit R.PWR_CORES_ON n on).setReg R.TC_STATUS_POWERED (ofBool on) n

/-- A domain powered on with its memories zero-filled (R656, R658); one already powered is left. -/
def State.powerOn (s : State) (d : Nat) : State :=
  if s.powered d then s else
  let s := (s.setBit R.PWR_DOMAINS_ON (d - 1) true).zeroDomain d
  let s := { s with power.armed := true }
  if 1 ≤ d ∧ d ≤ 4 then
    let s := (List.range 4).foldl (fun s k => s.powerCore (4 * (d - 1) + k) true) s
    s.setBit R.CLK_PLL_LOCK_LOCKED (d - 1) true
  else if d = 10 then (s.setBit R.CLK_PLL_LOCK_LOCKED 4 true).setBit R.CLK_PLL_LOCK_LOCKED 6 true
  else if d = 5 ∨ d = 8 then s.setBit R.CLK_PLL_LOCK_LOCKED 5 true
  else if d = 6 then s.setBit R.CLK_PLL_LOCK_LOCKED 7 true
  else s

/-- Power domain of a clock domain of Table 18.3, for the monitored ones. -/
def clockPower (c : Nat) : Nat :=
  if 3 ≤ c ∧ c ≤ 6 then c - 2
  else if c = 7 ∨ c = 13 ∨ c = 14 then 10
  else if c = 8 then 9
  else if c = 10 then 5
  else if c = 15 then 11
  else if c = 16 then 12
  else if c = 17 then 13
  else if c = 18 ∨ c = 19 then 6
  else if c = 22 then 7
  else if c = 23 then 8
  else if c = 24 then 14
  else 0

/-- What the link engine of an unpowered interface domain has lost (R656, R723): Ethernet and CAN, PCIe, or the chip links. -/
def State.dropIface (s : State) (d : Nat) : State :=
  if d = 11 then
    let s := (List.range 2).foldl (fun s p => s.setReg R.ETH_STATUS_UP 0 p) s
    { s with ifaces := { s.ifaces with reasm0 := [], reasm1 := [], can := [] } }
  else if d = 12 then ((s.setReg R.PCIE_STATUS_UP 0).setReg R.PCIE_STATUS_GEN 0).setReg R.PCIE_STATUS_WIDTH 0
  else if d = 13 then
    let s := (List.range 2).foldl (fun s p => if s.reg R.LINK_STATE_STATE p = 4 then s.setReg R.LINK_STATE_STATE 0 p else s) s
    { s with ifaces := { s.ifaces with port0 := {}, port1 := {}, lists := [], putsIn := [] } }
  else s

/-- A domain powered off: its memories are lost and its clock-fault bits clear (R658, R674). -/
def State.powerOff (s : State) (d : Nat) : State :=
  if !s.powered d then s else
  let s := (s.setBit R.PWR_DOMAINS_ON (d - 1) false).zeroDomain d
  let s := { s with power.lost := d :: s.power.lost.filter (fun x => x != d) }
  let s := if 1 ≤ d ∧ d ≤ 4 then (List.range 4).foldl (fun s k => s.powerCore (4 * (d - 1) + k) false) s else s
  let s := s.dropIface d
  (List.range 26).foldl (fun s c => if c ≠ 0 ∧ clockPower c = d then s.setBit R.CLK_CLK_FAULT_DOMAIN (c - 1) false else s) s

/-- The last-good interface record of higher SEQ that is valid, if any: its 1024 bytes (R639). -/
def State.lastGood (s : State) : Option (List Byte) :=
  let copy (c : Nat) : Option (List Byte) :=
    let b := cellBytes s.fram (0x4100 + 1024 * c) 1024
    if field b 0 4 = 0x49474C4A ∧ field b 0x3FC 4 = crc32 (b.take 0x3FC) then some b else none
  match copy 0, copy 1 with
  | some a, some b => if field a 4 4 < field b 4 4 then some b else some a
  | some a, none => some a
  | none, b => b

end Sys2Proof.Machine
end

