-- ==== Sys2Proof/Machine/Image.lean ====
section
/-!
DEFINITION. The tables of the image in use, read from its sections (R78 to R87, R122, R143, R170 to R187, R348).
-/

namespace Sys2Proof.Machine

open Sys2Proof

/-! ### Sections -/

/-- The sections of a type, in table order. -/
def Image.sections (m : Image) (type : Nat) : List Section := m.secs.filter fun x => x.type == type

/-- The bytes of the one section of a type; empty where the image has none. -/
def Image.sec (m : Image) (type : Nat) : List Byte :=
  match m.sections type with
  | x :: _ => x.bytes
  | [] => []

/-- The bytes of the section of a type of the image in use. -/
def State.sec (s : State) (type : Nat) : List Byte :=
  match s.image with
  | some m => m.sec type
  | none => []

/-- A byte string cut into entries of `n` bytes. -/
def entries (n : Nat) (bs : List Byte) : List (List Byte) :=
  (List.range (bs.length / n)).map fun i => slice bs (n * i) n

/-! ### Partitions, clients and routes (Tables 5.1 to 5.5) -/

/-- The partition entries of a PARTITIONS section. -/
def partEntries (b : List Byte) : List (List Byte) := (List.range (field b 0 1)).map fun i => slice b (64 + 256 * i) 256

/-- The client entries of a PARTITIONS section. -/
def clientEntries (b : List Byte) : List (List Byte) :=
  (List.range (field b 1 1)).map fun i => slice b (64 + 256 * field b 0 1 + 16 * i) 16

/-- The route entries of a PARTITIONS section. -/
def routeEntries (b : List Byte) : List (List Byte) :=
  (List.range (field b 2 1)).map fun i => slice b (64 + 256 * field b 0 1 + 16 * field b 1 1 + 32 * i) 32

/-- The entry of partition `p`, if the image enables it. -/
def State.part (s : State) (p : Nat) : Option (List Byte) := (partEntries (s.sec 2)).find? fun e => field e 0 1 == p

/-- A field of the entry of partition `p`; 0 where the image has no such partition. -/
def State.partField (s : State) (p o n : Nat) : Nat :=
  match s.part p with
  | some e => field e o n
  | none => 0

def State.partCores (s : State) (p : Nat) : Nat := s.partField p 2 2
def State.partPairs (s : State) (p : Nat) : Nat := s.partField p 4 1
def State.partCrit (s : State) (p : Nat) : Nat := s.partField p 1 1
def State.partEngines (s : State) (p : Nat) : Nat := s.partField p 0x0C 2

/-- The partition that holds sequencer pair `n`. -/
def State.pairPart (s : State) (n : Nat) : Option Nat := (List.range 4).find? fun p => (s.partPairs p).testBit n

/-- The partition that holds tensor core `n`. -/
def State.corePart (s : State) (n : Nat) : Option Nat := (List.range 4).find? fun p => (s.partCores p).testBit n

/-- Budget in µs of queue `q` as a job queue of partition `p`; none where it is no job queue (R175). -/
def State.jobBudget (s : State) (p q : Nat) : Option Nat :=
  if q = 0 then none else
  match (List.range 8).find? fun j => s.partField p (0x48 + 8 * j) 2 == q with
  | some j => some (s.partField p (0x4C + 8 * j) 4)
  | none => none

/-- Whether a PERMIT entry of partition `p` names the register at offset `o` of register space (Table 5.2). -/
def State.permits (s : State) (p o : Nat) : Bool :=
  o != 0 && (List.range 24).any fun i => s.partField p (0x88 + 4 * i) 4 == o

/-- Index and entry of a client (Table 5.4). -/
def State.client (s : State) (c : Nat) : Option (Nat × List Byte) :=
  ((List.range (field (s.sec 2) 1 1)).zip (clientEntries (s.sec 2))).find? fun x => field x.2 0 2 == c

/-- The entry of a route (Table 5.5). -/
def State.route (s : State) (r : Nat) : Option (List Byte) := (routeEntries (s.sec 2)).find? fun e => field e 0 1 == r

/-! ### Queues and events (Tables 4.3 and 4.10) -/

def queueEntries (b : List Byte) : List (List Byte) := entries 32 b
def eventEntries (b : List Byte) : List (List Byte) := entries 8 b

/-- Partition that owns queue `q`. -/
def State.qPart (s : State) (q : Nat) : Nat := s.reg R.QUE_CFG_PART q

/-- Whether queue `q` is configured and belongs to partition `p`. -/
def State.ownQueue (s : State) (p q : Nat) : Bool := decide (32 ≤ q) && s.qState q != qDisabled && s.qPart q == p

/-- Index of an event in the event store: a partition's event, or a global one (R141). -/
def eventIndex (p e : Nat) (global : Bool) : Nat := if global then 16384 + e else 4096 * p + e

/-- The EVENTS entry that names an event, if any. -/
def State.eventEntry (s : State) (p e : Nat) (global : Bool) : Option (List Byte) :=
  (eventEntries (s.sec 4)).find? fun x =>
    let w := field x 0 8
    bits w 11 0 == e && bit w 14 == global && (global || bits w 13 12 == p)

/-- Whether a partition may wait on, signal or write an event (R143). -/
def State.eventAccess (s : State) (p e : Nat) (global : Bool) : Bool :=
  if global then
    decide (e < 1024) && (match s.eventEntry p e true with
      | some x => bit (field x 0 8) (16 + p)
      | none => false)
  else true

/-- EXTERNAL of an event; 0 where no entry names it (R208). -/
def State.eventExternal (s : State) (p e : Nat) (global : Bool) : Bool :=
  match s.eventEntry p e global with
  | some x => bit (field x 0 8) 15
  | none => false

/-! ### Regions (Tables 9.3 and 9.4) -/

/-- A region: base, size, READ and WRITE. -/
structure Region where
  base : Nat
  size : Nat
  read : Bool
  write : Bool
  deriving DecidableEq, Repr

def regionOf (e : List Byte) : Region :=
  let w1 := field e 8 8
  ⟨bits (field e 0 8) 47 0, bits w1 39 0, bit w1 40, bit w1 41⟩

/-- Entries `n` from entry index `i` of a REGIONS section. -/
def regionSlice (b : List Byte) (i n : Nat) : List Region :=
  (List.range n).map fun k => regionOf (slice b (16 * (1 + i + k)) 16)

/-- The inline-ECC ranges of a REGIONS section. -/
def eccRanges (b : List Byte) : List Region := regionSlice b 0 (field b 0 1)

/-- The system regions of a REGIONS section. -/
def sysRegions (b : List Byte) : List Region := regionSlice b (field b 0 1) (field b 2 2)

/-- The regions of partition `p` of a REGIONS section. -/
def partRegions (b : List Byte) (p : Nat) : List Region :=
  let before := ((List.range p).map fun k => field b (4 + 2 * k) 2).sum
  regionSlice b (field b 0 1 + field b 2 2 + before) (field b (4 + 2 * p) 2)

/-- The range `[a, a + n)` lies wholly inside the region. -/
def Region.holds (r : Region) (a n : Nat) : Bool := decide (r.base ≤ a ∧ a + n ≤ r.base + r.size)

/-- The bounds failure of a range under a region table (R350, R351): none where one region grants it all, otherwise the
DETAIL address. -/
def boundsFail (rs : List Region) (a n : Nat) (write : Bool) : Option Nat :=
  if n = 0 then none else
  match rs.find? fun r => r.holds a 1 with
  | none => some a
  | some r =>
    if r.holds a n then (if (if write then r.write else r.read) then none else some a)
    else some (r.base + r.size)

/-- The bounds failure of a range that a command of partition `p` names. -/
def State.bounds (s : State) (p a n : Nat) (write : Bool) : Option Nat := boundsFail (partRegions (s.sec 5) p) a n write

/-! ### Memories of the address map (Table 9.1) -/

/-- Configured DRAM capacity in bytes (R356). -/
def State.dramSize (s : State) : Nat := 32 * (0x20000000 <<< s.reg R.MEMC_CFG_DENSITY)

/-- Entry of Table 9.11's list, or 0x100 + n for a scratchpad, of the SRAM that holds an address; none for others. -/
def sramIndex (a : Nat) : Option Nat :=
  if 0x00E000000000 ≤ a ∧ a < 0x00E010000000 then
    if (a - 0x00E000000000) % 0x1000000 < 0x600000 then some (0x100 + (a - 0x00E000000000) / 0x1000000) else none
  else if 0x00E100000000 ≤ a ∧ a < 0x00E104000000 then
    if (a - 0x00E100000000) % 0x1000000 < 0x800000 then some ((a - 0x00E100000000) / 0x1000000) else none
  else if visionMem ≤ a ∧ a < visionMem + 0x400000 then some 4
  else if cometMem ≤ a ∧ a < cometMem + 0x600000 then some 5
  else if selectMem ≤ a ∧ a < selectMem + 0x200000 then some 6
  else if embedMem ≤ a ∧ a < embedMem + 0x100000 then some 7
  else if acousticMem ≤ a ∧ a < acousticMem + 0x200000 then some 8
  else if 0x00E205000000 ≤ a ∧ a < 0x00E205200000 then some (9 + (a - 0x00E205000000) / 0x40000)
  else if islandMem ≤ a ∧ a < islandMem + 0x100000 then some 17
  else none

/-- First offset of an address in its SRAM. -/
def sramOffset (a : Nat) : Nat :=
  match sramIndex a with
  | none => 0
  | some i =>
    if 0x100 ≤ i then a - spadBase (i - 0x100)
    else if i < 4 then a - cmemBase i
    else if i = 4 then a - visionMem else if i = 5 then a - cometMem else if i = 6 then a - selectMem
    else if i = 7 then a - embedMem else if i = 8 then a - acousticMem
    else if i < 17 then a - seqMemBase (i - 9) else a - islandMem

/-- The inline-ECC range of the image in use whose data part holds an address (R358). -/
def State.eccRange (s : State) (a : Nat) : Option Region :=
  (eccRanges (s.sec 5)).find? fun r => decide (r.base ≤ a ∧ a < r.base + 7 * r.size / 8)

/-- Bytes of a protected word at an address: 16 in SRAM, 8 in an inline-ECC range, 0 elsewhere. -/
def State.wordSize (s : State) (a : Nat) : Nat :=
  if (sramIndex a).isSome then 16 else if (s.eccRange a).isSome then 8 else 0

/-! ### Other tables -/

/-- The CABIN entries (R86). -/
def cabinEntries (b : List Byte) : List (List Byte) := entries 16 b

/-- Number of entries of each variable table of an INTERFACES section, and the offset at which it begins (R614). -/
def ifFilters (b : List Byte) : Nat := field b 0 1
def ifWindows (b : List Byte) : Nat := field b 1 1
def ifScripts (b : List Byte) : Nat := field b 2 1
def ifOps (b : List Byte) : Nat := field b 4 2
def ifEth (b : List Byte) (n : Nat) : List Byte := slice b (64 + 64 * n) 64
def ifPcie (b : List Byte) : List Byte := slice b 192 32
def ifCan (b : List Byte) (k : Nat) : List Byte := slice b (224 + 32 * k) 32
def ifLink (b : List Byte) : List Byte := slice b 352 64
def ifI2c (b : List Byte) (k : Nat) : Nat := field b (416 + 4 * k) 4
def ifSpi (b : List Byte) (k : Nat) : Nat := field b (432 + 4 * k) 4
def ifGpio (b : List Byte) : List Byte := slice b 448 16
def ifFilter (b : List Byte) (i : Nat) : List Byte := slice b (464 + 16 * i) 16
def ifWindow (b : List Byte) (i : Nat) : List Byte := slice b (464 + 16 * ifFilters b + 16 * i) 16
def ifScript (b : List Byte) (i : Nat) : Nat := field b (464 + 16 * ifFilters b + 16 * ifWindows b + 8 * i) 8
def ifOp (b : List Byte) (i : Nat) : Nat :=
  field b (464 + 16 * ifFilters b + 16 * ifWindows b + 8 * ifScripts b + 8 * i) 8

/-- Threads present: core-0 threads of every pair held by a partition, and core-1 threads once the pair is split
(R169, R553). -/
def State.present (s : State) (t : Nat) : Bool :=
  let pair := t / 8
  (s.pairPart pair).isSome && (t % 8 < 4 || s.flag R.SAFE_PAIR_STAT_SPLIT pair)

/-- The partition that holds thread `t` (R182). -/
def State.threadPart (s : State) (t : Nat) : Option Nat := s.pairPart (t / 8)

end Sys2Proof.Machine
end

