-- ==== Sys2Proof/Machine/Responses.lean ====
section
/-!
DEFINITION. Response items of partitions (R192).
-/

namespace Sys2Proof.Machine

open Sys2Proof

/-- The route whose RES_QUEUE is queue `q`. -/
def State.routeOfRes (s : State) (q : Nat) : Option Nat :=
  ((routeEntries (s.sec 2)).find? fun e => field e 6 2 == q).map fun e => field e 0 1

/-- Statuses that a partition may write in a response item (R192). -/
def responseStatus (st : Nat) : Bool := decide (st ≤ 3 ∨ (0x40 ≤ st ∧ st ≤ 0xFF))

/-- Slots of the item at RPTR of queue `q`: its header and the body that BODY_LEN gives; none until all are committed. -/
def State.itemSlots (s : State) (q : Nat) : Option Nat :=
  let n := 1 + ceilDiv (field (s.slot q (s.rptr q)) 8 4) 64
  if n ≤ s.qCount q then some n else none

/-- The body bytes of the item at RPTR of queue `q`, `len` of them. -/
def State.itemBody (s : State) (q len : Nat) : List Byte :=
  ((List.range (ceilDiv len 64)).flatMap fun i => s.slot q (s.ptrAdd q (s.rptr q) (1 + i))).take len

/-- The response item at RPTR of `q` is matched to an open window entry of its client and route, sent and the entry
closed; any other is discarded and counted.  Its slots are released. -/
def State.takeResponse (s : State) (q : Nat) : State :=
  match s.itemSlots q, s.routeOfRes q with
  | some n, some r =>
    let h := s.slot q (s.rptr q)
    let w0 := field h 0 8
    let len := field h 8 4
    let st := field h 12 1
    let req := bits w0 63 32
    let body := s.itemBody q len
    let s := s.release q n
    match s.client (bits w0 31 16) with
    | none => s.incReg R.PART_INTAKE_ORPHAN_COUNT
    | some (i, _) =>
      match (s.window i).find? fun e => e.reqId == req && e.closed.isNone && e.route == r with
      | none => s.incReg R.PART_INTAKE_ORPHAN_COUNT
      | some e =>
        if responseStatus st then
          let s := s.answer e.iface e.word0 st 0 (field h 24 8) body
          s.setWindow i (updateFirst (fun x => x.reqId == req && x.closed.isNone)
            (fun x => { x with closed := some st }) (s.window i))
        else s.incReg R.PART_INTAKE_ORPHAN_COUNT
  | _, _ => s

/-- `n` items of queue `q` taken as far as they are committed. -/
def State.takeResponses (s : State) (q : Nat) : Nat → State
  | 0 => s
  | n + 1 => if s.qState q = qActive ∧ (s.itemSlots q).isSome then (s.takeResponse q).takeResponses q n else s

/-- `n` answers of interface `i` taken out of its response queue by the link engine, which keeps them to be sent. -/
def State.saveQueue (s : State) (i : Nat) : Nat → State
  | 0 => s
  | n + 1 =>
    match s.itemSlots (16 + i) with
    | some k =>
      let h := s.slot (16 + i) (s.rptr (16 + i))
      let m := h ++ s.itemBody (16 + i) (field h 8 4)
      let s := s.release (16 + i) k
      ({ s with ifaces.unsent := s.ifaces.unsent ++ [(i, m)] }).saveQueue i n
    | none => s

/-- Answers that stand committed when the queues are lost are kept by the link engine, and no snapshot item waits. -/
def State.saveAnswers (s : State) : State :=
  let s := (List.range 7).foldl (fun s i => if s.noQueues then s else s.saveQueue i (s.qCount (16 + i))) s
  { s with tide.answers := [] }

/-- Response items committed before entry to SAFE are sent (R38, R197). -/
def State.sendCommitted (s : State) : State :=
  (routeEntries (s.sec 2)).foldl (fun s e => s.takeResponses (field e 6 2) (s.qCount (field e 6 2))) s

end Sys2Proof.Machine
end

