-- ==== Sys2Proof/Machine/Sources.lean ====
section
/-!
DEFINITION. The sources of vision items: the VISION section (R224), the sizes and buffers of their items (R250, R251), and
what stops with the vision engine (R263).
-/

namespace Sys2Proof.Machine

open Sys2Proof

/-! ### The VISION section (R224, Tables 6.3 to 6.7) -/

def visStreams (b : List Byte) : Nat := field b 0 1
def visChans (b : List Byte) : Nat := field b 1 1
def visLidars (b : List Byte) : Nat := field b 2 1
def visGammas (b : List Byte) : Nat := field b 3 1
def visGrids (b : List Byte) : Nat := field b 4 1
def visPort (b : List Byte) (n : Nat) : List Byte := slice b (64 + 16 * n) 16
def visStream (b : List Byte) (i : Nat) : List Byte := slice b (192 + 128 * i) 128
def visChan (b : List Byte) (i : Nat) : List Byte := slice b (192 + 128 * visStreams b + 128 * i) 128
def visLidarAt (b : List Byte) : Nat := 192 + 128 * visStreams b + 128 * visChans b
def visLidar (b : List Byte) (i : Nat) : List Byte := slice b (visLidarAt b + 64 * i) 64
def visGamma (b : List Byte) (i : Nat) : List Byte := slice b (visLidarAt b + 64 * visLidars b + 520 * i) 520

/-- Offset of grid block `i`. -/
def visGridAt (b : List Byte) : Nat → Nat
  | 0 => visLidarAt b + 64 * visLidars b + 520 * visGammas b
  | i + 1 => let o := visGridAt b i; o + 16 + 8 * field b o 2 * field b (o + 2) 2

/-- The stream, channel and lidar entries. -/
def visStreamList (b : List Byte) : List (List Byte) := (List.range (visStreams b)).map (visStream b)
def visChanList (b : List Byte) : List (List Byte) := (List.range (visChans b)).map (visChan b)
def visLidarList (b : List Byte) : List (List Byte) := (List.range (visLidars b)).map (visLidar b)

/-- The entry of a stream, of a channel and of a lidar intake of the image in use. -/
def State.streamEntry (s : State) (n : Nat) : Option (List Byte) := (visStreamList (s.sec 6)).find? fun e => field e 0 1 == n
def State.chanEntry (s : State) (n : Nat) : Option (List Byte) := (visChanList (s.sec 6)).find? fun e => field e 0 1 == n
def State.lidarEntry (s : State) (n : Nat) : Option (List Byte) := (visLidarList (s.sec 6)).find? fun e => field e 0 1 == n

/-- KIND of a stream entry. -/
def strKind (e : List Byte) : Nat := field e 4 1
def strW (e : List Byte) : Nat := field e 6 2
def strH (e : List Byte) : Nat := field e 8 2

def chanRot (c : List Byte) : Nat := bits (field c 3 1) 5 4

/-- Wr × Hr. -/
def chanSize (c : List Byte) : Nat × Nat :=
  let w := field c 0x28 2
  let h := field c 0x2A 2
  if chanRot c % 2 = 1 then (h, w) else (w, h)

/-- Level sizes of a channel: its output, and each further level (R247). -/
def chanLevels (c : List Byte) : List (Nat × Nat) :=
  (List.range (field c 0x2D 1 - 1)).foldl (fun l _ =>
    match l.getLast? with
    | some (w, h) => l ++ [(w * field c 0x2E 1 / 256, h * field c 0x2E 1 / 256)]
    | none => l) [(field c 0x28 2, field c 0x2A 2)]

/-- Bytes of a sample of a DTYPE of Table 6.7. -/
def visBytes (dt : Nat) : Nat := if dt < 2 then 1 else 2

/-- Bytes of a channel's item. -/
def chanItemSize (c : List Byte) : Nat :=
  let px := field c 0x33 1 * visBytes (field c 0x32 1)
  let sizes := (chanLevels c).map fun l => l.1 * l.2 * px
  64 + (sizes.dropLast.map fun n => ceilDiv n 64 * 64).sum + sizes.getLastD 0

/-- Line groups of a stream. -/
def strGroups (e : List Byte) : Nat := ceilDiv (strH e) (field e 5 1)

/-- Offset of a record's samples within its item. -/
def recordData (e : List Byte) : Nat := ceilDiv (64 + 8 * strGroups e) 64 * 64

/-- Bytes of a stream record and of a depth record. -/
def recordSize (e : List Byte) : Nat :=
  if strKind e = 3 then recordData e + 4 * strW e * strH e
  else if bit (field e 0x0B 1) 0 then recordData e + 2 * strH e * (if strKind e = 2 then 2 * strW e else strW e)
  else 64 + 8 * strGroups e

/-- Bytes of a range image. -/
def lidarItemSize (e : List Byte) : Nat := 64 + 4 * field e 4 2 * field e 6 2

/-! ### Buffers -/

/-- The buffer ring of a source: owning partition, base, stride, buffers and item bytes. -/
def State.visRing (s : State) (kind n : Nat) : Option (Nat × Nat × Nat × Nat × Nat) :=
  if kind ≤ 1 then
    match s.streamEntry n with
    | some e => if (strKind e == 3) == (kind == 1) then
        some (field e 0x3E 1, field e 0x40 8, field e 0x48 4, field e 0x3F 1, recordSize e) else none
    | none => none
  else if kind = 2 then (s.lidarEntry n).map fun e => (field e 1 1, field e 0x28 8, field e 0x30 4, field e 0x22 1, lidarItemSize e)
  else if kind = 4 then (s.chanEntry n).map fun e => (field e 0x65 1, field e 0x68 8, field e 0x70 4, field e 0x64 1, chanItemSize e)
  else none

def State.visSource (s : State) (kind n : Nat) : VisSource := Sparse.get {} s.vis.sources (256 * kind + n)

def State.setVisSource (s : State) (kind n : Nat) (x : VisSource) : State :=
  { s with vis.sources := Sparse.put {} s.vis.sources (256 * kind + n) x }

/-- Address of buffer `b` of a source. -/
def State.visAddr (s : State) (kind n b : Nat) : Nat :=
  match s.visRing kind n with
  | some (_, base, stride, _, _) => base + b * stride
  | none => 0

/-- A buffer picked for an item that will not be complete: what it holds but for word 0 is unspecified. -/
def State.visLose (s : State) (kind n b : Nat) : State :=
  let x := s.visSource kind n
  let s := s.setVisSource kind n { x with work := x.work.erase b }
  match s.visRing kind n with
  | some (_, base, stride, _, size) => s.scramble (base + b * stride + 8) (size - 8)
  | none => s

/-- The oldest finished item of a source abandoned: left without its word 0, and never reported (R584). -/
def State.visAbandon (s : State) (kind n : Nat) : State :=
  match s.vis.items.find? fun i => i.kind == kind && i.source == n with
  | some i => ({ s with vis.items := s.vis.items.erase i }).visLose kind n i.buf
  | none => s

/-- The vision engine stops: frames, sets, scans and items under way are never reported (R263). -/
def State.stopVision (s : State) : State :=
  let s := s.vis.sources.foldl (fun s x => x.2.work.foldl (fun s b => s.visLose (x.1 / 256) (x.1 % 256) b) s) s
  ({ s with vis.streams := [], vis.lidars := [], vis.items := [] }).setReg R.VFE_STATUS_RUN 0

end Sys2Proof.Machine
end

