-- ==== Sys2Proof/Machine/Sound.lean ====
section
/-!
DEFINITION. The acoustic engine's shared parts: the AUDIO section (R468), gains and their ramps, the causes that stop the
anti-noise (R476), ports in clock fault, and what leaves with service (R487).
-/

namespace Sys2Proof.Machine

open Sys2Proof

/-! ### The AUDIO section (R468, Tables 13.2 to 13.8) -/

def State.audio (s : State) : List Byte := s.sec 7
def audRefs (b : List Byte) : Nat := field b 1 1
def audSpks (b : List Byte) : Nat := field b 2 1
def audErrs (b : List Byte) : Nat := field b 3 1
def audTaps (b : List Byte) : Nat := field b 4 2
def audSpLen (b : List Byte) : Nat := field b 6 2
def audOuts (b : List Byte) : Nat := field b 9 1
def audCaps (b : List Byte) : Nat := field b 0xA 1
def audPlays (b : List Byte) : Nat := field b 0xB 1
def audRef (b : List Byte) (r : Nat) : Nat := field b (0x18 + r) 1
def audErr (b : List Byte) (e : Nat) : Nat := field b (0x24 + e) 1
def audPort (b : List Byte) (n : Nat) : List Byte := slice b (64 + 32 * n) 32
def audSpk (b : List Byte) (i : Nat) : List Byte := slice b (256 + 16 * i) 16
def audOut (b : List Byte) (o : Nat) : List Byte := slice b (256 + 16 * audSpks b + 64 * o) 64
def audCap (b : List Byte) (i : Nat) : List Byte := slice b (256 + 16 * audSpks b + 64 * audOuts b + 64 * i) 64
def audPlay (b : List Byte) (i : Nat) : List Byte :=
  slice b (256 + 16 * audSpks b + 64 * audOuts b + 64 * audCaps b + 32 * i) 32
/-- Offset of W0, and of Ŝ. -/
def audW0 (b : List Byte) : Nat := 256 + 16 * audSpks b + 64 * audOuts b + 64 * audCaps b + 32 * audPlays b
def audModels (b : List Byte) : Nat := audW0 b + 4 * audRefs b * audSpks b * audTaps b
def audCapList (b : List Byte) : List (List Byte) := (List.range (audCaps b)).map (audCap b)
def audPlayList (b : List Byte) : List (List Byte) := (List.range (audPlays b)).map (audPlay b)

/-- The entries of a capture and of a playback channel. -/
def State.capEntry (s : State) (c : Nat) : Option (List Byte) := (audCapList s.audio).find? fun e => field e 0 1 == c
def State.playEntry (s : State) (p : Nat) : Option (List Byte) := (audPlayList s.audio).find? fun e => field e 0 1 == p

def portOn (e : List Byte) : Bool := bit (field e 0 1) 0
def portMaster (e : List Byte) : Bool := bit (field e 0 1) 1
def portRate (e : List Byte) : Nat := bits (field e 0 1) 3 2
def portAlt (e : List Byte) : Nat := bits (field e 0 1) 5 4

/-- SOURCE and GAIN of tap `t` of an output entry. -/
def outTap (o : List Byte) (t : Nat) : Nat × Int := (field o (4 + 4 * t) 1, signed 16 (field o (6 + 4 * t) 2))

/-- The used taps of an output entry. -/
def outTaps (o : List Byte) : List (Nat × Int) := ((List.range 8).map (outTap o)).filter fun t => t.1 != 0xFF

/-- Whether an output entry carries anti-noise. -/
def outAnti (o : List Byte) : Bool := (outTaps o).any fun t => decide (0x70 ≤ t.1 ∧ t.1 < 0x7C)

/-- A sample-path port (R463). -/
def samplePort (b : List Byte) (n : Nat) : Bool :=
  (((List.range (audRefs b)).map (audRef b)) ++ ((List.range (audErrs b)).map (audErr b))).any
    (fun x => decide (x < 0x60 ∧ x / 16 = n)) ||
  (List.range (audOuts b)).any fun o => field (audOut b o) 0 1 == n && outAnti (audOut b o)

/-- A port that carries anti-noise. -/
def antiPort (b : List Byte) (n : Nat) : Bool :=
  (List.range (audOuts b)).any fun o => field (audOut b o) 0 1 == n && outAnti (audOut b o)

/-! ### Gains (R475, R476, R484) -/

/-- A gain at rest. -/
def Ramp.at (g : Nat) : Ramp := ⟨g, g, g, 0, 1, 0⟩

/-- A move to `tgt` at the slope that `n` periods give a full swing. -/
def Ramp.slope (r : Ramp) (tgt n : Nat) : Ramp := ⟨r.g, r.g, tgt, 32768, n, 0⟩

/-- A move to `tgt` over `n` periods. -/
def Ramp.toward (r : Ramp) (tgt n : Nat) : Ramp :=
  if n = 0 then Ramp.at tgt else ⟨r.g, r.g, tgt, (max r.g tgt) - (min r.g tgt), n, 0⟩

/-- One sample period of a move: the exact gain has 15 fraction bits after a rounding that is not stated, up where `up`. -/
def Ramp.move (r : Ramp) (up : Bool) : Ramp :=
  let far := max r.g0 r.tgt - min r.g0 r.tgt
  let j := r.j + 1
  if far * r.den ≤ r.step * j then Ramp.at r.tgt
  else
    let exact := if r.g0 < r.tgt then r.g0 * r.den + r.step * j else r.g0 * r.den - r.step * j
    { r with j := j, g := if up then ceilDiv exact r.den else exact / r.den }

/-- One sample period of a gain, its rounding free. -/
def Ramp.next (r : Ramp) (s : State) : Ramp × State :=
  if r.g = r.tgt then (Ramp.at r.tgt, s)
  else
    let (k, s) := s.freeBelow 2
    (r.move (k == 1), s)

/-! ### Causes and the anti-noise state (R476, Table 13.10) -/

/-- The stop causes of Table 13.10: all but COMMAND_HOLD. -/
def stopCauses : Nat := 0xF7

/-- ANC_STATE: 0 RUN, 1 HOLD, 2 STOPPED. -/
def State.ancState (s : State) : Nat :=
  let c := s.reg R.ACU_STATUS_ANC_CAUSE
  if c &&& stopCauses ≠ 0 then 2 else if bit c 3 ∨ s.acu.a.g < 32768 then 1 else 0

/-- The registers that follow from the engine's state. -/
def State.acuShow (s : State) : State :=
  let b := s.audio
  let ports := (List.range 6).filter fun n => portOn (audPort b n) && samplePort b n
  let s := s.setReg R.ACU_STATUS_LOCKED
    (ofBool (s.flag R.ACU_STATUS_SP_RUN && ports.all fun n => s.flag R.ACU_PORT_STAT_LOCKED n))
  (s.setReg R.ACU_STATUS_ANC_STATE s.ancState).setReg R.ACU_DUCK_GAIN s.acu.duck.g

/-- Causes set and cleared: a fade begins with the first stop cause, a ramp-up with the end of the last, and the baselines are
taken; DATAPATH stops the anti-noise at once (R476, R477, R480). -/
def State.ancCause (s : State) (on off : Nat) : State :=
  let old := s.reg R.ACU_STATUS_ANC_CAUSE
  let new := (old ||| on) - ((old ||| on) &&& off)
  let s := s.setReg R.ACU_STATUS_ANC_CAUSE new
  let was := old &&& stopCauses != 0
  let is := new &&& stopCauses != 0
  let s : State :=
    if is then
      if bit on 6 then { s with acu.a := Ramp.at 0 }
      else if was then s else { s with acu.a := s.acu.a.slope 0 40 }
    else if was then
      { s with acu.a := s.acu.a.slope 32768 480
               acu.base := s.acu.lastEs.map fun (l : List Nat) => l.map fun e => (e, 0)
               acu.aboveBase := [] }
    else s
  s.acuShow

/-- The cause CLOCK: the clock source or a sample-path port is in clock fault (R464). -/
def State.acuClock (s : State) : State :=
  let b := s.audio
  let src := field b 0 1
  if (List.range 6).any fun n =>
      portOn (audPort b n) && (samplePort b n || src == n + 1) && s.flag R.ACU_PORT_STAT_FAULT n
  then s.ancCause 0x80 0 else s.ancCause 0 0x80

def State.acuPort (s : State) (n : Nat) : AcuPort := Sparse.get {} s.acu.ports n
def State.setAcuPort (s : State) (n : Nat) (x : AcuPort) : State := { s with acu.ports := Sparse.put {} s.acu.ports n x }

/-! ### Captures and playback without service (R487, R488, R502) -/

def State.capture (s : State) (c : Nat) : Capture := Sparse.get {} s.acu.caps c
def State.setCapture (s : State) (c : Nat) (x : Capture) : State := { s with acu.caps := Sparse.put {} s.acu.caps c x }

/-- Bytes of a capture's item. -/
def capItemSize (e : List Byte) : Nat :=
  64 + (if field e 5 1 = 0 then 480 else 160) * field e 4 1 * (if field e 6 1 = 3 then 2 else 4)

/-- Address of buffer `b` of a capture. -/
def capAddr (e : List Byte) (b : Nat) : Nat := field e 8 8 + b * field e 0x10 4

/-- A hop never written: what its buffer holds but for word 0 is unspecified. -/
def State.capLose (s : State) (c : Nat) (h : CapHop) : State :=
  match s.capEntry c, h.buf with
  | some e, some b => s.scramble (capAddr e b + 8) (capItemSize e - 8)
  | _, _ => s

/-- The oldest hop of a capture that waits to be written is abandoned (R584). -/
def State.capAbandon (s : State) (c : Nat) : State :=
  let x := s.capture c
  match x.ready with
  | h :: l => (s.setCapture c { x with ready := l }).capLose c h
  | [] => s

/-- The acoustic engine told that the device is not in service: the cause is set, captures stop with their hops unfinished,
queued hops of playback are discarded, and the hop that plays is finished. -/
def State.acuNotInService (s : State) : State :=
  let s := s.ancCause 1 0
  let s := s.acu.caps.foldl (fun s x =>
    let s := match x.2.hop with
      | some h => s.capLose x.1 h
      | none => s
    x.2.ready.foldl (fun s h => s.capLose x.1 h) s) s
  let caps := s.acu.caps.map fun x : Nat × Capture => (x.1, { x.2 with hop := none, ready := [] })
  let plays := s.acu.plays.map fun x : Nat × PlayChan =>
    (x.1, { x.2 with hops := x.2.hops.filter fun h => decide (h.start < s.acu.frame) })
  ({ s with acu.caps := caps, acu.plays := plays }).setReg R.ACU_STATUS_BP_RUN 0

end Sys2Proof.Machine
end

