-- ==== Sys2Proof/Machine/Flags.lean ====
section
/-!
DEFINITION. The fault hub and what a raised fault does: latches, reactions, entry to SAFE, the end of a start attempt, and
the persistent log (R42, R43, R101, R116, R559 to R566, R593, R599 to R601).
-/

namespace Sys2Proof.Machine

open Sys2Proof

/-! ### Persistent log (R600 to R602) -/

/-- Ferroelectric writes of the island are deferred: Tide's supply-loss commit is under way (R47, R539, R649). -/
def State.framBusy (s : State) : Bool := s.tide.commits.any fun c => c.kind == 1 && c.begun.isSome

/-- The 32 bytes of a persistent-log entry (Table 16.8). -/
def plogBytes (index : Nat) (e : PlogEntry) : List Byte :=
  let w0 := index % 2 ^ 32 + 2 ^ 32 * (e.cold % 2 ^ 16)
  let w2 := e.code % 256 + 2 ^ 8 * (e.src % 256) + 2 ^ 16 * (e.inst % 512) + 2 ^ 25 * (e.before % 8)
            + 2 ^ 28 * (e.after % 8) + 2 ^ 32 * (e.value % 2 ^ 32)
  let b := leBytes 8 w0 ++ leBytes 8 e.time ++ leBytes 8 w2 ++ leBytes 4 e.detail
  b ++ leBytes 4 (crc32 b)

/-- A persistent-log entry written at the next INDEX (R601). -/
def State.plogWrite (s : State) (e : PlogEntry) : State :=
  let i := s.hub.plogNext
  let s := { s with
    fram := setCellBytes s.fram (0x8000 + 32 * (i % 7168)) (plogBytes i e)
    hub.plogNext := (i + 1) % 2 ^ 32 }
  s.setReg R.RST_PLOG_COUNT_NEXT s.hub.plogNext

/-- An entry for the persistent log: written, or kept until Tide's commit is done (R47, R565). -/
def State.plog (s : State) (e : PlogEntry) : State :=
  let e := { e with time := s.now, cold := s.reg R.BOOT_TALLY_COLD }
  if s.framBusy then { s with hub.plogDue := s.hub.plogDue ++ [e] } else s.plogWrite e

/-- The entries kept back written in order. -/
def State.plogFlush (s : State) : State :=
  if s.framBusy then s
  else s.hub.plogDue.foldl (fun s e => s.plogWrite e) { s with hub.plogDue := [] }

/-! ### Stopping work -/

/-- PART.JOB_ELAPSED: whole microseconds of the job in partition `p` (R179). -/
def State.jobElapsed (s : State) (p : Nat) : Nat :=
  match Sparse.get none (s.jobs.map fun x => (x.1, some x.2)) p with
  | some j => (s.tick - j.start) / 25
  | none => 0

/-- Every thread stops picking and every engine stops; nothing in flight completes (R167). -/
def State.stopEngines (s : State) : State :=
  let s := (List.range 4).foldl (fun s p => s.setReg R.PART_JOB_ACTIVE 0 p) s.stopVision
  { s with cmds := [], held := [], threads := [], jobs := [], running := false, grants := false, hub.handover := none,
           embFile := [], streams := []
           ifaces := { s.ifaces with puts := [], held := [], matched := [], ready := [] } }

/-- Every fusion group stopped: pending frames discarded and counted, kept items discarded (R69). -/
def State.stopGroups (s : State) : State :=
  let s := (List.range 32).foldl (fun s g =>
    s.incReg R.TIME_FG_DISCARD_COUNT g 0 (Sparse.get {} s.groups g).frames.length) s
  ({ s with groups := [] }).setReg R.TIME_STATUS_ARMED 0

/-- A lower-level retry overtaken by a higher level: abandoned and reported in three places (R593). -/
def State.supersede (s : State) (mech addr attempts : Nat) : State :=
  let s := s.q2 (0x13 + 2 ^ 8 * mech) addr attempts 0
  let s := s.plog { code := 0x08, before := s.svc, after := s.svc, value := mech, detail := addr % 2 ^ 32 }
  s.incReg R.RST_COUNTS_SUPERSEDED

/-- A DRAM link reissue in progress is overtaken (R593). -/
def State.supersedeReissue (s : State) : State :=
  s.hub.reissue.foldl (fun s x => s.supersede 1 x.1 x.2) { s with hub.reissue := [] }

/-! ### Entry to SAFE (R561, R599) -/

/-- The hub's hardware takes the device from IN_SERVICE to SAFE: pins low, state and count, every thread and engine
stopped, open requests answered, groups and playback stopped. -/
def State.enterSafe (s : State) (src inst : Nat) : State :=
  let s := (List.range 4).foldl (fun s p =>
    ((s.setReg R.RST_LAST_JOB_ACTIVE (s.reg R.PART_JOB_ACTIVE p) p).setReg R.RST_LAST_JOB_QUEUE
      (s.reg R.PART_JOB_QUEUE p) p).setReg R.RST_LAST_ELAPSED_US (s.jobElapsed p) p) s
  let s := { s with hub.faultN := false, hub.heartbeat := false, hub.changed := some s.tick
                    hub.reset := .undecided, hub.byPg := src == 0x80 }
  let s := s.setReg R.SAFE_STATUS_LATCH 1
  let s := (s.setSvc 2).incReg R.TOP_SVC_SAFE_COUNT
  let s := (s.setReg R.RST_LAST_CAUSE_SOURCE src).setReg R.RST_LAST_CAUSE_INSTANCE inst
  let s := s.setReg R.RST_LAST_TIME_TIME s.now
  let s := s.sendCommitted.closeAll
  s.supersedeReissue.stopEngines.stopGroups.acuNotInService

/-! ### The end of a start attempt (R99, R101, R116) -/

/-- The newer copy of the boot record; a new one where there is none (R101). -/
def State.storedRec (s : State) : BootRec :=
  match s.boot.recA, s.boot.recB with
  | some (a, x), some (b, y) => if a < b then y else x
  | some (_, x), none => x
  | none, some (_, y) => y
  | none, none => {}

/-- The boot record as the registers give it (R101). -/
def State.bootRecord (s : State) : BootRec :=
  let old := s.storedRec
  { old with
    fails := s.reg R.BOOT_STATUS_FAILS
    slot := s.reg R.BOOT_STATUS_SLOT
    fallback := s.flag R.BOOT_STATUS_FALLBACK
    failReg := s.regWord 0x00F000060004
    cold := s.reg R.BOOT_TALLY_COLD
    warm := s.reg R.BOOT_TALLY_WARM
    badA := if s.flag R.BOOT_BAD_A_BAD then old.badA else none
    badB := if s.flag R.BOOT_BAD_B_BAD then old.badB else none
    verdict := s.boot.verdict.map fun v => (v.slot, v.gen, v.home, v.size) }

/-- A boot record written to the copy that does not hold the newer one (R101). -/
def State.writeBootRec (s : State) (r : BootRec) : State :=
  match s.boot.recA, s.boot.recB with
  | some (a, _), some (b, _) =>
    if a < b then { s with boot.recA := some (b + 1, r) } else { s with boot.recB := some (a + 1, r) }
  | some (a, _), none => { s with boot.recB := some (a + 1, r) }
  | none, some (b, _) => { s with boot.recA := some (b + 1, r) }
  | none, none => { s with boot.recA := some (1, r) }

/-- Whole microseconds since the attempt began, saturating. -/
def State.attemptUs (s : State) : Nat := min ((s.tick - s.boot.begun) / 25) (2 ^ 32 - 1)

/-- A start record written to Q0 (R116, Table 3.11). -/
def State.startRecord (s : State) (outcome code section_ : Nat) : State :=
  let w0 := outcome + 2 ^ 8 * s.reg R.BOOT_STATUS_WARM + 2 ^ 9 * s.reg R.BOOT_STATUS_SLOT
            + 2 ^ 10 * s.reg R.BOOT_STATUS_FALLBACK + 2 ^ 16 * code + 2 ^ 24 * s.reg R.BOOT_STATUS_STEP
            + 2 ^ 32 * (s.hub.startSeq % 2 ^ 32)
  let w2 := s.reg R.BOOT_GEN_IMAGE_GEN + 2 ^ 32 * s.reg R.BOOT_STATUS_FAILS
            + (if 3 ≤ code ∧ code ≤ 9 then 2 ^ 40 * section_ else 0)
  let recs := s.hub.startRecs ++ [[w0, s.now, w2, s.attemptUs, 0, 0, 0, 0]]
  { s with hub.startRecs := recs.drop (recs.length - 64), hub.startSeq := s.hub.startSeq + 1 }

/-- The device enters CONFIG_FAULT (R105): pins low, and every switched domain off but those that status needs. -/
def State.enterConfigFault (s : State) : State :=
  let keep := s.lastGood.isSome && s.flag R.PWR_PMIC_PG
  let s := (List.range 15).foldl (fun s d => if keep && (d == 10 || d == 11 || d == 12) then s.powerOn d else s.powerOff d) s
  let cfg := match s.lastGood with
    | some b => List.replicate 64 0#8 ++ slice b 0x10 288 ++ List.replicate 112 0#8
    | none => []
  let s := { s with hub.faultN := false, hub.heartbeat := false, boot.phase := .idle, applied := false
                    ifaces := { s.ifaces with cfg := cfg } }
  s.setSvc 4

/-- An attempt that does not succeed leaves Tide on the section it ran before: a change that its SEAL step handed over and that
Tide has not taken up is withdrawn (R104). -/
def State.unseal (s : State) : State :=
  match s.boot.sealBefore with
  | some p => { s with tide.next := p, boot.sealBefore := none }
  | none => s

/-- A start attempt in progress fails with a code of Table 3.9, and with the section it is about. -/
def State.attemptFail (s : State) (code : Nat) (section_ : Nat := 0) : State :=
  if s.boot.phase ≠ .step ∨ s.svc ≠ 0 then s else
  let warm := s.flag R.BOOT_STATUS_WARM
  let slot := s.reg R.BOOT_STATUS_SLOT
  let s := s.unseal.supersedeReissue.stopEngines.stopGroups
  let s := (((s.setReg R.BOOT_FAIL_CODE code).setReg R.BOOT_FAIL_STEP (s.reg R.BOOT_STATUS_STEP)).setReg
    R.BOOT_FAIL_SLOT slot).setReg R.BOOT_FAIL_WARM (ofBool warm)
  let s := s.setReg R.BOOT_FAIL_SECTION (if 3 ≤ code ∧ code ≤ 9 then section_ else 0)
  let s := { s with boot.since := s.tick, boot.phase := .retry, image := none }
  if warm then
    let s := s.startRecord 0x02 code section_
    let s := s.plog { code := 0x04, before := 0, after := 0, value := code, detail := s.reg R.BOOT_STATUS_STEP }
    s.writeBootRec s.bootRecord
  else
    let s := s.setReg R.BOOT_STATUS_FAILS (min (s.reg R.BOOT_STATUS_FAILS + 1) 6)
    let fails := s.reg R.BOOT_STATUS_FAILS
    let rec_ := s.bootRecord
    if fails = 3 then
      let gen := if slot = 0 then s.boot.gens.1 else s.boot.gens.2
      let s := s.setReg (if slot = 0 then R.BOOT_BAD_A_BAD else R.BOOT_BAD_B_BAD) 1
      let s := (s.setReg R.BOOT_STATUS_SLOT (1 - slot)).setReg R.BOOT_STATUS_FALLBACK 1
      let r := { s.bootRecord with badA := if slot = 0 then some gen else rec_.badA
                                   badB := if slot = 0 then rec_.badB else some gen }
      (s.startRecord 0x02 code section_).writeBootRec r
    else if fails = 6 then
      let s := (s.startRecord 0x03 code section_).writeBootRec rec_
      let s := s.plog { code := 0x07, before := 0, after := 4, value := code, detail := s.reg R.BOOT_STATUS_STEP }
      s.enterConfigFault
    else (s.startRecord 0x02 code section_).writeBootRec rec_

/-! ### Raising a fault (R559 to R563, R573, R574) -/

/-- Whether source `src` has its latch set. -/
def State.latched (s : State) (src : Nat) : Bool := s.hub.latches.any fun l => l.src == src

/-- The service state that a fault of reaction `react`, raised in state `svc`, leads to. -/
def stateAfter (svc react : Nat) : Nat :=
  if react = 0 ∨ svc = 3 ∨ svc = 4 then svc
  else if react = 2 then 3
  else if svc = 1 then 2
  else svc

/-- What the reaction of a newly latched fault does in the service state in force (R561, R562, R574). -/
def State.react (s : State) (src inst react : Nat) : State :=
  if react = 0 then s else
  let s := ((s.setReg R.SAFE_LAST_SOURCE src).setReg R.SAFE_LAST_INSTANCE inst).setReg R.SAFE_LAST_TIME_TIME s.now
  let svc := s.svc
  let s := if react = 2 then
      ({ s with hub.outFrom := some (s.hub.outFrom.getD svc), hub.changed := some s.tick }).setReg R.SAFE_STATUS_LATCH 1
    else s
  if svc = 1 then s.enterSafe src inst
  else if svc = 0 then
    if react = 2 then { s.unseal.stopEngines.stopGroups with boot.phase := .idle }
    else if src = 0x80 then s
    else if s.boot.phase = .step then { s with hub.changed := some s.tick }.attemptFail 0x12
    else s
  else s

/-- A raise of source `src` at the hub (R560): counted; latched with time, quality, INSTANCE and DETAIL unless its latch
is still set; and its reaction begun. -/
def State.raise (s : State) (src inst detail : Nat) : State :=
  let s := s.incReg R.SAFE_FAULT_COUNT_COUNT src
  if s.latched src then s else
  let react := s.reg R.SAFE_FAULT_CFG_REACT src
  let before := s.svc
  let l : Latch := { src := src, time := s.now, quality := s.quality, inst := inst, detail := detail, react := react
                     first := false, before := before, after := stateAfter before react, tick := s.tick }
  let s := ({ s with hub.latches := s.hub.latches ++ [l] }).react src inst react
  if s.hub.changed = some s.tick then
    { s with hub.latches := s.hub.latches.map fun x => if x.tick = s.tick then { x with first := true } else x }
  else s

/-- Whether an excursion of a mechanism is in progress (R726). -/
def State.inExcursion (s : State) (m i : Nat) : Bool := s.hub.excursions.contains (m, i)

/-- A window of a repeated judgement (R726): the source is raised in the first window that finds the condition, and again
only after a window has found it absent. -/
def State.excursion (s : State) (m i : Nat) (found : Bool) (src inst detail : Nat) : State :=
  if found then
    if s.inExcursion m i then s
    else ({ s with hub.excursions := (m, i) :: s.hub.excursions }).raise src inst detail
  else { s with hub.excursions := s.hub.excursions.filter fun x => x != (m, i) }

end Sys2Proof.Machine
end

