-- ==== Sys2Proof/Machine/Access.lean ====
section
/-!
DEFINITION. Reads and writes of memory by commands and engines, with error correction and poisoning (R340 to R344, R358),
the DRAM bytes they count, and event adds (R142, R144).
-/

namespace Sys2Proof.Machine

open Sys2Proof

/-! ### Errors of memory words -/

/-- Excursion mechanism numbers of R726 and of once-per-second notices, beside fault-source numbers. -/
def mechCeRate : Nat := 0x100

/-- A corrected error of the memory that holds address `a` counted; more than SRAM_CE_LIMIT of them within one second of
Orbit time raise the rate notice, once per memory per second (R341, R344).  The counts of the running second are kept as
excursions: (0x100 + memory, second × 2^20 + count). -/
def State.countCe (s : State) (a : Nat) : State :=
  match sramIndex a with
  | none => s.incReg R.MEMC_IECC_CE
  | some i =>
    let s := if 0x100 ≤ i then s.incReg R.TC_ECC_CE (i - 0x100) else s.incReg R.MEMC_SRAM_ECC_CE i
    let second := s.now / 1000000000
    let key := mechCeRate + i
    let count := match s.hub.excursions.find? fun x => x.1 == key with
      | some x => if x.2 / 2 ^ 20 = second then x.2 % 2 ^ 20 else 0
      | none => 0
    let s := { s with hub.excursions :=
      (key, second * 2 ^ 20 + min (count + 1) (2 ^ 20 - 1)) :: s.hub.excursions.filter fun x => x.1 != key }
    if count = s.reg R.MEMC_SRAM_CE_LIMIT_LIMIT then s.raise 0x51 i 0 else s

/-- An uncorrectable word at address `w` found by a read: poisoned, counted and raised (R342, R358, R558); in the
sample-path area it also stops the anti-noise (R476). -/
def State.foundBad (s : State) (w : Nat) : State :=
  let s := { s with health := Sparse.put .good s.health w .poisoned }
  match sramIndex w with
  | none => ((s.incReg R.MEMC_IECC_UE).setReg R.MEMC_LAST_UE_ADDR_ADDR w).raise 0x53 0 w
  | some i =>
    if 0x100 ≤ i then
      ((s.incReg R.TC_ECC_UE (i - 0x100)).setReg R.TC_LAST_UE_OFFSET (sramOffset w) (i - 0x100)).raise 0x50 i w
    else
      let s := (s.incReg R.MEMC_SRAM_ECC_UE i).setReg R.MEMC_SRAM_LAST_UE_OFFSET (sramOffset w) i
      let s := if i = 8 ∧ sramOffset w < 0x1C8000 then s.ancCause 0x40 0 else s
      if i = 17 then s.raise 0x02 (sramOffset w / 16 % 512) w else s.raise 0x50 i w

/-- Words that are not good and that a range touches, lowest first. -/
def State.badWords (s : State) (a n : Nat) : List (Nat × Health) :=
  s.health.filter fun x => decide (x.1 < a + n ∧ a < x.1 + s.wordSize x.1)

/-- A range read word by word: correctable words are corrected and counted; the first uncorrectable one is poisoned and
raised, and ends the read with its address. -/
def State.readWords (s : State) : List (Nat × Health) → Option Nat × State
  | [] => (none, s)
  | (w, .correctable) :: l => ({ s.countCe w with health := Sparse.put .good s.health w .good }).readWords l
  | (w, .uncorrectable) :: _ => (some w, s.foundBad w)
  | (w, .poisoned) :: _ => (some w, s.foundBad w)
  | (_, .good) :: l => s.readWords l

/-- A read of `n` bytes at `a`: the address of an uncorrectable word if one is met (R342). -/
def State.readMem (s : State) (a n : Nat) : Option Nat × State := s.readWords (s.badWords a n)

/-- Words a write covers in full become good; the first word it covers in part and that is uncorrectable stops it
(R343). -/
def State.writeWords (s : State) (a n : Nat) : List (Nat × Health) → Option Nat × State
  | [] => (none, s)
  | (w, h) :: l =>
    if a ≤ w ∧ w + s.wordSize w ≤ a + n then
      ({ s with health := Sparse.put .good s.health w .good }).writeWords a n l
    else if h = .uncorrectable ∨ h = .poisoned then (some w, s.foundBad w)
    else if h = .correctable then ({ s.countCe w with health := Sparse.put .good s.health w .good }).writeWords a n l
    else s.writeWords a n l

/-- A write of a byte string at `a`: where a partly covered word is uncorrectable, the bytes before it are written, and
its address is the failure (R343). -/
def State.writeMem (s : State) (a : Nat) (bs : List Byte) : Option Nat × State :=
  let put := fun (s : State) (bs : List Byte) =>
    { s.setBytes a bs with wrote := s.wrote.map fun l => (a, bs.length) :: l }
  match s.writeWords a bs.length (s.badWords a bs.length) with
  | (none, s) => (none, put s bs)
  | (some w, s) => (some w, put s (bs.take (w - a)))

/-- The data that an aborted command has written is unspecified (R154). -/
def State.forget (s : State) : State :=
  match s.wrote with
  | some l => { l.foldl (fun s x => s.scramble x.1 x.2) s with wrote := none }
  | none => s

/-! ### DRAM bytes of commands (R199, Table 5.12) -/

/-- Whether an address is DRAM. -/
def State.isDram (s : State) (a : Nat) : Bool := decide (a < s.dramSize)

/-- Regulators are numbered 3 × partition + (0 read, 1 write, 2 chip link), and 12, 13 for SYS read and write. -/
def State.regulator (s : State) (i : Nat) : Regulator := Sparse.get {} s.regulators i

/-- Tokens added to a regulator's buckets since they were last filled, up to DEPTH (R200, R215). -/
def Regulator.fill (r : Regulator) (tick : Nat) : Regulator :=
  let dt := tick - r.at_
  { r with gTok := max r.gTok (min r.depth (r.gTok + r.g * dt / 25)), cTok := max r.cTok (min r.depth (r.cTok + r.c * dt / 25)),
           at_ := tick }

/-- A request of `n` bytes admitted by regulator `i`: its tokens are taken (R200).  When it is served is timing, which
the model leaves out, so a request that would wait takes the tokens there are. -/
def State.grantBytes (s : State) (i n : Nat) : State :=
  let r := (s.regulator i).fill s.tick
  let r := if r.c = 0 then r else { r with cTok := r.cTok - n }
  let r := if n ≤ r.gTok then { r with gTok := r.gTok - n } else r
  { s with regulators := Sparse.put {} s.regulators i r }

/-- The charge of an access: 9 ÷ 8 of its bytes in an inline-ECC range (R358). -/
def State.charge (s : State) (a n : Nat) : Nat := if (s.eccRange a).isSome then n * 9 / 8 else n

/-- `n` bytes of DRAM read for partition `p` counted and charged. -/
def State.countRd (s : State) (p a n : Nat) : State :=
  if s.isDram a then (s.incReg R.PART_RD_BYTES_BYTES p 0 n).grantBytes (3 * p) (s.charge a n) else s

/-- `n` bytes of DRAM written for partition `p` counted and charged. -/
def State.countWr (s : State) (p a n : Nat) : State :=
  if s.isDram a then (s.incReg R.PART_WR_BYTES_BYTES p 0 n).grantBytes (3 * p + 1) (s.charge a n) else s

/-! ### Effects of commands -/

/-- How a command's effect ended: a status of Table 4.9 and its DETAIL. -/
structure Done where
  status : Nat := 0
  detail : Nat := 0
  /-- Order of its detection within a core (R300). -/
  at_ : Nat := 0
  deriving DecidableEq, Repr

/-- An engine computation: the state it leaves and, where it has failed, its status and DETAIL. -/
abbrev Eff (α : Type) := State → Except Done α × State

/-- A value, with nothing done. -/
def Eff.pure {α : Type} (a : α) : Eff α := fun s => (.ok a, s)

/-- One computation after another; a failure ends both. -/
def Eff.bind {α β : Type} (m : Eff α) (f : α → Eff β) : Eff β := fun s =>
  match m s with
  | (.ok a, s) => f a s
  | (.error e, s) => (.error e, s)

/-- A failure with a status and DETAIL. -/
def Eff.fail {α : Type} (status detail : Nat) : Eff α := fun s => (.error { status := status, detail := detail }, s)

/-- A computation whose failure carries the order of its detection. -/
def Eff.when {α : Type} (n : Nat) (m : Eff α) : Eff α := fun s =>
  match m s with
  | (.error e, s) => (.error { e with at_ := n }, s)
  | r => r

/-- The state read. -/
def Eff.get : Eff State := fun s => (.ok s, s)

/-- The state changed. -/
def Eff.modify (f : State → State) : Eff Unit := fun s => (.ok (), f s)

/-- A computation for each element of a list. -/
def Eff.each {α : Type} (f : α → Eff Unit) : List α → Eff Unit
  | [] => Eff.pure ()
  | a :: l => (f a).bind fun _ => Eff.each f l

/-- The results of a computation for each element of a list. -/
def Eff.map {α β : Type} (f : α → Eff β) : List α → Eff (List β)
  | [] => Eff.pure []
  | a :: l => (f a).bind fun b => (Eff.map f l).bind fun bs => Eff.pure (b :: bs)

/-- A read of memory for partition `p`, failing with ECC_UNCORRECTABLE on an uncorrectable word (R342). -/
def Eff.read (p a n : Nat) : Eff (List Byte) := fun s =>
  match (s.countRd p a n).readMem a n with
  | (none, s) => (.ok (s.bytes a n), s)
  | (some w, s) => (.error { status := 0x1F, detail := w }, s)

/-- A read whose bytes have been counted already. -/
def Eff.reread (a n : Nat) : Eff (List Byte) := fun s =>
  match s.readMem a n with
  | (none, s) => (.ok (s.bytes a n), s)
  | (some w, s) => (.error { status := 0x1F, detail := w }, s)

/-- A little-endian value read from memory for partition `p`. -/
def Eff.load (p a n : Nat) : Eff Nat := (Eff.read p a n).bind fun b => Eff.pure (leNat b)

/-- A write of memory for partition `p`, failing with ECC_UNCORRECTABLE under R343. -/
def Eff.write (p a : Nat) (bs : List Byte) : Eff Unit := fun s =>
  match (s.countWr p a bs.length).writeMem a bs with
  | (none, s) => (.ok (), s)
  | (some w, s) => (.error { status := 0x1F, detail := w }, s)

/-- A bounds check of an address an engine computes, before its access (R351). -/
def Eff.inBounds (p a n : Nat) (write : Bool) : Eff Unit := fun s =>
  match s.bounds p a n write with
  | none => (.ok (), s)
  | some d => (.error { status := 0x18, detail := d }, s)

/-! ### Events (R142, R144) -/

/-- The event on which a `seq.wait` waits: word 1 of its body (Table 4.15). -/
def Cmd.waitOn (c : Cmd) : Nat := let w := c.words.getD 1 0; eventIndex c.part (bits w 11 0) (bit w 12)

/-- A thread reaches a command boundary: its watchdog restarts (R582). -/
def State.boundary (s : State) (t : Nat) : State := s.setThread t { s.thread t with boundary := s.tick }

/-- The waits on event `e` satisfied, oldest first, each while the event is still at least its threshold; a consuming one
subtracts it (R142). -/
def State.satisfy (s : State) (e : Nat) : List Cmd → State
  | [] => s
  | c :: l =>
    let w := c.words.getD 1 0
    let thr := bits w 63 32
    if thr ≤ s.event e then
      let s := if bit w 13 then s.setEvent e (s.event e - thr) else s
      ((s.setCmd { c with stage := .done, status := 0 }).boundary c.thread).satisfy e l
    else s.satisfy e l

/-- The commands waiting on event `e`, in the order in which their waits began, equal times by thread (R142). -/
def State.waiters (s : State) (e : Nat) : List Cmd :=
  sortBy (fun a b => decide (a.start < b.start ∨ (a.start = b.start ∧ a.thread ≤ b.thread)))
    (s.cmds.filter fun c => c.stage == .waitEvent && c.waitOn == e)

/-- An add to an event: applied, saturating with the overflow fault, and the waits it satisfies released
(R142, R144). -/
def State.addEvent (s : State) (e n : Nat) : State :=
  if n = 0 then s else
  let v := s.event e + n
  let s :=
    if v < 2 ^ 32 then s.setEvent e v
    else
      let s := s.setEvent e (2 ^ 32 - 1)
      let inst := if 16384 ≤ e then 4 else e / 4096
      let s := if inst = 4 then s.setReg R.EVT_OVF_GLOBAL 1 else s.setBit R.EVT_OVF_PART inst true
      let s :=
        if s.flag R.EVT_OVF_FIRST_VALID then s
        else
          let s := s.setReg R.EVT_OVF_FIRST_VALID 1
          if inst = 4 then (s.setReg R.EVT_OVF_FIRST_EVENT (e - 16384)).setReg R.EVT_OVF_FIRST_GLOBAL 1
          else (s.setReg R.EVT_OVF_FIRST_EVENT (e % 4096)).setReg R.EVT_OVF_FIRST_PART inst
      s.raise 0x1B inst 0
  s.satisfy e (s.waiters e)

end Sys2Proof.Machine
end

