-- ==== Sys2Proof/Machine/Command.lean ====
section
/-!
DEFINITION. A command from its pick to its outcome: header fields, stages, completion records in order, failures, jobs and
the completion arbiter (R131, R136 to R140, R149 to R155, R175 to R179, R193, R729).
-/

namespace Sys2Proof.Machine

open Sys2Proof

/-! ### The command (R131, Table 4.6) -/

def Cmd.word (c : Cmd) (i : Nat) : Nat := c.words.getD i 0
def hdrOp (h : Nat) : Nat := bits h 7 0
def hdrSlots (h : Nat) : Nat := bits h 11 8 + 1
def hdrClass (h : Nat) : Nat := bits h 15 12
def hdrWaitEvt (h : Nat) : Nat := bits h 27 16
def hdrSignalEvt (h : Nat) : Nat := bits h 39 28
def hdrWaitEn (h : Nat) : Bool := bit h 40
def hdrSignalEn (h : Nat) : Bool := bit h 41
def hdrFence (h : Nat) : Bool := bit h 42
def hdrCheckpoint (h : Nat) : Bool := bit h 43
def hdrNotify (h : Nat) : Bool := bit h 44
def Cmd.op (c : Cmd) : Nat := hdrOp (c.word 0)
def Cmd.cls (c : Cmd) : Nat := hdrClass (c.word 0)

/-- The queue number of a list that no queue command called: an initial list (R181). -/
def noQueue : Nat := 512

/-- PROGRESS of a checkpointed command: its last word (R147). -/
def Cmd.progress (c : Cmd) : Nat := bits (c.word (8 * hdrSlots (c.word 0) - 1)) 47 0

/-! ### Threads -/

/-- Commands a thread has issued to engines and that have not completed (R136). -/
def State.outstanding (s : State) (t : Nat) : Nat := (s.cmds.filter fun c => c.thread == t && c.cls != 0).length

/-- SEQ.STATE.STATE of a thread (Table 4.19). -/
def State.threadState (s : State) (t : Nat) : Nat :=
  let x := s.thread t
  if !s.present t then 6
  else if !s.running || s.flag R.SAFE_PAIR_STAT_MISMATCH (t / 8) then 5
  else match x.cur.bind s.cmd? with
    | some c =>
      match c.stage with
      | .fence => 7
      | .waitEvent => 2
      | .waitTimer => 3
      | .waiting | .held => 4
      | _ => 1
    | none =>
      match x.frames with
      | [] => 0
      | f :: _ => if f.slots ≤ f.pos then 7 else
        let h := s.load (f.addr + 64 * f.pos) 8
        match s.cmd? f.call with
        | some c => if hdrWaitEn h && s.event (eventIndex c.part (hdrWaitEvt h) false) == 0 then 2 else 1
        | none => 1

/-! ### Completion records (R138, R139, Table 4.8) -/

/-- A completion record of command `c`. -/
def State.recordOf (s : State) (c : Cmd) (status done detail : Nat) (suspended : Bool) : List Nat :=
  let gen := if c.queue < 512 then s.gen c.queue else 0
  [status + 2 ^ 8 * c.op + 2 ^ 16 * (c.queue % 512) + 2 ^ 32 * gen + 2 ^ 40 * c.cls + 2 ^ 44 * c.depth
     + 2 ^ 47 * ofBool suspended,
   c.seqno, s.now, done, detail, if c.depth = 0 then 0 else c.offset, 0, 0]

/-- The completion queue of queue `q`; 0 for none. -/
def State.cqOf (s : State) (q : Nat) : Nat := if q < 512 then s.reg R.QUE_CFG_CQ q else 0

/-- A completion queue lacks a free slot (R139); a fenced one rejects the record and does not hold it. -/
def State.cqFull (s : State) (cq : Nat) : Bool :=
  s.qState cq != qDisabled && s.qState cq != qFenced && s.qFree cq == 0

/-- Whether a record is held for want of room in `cq`: the queues that use it are not picked (R139). -/
def State.cqStalled (s : State) (cq : Nat) : Bool := s.held.any fun r => r.cq == cq && r.counted

/-- A command of queue `q` with a SEQNO below `n` has not yet completed or been aborted (R139). -/
def State.earlierOpen (s : State) (q n : Nat) : Bool :=
  (s.cmds.any fun c => c.queue == q && decide (c.seqno < n)) ||
  (decide (q < 512) && !(s.queueX q).failed && (s.queueX q).redo.any fun r => decide (r.seqno < n))

/-! ### Jobs (R175 to R179, R193) -/

/-- The job that holds the grant of partition `p`. -/
def State.job? (s : State) (p : Nat) : Option Job := (s.jobs.find? fun x => x.1 == p).map (·.2)

/-- The open window entry whose job is command `n` of job queue `q`, with its client index (R191). -/
def State.jobEntry (s : State) (q n : Nat) : Option (Nat × WinEntry) :=
  (List.range 64).findSome? fun i =>
    ((s.window i).find? fun e => e.closed.isNone && e.seqno == some n &&
      (match s.route e.route with
       | some r => field r 8 2 == q
       | none => false)).map fun e => (i, e)

/-- The answer of a job whose outcome is decided (R193). -/
def State.answerJob (s : State) (q n status : Nat) : State :=
  match s.jobEntry q n with
  | none => s
  | some (i, e) => if status = 0 ∨ status = 1 then s.closeEntry i e status 0 else s.closeEntry i e 0x13 status

/-- The job of partition `p` ends with a status: the grant is released (R176). -/
def State.jobEnd (s : State) (p status : Nat) : State :=
  match s.job? p with
  | none => s
  | some j =>
    let s := if j.initial then s
             else (s.answerJob (s.reg R.PART_JOB_QUEUE p) (s.reg R.PART_JOB_SEQNO_SEQNO p) status).incReg R.PART_JOBS_COUNT p
    let s := (((s.setReg R.PART_JOB_ACTIVE 0 p).setReg R.PART_JOB_QUEUE 0 p).setReg R.PART_JOB_SEQNO_SEQNO 0 p).setReg
      R.PART_JOB_BUDGET_US 0 p
    { s with jobs := s.jobs.filter fun x => x.1 != p }

/-- The grant of partition `p` given to a command (R176): its elapsed time runs from its execute stage (R175). -/
def State.jobGrant (s : State) (c : Cmd) : State :=
  let s := { s with jobs := s.jobs ++ [(c.part, ({ cmd := c.id, start := s.tick } : Job))] }
  (((s.setReg R.PART_JOB_ACTIVE 1 c.part).setReg R.PART_JOB_QUEUE c.queue c.part).setReg R.PART_JOB_SEQNO_SEQNO c.seqno
    c.part).setReg R.PART_JOB_BUDGET_US ((s.jobBudget c.part c.queue).getD 0) c.part

/-! ### Fence stage (R136) -/

/-- The calls that lead to a command, innermost first. -/
def State.callers (s : State) (c : Cmd) : Nat → List Nat
  | 0 => []
  | n + 1 =>
    match c.call with
    | none => []
    | some k =>
      match s.cmd? k with
      | some d => k :: s.callers d n
      | none => [k]

/-- Every command of its queue issued before `c`, but for the calls it is part of, has completed. -/
def State.fenceClear (s : State) (c : Cmd) : Bool :=
  let up := s.callers c 5
  !(s.cmds.any fun d => d.queue == c.queue && d.root == (if c.queue = noQueue then c.root else d.root)
      && decide (d.id < c.id) && !up.contains d.id)

/-- A command enters its execute stage: executed by its thread, or issued to its engine, which leaves the thread free. -/
def State.enterExec (s : State) (c : Cmd) : State :=
  let s := (s.setCmd { c with stage := .exec, start := s.tick }).boundary c.thread
  let x := s.thread c.thread
  let s := if c.cls ≠ 0 ∧ x.cur = some c.id then s.setThread c.thread { x with cur := none } else s
  { s with jobs := s.jobs.map fun x => if x.2.cmd = c.id then (x.1, { x.2 with start := s.tick }) else x }

/-- Commands in their fence stage proceed once every earlier command of their queue has completed. -/
def State.releaseFences (s : State) : State :=
  (s.cmds.filter fun c => c.stage == .fence).foldl (fun s c => if s.fenceClear c then s.enterExec c else s) s

/-! ### Called lists (R154, R159) -/

/-- The frames of thread `t` down to an aborted call, whose list stops: calls above it are dropped and what they issued
counts as issued by it. -/
def State.cutFrames (s : State) (t : Nat) : List Frame → State
  | [] => s
  | f :: l =>
    if (f :: l).any fun g => (s.cmd? g.call).any (·.aborted) then
      if (s.cmd? f.call).any (·.aborted) ∧ ¬ l.any fun g => (s.cmd? g.call).any (·.aborted) then
        s.setThread t { s.thread t with frames := { f with pos := max f.pos f.slots } :: l }
      else
        match l with
        | [] => s
        | g :: _ =>
          let cmds := (s.cmds.filter fun c : Cmd => c.id != f.call).map fun c : Cmd =>
            if c.call = some f.call then { c with call := some g.call } else c
          State.cutFrames { s with cmds := cmds } t l
    else s

/-- A list whose last slot is passed returns once every command it issued has completed: its call is executed. -/
def State.returnList (s : State) (t : Nat) : State :=
  let s := if (s.thread t).cur.isNone then s.cutFrames t (s.thread t).frames else s
  let x := s.thread t
  match x.cur, x.frames with
  | none, f :: l =>
    if f.slots ≤ f.pos ∧ ¬ s.cmds.any fun c => c.call == some f.call then
      match s.cmd? f.call with
      | some c => (s.setCmd { c with stage := .done }).setThread t { x with frames := l, cur := some c.id }
      | none => s.setThread t { x with frames := l }
    else s
  | _, _ => s

def State.returnLists (s : State) : State := (List.range 64).foldl (fun s t => s.returnList t) s

/-! ### The end of a command -/

/-- A command queue with nothing committed and nothing in flight becomes IDLE (R128). -/
def State.idleCheck (s : State) (q : Nat) : State :=
  if q < 512 ∧ s.qState q = qActive ∧ s.qCount q = 0 ∧ ¬ s.qBusy q then s.setQState q qIdle else s

/-- A command whose record, if it needs one, is committed: it signals, its job ends, and what waited on its end goes
on (R138, R154). -/
def State.retire (s : State) (c : Cmd) : State :=
  let s := s.dropCmd c.id
  let s := if hdrSignalEn (c.word 0) && !c.aborted && !c.mute && c.status < 0x10
           then s.addEvent (eventIndex c.part (hdrSignalEvt (c.word 0)) false) 1 else s
  let s := match s.job? c.part with
    | some j => if j.cmd = c.id then s.jobEnd c.part (if c.aborted then 1 else c.status) else s
    | none => s
  (s.idleCheck c.queue).releaseFences.returnLists

/-- The first held record that may be committed in order, with room for it. -/
def State.heldReady (s : State) (r : HeldRec) : Bool :=
  !s.earlierOpen r.queue r.seqno &&
  !(s.held.any fun x => x.queue == r.queue && decide (x.seqno < r.seqno)) &&
  (s.held.find? fun x => x.queue == r.queue && x.seqno == r.seqno) == some r

/-- A held record committed: its bytes are counted, and its command goes on (R139). -/
def State.commitRec (s : State) (r : HeldRec) : State :=
  let s := { s with held := s.held.erase r }
  let s := if r.cq = 0 then s else (s.countWr (s.qPart r.cq) (s.slotAddr r.cq (s.wptr r.cq)) 64).produce r.cq
    [wordsBytes r.words] |>.2
  match r.finish.bind s.cmd? with
  | some c => if c.stage = .held then s.retire c else s.setCmd { c with stage := .done }
  | none => s

/-- Records committed as far as order and room allow; one that lacks room only is counted once (R139). -/
def State.drain (s : State) : Nat → State
  | 0 => s
  | n + 1 =>
    match s.held.find? fun r => s.heldReady r && !s.cqFull r.cq with
    | some r => (s.commitRec r).drain n
    | none =>
      (s.held.filter fun r => s.heldReady r && !r.counted).foldl (fun s r =>
        ({ s with held := s.held.map fun x => if x = r then { x with counted := true } else x }).incReg
          R.QUE_CQ_STALL_COUNT r.cq) s

def State.drainAll (s : State) : State := s.drain (s.held.length + s.cmds.length + 1)

/-- A record to be committed to a completion queue; queue 0 takes none. -/
def State.post (s : State) (r : HeldRec) : State := ({ s with held := s.held ++ [r] }).drainAll

/-! ### Failure (R137) -/

/-- RPTR of a command queue: the first command to take again, or the first never taken. -/
def State.setFetch (s : State) (q : Nat) (x : QueueX) : State :=
  (s.setQueueX q x).setReg R.QUE_RPTR_RPTR (match x.redo with | r :: _ => r.ptr | [] => x.fetch) q

/-- Commands to take again stay in SEQNO order. -/
def insertRedo (r : Redo) : List Redo → List Redo
  | [] => [r]
  | x :: l => if r.seqno < x.seqno then r :: x :: l else x :: insertRedo r l

/-- A failing command stops its queue: state, RPTR, QUE.ERR; a `seq.call` it belongs to ends with it, and the job's
outcome is decided.  What is left to do is whether the queue-stop fault is raised. -/
def State.stopQueue (s : State) (c : Cmd) (status slot : Nat) : Bool × State :=
  let q := c.queue
  let s := match s.job? c.part with
    | some j => if j.cmd = c.root then s.jobEnd c.part status else s
    | none => s
  let top := s.cmd? c.root
  -- the calls it belongs to end with it
  let up := s.callers c 5
  let s := { s with cmds := s.cmds.filter fun d => !up.contains d.id }
  let s := if up.isEmpty then s
           else s.setThread c.thread { s.thread c.thread with frames := [] }
  if q = noQueue then (true, s) else
  let x := s.queueX q
  match x.failed, top with
  | false, some r =>
    let s := if s.qState q = qFenced then s else s.setQState q qStopped
    let redo : Redo := ⟨r.offset, hdrSlots (r.word 0), r.seqno⟩
    let s := s.setFetch q { x with failed := true, redo := insertRedo redo x.redo }
    let s := ((s.setReg R.QUE_ERR_CODE status q).setReg R.QUE_ERR_SLOT slot q).setReg R.QUE_ERR_DEPTH c.depth q
    (true, s.setReg R.QUE_ERR_SEQNO_SEQNO c.seqno q)
  | _, _ => (false, s)

/-- The queue-stop fault with its DETAIL (Table 15.2); an initial list stops no queue, and its failure ends the attempt (R97). -/
def State.raiseQueueStop (s : State) (q : Nat) : State :=
  if q = noQueue then s.attemptFail 0x10 else s.raise 0x1A q (s.regWord (0x00F000088020 + 0x40 * q))

/-- Whether a status of Table 4.9 stops the queue. -/
def stops (status : Nat) : Bool := decide (0x10 ≤ status ∧ status ≤ 0x20)

/-- A command's status decided in its favour or against it: ABORTED where the arbiter decided so (R154). -/
def Cmd.outcome (c : Cmd) : Nat := if c.aborted then 1 else c.status

/-- The progress word with FINAL set (R138, Table 4.11). -/
def State.progressWord (s : State) (c : Cmd) (final : Bool) : State :=
  ((s.countWr c.part c.progress 8).writeMem c.progress
    (leBytes 8 (c.units % 2 ^ 48 + 2 ^ 48 * c.op + 2 ^ 63 * ofBool final))).2

/-- A command of thread `c.thread` no longer holds the thread. -/
def State.releaseThread (s : State) (c : Cmd) : State :=
  let x := s.thread c.thread
  if x.cur = some c.id then s.setThread c.thread { x with cur := none, boundary := s.tick } else s

/-- The completion of an executed command at the arbiter (R137, R138).  The own record of a `seq.abort` carries the abort's
outcome (R155).  `slot` is the offending slot of a failed fetch check. -/
def State.complete (s : State) (c : Cmd) (slot : Nat := 0) : State :=
  let s := s.releaseThread c
  let rootAborted := (s.cmd? c.root).any (·.aborted)
  let fails := stops c.status && !c.aborted
  let r := if fails && !rootAborted then s.stopQueue c c.status slot else (false, s)
  let s := r.2
  let s := if hdrCheckpoint (c.word 0) && c.outcome == 0 then s.progressWord c true
           else if hdrCheckpoint (c.word 0) && c.aborted && c.begun && c.status == 0 then s.progressWord c false else s
  let s :=
    if c.outcome ≠ 0 ∨ hdrNotify (c.word 0) = true then
      let s := s.setCmd { c with stage := .held }
      s.post { queue := c.queue, cq := s.cqOf c.queue, seqno := c.seqno, finish := some c.id
               words := if c.op = 0x0E ∧ c.outcome = 0 then s.recordOf c c.detail c.units 0 false
                        else s.recordOf c c.outcome c.units (if c.aborted then 0 else c.detail) false }
    else (s.retire c).drainAll
  if r.1 then s.raiseQueueStop c.queue else s

/-- The effect of a command begins: what it writes is noted if it has been aborted and has no progress word (R154). -/
def State.beginWork (s : State) (c : Cmd) : State :=
  { s with wrote := if c.aborted && !hdrCheckpoint (c.word 0) then some [] else none }

/-- An executed command: its status, DETAIL and units are known and its completion is due. -/
def State.finish (s : State) (id : Nat) (d : Done) (units : Nat := 0) : State :=
  let s := s.forget
  match s.cmd? id with
  | some c => s.setCmd { c with stage := .done, status := d.status, detail := d.detail, units := units, begun := true }
  | none => s

/-! ### The completion arbiter (R152 to R155, Table 4.13) -/

/-- Whole committed commands of queue `q` that were never taken, in ring order: pointer and slots. -/
def State.untakenFrom (s : State) (q ptr : Nat) : Nat → List (Nat × Nat)
  | 0 => []
  | n + 1 =>
    let left := s.ptrDiff q (s.wptr q) ptr
    let k := hdrSlots (s.load (s.slotAddr q ptr) 8)
    if left = 0 ∨ left < k then [] else (ptr, k) :: s.untakenFrom q (s.ptrAdd q ptr k) n

def State.untaken (s : State) (q : Nat) : List (Nat × Nat) := s.untakenFrom q (s.queueX q).fetch (s.qSize q)

/-- A command withdrawn from its fence stage or from its `seq.wait` (Table 4.13). -/
def Cmd.withdrawn (c : Cmd) : Cmd :=
  if c.stage = .fence ∨ c.stage = .waitEvent then { c with stage := .done } else c

/-- A command of an aborted list that waits in its fence stage or in a `seq.wait`: the wait ends, without an outcome of its own, as no
abort names it (R155). -/
def Cmd.dropped (root : Nat) (c : Cmd) : Bool :=
  c.id != root && c.root == root && (c.stage == .fence || c.stage == .waitEvent)

/-- The arbiter decides ABORTED for a command that was picked.  An aborted call mutes what its list issued, and a wait or
fence stage of its list ends at once; a list whose thread is at a command boundary stops there. -/
def State.abortTaken (s : State) (c : Cmd) : State :=
  let s := (s.cmds.filter fun d => d.dropped c.id).foldl (fun s d => s.releaseThread d) s
  let cmds := (s.cmds.filter fun d => !d.dropped c.id).map fun d : Cmd =>
    if d.id = c.id then { d.withdrawn with aborted := true }
    else if d.root = c.id then { d with mute := true }
    else d
  State.returnLists { s with cmds := cmds }

/-- An abort of command `n` of queue `q`: its outcome code, and the state after it. -/
def State.arbiter (s : State) (q n : Nat) : Nat × State :=
  let x := s.queueX q
  let mark := { x with aborted := n :: x.aborted }
  let r : Nat × State :=
    match s.cmds.find? fun c => c.queue == q && c.depth == 0 && c.seqno == n with
    | some c => if c.aborted ∨ c.stage = .held then (2, s) else (1, s.abortTaken c)
    | none =>
      if x.aborted.contains n then (2, s)
      else if x.redo.any fun r => r.seqno == n then
        if x.failed ∧ s.reg R.QUE_ERR_SEQNO_SEQNO q = n then (2, s) else (1, s.setQueueX q mark)
      else if n < s.reg R.QUE_SEQNO_NEXT q then (2, s)
      else if n - s.reg R.QUE_SEQNO_NEXT q < (s.untaken q).length then (1, s.setQueueX q mark)
      else (3, s)
  if r.1 = 1 then (1, r.2.answerJob q n 1) else r

end Sys2Proof.Machine
end

