-- ==== Sys2Proof/Machine/Elapse.lean ====
section
/-!
DEFINITION. Time passing before a command, and what the deadlock detector sees in it (R50, R208).
-/

namespace Sys2Proof.Machine

open Sys2Proof

/-! ### What a partition's threads wait on (R208, R210) -/

/-- The next command of command queue `q`: pointer, slots, SEQNO, and whether it is taken again (R140). -/
def State.nextOf (s : State) (q : Nat) : Option (Nat × Nat × Nat × Bool) :=
  let x := s.queueX q
  match x.redo with
  | r :: _ => some (r.ptr, r.slots, r.seqno, true)
  | [] =>
    match s.untakenFrom q x.fetch 1 with
    | (p, k) :: _ => some (p, k, s.reg R.QUE_SEQNO_NEXT q, false)
    | [] => none

/-- Command queues that thread `t` consumes. -/
def State.threadQueues (s : State) (t : Nat) : List Nat :=
  ((List.range 512).drop 32).filter fun q =>
    s.qState q != qDisabled && s.reg R.QUE_CFG_KIND q == 0 && s.reg R.QUE_CFG_THREAD q == t

/-- Present threads of partition `p`. -/
def State.partThreads (s : State) (p : Nat) : List Nat :=
  (List.range 64).filter fun t => (s.partPairs p).testBit (t / 8) && s.present t

/-- Word 0 of the next command of queue `q`, if the queue is ACTIVE and the command is committed. -/
def State.headWord (s : State) (q : Nat) : Option Nat :=
  if s.qState q = qActive then (s.nextOf q).map fun x => s.load (s.slotAddr q x.1) 8 else none

/-- The queue of thread `t` whose head command has an unsatisfied header wait, if any. -/
def State.headBlocked (s : State) (t : Nat) : Option Nat :=
  (s.threadQueues t).find? fun q =>
    match s.headWord q with
    | some h => hdrWaitEn h && s.event (eventIndex (s.qPart q) (hdrWaitEvt h) false) == 0
    | none => false

/-- Thread `t` is free and has a command that it may pick. -/
def State.headReady (s : State) (t : Nat) : Bool :=
  s.threadState t == 0 && (s.threadQueues t).any fun q =>
    match s.headWord q with
    | some h =>
      !(hdrWaitEn h && s.event (eventIndex (s.qPart q) (hdrWaitEvt h) false) == 0) &&
      ((s.jobBudget (s.qPart q) q).isNone || (s.job? (s.qPart q)).isNone)
    | none => false

/-- The event, GLOBAL and threshold on which blocked work of thread `t` waits, with its queue and SEQNO. -/
def State.blockedOn (s : State) (t : Nat) : Option (Nat × Bool × Nat × Nat × Nat) :=
  let x := s.thread t
  if s.threadState t = 2 then
    match x.cur.bind s.cmd? with
    | some c => some (bits (c.word 1) 11 0, bit (c.word 1) 12, bits (c.word 1) 63 32, c.queue, c.seqno)
    | none =>
      match x.frames with
      | f :: _ =>
        match s.cmd? f.call with
        | some c => some (hdrWaitEvt (s.load (f.addr + 64 * f.pos) 8), false, 1, c.queue, c.seqno)
        | none => none
      | [] => none
  else if s.threadState t = 0 then
    match s.headBlocked t with
    | some q =>
      match s.headWord q, s.nextOf q with
      | some h, some n => some (hdrWaitEvt h, false, 1, q, n.2.2.1)
      | _, _ => none
    | none => none
  else none

/-- The conditions of R208 for partition `p`. -/
def State.quiet (s : State) (p : Nat) : Bool :=
  let ts := s.partThreads p
  s.running && (s.part p).isSome &&
  !(s.cmds.any fun c => c.part == p && c.cls != 0) &&
  !(ts.any fun t =>
      s.threadState t == 1 || s.threadState t == 3 || s.headReady t ||
      (match (s.thread t).cur.bind s.cmd? with
       | some c => c.stage == .waitEvent && c.limit.isSome
       | none => false)) &&
  (ts.any fun t => s.threadState t == 4 || (s.blockedOn t).isSome) &&
  (ts.all fun t =>
    match s.blockedOn t with
    | some (e, g, _) => !s.eventExternal p e g
    | none => true) &&
  !(ts.any fun t => (s.threadQueues t).any fun q =>
      s.reg R.QUE_CFG_PRODUCER q != 0 && !(s.untaken q).isEmpty)

/-- The detectors take note of the state in which time passes: since when the conditions hold, or that they do not. -/
def State.watchDeadlock (s : State) : State :=
  if ¬ s.running then s else
  { s with deadlocks := (List.range 4).foldl (fun m p =>
      let d := Sparse.get {} m p
      let since := if s.quiet p then some (d.since.getD s.tick) else none
      Sparse.put {} m p { d with since := since }) s.deadlocks }

/-- A pulse for each whole second of Orbit time crossed on the way to `now`, where a test-multiplexer pin carries them (R709). -/
def State.secondPulses (s : State) (now : Nat) : List Output :=
  (List.replicate (now / 1000000000 - s.now / 1000000000) (s.tmuxPulses 0x01 0)).flatten

/-- `dt` reference ticks pass before a command; what left the block in the last command has left. -/
def State.elapse (s : State) (dt : Nat) : State :=
  let s := s.watchDeadlock
  let o := if s.boot.phase = .por then s.orbit else s.orbit.advance dt s.rate (s.reg R.TIME_STATUS_STATE == 1)
  { s with tick := s.tick + dt, out := s.secondPulses o.now, orbit := o }


end Sys2Proof.Machine
end

