-- ==== Sys2Proof/Machine/Registers.lean ====
section
/-!
DEFINITION. Reads and writes of register space: windows, computed values, snapshots, access types (R17, R22 to R27, R158,
R198, R602, R706).
-/

namespace Sys2Proof.Machine

open Sys2Proof

/-- Register space begins here (R17). -/
def regSpace : Nat := 0x00F000000000

/-- Window number of a register address. -/
def windowOf (a : Nat) : Nat := (a - regSpace) / 0x10000

/-- Whether an address lies in a window of Table 0.2. -/
def mapped (a : Nat) : Bool :=
  decide (regSpace ≤ a ∧ a < regSpace + 0x1000000) &&
  (let w := windowOf a
   decide (w ≤ 0x0B ∨ (0x10 ≤ w ∧ w ≤ 0x1F) ∨ (0x20 ≤ w ∧ w ≤ 0x25) ∨ w = 0x30 ∨ (0x40 ≤ w ∧ w ≤ 0x45)))

/-- Windows of SAFE, MTR and DBG. -/
def closedWindow (a : Nat) : Bool := windowOf a == 2 || windowOf a == 0x25 || windowOf a == 7

/-- The element of row `r` and the word of it at address `a`: indices i and j, and the word. -/
def RegRow.index (r : RegRow) (a : Nat) : Option (Nat × Nat × Nat) :=
  if a < r.addr then none else
  let d := a - r.addr
  let i := if r.c1 ≤ 1 then 0 else d / r.s1
  let d := if r.c1 ≤ 1 then d else d % r.s1
  let j := if r.c2 ≤ 1 then 0 else d / r.s2
  let d := if r.c2 ≤ 1 then d else d % r.s2
  if i < r.c1 ∧ j < r.c2 ∧ d < 4 * r.words ∧ d % 4 = 0 then some (i, j, d / 4) else none

/-- The rows with a field in the word at address `a`, with element and word. -/
def rowsAt (a : Nat) : List (RegRow × Nat × Nat × Nat) :=
  R.all.filterMap fun r => (r.index a).map fun x => (r, x)

/-! ### Computed registers -/

/-- How many configured queues a test holds for. -/
def queueCount (p : Nat → Bool) : Nat := ((List.range 512).filter p).length

/-- Bits `32k` to `32k + 31` of a test over queues. -/
def queueBits (k : Nat) (p : Nat → Bool) : Nat :=
  ((List.range 32).map fun j => if p (32 * k + j) then 2 ^ j else 0).sum

/-- The wait of thread `t`: event, GLOBAL and threshold. -/
def State.threadWait (s : State) (t : Nat) : Nat × Bool × Nat :=
  if s.threadState t ≠ 2 then (0, false, 0) else
  let x := s.thread t
  match x.cur.bind s.cmd? with
  | some c => (bits (c.word 1) 11 0, bit (c.word 1) 12, bits (c.word 1) 63 32)
  | none =>
    match x.frames with
    | [] => (0, false, 0)
    | f :: _ => (hdrWaitEvt (s.load (f.addr + 64 * f.pos) 8), false, 1)

/-- SEQ.STATE of thread `t`, with the queue and depth of its current command. -/
def State.threadWord (s : State) (t : Nat) : Nat :=
  let x := s.thread t
  let c := match x.cur.bind s.cmd? with
    | some c => some c
    | none => (x.frames.head?.map (fun f : Frame => f.call)).bind s.cmd?
  let q := match c with | some c => c.queue % 512 | none => 0
  let d := match c with | some c => (if x.cur.isSome then c.depth else x.frames.length) | none => 0
  s.threadState t + 2 ^ 3 * q + 2 ^ 12 * d

/-- The event that EVT.READ_SEL selects (R166). -/
def State.selectedEvent (s : State) : Nat :=
  eventIndex (s.reg R.EVT_READ_SEL_PART) (s.reg R.EVT_READ_SEL_EVENT) (s.flag R.EVT_READ_SEL_GLOBAL)

/-- The ferroelectric word that DBG.FRAM_SEL selects.  The layout of a boot record (Table 16.7) is not given, so a word of one is
open. -/
def State.framWord (s : State) : Nat :=
  let o := s.reg R.DBG_FRAM_SEL_OFFSET
  let open_ (r : Option (Nat × BootRec)) : Nat :=
    match r with
    | some (n, _) => Config.recordWord n (o % 128) % 2 ^ 32
    | none => 0
  if 0x4000 ≤ o ∧ o < 0x4080 then open_ s.boot.recA
  else if 0x4080 ≤ o ∧ o < 0x4100 then open_ s.boot.recB
  else leNat (cellBytes s.fram o 4)

/-- BUSY in bit 0 and PART in bits [2:1] of an engine class that executes one command at a time: it has begun one. -/
def State.engineWord (s : State) (cls : Nat) : Nat :=
  match s.cmds.find? fun c => hdrClass (c.word 0) == cls && c.begun && (c.stage == .exec || c.stage == .waiting) with
  | some c => 1 + 2 * c.part
  | none => 0

/-- The registers of a slot, by word (Table 12.16). -/
def Slot.word (x : Slot) (i : Nat) : Nat :=
  match i with
  | 0 => ofBool x.active + 2 * ofBool x.finished + 4 * x.reason + 2 ^ 5 * x.vocab + 2 ^ 8 * x.grammar + 2 ^ 16 * x.epoch
  | 1 => x.state + 2 ^ 16 * x.count
  | 2 => x.used
  | _ => leNat x.hold + 2 ^ 24 * x.hold.length

/-- A register word that the device computes from its state; none for a stored one. -/
def State.view (s : State) (a : Nat) : Option Nat :=
  match windowOf a with
  | 0x01 =>
    if a = R.TIME_NOW_TIME.at 0 0 then some (s.now % 2 ^ 32)
    else if a = R.TIME_NOW_TIME.at 0 0 + 4 then some (s.now / 2 ^ 32)
    else none
  | 0x08 =>
    let stopped := fun q => s.qState q == qStopped
    let fenced := fun q => s.qState q == qFenced
    if a = R.QUE_SUMMARY_CONFIGURED.at 0 0 then
      some (queueCount (fun q => s.qState q != qDisabled) + 2 ^ 10 * queueCount stopped + 2 ^ 20 * queueCount fenced)
    else match R.QUE_STOPPED_BITS.index a, R.QUE_FENCED_BITS.index a with
      | some (k, _, _), _ => some (queueBits k stopped)
      | none, some (k, _, _) => some (queueBits k fenced)
      | none, none => none
  | 0x09 => if a = R.EVT_READ_DATA_VALUE.at 0 0 then some (s.event s.selectedEvent) else none
  | 0x0A =>
    match R.SEQ_STATE_STATE.index a, R.SEQ_WAIT_EVENT.index a, R.SEQ_WAIT_THR_THRESHOLD.index a,
        R.SEQ_OUTSTANDING_COUNT.index a with
    | some (t, _, _), _, _, _ => some (s.threadWord t)
    | _, some (t, _, _), _, _ => some ((s.threadWait t).1 + 2 ^ 12 * ofBool (s.threadWait t).2.1)
    | _, _, some (t, _, _), _ => some (s.threadWait t).2.2
    | _, _, _, some (t, _, _) => some (s.outstanding t)
    | _, _, _, _ => none
  | 0x0B =>
    match R.PART_JOB_ELAPSED_US.index a, R.PART_DL_QUIET.index a with
    | some (p, _, _), _ => some (s.jobElapsed p % 2 ^ 32)
    | _, some (p, _, _) => some (s.regWord a % 2 ^ 10 + 2 ^ 10 * ofBool (s.quiet p))
    | _, _ => none
  | 0x21 => if a = R.EMB_STATUS_BUSY.at 0 0 then some (s.engineWord 4) else none
  | 0x22 =>
    if a = R.SEL_STATUS_BUSY.at 0 0 then
      some (s.engineWord 5 + 8 * ofBool (s.cmds.any fun c => hdrOp (c.word 0) == 0x6D && c.begun && c.stage == .waiting))
    else none
  | 0x23 =>
    if 0x00F000231000 ≤ a ∧ a < 0x00F000231800 then
      some ((Sparse.get ({} : Slot) s.slots ((a - 0x00F000231000) / 16)).word ((a - 0x00F000231000) % 16 / 4))
    else none
  | 0x45 =>
    if a = R.SIO_GPIO_IN_GPIO_IN.at 0 0 then
      let i := s.ifaces
      some (((List.range 32).map fun k =>
        if (if bit i.gpioDir k then bit i.gpioOut k else bit (Config.gpioLevel s.tick) k) then 2 ^ k else 0).sum)
    else none
  | 0x07 => if a = R.DBG_FRAM_DATA_DATA.at 0 0 then some s.framWord else none
  | _ => none

/-- The value of the register word at `a`. -/
def State.wordValue (s : State) (a : Nat) : Nat := (s.view a).getD (s.regWord a)

/-- `n` words from `a` as one number. -/
def State.wordsValue (s : State) (a : Nat) : Nat → Nat
  | 0 => 0
  | n + 1 => s.wordValue a + 2 ^ 32 * s.wordsValue (a + 4) n

/-! ### The persistent-log snapshot (R602) -/

/-- The entry bytes at a place of the persistent log, with their INDEX, if they are valid. -/
def plogAt (m : List Host.Cell) (k : Nat) : Option (Nat × List Byte) :=
  let b := cellBytes m (0x8000 + 32 * k) 32
  if field b 28 4 = crc32 (b.take 28) ∧ field b 0 4 % 7168 = k then some (field b 0 4, b) else none

/-- The 16 most recent valid entries, newest first, into RST.PLOG_LAST. -/
def State.plogSnapshot (s : State) : State :=
  let found := (List.range (min 7168 s.hub.plogNext)).filterMap fun d =>
    let n := s.hub.plogNext - 1 - d
    match plogAt s.fram (n % 7168) with
    | some (k, b) => if k = n then some b else none
    | none => none
  (List.range 16).foldl (fun s i =>
    s.setRegWords (0x00F000031000 + 0x20 * i) (leNat (found.getD i [])) 8) s

/-! ### Reads (R24, R27, R602, R706) -/

/-- The 64-bit or 96-bit row whose element holds the word at `a`. -/
def wideAt (a : Nat) : Option (Nat × Nat × Nat) :=
  (rowsAt a).findSome? fun x => if 64 ≤ x.1.width ∧ x.1.width ≤ 96 then some (x.1.at x.2.1 x.2.2.1, x.1.words, x.2.2.2) else none

/-- A read of the register word at `a`, with what the read does: snapshots of wide counters and of the persistent log, and
the step of DBG.FRAM_SEL.  A wo field reads zero. -/
def State.readReg (s : State) (a : Nat) : Nat × State :=
  if a = R.RST_PLOG_COUNT_NEXT.at 0 0 then (s.wordValue a, s.plogSnapshot)
  else if a = R.DBG_FRAM_DATA_DATA.at 0 0 then
    (s.wordValue a, s.setReg R.DBG_FRAM_SEL_OFFSET (s.reg R.DBG_FRAM_SEL_OFFSET + 4))
  else
    match wideAt a with
    | none => (if windowOf a = 8 ∧ (rowsAt a).any (fun x => x.1.acc == .wo) then 0 else s.wordValue a, s)
    | some (base, n, 0) => (s.wordValue a, { s with snaps := Sparse.put none s.snaps base (some (s.wordsValue base n)) })
    | some (base, _, k) =>
      match Sparse.get none s.snaps base with
      | some v => (bits v (32 * k + 31) (32 * k), s)
      | none => (s.wordValue a, s)

/-- `n` consecutive register words read upwards from `a`. -/
def State.readRegs (s : State) (a : Nat) : Nat → List Nat × State
  | 0 => ([], s)
  | n + 1 =>
    let r := s.readReg a
    let l := r.2.readRegs (a + 4) n
    (r.1 :: l.1, l.2)

/-! ### Writes (R22 to R27) -/

/-- The bits of the word at `a` that fields of an access type hold. -/
def accessMask (a : Nat) (acc : Access) : Nat :=
  (rowsAt a).foldl (fun m x => if x.1.acc = acc ∧ x.1.words = 1 then m ||| ((2 ^ x.1.width - 1) <<< x.1.lo) else m) 0

/-- The bits of `m` of a word taken from `v`, the others from `old`. -/
def mergeBits (old v m : Nat) : Nat := old - (old &&& m) + (v &&& m)

/-- Whether a value is a defined encoding of an rw field (R23): signals of Table 20.6 for DBG.TMUX_SEL, aligned offsets for
DBG.FRAM_SEL; every value of the others. -/
def tmuxDefined (v : Nat) : Bool :=
  let arg := bits v 15 8
  match bits v 7 0 with
  | 0x00 | 0x01 | 0x04 | 0x06 | 0x07 | 0x0A | 0x0B | 0x0C | 0x0E => arg == 0
  | 0x02 => decide (arg < 32)
  | 0x03 | 0x08 => decide (arg < 16)
  | 0x05 => decide (arg < 96)
  | 0x09 | 0x0D => decide (arg < 4)
  | _ => false

/-- A write of `v` under a mask to the rw fields of the register word at `a`; a write of an undefined encoding leaves the
field (R23). -/
def State.writeReg (s : State) (a v m : Nat) : State :=
  let m := m &&& accessMask a .rw
  let new := mergeBits (s.regWord a) v m
  if (R.DBG_TMUX_SEL_SIG.index a).isSome && !tmuxDefined new then s
  else if a = R.DBG_FRAM_SEL_OFFSET.at 0 0 && new % 4 != 0 then s
  else s.setRegWord a new

end Sys2Proof.Machine
end

