-- ==== Sys2Proof/Machine/Operands.lean ====
section
/-!
DEFINITION. The operands of commands: what the fetch checks of Table 4.7 need to know of an opcode, and the checks.
-/

namespace Sys2Proof.Machine

open Sys2Proof

/-- What the fetch checks ask of one command: slot counts its opcode allows, whether it is checkpoint-capable, the bits each
body word may have (word 1 first; a word beyond the list is unused), its limits, and the events, queues and memory ranges
it names, each with the word that names it. -/
structure OpInfo where
  slots : List Nat := [1]
  ckpt : Bool := false
  masks : List Nat := []
  /-- (word, holds). -/
  limits : List (Nat × Bool) := []
  /-- (word, event, GLOBAL). -/
  events : List (Nat × Nat × Bool) := []
  /-- (word, accessible). -/
  queues : List (Nat × Bool) := []
  /-- (word, address, bytes, write). -/
  ranges : List (Nat × Nat × Nat × Bool) := []
  deriving DecidableEq, Repr

/-- Where a command stands when it is checked: its partition, whether it belongs to the job that holds or would take the
grant (R177), its depth, and the slots left in its list. -/
structure FetchAt where
  part : Nat
  inJob : Bool
  depth : Nat
  left : Nat
  deriving DecidableEq, Repr

/-- A failed check: its status, the word it is about, and DETAIL. -/
structure FetchFail where
  status : Nat
  word : Nat := 0
  detail : Nat := 0
  deriving DecidableEq, Repr

/-- Engine class whose range holds an opcode (Table 4.1). -/
def opcodeClass (op : Nat) : Option Nat :=
  if op < 0x20 then some 0 else if op < 0x40 then some 2 else if op < 0x50 then some 1 else if op < 0x60 then some 3
  else if op < 0x68 then some 4 else if op < 0x70 then some 5 else if op < 0x80 then some 6 else if op < 0x88 then some 7
  else if op < 0x90 then some 8 else if op < 0x98 then some 9 else none

/-- All 64 bits of a word; its low 48; its high and low halves. -/
def mAll : Nat := 0xFFFFFFFFFFFFFFFF
def mAddr : Nat := 0xFFFFFFFFFFFF
def mHigh : Nat := 0xFFFFFFFF00000000
def mLow : Nat := 0xFFFFFFFF

/-- The first pair of a list whose test fails. -/
def firstFalse : List (Nat × Bool) → Option Nat
  | [] => none
  | (w, ok) :: l => if ok then firstFalse l else some w

/-- The first body word with a bit outside its mask. -/
def reservedSet (masks : List Nat) (words : List Nat) : Option Nat :=
  ((List.range words.length).find? fun i => 0 < i && (words.getD i 0) &&& masks.getD (i - 1) 0 != words.getD i 0)

/-- Checks 2 to 11 of Table 4.7 over a defined opcode. -/
def State.fetchBody (s : State) (f : FetchAt) (words : List Nat) (o : OpInfo) : Option FetchFail :=
  let h := words.getD 0 0
  let cls := (opcodeClass (hdrOp h)).getD 16
  if hdrClass h ≠ cls then some ⟨0x11, 0, 0⟩
  else if h / 2 ^ 45 ≠ 0 then some ⟨0x12, 0, 0⟩
  else if ¬ o.slots.contains (hdrSlots h) ∨ f.left < hdrSlots h then some ⟨0x13, 0, 0⟩
  else
    let last := 8 * hdrSlots h - 1
    let progress := bits (words.getD last 0) 47 0
    let masks := if o.ckpt && hdrCheckpoint h then
        (List.range last).map fun i => if i + 1 = last then mAddr else o.masks.getD i 0
      else o.masks
    match reservedSet masks words with
    | some w => some ⟨0x12, w, 0⟩
    | none =>
      if ¬ (s.partEngines f.part).testBit cls ∨ (cls = 2 ∧ f.inJob = false) then some ⟨0x15, 0, 0⟩
      else if hdrCheckpoint h && !o.ckpt then some ⟨0x16, 0, 0⟩
      else
        match firstFalse (o.limits ++ (if hdrCheckpoint h then [(last, progress % 8 == 0)] else [])) with
        | some w => some ⟨0x14, w, 0⟩
        | none =>
          match firstFalse (o.events.map fun e => (e.1, s.eventAccess f.part e.2.1 e.2.2)) with
          | some w => some ⟨0x19, w, 0⟩
          | none =>
            match firstFalse o.queues with
            | some w => some ⟨0x1A, w, 0⟩
            | none =>
              let prog := if hdrCheckpoint h then [(last, progress, 8, false), (last, progress, 8, true)] else []
              (o.ranges ++ prog).findSome? fun r =>
                (s.bounds f.part r.2.1 r.2.2.1 r.2.2.2).map fun a => ⟨0x18, r.1, a⟩

/-- Whether two ranges overlap. -/
def overlaps (a n b m : Nat) : Bool := decide (0 < n ∧ 0 < m ∧ a < b + m ∧ b < a + n)

/-! ### SEQ opcodes (Tables 4.14 and 4.15) -/

/-- EVENT in bits [11:0] and GLOBAL in bit 12 lie within their limits. -/
def eventField (w : Nat) : Bool := !bit w 12 || decide (bits w 11 0 < 1024)

/-- What the checks ask of a SEQ command of partition `p`. -/
def State.seqInfo (s : State) (p op : Nat) (words : List Nat) : Option OpInfo :=
  let w := fun i => words.getD i 0
  let a := fun i => bits (w i) 47 0
  let w1 := w 1
  let slots := hdrSlots (w 0)
  match op with
  | 0x00 => some {}
  | 0x01 =>
    let add := fun i => bits (w i) 63 32
    some { masks := List.replicate 4 (mHigh + 0x1FFF)
           limits := [1, 2, 3, 4].map fun i => (i, eventField (w i) && (add i != 0 || bits (w i) 12 0 == 0))
           events := ([1, 2, 3, 4].filter fun i => add i != 0).map fun i => (i, bits (w i) 11 0, bit (w i) 12) }
  | 0x02 =>
    some { masks := [mHigh + 0x3FFF, mLow], limits := [(1, eventField w1)], events := [(1, bits w1 11 0, bit w1 12)] }
  | 0x03 => some { masks := [mHigh + 0x1FFF], limits := [(1, eventField w1)], events := [(1, bits w1 11 0, bit w1 12)] }
  | 0x04 => some { masks := [1, mAll], limits := [(2, bit w1 0 || decide (w 2 ≤ 10000000000))] }
  | 0x05 =>
    some { masks := [mAddr, mAll]
           limits := [(1, a 1 % 4 == 0), (2, bits (w 2) 31 0 &&& bits (w 2) 63 32 == bits (w 2) 31 0)] }
  | 0x06 =>
    some { masks := [mAddr, mAddr], limits := [(1, a 1 % 4 == 0), (2, a 2 % 4 == 0)], ranges := [(2, a 2, 4, true)] }
  | 0x07 =>
    let n := bits (w 2) 6 0
    some { slots := (List.range 16).map (· + 1), masks := [mAddr, 0x7F] ++ List.replicate n mAll
           limits := [(1, a 1 % 8 == 0), (2, decide (n + 3 ≤ 8 * slots))], ranges := [(1, a 1, 8 * n, true)] }
  | 0x08 =>
    some { masks := [mAddr, mLow], limits := [(1, a 1 % 64 == 0), (2, decide (w 2 ≤ 1048576))]
           ranges := [(1, a 1, 64 * w 2, false)] }
  | 0x09 =>
    let cond := bits w1 2 0
    let byEvent := cond == 1 || cond == 2
    let byMem := cond == 3 || cond == 4
    let e := bits w1 27 16
    some { masks := [mHigh + 0x0FFF000F, mAddr, mAll]
           limits := [(1, decide (cond ≤ 4)), (1, if byEvent then !bit w1 3 || decide (e < 1024) else e == 0 && !bit w1 3),
                      (2, if byMem then a 2 % 8 == 0 else a 2 == 0), (3, !byEvent || bits (w 3) 63 32 == 0)]
           events := if byEvent then [(1, e, bit w1 3)] else []
           ranges := if byMem then [(2, a 2, 8, false)] else [] }
  | 0x0A => some { masks := [mHigh + 3] }
  | 0x0B => some { masks := [mHigh + 3] }
  | 0x0C =>
    let q := bits w1 8 0
    some { masks := [0x1FF + 0x1FFFF * 2 ^ 16 + 0xFF * 2 ^ 40, mAddr], limits := [(2, a 2 % 8 == 0)]
           queues := [(1, s.ownQueue p q && s.reg R.QUE_CFG_PRODUCER q == 0)]
           ranges := if a 2 = 0 then [] else [(2, a 2, 8, true)] }
  | 0x0D =>
    let q := bits w1 8 0
    let act := bits w1 18 16
    some { masks := [mHigh + 0x701FF], limits := [(1, decide (act ≤ 5) && (act == 5 || bits w1 63 32 == 0))]
           queues := [(1, s.ownQueue p q && (act != 5 || (s.reg R.QUE_CFG_KIND q != 0 && (s.queueX q).consumer == 0)))] }
  | 0x0E =>
    let q := bits w1 8 0
    some { masks := [0x1FF, mAll, mAddr], limits := [(3, a 3 % 8 == 0)]
           queues := [(1, s.ownQueue p q && s.reg R.QUE_CFG_KIND q == 0)]
           ranges := if a 3 = 0 then [] else [(3, a 3, 8, true)] }
  | 0x0F =>
    let q := bits w1 8 0
    some { masks := 0x1FF :: List.replicate 6 mAll, queues := [(1, s.ownQueue p q && s.reg R.QUE_CFG_KIND q == 2)] }
  | _ => none

end Sys2Proof.Machine
end

