-- ==== Sys2Proof/Machine/Sequencer.lean ====
section
/-!
DEFINITION. The SEQ family: what each sequencer control opcode does, and how a command completes, checkpoints and is
released (R126, R138 to R160, R168, R729).
-/

namespace Sys2Proof.Machine

open Sys2Proof

/-- The command `id`, if it is of opcode `op` and stands in its execute stage. -/
def State.executing (s : State) (id op : Nat) : Option Cmd :=
  match s.cmd? id with
  | some c => if c.op = op ∧ c.stage = .exec ∧ s.running then some c else none
  | none => none

/-- A SEQ command executed by its thread: `f` gives its end and the state after it. -/
def State.runSeq (s : State) (id op : Nat) (f : Cmd → State → Done × State) : State :=
  match s.executing id op with
  | some c => let r := f c (s.beginWork c); r.2.finish id r.1
  | none => s

/-- A memory write of a SEQ command as its end (R343). -/
def State.seqWrite (s : State) (c : Cmd) (a : Nat) (bs : List Byte) : Done × State :=
  match Eff.write c.part a bs s with
  | (.ok _, s) => ({}, s)
  | (.error d, s) => (d, s)

/-- The slot a jump of the command `c` names, if `c` stands in a called list and the slot lies within it (R159). -/
def State.jumpTarget (s : State) (c : Cmd) (offset : Nat) : Option Nat :=
  match (s.thread c.thread).frames with
  | f :: _ =>
    let target := (c.offset : Int) + signed 32 offset
    if c.depth ≠ 0 ∧ 0 ≤ target ∧ target < (f.slots : Int) then some target.toNat else none
  | [] => none

/-- Execution of the thread's list goes on at slot `n`. -/
def State.jumpTo (s : State) (t n : Nat) : State :=
  let x := s.thread t
  match x.frames with
  | f :: l => s.setThread t { x with frames := { f with pos := n } :: l }
  | [] => s

/-- `seq.nop` (Table 4.14). -/
def execSeqNop (dt id : Nat) (s : State) : Host.Outcome State Fault Refusal :=
  .next ((s.elapse dt).runSeq id 0x00 fun _ s => ({}, s))

/-- `seq.signal`: adds to up to four events (R157). -/
def execSeqSignal (dt id : Nat) (s : State) : Host.Outcome State Fault Refusal :=
  .next ((s.elapse dt).runSeq id 0x01 fun c s =>
    ({}, [1, 2, 3, 4].foldl (fun s i =>
      let w := c.word i
      s.addEvent (eventIndex c.part (bits w 11 0) (bit w 12)) (bits w 63 32)) s))

/-- `seq.wait` (R142, R157): satisfied at once, or begins to wait. -/
def execSeqWait (dt id : Nat) (s : State) : Host.Outcome State Fault Refusal :=
  let s := s.elapse dt
  .next (match s.executing id 0x02 with
    | none => s
    | some c =>
      let thr := bits (c.word 1) 63 32
      if thr ≤ s.event c.waitOn then
        (if bit (c.word 1) 13 then s.setEvent c.waitOn (s.event c.waitOn - thr) else s).finish id {}
      else
        let us := bits (c.word 2) 31 0
        s.setCmd { c with stage := .waitEvent, start := s.tick
                          limit := if us = 0 then none else some (s.tick + usTicks us) })

/-- A `seq.wait` not satisfied within TIMEOUT fails (R157). -/
def execSeqWaitTimeout (dt id : Nat) (s : State) : Host.Outcome State Fault Refusal :=
  let s := s.elapse dt
  .next (match s.cmd? id with
    | none => s
    | some c =>
      if c.stage = .waitEvent ∧ c.limit.any (fun l => decide (l ≤ s.tick)) then s.finish id { status := 0x1C } else s)

/-- `seq.set_event` (R145): the value is written, and waits that it satisfies are released. -/
def execSeqSetEvent (dt id : Nat) (s : State) : Host.Outcome State Fault Refusal :=
  .next ((s.elapse dt).runSeq id 0x03 fun c s =>
    let e := eventIndex c.part (bits (c.word 1) 11 0) (bit (c.word 1) 12)
    let s := s.setEvent e (bits (c.word 1) 63 32)
    ({}, s.satisfy e (s.waiters e)))

/-- `seq.timer` (R157): an absolute time already passed completes at once. -/
def execSeqTimer (dt id : Nat) (s : State) : Host.Outcome State Fault Refusal :=
  let s := s.elapse dt
  .next (match s.executing id 0x04 with
    | none => s
    | some c =>
      let t := if bit (c.word 1) 0 then c.word 2 else s.now + c.word 2
      if t ≤ s.now then s.finish id {} else s.setCmd { c with stage := .waitTimer, limit := some t })

/-- The delay of a `seq.timer` passes (R157). -/
def execSeqTimerExpire (dt id : Nat) (s : State) : Host.Outcome State Fault Refusal :=
  let s := s.elapse dt
  .next (match s.cmd? id with
    | none => s
    | some c =>
      if c.stage = .waitTimer ∧ c.limit.any (fun l => decide (l ≤ s.now)) then s.finish id {} else s)

/-- `seq.reg_write` (R158): only rw fields of a register that a PERMIT entry names. -/
def execSeqRegWrite (dt id : Nat) (s : State) : Host.Outcome State Fault Refusal :=
  .next ((s.elapse dt).runSeq id 0x05 fun c s =>
    let a := bits (c.word 1) 47 0
    let m := bits (c.word 2) 63 32
    if mapped a ∧ s.permits c.part (a - regSpace) = true ∧ m &&& accessMask a .rw = m then
      ({}, s.writeReg a (bits (c.word 2) 31 0) m)
    else ({ status := 0x1B }, s))

/-- `seq.reg_read` (R158): refused for SAFE, MTR, DBG and unmapped windows. -/
def execSeqRegRead (dt id : Nat) (s : State) : Host.Outcome State Fault Refusal :=
  .next ((s.elapse dt).runSeq id 0x06 fun c s =>
    let a := bits (c.word 1) 47 0
    if mapped a ∧ closedWindow a = false then
      let r := s.readReg a
      r.2.seqWrite c (bits (c.word 2) 47 0) (leBytes 4 r.1)
    else ({ status := 0x1B }, s))

/-- `seq.mem_write`: COUNT values to DEST upwards. -/
def execSeqMemWrite (dt id : Nat) (s : State) : Host.Outcome State Fault Refusal :=
  .next ((s.elapse dt).runSeq id 0x07 fun c s =>
    s.seqWrite c (bits (c.word 1) 47 0) (wordsBytes ((List.range (bits (c.word 2) 6 0)).map fun i => c.word (3 + i))))

/-- `seq.call` (R159): runs a list, to depth 4; an empty list returns at once. -/
def execSeqCall (dt id : Nat) (s : State) : Host.Outcome State Fault Refusal :=
  let s := s.elapse dt
  .next (match s.executing id 0x08 with
    | none => s
    | some c =>
      if c.depth = 4 then s.finish id { status := 0x1D }
      else if c.word 2 = 0 then s.finish id {}
      else
        let x := s.thread c.thread
        let f : Frame := ⟨c.id, bits (c.word 1) 47 0, c.word 2, 0⟩
        (s.setCmd { c with stage := .called, begun := true }).setThread c.thread
          { x with cur := none, frames := f :: x.frames, boundary := s.tick })

/-- `seq.branch` (R157, R159): the condition, and the jump. -/
def execSeqBranch (dt id : Nat) (s : State) : Host.Outcome State Fault Refusal :=
  .next ((s.elapse dt).runSeq id 0x09 fun c s =>
    let w1 := c.word 1
    let v := s.event (eventIndex c.part (bits w1 27 16) (bit w1 3))
    match s.jumpTarget c (bits w1 63 32) with
    | none => ({ status := 0x1E }, s)
    | some n =>
      let take := fun (b : Bool) (s : State) => if b then s.jumpTo c.thread n else s
      match bits w1 2 0 with
      | 0 => ({}, take true s)
      | 1 => ({}, take (decide (c.word 3 ≤ v)) s)
      | 2 => ({}, take (decide (v < c.word 3)) s)
      | k =>
        match Eff.load c.part (bits (c.word 2) 47 0) 8 s with
        | (.ok m, s) => ({}, take ((m == c.word 3) == (k == 3)) s)
        | (.error d, s) => (d, s))

/-- `seq.loop_set`. -/
def execSeqLoopSet (dt id : Nat) (s : State) : Host.Outcome State Fault Refusal :=
  .next ((s.elapse dt).runSeq id 0x0A fun c s =>
    ({}, s.setReg R.SEQ_LOOP_COUNT (bits (c.word 1) 63 32) c.thread (bits (c.word 1) 1 0)))

/-- `seq.loop` (R157, R159): a counter at 0 stays 0 and the command does not jump; else it is decremented, and the command
jumps if it is not zero. -/
def execSeqLoop (dt id : Nat) (s : State) : Host.Outcome State Fault Refusal :=
  .next ((s.elapse dt).runSeq id 0x0B fun c s =>
    let k := bits (c.word 1) 1 0
    let n := s.reg R.SEQ_LOOP_COUNT c.thread k
    match s.jumpTarget c (bits (c.word 1) 63 32) with
    | none => ({ status := 0x1E }, s)
    | some m =>
      let s := s.setReg R.SEQ_LOOP_COUNT (n - 1) c.thread k
      ({}, if n ≤ 1 then s else s.jumpTo c.thread m))

/-- `seq.doorbell` (R125, R157): a rejection completes it with REJECTED; RESULT reports the cause. -/
def execSeqDoorbell (dt id : Nat) (s : State) : Host.Outcome State Fault Refusal :=
  .next ((s.elapse dt).runSeq id 0x0C fun c s =>
    let w1 := c.word 1
    let q := bits w1 8 0
    let r := s.doorbell q (bits w1 32 16) (bits w1 47 40)
    let d : Done := if r.1 = 0 then {} else { status := 0x07 }
    let a := bits (c.word 2) 47 0
    if a = 0 then (d, r.2) else
    let p := r.2.seqWrite c a (leBytes 8 (r.1 + 2 ^ 8 * r.2.gen q + 2 ^ 16 * r.2.wptr q))
    (if p.1.status = 0 then d else p.1, p.2))

/-! ### `seq.queue_ctl` (R126, R128, R140, R157) -/

/-- A `seq.queue_ctl` of one action on its target. -/
def State.queueCtl (s : State) (id action : Nat) (f : Cmd → Nat → State → Done × State) : State :=
  match s.executing id 0x0D with
  | some c =>
    if bits (c.word 1) 18 16 = action then let r := f c (bits (c.word 1) 8 0) s; r.2.finish id r.1 else s
  | none => s

/-- STOP: the queue is not picked any more, and a checkpointed command of it in flight is to stop at its next
checkpoint. -/
def State.stopTarget (s : State) (q : Nat) : State :=
  if s.qState q = qIdle ∨ s.qState q = qActive then
    let s := s.setQState q qStopped
    { s with cmds := s.cmds.map fun c : Cmd => if c.queue = q ∧ c.depth = 0 then { c with stopping := true } else c }
  else s

/-- Where START and START_SKIP leave a queue. -/
def State.started (s : State) (q : Nat) : State :=
  let s := { s with cmds := s.cmds.map fun c : Cmd => if c.queue = q then { c with stopping := false } else c }
  let s := s.setQueueX q { s.queueX q with failed := false }
  s.setQState q (if s.qCount q ≠ 0 ∨ s.qBusy q then qActive else qIdle)

/-- START (R140). -/
def State.startTarget (s : State) (q : Nat) : State := if s.qState q = qStopped then s.started q else s

/-- START_SKIP (R140): RPTR moves past the failed or suspended command. -/
def State.skipTarget (s : State) (q : Nat) : State :=
  if s.qState q = qStopped then
    let x := s.queueX q
    (s.setFetch q { x with redo := x.redo.tail }).started q
  else s

/-- An open request answered LOST and closed (R196). -/
def State.lose (s : State) (i : Nat) (e : WinEntry) : State := (s.closeEntry i e 0x11 0).incReg R.PART_INTAKE_LOST_COUNT

/-- Every open window entry that meets a test answered LOST. -/
def State.loseEntries (s : State) (p : WinEntry → Bool) : State :=
  (List.range 64).foldl (fun s i =>
    (s.window i).foldl (fun s e => if e.closed.isNone && p e then s.lose i e else s) s) s

/-- A record of commands discarded by a flush, or aborted before they were taken: header word, SEQNO and count. -/
def State.postFlushed (s : State) (q status h seqno n : Nat) : State :=
  let cq := s.cqOf q
  if cq = 0 then s else
  s.post { queue := q, cq := cq, seqno := seqno, finish := none
           words := [status + 2 ^ 8 * hdrOp h + 2 ^ 16 * q + 2 ^ 32 * s.gen q + 2 ^ 40 * hdrClass h, seqno, s.now, n, 0,
                     0, 0, 0] }

/-- The commands a discarding flush discards, with their records and answers (R126, R196). -/
def State.discardCommands (s : State) (q : Nat) : State :=
  let x := s.queueX q
  let next := s.reg R.QUE_SEQNO_NEXT q
  let un := s.untaken q
  let head := fun p => s.load (s.slotAddr q p) 8
  let never := (List.range un.length).map fun i => (next + i, head (un.getD i (0, 0)).1)
  let kept := never.filter fun c => !x.aborted.contains c.1
  let cut := never.filter fun c => x.aborted.contains c.1
  let left := x.redo.map fun r => (r.seqno, head r.ptr, x.aborted.contains r.seqno)
  let s := s.setReg R.QUE_SEQNO_NEXT (next + un.length) q
  let s := s.setFetch q { x with redo := [], failed := false, aborted := [], fetch := s.wptr q }
  let s := left.foldl (fun s r => if r.2.2 then s.postFlushed q 0x01 r.2.1 r.1 0 else s.postFlushed q 0x30 r.2.1 r.1 1) s
  let s := match kept with
    | [] => s
    | c :: _ => s.postFlushed q 0x30 c.2 c.1 kept.length
  let s := cut.foldl (fun s c => s.postFlushed q 0x01 c.2 c.1 0) s
  let gone := (left.filter fun r => !r.2.2).map (·.1) ++ kept.map (·.1)
  s.loseEntries fun e =>
    (match s.route e.route with
     | some r => field r 8 2 == q
     | none => false) && e.seqno.any (gone.contains ·)

/-- A flush of queue `q` (R126). -/
def State.flush (s : State) (q : Nat) (discard : Bool) : State :=
  let s := s.setReg R.QUE_STATE_GEN (s.gen q + 1) q
  let s :=
    if discard then
      let s := s.incReg R.QUE_DISCARD_SLOTS q 0 (s.qCount q)
      if s.reg R.QUE_CFG_KIND q = 0 then s.discardCommands q
      else
        let count := s.qCount q
        let r := s.rptr q
        let s := s.loseEntries fun e => e.itemQ == q && decide (s.ptrDiff q e.itemPtr r < count)
        s.setReg R.QUE_RPTR_RPTR (s.wptr q) q
    else s
  if s.qState q ≠ qFenced ∧ s.qCount q = 0 ∧ ¬ s.qBusy q then s.setQState q qIdle else s

/-- `seq.queue_ctl` STOP. -/
def execQueueStop (dt id : Nat) (s : State) : Host.Outcome State Fault Refusal :=
  .next ((s.elapse dt).queueCtl id 0 fun _ q s => ({}, s.stopTarget q))

/-- `seq.queue_ctl` START. -/
def execQueueStart (dt id : Nat) (s : State) : Host.Outcome State Fault Refusal :=
  .next ((s.elapse dt).queueCtl id 1 fun _ q s => ({}, s.startTarget q))

/-- `seq.queue_ctl` START_SKIP. -/
def execQueueStartSkip (dt id : Nat) (s : State) : Host.Outcome State Fault Refusal :=
  .next ((s.elapse dt).queueCtl id 2 fun _ q s => ({}, s.skipTarget q))

/-- `seq.queue_ctl` FLUSH. -/
def execQueueFlush (dt id : Nat) (s : State) : Host.Outcome State Fault Refusal :=
  .next ((s.elapse dt).queueCtl id 3 fun _ q s => ({}, s.flush q false))

/-- `seq.queue_ctl` FLUSH_DISCARD. -/
def execQueueFlushDiscard (dt id : Nat) (s : State) : Host.Outcome State Fault Refusal :=
  .next ((s.elapse dt).queueCtl id 4 fun _ q s => ({}, s.flush q true))

/-- `seq.queue_ctl` RELEASE (R157). -/
def execQueueRelease (dt id : Nat) (s : State) : Host.Outcome State Fault Refusal :=
  .next ((s.elapse dt).queueCtl id 5 fun c q s =>
    let n := bits (c.word 1) 63 32
    if s.qCount q < n then ({ status := 0x14 }, s) else ({}, s.release q n))

/-- `seq.abort` (R152 to R155): the outcome to RESULT and to its own record. -/
def execSeqAbort (dt id : Nat) (s : State) : Host.Outcome State Fault Refusal :=
  .next ((s.elapse dt).runSeq id 0x0E fun c s =>
    let r := s.arbiter (bits (c.word 1) 8 0) (c.word 2)
    let a := bits (c.word 3) 47 0
    let d : Done := { detail := r.1 }
    if a = 0 then (d, r.2) else
    let p := r.2.seqWrite c a (leBytes 8 r.1)
    (if p.1.status = 0 then d else p.1, p.2))

/-- `seq.notify` (R156): a NOTE record with a payload; the command is executed once it is committed. -/
def execSeqNotify (dt id : Nat) (s : State) : Host.Outcome State Fault Refusal :=
  let s := s.elapse dt
  .next (match s.executing id 0x0F with
    | none => s
    | some c =>
      let s := s.setCmd { c with stage := .waiting, begun := true }
      let head := (s.recordOf c 0x04 0 0 false).take 2
      s.post { queue := c.queue, cq := bits (c.word 1) 8 0, seqno := c.seqno, finish := some id
               words := head ++ (List.range 6).map fun i => c.word (2 + i) })

/-! ### Completion, checkpoints and held records -/

/-- COMMAND_COMPLETE (R138): the executed command `id` completes. -/
def execCommandComplete (dt id : Nat) (s : State) : Host.Outcome State Fault Refusal :=
  let s := s.elapse dt
  .next (match s.cmd? id with
    | some c => if c.stage = .done then s.complete c else s
    | none => s)

/-- A command suspended at a checkpoint (R729): it is left for START, which takes it again. -/
def State.suspend (s : State) (c : Cmd) : State :=
  let x := s.queueX c.queue
  (s.dropCmd c.id).setFetch c.queue { x with redo := insertRedo ⟨c.offset, hdrSlots (c.word 0), c.seqno⟩ x.redo }

/-- CHECKPOINT (R149, R163, R729): the progress word, the CHECKPOINT record, then a pending abort, stop or fence. -/
def execCheckpoint (dt id : Nat) (s : State) : Host.Outcome State Fault Refusal :=
  let s := s.elapse dt
  .next (match s.cmd? id with
    | none => s
    | some c =>
      if c.stage = .waiting ∧ hdrCheckpoint (c.word 0) = true ∧ c.begun then
        let s := s.progressWord c false
        let halt := !c.aborted && c.depth == 0 && (c.stopping || (decide (c.queue < 512) && s.qState c.queue == qFenced))
        let s := s.setCmd { c with stage := .exec }
        let words := s.recordOf c 0x05 c.units 0 halt
        let s := if halt then s.suspend c else if c.aborted then s.finish id {} c.units else s
        if (halt ∨ hdrNotify (c.word 0) = true) ∧ s.cqOf c.queue ≠ 0 then
          s.post { queue := c.queue, cq := s.cqOf c.queue, seqno := c.seqno, finish := none, words := words }
        else s
      else s)

/-- CQ_RECORD_RELEASE (R139): a completion queue has gained space, and records held for it are committed. -/
def execCqRecordRelease (dt cq : Nat) (s : State) : Host.Outcome State Fault Refusal :=
  let s := s.elapse dt
  .next (if s.running ∧ s.held.any (fun r => r.cq == cq) then s.drainAll else s)

end Sys2Proof.Machine
end

