-- ==== Sys2Proof/Machine/Engine.lean ====
section
/-!
DEFINITION. How an engine takes and runs its commands (R136, R149, R150, R183, R267, R352).
-/

namespace Sys2Proof.Machine

open Sys2Proof

/-- The address in body word `i`. -/
def Cmd.addr (c : Cmd) (i : Nat) : Nat := bits (c.word i) 47 0

/-- CMASK of a TENSOR command (Tables 7.6, 7.7, 8.2 and 8.4). -/
def Cmd.coreMask (c : Cmd) : Nat :=
  if c.op = 0x21 ∨ c.op = 0x30 ∨ c.op = 0x31 then bits (c.word 8) 47 32 else bits (c.word 6) 15 0

/-- A command of Comet's tokenizer lanes (R424). -/
def Cmd.lane (c : Cmd) : Bool := c.op == 0x70 || c.op == 0x71

/-- Whether two commands are for one kind of engine instance: the copy engine of a pair, a tensor core that both select,
the vision engine's command resampler or its other opcodes, Comet's lanes or its slot unit, or the one engine of a class. -/
def Cmd.shares (a b : Cmd) : Bool :=
  a.cls == b.cls &&
  (if a.cls = 1 then a.thread / 8 == b.thread / 8 else if a.cls = 2 then (a.coreMask &&& b.coreMask) != 0
   else if a.cls = 3 then (a.op == 0x53) == (b.op == 0x53) else if a.cls = 6 then a.lane == b.lane else true)

/-- Instances that can run a command: the four lanes, or one. -/
def Cmd.instances (c : Cmd) : Nat := if c.lane then 4 else 1

/-- Whether the engine takes `d` before `c`: one that it has begun, or that it takes first, by CRIT for the engines of R183,
and in issue order. -/
def State.takesFirst (s : State) (d c : Cmd) : Bool :=
  let older := decide (d.start < c.start ∨ (d.start = c.start ∧ d.id < c.id))
  let crit := fun (x : Cmd) => s.partCrit x.part
  d.begun || (!c.begun && (if c.cls ≤ 2 then older else decide (crit c < crit d) || (crit c == crit d && older)))

/-- The command `id` of opcode `op`, if its engine takes or goes on with it now. -/
def State.engine (s : State) (id op : Nat) : Option Cmd :=
  match s.executing id op with
  | some c =>
    let first := s.cmds.filter fun d => d.id != id && d.shares c && (d.stage == .exec || (d.stage == .waiting && d.begun)) &&
      s.takesFirst d c
    if first.length < c.instances then some c else none
  | none => none

/-- The command `id` of opcode `op` run by its engine: its effect, and its end. -/
def State.runEngine (s : State) (id op : Nat) (f : Cmd → Eff Unit) : State :=
  match s.engine id op with
  | some c =>
    match f c (s.beginWork c) with
    | (.ok _, s) => s.finish id {}
    | (.error d, s) => s.finish id d
  | none => s

/-- Where a command with a progress word starts (R150): its units done, or its end. -/
def State.resume (s : State) (c : Cmd) (total : Nat) : Except (Done × Nat) Nat × State :=
  if c.begun then (.ok c.units, s)
  else if ¬ hdrCheckpoint (c.word 0) then (.ok 0, s)
  else match Eff.load c.part c.progress 8 s with
    | (.error d, s) => (.error (d, 0), s)
    | (.ok w, s) =>
      let done := bits w 47 0
      let same := bits w 55 48 == c.op
      if done = 0 then (.ok 0, s)
      else if bit w 63 && same then (.error ({}, done), s)
      else if same && decide (done < total) then (.ok done, s)
      else (.error ({ status := 0x17 }, 0), s)

/-- A long command run to its end, or with CHECKPOINT to its next checkpoint after `step` units: `seg` does the units of a
range and says how many it did, and how it ended. -/
def State.runLong (s : State) (id op : Nat) (total step : Cmd → Nat) (seg : Cmd → Nat → Nat → State → Nat × Done × State) :
    State :=
  match s.engine id op with
  | none => s
  | some c =>
    match s.resume c (total c) with
    | (.error (d, n), s) => s.finish id d n
    | (.ok a, s) =>
      let b := if hdrCheckpoint (c.word 0) then min (a + step c) (total c) else total c
      let (n, d, s) := seg c a b (s.beginWork c)
      if d.status ≠ 0 ∨ b = total c then s.finish id d (a + n)
      else s.setCmd { c with stage := .waiting, begun := true, units := b }

/-! ### Work by output rows (R387, R415) -/

/-- A check of an engine's work stands between its computation and what it writes: where the check fails, `bad` is what the
failure does, and it wins over a failed read of the same cycle (R394, R422). -/
def Eff.checked {α : Type} (bad : Option (Eff Unit)) (m : Eff α) (k : α → Eff Unit) : Eff Unit := fun s =>
  match bad, m s with
  | some f, (_, s) => f s
  | none, (.ok a, s) => k a s
  | none, (.error e, s) => (.error e, s)

/-- Output rows after a failed one, whose writing is unspecified: each is done or not. -/
def looseRows (f : Nat → Eff Unit) (r : Nat) : Nat → State → State
  | 0, s => s
  | n + 1, s =>
    let (k, s) := s.freeBelow 2
    looseRows f (r + 1) n (if k = 1 then (f r s).2 else s)

/-- `n` output rows from row `r`, in order, up to the first that fails: rows done, and the end.  `bad` gives what a failed
check of a row does. -/
def runRows (f : Option (Eff Unit) → Nat → Eff Unit) (bad : Nat → Option (Eff Unit)) (total r : Nat) :
    Nat → State → Nat × Done × State
  | 0, s => (0, {}, s)
  | n + 1, s =>
    match f (bad r) r s with
    | (.ok _, s) =>
      let y := runRows f bad total (r + 1) n s
      (y.1 + 1, y.2.1, y.2.2)
    | (.error d, s) => (0, d, looseRows (f none) (r + 1) (total - (r + 1)) s)

/-- An uncorrectable word of an engine's own memory, met or not by the work of one row: which words the work uses is not
stated (R342, R387). -/
def Eff.staging (base size : Nat) : Eff Unit := fun s =>
  match s.health.filter fun x => decide (base ≤ x.1 ∧ x.1 < base + size) && (x.2 == .uncorrectable || x.2 == .poisoned) with
  | [] => (.ok (), s)
  | l =>
    let (k, s) := s.freeBelow (l.length + 1)
    match l[k]? with
    | some (w, _) => (.error { status := 0x1F, detail := w }, s.foundBad w)
    | none => (.ok (), s)

end Sys2Proof.Machine
end

