-- ==== Sys2Proof/Machine/Float.lean ====
section
/-!
DEFINITION. Floating-point formats and arithmetic: decoding, one rounding to nearest even, conversions (R276, R279), and the
functions that the spec gives within an error bound (Table 7.4).
-/

namespace Sys2Proof.Machine

open Sys2Proof

/-! ### Formats -/

/-- A binary format: exponent and fraction bits, and whether it has infinities. -/
structure FloatFmt where
  eb : Nat
  mb : Nat
  inf : Bool
  deriving DecidableEq, Repr

def fp32 : FloatFmt := ⟨8, 23, true⟩
def bf16 : FloatFmt := ⟨8, 7, true⟩
def fp16 : FloatFmt := ⟨5, 10, true⟩
def e5m2 : FloatFmt := ⟨5, 2, true⟩
def e4m3 : FloatFmt := ⟨4, 3, false⟩
/-- W13 and WF24 of R314, the latter without its eight zero bits. -/
def w13 : FloatFmt := ⟨6, 6, true⟩
def wf24 : FloatFmt := ⟨8, 15, true⟩

def FloatFmt.bias (f : FloatFmt) : Nat := 2 ^ (f.eb - 1) - 1

/-- Code of the largest finite value. -/
def FloatFmt.maxCode (f : FloatFmt) : Nat := if f.inf then (2 ^ f.eb - 1) * 2 ^ f.mb - 1 else 2 ^ (f.eb + f.mb) - 2

/-- The canonical quiet NaN (R276). -/
def FloatFmt.nan (f : FloatFmt) : Nat :=
  if f.inf then (2 ^ f.eb - 1) * 2 ^ f.mb + 2 ^ (f.mb - 1) else 2 ^ (f.eb + f.mb) - 1

def FloatFmt.signBit (f : FloatFmt) (neg : Bool) : Nat := if neg then 2 ^ (f.eb + f.mb) else 0

/-- An exact value: not a number, an infinity, or (−1)^neg × m × 2^e. -/
inductive Fl where
  | nan
  | inf (neg : Bool)
  | fin (neg : Bool) (m : Nat) (e : Int)
  deriving DecidableEq, Repr

/-- The value of a code. -/
def FloatFmt.decode (f : FloatFmt) (c : Nat) : Fl :=
  let neg := c.testBit (f.eb + f.mb)
  let ex := c / 2 ^ f.mb % 2 ^ f.eb
  let man := c % 2 ^ f.mb
  let e0 : Int := 1 - (f.bias : Int) - f.mb
  if f.inf ∧ ex = 2 ^ f.eb - 1 then (if man = 0 then .inf neg else .nan)
  else if f.inf = false ∧ ex = 2 ^ f.eb - 1 ∧ man = 2 ^ f.mb - 1 then .nan
  else if ex = 0 then .fin neg man e0
  else .fin neg (2 ^ f.mb + man) (e0 + (ex - 1 : Nat))

/-- `m ÷ 2^k` rounded to nearest, ties to even. -/
def rneShift (m k : Nat) : Nat :=
  let q := m / 2 ^ k
  let r := 2 * (m % 2 ^ k)
  if 2 ^ k < r ∨ (r = 2 ^ k ∧ q % 2 = 1) then q + 1 else q

/-- The code of a value rounded once to nearest, ties to even.  Beyond the largest finite value it saturates, or becomes
infinite where the format has infinities and `sat` is false (R279). -/
def FloatFmt.round (f : FloatFmt) (sat : Bool) : Fl → Nat
  | .nan => f.nan
  | .inf neg => f.signBit neg + (if f.inf then (2 ^ f.eb - 1) * 2 ^ f.mb else f.maxCode)
  | .fin neg m e =>
    if m = 0 then f.signBit neg else
    let e0 : Int := 1 - (f.bias : Int) - f.mb
    let q : Int := max ((Nat.log2 m : Int) + e - f.mb) e0
    let m' := if q ≤ e then m * 2 ^ (e - q).toNat else rneShift m (q - e).toNat
    let code := (q - e0).toNat * 2 ^ f.mb + m'
    f.signBit neg +
      (if code ≤ f.maxCode then code else if sat || !f.inf then f.maxCode else (2 ^ f.eb - 1) * 2 ^ f.mb)

/-! ### Exact arithmetic -/

def Fl.ofInt (n : Int) (e : Int := 0) : Fl := .fin (decide (n < 0)) n.natAbs e

def Fl.neg : Fl → Fl
  | .nan => .nan
  | .inf s => .inf !s
  | .fin s m e => .fin (!s) m e

def Fl.abs : Fl → Fl
  | .nan => .nan
  | .inf _ => .inf false
  | .fin _ m e => .fin false m e

def sgn (neg : Bool) (m : Nat) : Int := if neg then -(m : Int) else m

def Fl.add : Fl → Fl → Fl
  | .nan, _ => .nan
  | _, .nan => .nan
  | .inf s, .inf t => if s = t then .inf s else .nan
  | .inf s, _ => .inf s
  | _, .inf t => .inf t
  | .fin s m e, .fin t n d =>
    let q := min e d
    let v := sgn s (m * 2 ^ (e - q).toNat) + sgn t (n * 2 ^ (d - q).toNat)
    if v = 0 then .fin (s && t) 0 q else .ofInt v q

def Fl.mul : Fl → Fl → Fl
  | .nan, _ => .nan
  | _, .nan => .nan
  | .inf s, .inf t => .inf (s != t)
  | .inf s, .fin t n _ => if n = 0 then .nan else .inf (s != t)
  | .fin s m _, .inf t => if m = 0 then .nan else .inf (s != t)
  | .fin s m e, .fin t n d => .fin (s != t) (m * n) (e + d)

/-- A quotient with enough bits and a sticky bit for any rounding here. -/
def Fl.div : Fl → Fl → Fl
  | .nan, _ => .nan
  | _, .nan => .nan
  | .inf _, .inf _ => .nan
  | .inf s, .fin t _ _ => .inf (s != t)
  | .fin s _ _, .inf t => .fin (s != t) 0 0
  | .fin s m e, .fin t n d =>
    if n = 0 then (if m = 0 then .nan else .inf (s != t)) else
    let k := 200 + Nat.log2 n
    let a := m * 2 ^ k
    .fin (s != t) (2 * (a / n) + (if a % n = 0 then 0 else 1)) (e - d - k - 1)

/-- `a ≤ b` of two numbers; false if either is NaN. -/
def Fl.le : Fl → Fl → Bool
  | .nan, _ => false
  | _, .nan => false
  | .inf s, .inf t => s || !t
  | .inf s, _ => s
  | _, .inf t => !t
  | .fin s m e, .fin t n d =>
    let q := min e d
    decide (sgn s (m * 2 ^ (e - q).toNat) ≤ sgn t (n * 2 ^ (d - q).toNat))

def Fl.isNan : Fl → Bool
  | .nan => true
  | _ => false

def Fl.isFin : Fl → Bool
  | .fin .. => true
  | _ => false

def Fl.negative : Fl → Bool
  | .nan => false
  | .inf s => s
  | .fin s _ _ => s

/-- The greater of two values, NaN if either is; +0 is greater than −0. -/
def Fl.max (a b : Fl) : Fl :=
  if a.isNan || b.isNan then .nan
  else if a.le b then (if b.le a && b.negative then a else b) else a

def Fl.min (a b : Fl) : Fl :=
  if a.isNan || b.isNan then .nan
  else if a.le b then (if b.le a && b.negative then b else a) else b

/-- A value rounded to an integer, ties to even; NaN is 0, infinities far out. -/
def Fl.toInt : Fl → Int
  | .nan => 0
  | .inf s => if s then -(2 ^ 200) else 2 ^ 200
  | .fin s m e => sgn s (if 0 ≤ e then m * 2 ^ e.toNat else rneShift m (-e).toNat)

/-! ### FP32 on codes -/

def f32 (c : Nat) : Fl := fp32.decode c
def toF32 (x : Fl) : Nat := fp32.round false x
def fadd (a b : Nat) : Nat := toF32 ((f32 a).add (f32 b))
def fsub (a b : Nat) : Nat := toF32 ((f32 a).add (f32 b).neg)
def fmul (a b : Nat) : Nat := toF32 ((f32 a).mul (f32 b))
def ffma (a b c : Nat) : Nat := toF32 (((f32 a).mul (f32 b)).add (f32 c))
def fdiv (a b : Nat) : Nat := toF32 ((f32 a).div (f32 b))
def fabs (a : Nat) : Nat := toF32 (f32 a).abs
def fneg (a : Nat) : Nat := toF32 (f32 a).neg
def fmax (a b : Nat) : Nat := toF32 ((f32 a).max (f32 b))
def fmin (a b : Nat) : Nat := toF32 ((f32 a).min (f32 b))
def ffinite (a : Nat) : Bool := (f32 a).isFin

/-- The FP32 code of an integer. -/
def fint (n : Int) : Nat := toF32 (.ofInt n)

/-- A sum in FP32 in list order, from +0. -/
def fsum (l : List Nat) : Nat := l.foldl fadd 0

/-! ### Functions given within an error bound (Table 7.4) -/

/-- Fraction bits of the fixed-point evaluations. -/
def fixS : Nat := 192

/-- ln 2 and 1 ÷ √(2π) with 192 fraction bits. -/
def fixLn2 : Nat := 0xB17217F7D1CF79ABC9E3B39803F2F6AF40F343267298B62D
def fixPhi0 : Nat := 0x662114CF50D942343F2CF1402EAE38BFD3829F30512706D8

def fixOne : Nat := 2 ^ fixS

/-- A finite value as a fixed-point integer. -/
def Fl.fixed : Fl → Int
  | .fin s m e => sgn s (if 0 ≤ e + fixS then m * 2 ^ (e + fixS).toNat else m / 2 ^ (-(e + fixS)).toNat)
  | _ => 0

/-- Σ tᵢ with t₀ = `t` and tᵢ = tᵢ₋₁ × r ÷ d(i), `n` terms. -/
def fixSeries (r : Int) (d : Nat → Nat) : Nat → Nat → Int → Int
  | 0, _, _ => 0
  | n + 1, i, t => t + fixSeries r d n (i + 1) (t * r / (fixOne * d i : Nat))

/-- e^x for a fixed-point x: a value. -/
def expFl (x : Int) : Fl :=
  let k := (2 * x + fixLn2) / (2 * fixLn2 : Nat)
  .ofInt (fixSeries (x - k * fixLn2) (fun i => i) 60 1 fixOne) (k - fixS)

/-- ln of m × 2^e, fixed point: 2 × atanh of (f − 1) ÷ (f + 1), and the exponent's part. -/
def lnFix (m : Nat) (e : Int) : Int :=
  let t := Nat.log2 m
  let z : Int := ((m - 2 ^ t) * fixOne / (m + 2 ^ t) : Nat)
  let z2 := z * z / (fixOne : Nat)
  let s := (List.range 70).foldl (fun (a : Int × Int) i => (a.1 + a.2 / (2 * i + 1 : Nat), a.2 * z2 / (fixOne : Nat))) (0, z)
  2 * s.1 + ((t : Int) + e) * fixLn2

/-- ⌊√n⌋ by bits, from bit `k`. -/
def isqrtFrom (n : Nat) : Nat → Nat → Nat
  | 0, r => r
  | k + 1, r => let c := r + 2 ^ k; isqrtFrom n k (if c * c ≤ n then c else r)

def isqrt (n : Nat) : Nat := isqrtFrom n (Nat.log2 n / 2 + 1) 0

/-- Units of 2^−149 in one unit in the last place of the FP32 result nearest a value. -/
def Fl.ulps : Fl → Nat
  | .fin _ m e => 2 ^ ((Nat.log2 m : Int) + e + 126).toNat
  | _ => 0

/-- A function's FP32 result at operand code `c`: its value, off by at most `bound` units of 2^−149, the same for the same
operand. -/
def fnear (op c : Nat) (v : Fl) (bound : Nat) : Nat :=
  toF32 (v.add (.ofInt (clampInt (-(bound : Int)) bound (Config.ulpOffset op c)) (-149)))

/-- A result that the spec does not state: any code. -/
def fopen (op c : Nat) : Nat := unsigned 32 (Config.ulpOffset op c)

/-- e^x, within 2 ulp. -/
def fexp (c : Nat) : Nat :=
  match f32 c with
  | .nan => fp32.nan
  | .inf s => if s then 0 else c
  | .fin s m e =>
    let x : Fl := .fin s m e
    if (Fl.ofInt 256).le x.abs then (if s then fnear 0x0B c (.fin false 0 0) 2 else toF32 (.inf false))
    else let v := expFl x.fixed; fnear 0x0B c v (2 * v.ulps)

/-- ln x, within 2 ulp; −∞ at ±0, NaN below 0. -/
def flog (c : Nat) : Nat :=
  match f32 c with
  | .nan => fp32.nan
  | .inf s => if s then fp32.nan else c
  | .fin s m e =>
    if m = 0 then toF32 (.inf true) else if s then fp32.nan
    else let v := Fl.ofInt (lnFix m e) (-fixS); fnear 0x0C c v (2 * v.ulps)

/-- 1 ÷ x, within 1 ulp. -/
def frecip (c : Nat) : Nat :=
  let v := (Fl.ofInt 1).div (f32 c)
  if v.isFin && (f32 c).isFin then fnear 0x0D c v v.ulps else toF32 v

/-- 1 ÷ √x, within 2 ulp. -/
def frsqrt (c : Nat) : Nat :=
  match f32 c with
  | .nan => fp32.nan
  | .inf s => if s then fp32.nan else 0
  | .fin s m e =>
    if m = 0 then toF32 (.inf s) else if s then fp32.nan
    else
      let odd := e % 2 = 1
      let m' := if odd then 2 * m else m
      let h := (if odd then e - 1 else e) / 2
      let v : Fl := .fin false (isqrt (2 ^ (2 * fixS) / m')) (-fixS - h)
      fnear 0x0E c v (2 * v.ulps)

/-- 4 ulp or 2^−24, whichever is larger. -/
def sigBound (v : Fl) : Nat := max (4 * v.ulps) (2 ^ 125)

/-- e^−|x| in fixed point; 0 beyond 256. -/
def expDown (x : Int) : Int := if 256 * (fixOne : Int) ≤ x.natAbs then 0 else (expFl (-x.natAbs)).fixed

/-- 1 ÷ (1 + e^−x) in fixed point. -/
def sigFix (x : Int) : Int :=
  let e := expDown x
  (if x < 0 then e else fixOne) * fixOne / (fixOne + e)

/-- Φ(x) in fixed point: ½ + φ(x) × (x + x³ ÷ 3 + x⁵ ÷ 15 + …). -/
def phiFix (x : Int) : Int :=
  if 16 * (fixOne : Int) ≤ x then fixOne else if x ≤ -16 * (fixOne : Int) then 0 else
  let x2 := x * x / (fixOne : Nat)
  let s := fixSeries x2 (fun i => 2 * i + 1) 600 1 x
  let p := (expFl (-x2 / 2)).fixed * fixPhi0 / (fixOne : Nat)
  fixOne / 2 + s * p / (fixOne : Nat)

/-- A function of the SIGMOID class, from its fixed-point evaluation and its limits at −∞ and +∞. -/
def fsig (op c : Nat) (f : Int → Int) (atNeg atPos : Nat) : Nat :=
  match f32 c with
  | .nan => fp32.nan
  | .inf s => if s then atNeg else atPos
  | x => let v := Fl.ofInt (f x.fixed) (-fixS); fnear op c v (sigBound v)

def fsigmoid (c : Nat) : Nat := fsig 0x0F c sigFix 0 (fint 1)

def ftanh (c : Nat) : Nat :=
  fsig 0x10 c (fun x =>
    let e := expDown (2 * x)
    let v := (fixOne - e) * fixOne / (fixOne + e)
    if x < 0 then -v else v) (fint (-1)) (fint 1)

/-- GELU and SILU: the spec states no value at −∞. -/
def fgelu (c : Nat) : Nat := fsig 0x11 c (fun x => x * phiFix x / (fixOne : Nat)) (fopen 0x11 c) c

def fsilu (c : Nat) : Nat := fsig 0x12 c (fun x => x * sigFix x / (fixOne : Nat)) (fopen 0x12 c) c

end Sys2Proof.Machine
end

