-- ==== Sys2Proof/Machine/TimeBase.lean ====
section
/-!
DEFINITION. Orbit's discipline and holdover, and fusion groups (R49 to R74).
-/

namespace Sys2Proof.Machine

open Sys2Proof

/-! ### Discipline (R53 to R57) -/

/-- Whether TIME.CFG.PORT_SEL enables a port, and whether it prefers it. -/
def State.syncEnabled (s : State) (port : Nat) : Bool :=
  let sel := s.reg R.TIME_CFG_PORT_SEL
  decide (port < 2) && (sel == port || decide (2 ≤ sel))

def State.syncPreferred (s : State) (port : Nat) : Bool :=
  let sel := s.reg R.TIME_CFG_PORT_SEL
  if sel < 2 then sel == port else sel == port + 2

/-- What a port's 802.1AS instance has heard. -/
def State.syncPort (s : State) (port : Nat) : SyncPort := if port = 0 then s.orbit.port0 else s.orbit.port1

def State.setSyncPort (s : State) (port : Nat) (x : SyncPort) : State :=
  if port = 0 then { s with orbit.port0 := x } else { s with orbit.port1 := x }

/-- The port heard a Sync within its receipt timeout. -/
def State.syncFresh (s : State) (port : Nat) : Bool :=
  let x := s.syncPort port
  x.last.any fun l => decide (s.tick < l + x.timeout)

/-- Largest rate correction, in parts per billion (R50). -/
def maxCorr : Nat := 250000

/-- The servo sets its rate correction and frequency-tracking part; its law is not given, only its range (R50). -/
def State.servo (s : State) : State :=
  let (c, s) := s.freeWithin maxCorr
  let (f, s) := s.freeWithin maxCorr
  { s.setReg R.TIME_RATE_CORR (unsigned 32 c) with orbit.freq := f }

/-- The Orbit state entered. -/
def State.setOrbit (s : State) (v : Nat) : State :=
  { s.setReg R.TIME_STATUS_STATE v with orbit.near := 0, orbit.far := 0 }

/-- The offset that a Sync measures on the active port, after the one step of R56 where it is still to be taken. -/
def State.measure (s : State) (m : SyncMsg) : Int × State :=
  let (st, s) := s.stamp 0 8
  let off : Int := (m.time : Int) - st
  let s := s.setReg R.TIME_GM_ID_ID m.gm
  if s.flag R.TIME_STATUS_STEPPED = false ∧ s.boot.armedOnce = false then
    let s := { s with orbit.now := m.time % 2 ^ 64, orbit.sub := 0 }
    (0, (s.setReg R.TIME_STATUS_STEPPED 1).setReg R.TIME_GM_OFFSET_OFFSET 0)
  else (off, s.setReg R.TIME_GM_OFFSET_OFFSET (unsigned 64 off))

/-- One Sync taken (R53, R54). -/
def State.sync (s : State) (m : SyncMsg) : State :=
  if ¬ s.syncEnabled m.port then s else
  let s := s.setSyncPort m.port ⟨m.gm, some s.tick, m.timeout⟩
  let st := s.reg R.TIME_STATUS_STATE
  if st = 1 ∨ st = 2 then
    if s.reg R.TIME_STATUS_PORT ≠ m.port then s else
    let (off, s) := s.measure m
    let s := { s with orbit.near := if off.natAbs ≤ 100 then s.orbit.near + 1 else 0
                      orbit.far := if 500 < off.natAbs then s.orbit.far + 1 else 0 }
    let s := if st = 2 ∧ 8 ≤ s.orbit.near then s.setOrbit 1
             else if st = 1 ∧ 4 ≤ s.orbit.far then s.setOrbit 2 else s
    s.servo
  else
    let s := s.setReg R.TIME_STATUS_PORT m.port
    let (off, s) := s.measure m
    (s.setOrbit (if off.natAbs ≤ 100 then 1 else 2)).servo

/-- The rate correction averaged over the last 64 s of LOCKED operation; what is left of 64 s in ticks. -/
def lockedSum : List (Nat × Int) → Nat → Int × Nat
  | [], _ => (0, 0)
  | (n, r) :: l, left =>
    let k := min n left
    let x := lockedSum l (left - k)
    (x.1 + k * r, x.2 + k)

/-- The rate held in HOLDOVER (R55). -/
def Orbit.heldRate (o : Orbit) : Int :=
  let x := lockedSum o.locked 1600000000
  if x.2 = 0 then o.freq else x.1 / (x.2 : Int)

/-- A Sync with Follow_Up, or one on each port in one cycle: the preferred port's first (R53). -/
def execSyncReceived (dt : Nat) (msgs : List SyncMsg) (s : State) : Host.Outcome State Fault Refusal :=
  let s := s.elapse dt
  .next (if s.boot.phase = .por then s else
    ((msgs.filter fun m => s.syncPreferred m.port) ++ (msgs.filter fun m => !s.syncPreferred m.port)).foldl
      (fun s m => s.sync m) s)

/-- The active port's sync receipt timeout: a switch of port, or HOLDOVER (R54, R55). -/
def execSyncReceiptTimeout (dt : Nat) (s : State) : Host.Outcome State Fault Refusal :=
  let s := s.elapse dt
  let st := s.reg R.TIME_STATUS_STATE
  let a := s.reg R.TIME_STATUS_PORT
  .next (if (st = 1 ∨ st = 2) ∧ s.syncFresh a = false then
      let b := 1 - a
      if s.syncEnabled b ∧ s.syncFresh b ∧ (s.syncPort b).gm = (s.syncPort a).gm then
        (s.setReg R.TIME_STATUS_PORT b).incReg R.TIME_TALLY_PORT_SWITCH
      else
        let s := s.setReg R.TIME_RATE_CORR (unsigned 32 s.orbit.heldRate)
        { (s.setOrbit 3).incReg R.TIME_TALLY_SYNC_LOSS with orbit.holdAt := s.tick }
    else s)

/-- HOLDOVER has lasted HOLD_LIMIT seconds (R54). -/
def execHoldLimitExpire (dt : Nat) (s : State) : Host.Outcome State Fault Refusal :=
  let s := s.elapse dt
  .next (if s.reg R.TIME_STATUS_STATE = 3 ∧ s.orbit.holdAt + s.reg R.TIME_CFG_HOLD_LIMIT * 25000000 ≤ s.tick then
      s.setOrbit 4
    else s)

/-- The Orbit rate check over 1 ms of island time (R52): `progress` is the Orbit time that passed in it, in ns. -/
def execOrbitRateCheck (dt progress : Nat) (s : State) : Host.Outcome State Fault Refusal :=
  let s := s.elapse dt
  .next (if s.boot.phase = .por then s else
    s.excursion 0x04 0 (decide (progress + 30000 < 1000000 ∨ 1030000 < progress)) 0x04 0 0)

/-! ### Fusion groups (R61 to R74) -/

def State.group (s : State) (g : Nat) : FgGroup := Sparse.get {} s.groups g

def State.setGroup (s : State) (g : Nat) (x : FgGroup) : State := { s with groups := Sparse.put {} s.groups g x }

def State.fgPeriod (s : State) (g : Nat) : Nat := s.reg R.TIME_FG_PERIOD_P g
def State.fgWindow (s : State) (g : Nat) : Nat := s.reg R.TIME_FG_WINDOW_W g

/-- Whether a group is enabled and armed. -/
def State.fgOn (s : State) (g : Nat) : Bool := s.flag R.TIME_FG_CFG_ENABLE g && s.flag R.TIME_STATUS_ARMED

/-- Declared members of a group. -/
def State.fgMembers (s : State) (g : Nat) : List Nat := (List.range 8).filter fun m => s.flag R.TIME_FG_MEMBER_USED g m

/-- Every enabled group armed (R69). -/
def State.armGroups (s : State) : State :=
  let s := (List.range 32).foldl (fun s g =>
    if s.flag R.TIME_FG_CFG_ENABLE g then
      let p := s.fgPeriod g
      let ph := s.reg R.TIME_FG_PHASE_PHASE g
      let k := ceilDiv (2 * s.now + s.fgWindow g - 2 * ph) (2 * p)
      let t := k * p + ph
      s.setGroup g { next := some t, first := t }
    else s) s
  { s.setReg R.TIME_STATUS_ARMED 1 with boot.armedOnce := true }

/-- The nominal instant of the group's frame whose window holds a reference time, if any (R63). -/
def State.fgFrameOf (s : State) (g : Nat) (ref : Int) : Option Int :=
  let p : Int := s.fgPeriod g
  let ph : Int := s.reg R.TIME_FG_PHASE_PHASE g
  let k := (2 * (ref - ph) + p) / (2 * p)
  let t := k * p + ph
  if -(s.fgWindow g : Int) ≤ 2 * (ref - t) ∧ 2 * (ref - t) < (s.fgWindow g : Int) ∧ 0 ≤ k then some t else none

/-- Of an item held by a slot and a new one, the one that stays (R64). -/
def FgItem.closer (t : Int) (old new_ : FgItem) : FgItem :=
  let a := (old.ref - t).natAbs
  let b := (new_.ref - t).natAbs
  if b < a then new_ else if a < b then old else if new_.ref < old.ref then new_ else old

/-- An item placed in a member slot of a frame; whether one was displaced. -/
def FgFrame.place (f : FgFrame) (m : Nat) (x : FgItem) : Bool × FgFrame :=
  match f.items.find? fun e => e.1 == m with
  | none => (false, { f with items := f.items ++ [(m, x)] })
  | some e => (true, { f with items := f.items.map fun y => if y.1 = m then (m, FgItem.closer f.t e.2 x) else y })

/-- The item a hold member carried most recently before frame `t` (R66). -/
def FgGroup.lastItem (x : FgGroup) (t m : Nat) : Option FgItem :=
  match ((x.frames.filter fun f => decide (f.t < t) && f.ready.isSome).reverse.findSome? fun f =>
      (f.items.find? fun e => e.1 == m).map (·.2)) with
  | some i => some i
  | none => (x.carried.find? fun e => e.1 == m).map (·.2)

/-- A frame of group `g` becomes ready with its content fixed; at its deadline hold members are resolved (R65, R66, R71). -/
def State.fgReady (s : State) (g t : Nat) (early : Bool) : State :=
  let x := s.group g
  let hold := (s.fgMembers g).filter fun m => s.flag R.TIME_FG_MEMBER_HOLD g m
  let fix := fun (f : FgFrame) =>
    if early then { f with ready := some true } else
    let add := hold.filterMap fun m =>
      if f.items.any (fun e => e.1 == m) then none else
      match x.lastItem t m with
      | some i => if (t : Int) - i.ref ≤ s.reg R.TIME_FG_HOLD_HOLD_MAX g then some (m, i) else none
      | none => none
    { f with items := f.items ++ add, held := add.map (·.1), ready := some false }
  s.setGroup g { x with frames := x.frames.map fun f => if f.t = t then fix f else f }

/-- A frame whose every member holds a new item is ready, before its deadline (R65). -/
def State.fgCheck (s : State) (g t : Nat) : State :=
  match (s.group g).frames.find? fun f => f.t == t with
  | some f =>
    if f.ready.isNone ∧ (s.fgMembers g).all (fun m => f.items.any fun e => e.1 == m) then s.fgReady g t true else s
  | none => s

/-- An item of member `m` of group `g` completes (R64). -/
def State.fgItem (s : State) (g m : Nat) (i : FgItem) : State :=
  let x := s.group g
  match s.fgFrameOf g i.ref with
  | none => s.incReg R.TIME_FG_UNMATCHED_COUNT g
  | some t =>
    if t < x.first then s.incReg R.TIME_FG_UNMATCHED_COUNT g
    else if x.next.any fun n => decide ((n : Int) ≤ t) then s.setGroup g { x with kept := x.kept ++ [(m, i)] }
    else match x.frames.find? fun f => (f.t : Int) == t with
      | some f =>
        if f.ready.isSome then s.incReg R.TIME_FG_LATE_COUNT g
        else
          let r := f.place m i
          let s := s.setGroup g { x with frames := x.frames.map fun y => if y.t = f.t then r.2 else y }
          (if r.1 then s.incReg R.TIME_FG_SUPERSEDED_COUNT g else s).fgCheck g f.t
      | none => s.incReg R.TIME_FG_LATE_COUNT g

/-- A member item of a source completes: every member of every armed group that names it takes it (R64). -/
def State.fgComplete (s : State) (kind source stamp addr pseq : Nat) : State :=
  (List.range 32).foldl (fun s g =>
    if s.fgOn g then
      (s.fgMembers g).foldl (fun s m =>
        if s.reg R.TIME_FG_MEMBER_KIND g m = kind ∧ s.reg R.TIME_FG_MEMBER_SOURCE g m = source then
          s.fgItem g m ⟨(stamp : Int) + signed 32 (s.reg R.TIME_FG_MOFS_OFFSET g m), addr, pseq % 2 ^ 16⟩
        else s) s
    else s) s

/-- Orbit time reaches T − W ÷ 2: the next frame of group `g` becomes pending and its kept items are judged (R63, R64). -/
def execFgFramePending (dt g : Nat) (s : State) : Host.Outcome State Fault Refusal :=
  let s := s.elapse dt
  let x := s.group g
  .next (match x.next with
    | some t =>
      if g < 32 ∧ s.fgOn g ∧ 2 * t ≤ 2 * s.now + s.fgWindow g then
        let r := x.kept.foldl (fun (r : Nat × FgFrame) e =>
          let p := r.2.place e.1 e.2; (if p.1 then r.1 + 1 else r.1, p.2)) (0, { t := t })
        let s := s.setGroup g { x with frames := x.frames ++ [r.2], kept := [], next := some (t + s.fgPeriod g) }
        (s.incReg R.TIME_FG_SUPERSEDED_COUNT g 0 r.1).fgCheck g t
      else s
    | none => s)

/-- Orbit time reaches T + D: the oldest frame not yet ready becomes ready (R65, R66). -/
def execFgDeadline (dt g : Nat) (s : State) : Host.Outcome State Fault Refusal :=
  let s := s.elapse dt
  .next (match (s.group g).frames.find? fun f => f.ready.isNone with
    | some f => if g < 32 ∧ s.fgOn g ∧ f.t + s.reg R.TIME_FG_DEADLINE_D g ≤ s.now then s.fgReady g f.t false else s
    | none => s)

/-- The descriptor of a ready frame (Table 2.5). -/
def State.descriptor (s : State) (g : Nat) (x : FgGroup) (f : FgFrame) : List Nat :=
  let mask := fun (l : List Nat) => (l.map fun m => 2 ^ m).sum
  let item := fun m => (f.items.find? fun e => e.1 == m).map (·.2)
  [g + 2 ^ 8 * (s.fgMembers g).length + 2 ^ 16 * mask (f.items.map (·.1)) + 2 ^ 24 * s.quality + 2 ^ 32 * (x.seq % 2 ^ 32),
   f.t, s.now, ofBool (f.ready == some true) + 2 * ofBool x.overrun + 2 ^ 8 * mask f.held] ++
  ((List.range 8).flatMap fun m =>
    match item m with
    | some i => [unsigned 64 i.ref, i.addr % 2 ^ 48 + 2 ^ 48 * i.pseq]
    | none => [0, 0]) ++ [0, 0, 0, 0]

/-- The absences of a group's members counted at an emission; the fault is raised once for each run (R67). -/
def State.fgAbsences (s : State) (g : Nat) (f : FgFrame) : State :=
  (s.fgMembers g).foldl (fun s m =>
    let x := s.group g
    let n := Sparse.get 0 x.absent m + 1
    let limit := s.reg R.TIME_FG_ABSENT_ABSENT_LIMIT g
    if f.items.any fun e => e.1 == m then s.setGroup g { x with absent := Sparse.put 0 x.absent m 0 }
    else
      let s := s.setGroup g { x with absent := Sparse.put 0 x.absent m n }
      if limit ≠ 0 ∧ n = limit then s.raise 0x6C g 0 else s) s

/-- The oldest pending frame, once ready, is emitted: its descriptor is written and its event signalled, or it is
discarded as an overrun (R65, R67, R68). -/
def execFgDescriptorEmit (dt g : Nat) (s : State) : Host.Outcome State Fault Refusal :=
  let s := s.elapse dt
  let x := s.group g
  .next (match x.frames with
    | f :: rest =>
      if g < 32 ∧ s.fgOn g ∧ f.ready.isSome then
        let q := s.reg R.TIME_FG_CFG_QUEUE g
        let words := s.descriptor g x f
        let item := (List.range 3).map fun i => wordsBytes ((words.drop (8 * i)).take 8)
        let carried := (x.carried.filter fun e => !f.items.any fun y => y.1 == e.1) ++ f.items
        let after := fun (lost : Bool) => { x with frames := rest, seq := x.seq + 1, carried := carried, overrun := lost }
        let full := s.qState q ≠ qDisabled ∧ s.qState q ≠ qFenced ∧ s.qFree q < 3
        let r := if full then (false, s) else s.produce q item
        let s := r.2.setGroup g (after (!r.1))
        let s :=
          if r.1 then
            ((s.tmuxPulse 0x02 g).incReg R.TIME_FG_EMITTED_COUNT g).addEvent
              (eventIndex (s.reg R.TIME_FG_CFG_PART g) (s.reg R.TIME_FG_CFG_EVENT g) (s.flag R.TIME_FG_CFG_GLOBAL g)) 1
          else s.incReg R.TIME_FG_OVERRUN_COUNT g
        s.fgAbsences g f
      else s
    | [] => s)

end Sys2Proof.Machine
end

