-- ==== Sys2Proof/Machine/Acoustic.lean ====
section
/-!
DEFINITION. The acoustic engine: the sample path, its checks, governor, divergence detector and mute, the block path and the
acoustic opcodes (R461 to R503).
-/

namespace Sys2Proof.Machine

open Sys2Proof

/-! ### Arithmetic (R466, R473) -/

/-- `x × 2^−k` rounded, halves going up. -/
def halfUp (x : Int) (k : Nat) : Int := if k = 0 then x else (x + 2 ^ (k - 1)) / 2 ^ k

/-- `x` saturated to `n` bits in two's complement. -/
def satTo (n : Nat) (x : Int) : Int := clampInt (-(2 ^ (n - 1))) (2 ^ (n - 1) - 1) x

/-! ### The engine's memory (Table 13.9) -/

def wBase : Nat := acousticMem
def wHome : Nat := acousticMem + 0x48000
def modelBase : Nat := acousticMem + 0x90000
def refBase : Nat := acousticMem + 0x9C000
def filtBase : Nat := acousticMem + 0xA8000
def stagingBase : Nat := acousticMem + 0x1C8000

/-- Coefficient W[r][s][k] is at this index (R468). -/
def wIndex (b : List Byte) (r s k : Nat) : Nat := (r * audSpks b + s) * audTaps b + k

/-- Address of reference `r` of frame `n` in the reference history. -/
def refAddr (r n : Nat) : Nat := refBase + 4 * (1024 * r + n % 1024)

/-- Address of the filtered reference of (r, s, e) of frame `n`. -/
def filtAddr (b : List Byte) (r s e n : Nat) : Nat :=
  filtBase + 2 * (((r * audSpks b + s) * audErrs b + e) * audTaps b + n % audTaps b)

/-- A signed value of `n` bytes in memory. -/
def State.loadInt (s : State) (a n : Nat) : Int := signed (8 * n) (s.load a n)

/-- x_r of the `k`-th frame before frame `n`. -/
def State.refAt (s : State) (r n k : Nat) : Int := s.loadInt (refAddr r (n + 1024 - k)) 4

/-! ### Inputs (R464, R466) -/

/-- Rate in force on a port: 0 16 kHz, 1 44.1 kHz, 2 48 kHz. -/
def State.portRateNow (s : State) (n : Nat) : Nat :=
  let e := audPort s.audio n
  if s.flag R.ACU_PORT_STAT_ALT n then portAlt e else portRate e

/-- The Q1.31 value of source `x` given what its port or microphone delivers: a code of WIDTH bits of a 48 kHz port; the
output of the rate converter of any other; the decimator's output with 39 fraction bits.  A port in clock fault reads 0. -/
def State.soundInput (s : State) (given : List (Nat × Int)) (x : Nat) : Int :=
  let b := s.audio
  let v := ((given.find? fun p => p.1 == x).map (·.2)).getD 0
  if x < 0x60 then
    let e := audPort b (x / 16)
    if !portOn e || !bit (field e 4 2) (x % 16) || s.flag R.ACU_PORT_STAT_FAULT (x / 16) then 0
    else if s.portRateNow (x / 16) = 2 then
      let w := field e 2 1
      satTo w v * 2 ^ (32 - w)
    else satTo 32 v
  else if x < 0x70 then (if bit (field b 0x10 2) (x - 0x60) then satTo 32 (halfUp v 8) else 0)
  else 0

/-- Every TDM input slot and microphone in use, with its sample. -/
def State.soundInputs (s : State) (given : List (Nat × Int)) : List (Nat × Int) :=
  ((List.range 0x70).filter fun x =>
    if x < 0x60 then portOn (audPort s.audio (x / 16)) && bit (field (audPort s.audio (x / 16)) 4 2) (x % 16)
    else bit (field s.audio 0x10 2) (x - 0x60)).map fun x => (x, s.soundInput given x)

/-- The value of a source in a frame. -/
def sourceIn (inputs : List (Nat × Int)) (y : List Int) (x : Nat) : Int :=
  if x < 0x70 then ((inputs.find? fun p => p.1 == x).map (·.2)).getD 0
  else if x < 0x7C then y.getD (x - 0x70) 0
  else 0

/-! ### Filter bank (R473, R474) -/

/-- Σ over a range of naturals. -/
def sumTo (n : Nat) (f : Nat → Int) : Int := ((List.range n).map f).sum

/-- y_s(n). -/
def State.antiNoise (s : State) (b : List Byte) (n sp : Nat) : Int :=
  satTo 32 (halfUp (sumTo (audRefs b) fun r => sumTo (audTaps b) fun k =>
    s.loadInt (wBase + 4 * wIndex b r sp k) 4 * s.refAt r n k) 30)

/-- x′_rse(n). -/
def State.filtered (s : State) (b : List Byte) (n r sp e : Nat) : Int :=
  satTo 16 (halfUp (sumTo (audSpLen b) fun j =>
    s.loadInt (modelBase + 2 * ((sp * audErrs b + e) * audSpLen b + j)) 2 * s.refAt r n j) 31)

/-- The references and filtered references of frame `n` put into the histories. -/
def State.pushRefs (s : State) (b : List Byte) (inputs : List (Nat × Int)) (n : Nat) : State :=
  let s := (List.range (audRefs b)).foldl (fun s r =>
    s.store (refAddr r n) 4 (unsigned 32 (sourceIn inputs [] (audRef b r)))) s
  (List.range (audRefs b)).foldl (fun s r => (List.range (audSpks b)).foldl (fun s sp =>
    (List.range (audErrs b)).foldl (fun s e =>
      s.store (filtAddr b r sp e n) 2 (unsigned 16 (s.filtered b n r sp e))) s) s) s

/-- The coefficients of frame `n + 1`. -/
def State.adapt (s : State) (b : List Byte) (inputs : List (Nat × Int)) (n : Nat) : State :=
  (List.range (audRefs b)).foldl (fun s r => (List.range (audSpks b)).foldl (fun s sp =>
    let e := audSpk b sp
    (List.range (audTaps b)).foldl (fun s k =>
      let a := wBase + 4 * wIndex b r sp k
      let w := s.loadInt a 4
      let g := sumTo (audErrs b) fun i =>
        sourceIn inputs [] (audErr b i) * s.loadInt (filtAddr b r sp i (n + audTaps b - k)) 2
      let v := w * 2 ^ 48 - field e 4 4 * w * 2 ^ 16 - field e 0 4 * g
      s.store a 4 (unsigned 32 (satTo 32 (halfUp v 48)))) s) s) s

/-- The words that the sample path reads in a frame: W, Ŝ and the histories. -/
def sampleArea (b : List Byte) : List (Nat × Nat) :=
  let rs := audRefs b * audSpks b
  [(wBase, 4 * rs * audTaps b), (modelBase, 2 * audSpks b * audErrs b * audSpLen b), (refBase, 4096 * audRefs b),
   (filtBase, 2 * rs * audErrs b * audTaps b)]

/-! ### Checks (R477) -/

/-- A sample-path mismatch or miss: DATAPATH, its counter, and the fault. -/
def State.soundFault (s : State) (counter : RegRow) : State := ((s.ancCause 0x40 0).incReg counter).raise 0x71 0 0

/-- The pads of a port read back, differing or not. -/
def State.readback (s : State) (n : Nat) (differs : Bool) : State :=
  let x := s.acuPort n
  let s := s.setAcuPort n { x with bad := if differs then x.bad + 1 else 0 }
  if differs ∧ x.bad = 1 then
    let s := if antiPort s.audio n then s.ancCause 0x40 0 else s
    (s.incReg R.ACU_READBACK_COUNT).raise 0x72 n 0
  else s

/-! ### Mixer and governor (R475, R478, R479) -/

/-- g_class of a source, with 30 fraction bits. -/
def classGain (b : List Byte) (f : SoundFrame) (x : Nat) : Nat :=
  if x < 0x60 then
    match bits (field (audPort b (x / 16)) 8 4) (2 * (x % 16) + 1) (2 * (x % 16)) with
    | 1 => f.duck * f.mute
    | 2 => 2 ^ 30
    | _ => f.mute * 32768
  else if 0x70 ≤ x ∧ x < 0x7C then f.a * f.mute
  else f.mute * 32768

/-- The mixed sample of an output entry: the gains of R484 act on it with the others (R497). -/
def mixOut (b : List Byte) (f : SoundFrame) (play : Nat → Int) (o : List Byte) : Int :=
  let pg := fun (n : Nat) => (f.ports.getD n 32768 : Int)
  let sum := ((outTaps o).map fun (t : Nat × Int) =>
    let v := if t.1 < 0x80 then sourceIn f.inputs f.y t.1 else play (t.1 - 0x80)
    t.2 * classGain b f t.1 * (if t.1 < 0x60 then pg (t.1 / 16) else 32768) * v).sum
  satTo 32 (halfUp (sum * pg (field o 0 1)) 74)

/-- An output entry trips its governor. -/
def State.govTrip (s : State) (o : Nat) (mid : Bool) : State :=
  let g := Sparse.get {} s.acu.gov o
  let s := { s with acu.gov := Sparse.put {} s.acu.gov o { g with armed := false, mid := mid, below := false, quiet := false } }
  let s := if outAnti (audOut s.audio o) then s.ancCause 0x10 0 else s
  (s.incReg R.ACU_GOV_TRIPS_COUNT).raise 0x73 o 0

/-- The governor on a mixed sample: the sample clamped, its estimate, a trip or a re-arming. -/
def State.govern (s : State) (o : Nat) (v : Int) : Int × State :=
  let e := audOut s.audio o
  let ceil := field e 0x24 4
  let rms := field e 0x28 4 ^ 2
  let tau := field e 0x2C 1
  let g : GovSlot := Sparse.get {} s.acu.gov o
  let clip := decide (ceil < v.natAbs)
  let v := if clip then (if 0 < v then (ceil : Int) else -(ceil : Int)) else v
  let s := if clip then s.incReg R.ACU_GOV_PEAK_COUNT o else s
  let m := s.reg R.ACU_GOV_MS_M o
  let m := (m * 2 ^ (31 + tau) + v.natAbs ^ 2 - m * 2 ^ 31) / 2 ^ (31 + tau)
  let s := s.setReg R.ACU_GOV_MS_M m o
  let below := g.below || (!g.armed && decide (m * 2 ^ 32 < rms))
  let armed := g.armed || (below && g.quiet)
  let g := { g with clamps := g.clamps + ofBool clip, below := below, armed := armed }
  let s := { s with acu.gov := Sparse.put {} s.acu.gov o g }
  (v, if armed ∧ rms ≤ m * 2 ^ 31 then s.govTrip o true else s)

/-- A playback channel's sample in output frame `n`. -/
def State.playSample (s : State) (n p : Nat) : Int :=
  match (Sparse.get ({} : PlayChan) s.acu.plays p).hops.find? fun h => decide (h.start ≤ n ∧ n < h.start + h.samples.length) with
  | some h => h.samples.getD (n - h.start) 0
  | none => 0

/-- Hops that end with output frame `n` leave their channels. -/
def State.playDone (s : State) (n : Nat) : State :=
  { s with acu.plays := s.acu.plays.map fun x : Nat × PlayChan =>
      (x.1, { x.2 with hops := x.2.hops.filter fun h => decide (n + 1 < h.start + h.samples.length) }) }

/-- Whether a port at a rate sends a sample in frame `n`. -/
def rateDue (rate n : Nat) : Bool :=
  if rate = 0 then n % 3 == 0 else if rate = 1 then (n + 1) * 147 / 160 != n * 147 / 160 else true

/-- A sample of an output slot as it leaves: rounded to the port's width (R466); 0 from a port in clock fault (R464); behind a
rate converter, whose filter is not given, a free value (R467). -/
def State.sendOut (s : State) (n : Nat) (o : List Byte) (v : Int) : State :=
  let p := field o 0 1
  let w := field (audPort s.audio p) 2 1
  let rate := s.portRateNow p
  let slot := field o 1 1
  if s.flag R.ACU_PORT_STAT_FAULT p then s.emit (.audio p slot 0)
  else if rate = 2 then (s.emit (.audio p slot (satTo w (halfUp v (32 - w))))).tmuxPulse 0x05 (16 * p + slot)
  else if rateDue rate n then
    let (x, s) := s.freeWithin (2 ^ (w - 1) - 1)
    (s.emit (.audio p slot x)).tmuxPulse 0x05 (16 * p + slot)
  else s

/-- Output frame `n` mixed, governed and sent. -/
def State.sendFrame (s : State) (n : Nat) (f : SoundFrame) : State :=
  let s := (List.range (audOuts s.audio)).foldl (fun s o =>
    let e := audOut s.audio o
    let r := s.govern o (mixOut s.audio f (s.playSample n) e)
    r.2.sendOut n e r.1) s
  s.playDone n

/-! ### Mute (R481 to R483) -/

/-- The channels' asserted levels: onset with the first, release when neither is, and the disagreement between them. -/
def State.muteLevels (s : State) (a b : Bool) : State :=
  let wasA := s.flag R.ACU_MUTE_A
  let wasB := s.flag R.ACU_MUTE_B
  let muted := s.flag R.ACU_MUTE_MUTED
  let s := (s.setReg R.ACU_MUTE_A (ofBool a)).setReg R.ACU_MUTE_B (ofBool b)
  let s : State :=
    if a = b then { s with acu.disc := none }.setReg R.ACU_MUTE_DISC 0
    else if wasA = a ∧ wasB = b then s
    else { s with acu.disc := some s.tick }.setReg R.ACU_MUTE_DISC 0
  if (a || b) && !muted then
    let s := (s.setReg R.ACU_MUTE_MUTED 1).incReg R.ACU_MUTES_COUNT
    { s with acu.mute := s.acu.mute.slope 0 40 }.ancCause 2 0
  else if muted && !a && !b then
    let s := s.setReg R.ACU_MUTE_MUTED 0
    { s with acu.mute := s.acu.mute.slope 32768 480 }.ancCause 0 2
  else s

/-- The mute inputs sampled once: a channel changes after two successive samples at its new level. -/
def State.samplePads (s : State) (padA padB : Bool) : State :=
  let pol := field s.audio 0xD 1
  let a := padA != bit pol 0
  let b := padB != bit pol 1
  let newA := if a = s.acu.rawA then a else s.flag R.ACU_MUTE_A
  let newB := if b = s.acu.rawB then b else s.flag R.ACU_MUTE_B
  ({ s with acu.rawA := a, acu.rawB := b }).muteLevels newA newB

/-- The mute sets in: a channel asserts. -/
def execPriorityMuteOnset (dt : Nat) (b : Bool) (s : State) : Host.Outcome State Fault Refusal :=
  let s := s.elapse dt
  .next (if s.flag R.ACU_STATUS_SP_RUN then
      if b then { s with acu.rawB := true }.muteLevels (s.flag R.ACU_MUTE_A) true
      else { s with acu.rawA := true }.muteLevels true (s.flag R.ACU_MUTE_B)
    else s)

/-- The mute releases: both channels are deasserted. -/
def execMuteRelease (dt : Nat) (s : State) : Host.Outcome State Fault Refusal :=
  let s := s.elapse dt
  .next (if s.flag R.ACU_STATUS_SP_RUN then { s with acu.rawA := false, acu.rawB := false }.muteLevels false false else s)

/-- A disagreement has lasted DISC_TIME (R482). -/
def execMuteDiscrepancy (dt : Nat) (s : State) : Host.Outcome State Fault Refusal :=
  let s := s.elapse dt
  .next (match s.acu.disc with
    | some t =>
      if s.flag R.ACU_MUTE_DISC = false ∧ t + msTicks (field s.audio 0xE 2) ≤ s.tick then
        ((s.setReg R.ACU_MUTE_DISC 1).incReg R.ACU_DISC_FAULTS_COUNT).raise 0x75 0 0
      else s
    | none => s)

/-! ### Captures (R490, R491) -/

/-- Error bound of the stamp of a source's first sample (Table 2.2). -/
def State.soundBound (s : State) (x : Nat) : Nat :=
  if x < 0x60 then
    let hz := match s.portRateNow (x / 16) with | 0 => 16000 | 1 => 44100 | _ => 48000
    10 + ceilDiv 1000000000 (hz * 32 * field (audPort s.audio (x / 16)) 1 1)
  else 200

/-- The first sample of a hop: its stamp, and a buffer, or the drop counted. -/
def State.hopStart (s : State) (e : List Byte) : State :=
  let c := field e 0 1
  let x := s.capture c
  let nb := field e 7 1
  let buf := ((List.range nb).map fun i => (x.next + i) % nb).find? fun b => !x.held.contains b
  let (t, s) := s.stamp 0 (s.soundBound (field e 0x20 1))
  let h : CapHop := { first := t, quality := s.quality, buf := buf }
  match buf with
  | some b => s.setCapture c { x with hop := some h, next := (b + 1) % nb, items := x.items.filter fun i => i.1 != b }
  | none => (s.setCapture c { x with hop := some h }).incReg R.ACU_CAP_DROP_COUNT c

/-- The sources of a capture in a frame: a slot of a port whose rate changes is scaled with it (R484). -/
def captureRow (f : SoundFrame) (e : List Byte) : List Int :=
  (List.range (field e 4 1)).map fun i =>
    let x := field e (0x20 + i) 1
    let v := sourceIn f.inputs f.y x
    if x < 0x60 then halfUp (v * f.ports.getD (x / 16) 32768) 15 else v

/-- The 160 samples of a 16 kHz hop, whose decimator is not given (R467): free values. -/
def State.freeRows (s : State) (n ch : Nat) : List (List Int) × State :=
  let k := s.freeCtr
  ((List.range n).map fun i => (List.range ch).map fun j =>
      clampInt (-(2 ^ 31)) (2 ^ 31 - 1) (Config.freeInt (k + i * ch + j)), { s with freeCtr := k + n * ch })

/-- Frame `n` in a capture; after 480 frames its hop is ready. -/
def State.captureFrame (s : State) (n : Nat) (f : SoundFrame) (e : List Byte) : State :=
  let c := field e 0 1
  let s := if s.acu.capStart ≤ n ∧ (n - s.acu.capStart) % 480 = 0 then s.hopStart e else s
  let x := s.capture c
  match x.hop with
  | none => s
  | some h =>
    let gap := (List.range (field e 4 1)).any fun i =>
      let y := field e (0x20 + i) 1
      decide (y < 0x60) && s.flag R.ACU_PORT_STAT_FAULT (y / 16)
    let h := { h with frames := h.frames + 1, gap := h.gap || gap, muted := h.muted || s.flag R.ACU_MUTE_MUTED
                      rows := if field e 5 1 = 0 then captureRow f e :: h.rows else h.rows }
    if h.frames < 480 then s.setCapture c { x with hop := some h }
    else
      let r := if field e 5 1 = 0 then (h.rows, s) else s.freeRows 160 (field e 4 1)
      r.2.setCapture c { x with hop := none, ready := if h.buf.isSome then x.ready ++ [{ h with rows := r.1 }] else x.ready }

/-- A Q1.31 value in a DTYPE of a capture. -/
def hopSample (dtype : Nat) (v : Int) : List Byte :=
  if dtype = 3 then leBytes 2 (unsigned 16 (satTo 16 (halfUp v 16))) else leBytes 4 (toF32 (Fl.ofInt v (-31)))

/-- Rows with the samples of an uncorrectable staging word, four together at a place that is not given, written as 0. -/
def zeroSamples (rows : List (List Int)) (i : Nat) : List (List Int) :=
  let w := (rows.headD []).length
  (List.range rows.length).map fun r => (List.range w).map fun c =>
    if i ≤ r * w + c ∧ r * w + c < i + 4 then 0 else (rows.getD r []).getD c 0

/-- The staging words that a hop uses, if one is uncorrectable: which they are is not given (R491). -/
def State.hopStaging (s : State) (rows : List (List Int)) : Bool × List (List Int) × State :=
  match Eff.staging stagingBase 0x38000 s with
  | (.ok _, s) => (false, rows, s)
  | (.error _, s) =>
    let (i, s) := s.freeBelow (rows.length * (rows.headD []).length + 1)
    (true, zeroSamples rows i, s)

/-- A hop item: written, word 0 last, queued and reported to Orbit. -/
def execHopComplete (dt cap : Nat) (s : State) : Host.Outcome State Fault Refusal :=
  let s := s.elapse dt
  .next (match s.capEntry cap, (s.capture cap).ready with
    | some e, h :: l =>
      match h.buf with
      | none => s
      | some b =>
        let (ecc, rows, s) := s.hopStaging h.rows.reverse
        let x := s.capture cap
        let dtype := field e 6 1
        let seq := x.seq % 2 ^ 32
        let a := capAddr e b
        let w0 := 3 + 2 ^ 8 * cap + 2 ^ 16 * h.quality + 2 ^ 32 * seq
        let words := [w0, h.first, h.first,
          rows.length + 2 ^ 16 * field e 4 1 + 2 ^ 24 * dtype + 2 ^ 32 * ofBool h.gap + 2 ^ 33 * ofBool ecc + 2 ^ 34 * ofBool h.muted,
          0, 0, s.now]
        let s := (s.writeMem (a + 64) (rows.flatMap fun (r : List Int) => r.flatMap (hopSample dtype))).2
        let s := (s.writeMem a (wordsBytes (words ++ [0]))).2
        let s := (s.setCapture cap { x with seq := x.seq + 1, items := x.items ++ [(b, seq)], ready := l }).incReg
          R.ACU_CAP_HOPS_COUNT cap
        let q := field e 2 2
        let s := if q = 0 then s
          else if s.qState q ≠ qDisabled ∧ s.qState q ≠ qFenced ∧ s.qFree q = 0 then s.incReg R.ACU_CAP_QDROP_COUNT cap
          else (s.produce q [wordsBytes (words ++ [a])]).2
        s.fgComplete 3 cap h.first a x.seq
    | _, _ => s)

/-! ### The sample frame (R472) -/

/-- One sample period of the gains. -/
def State.acuRamps (s : State) : State :=
  let (a, s) := s.acu.a.next s
  let (m, s) := s.acu.mute.next s
  let (d, s) := s.acu.duck.next s
  let s := { s with acu.a := a, acu.mute := m, acu.duck := d }
  let s := (List.range 6).foldl (fun s n =>
    let x := s.acuPort n
    let (r, s) := x.ramp.next s
    let s := s.setAcuPort n { x with ramp := r }
    if x.change.isNone ∧ r.g = 32768 then s.setReg R.ACU_PORT_STAT_CHANGING 0 n else s) s
  s.acuShow

/-- Frame `n` computed: the filter bank, adaptation, and what is kept for output frame n + 2. -/
def State.computeFrame (s : State) (n : Nat) (given : List (Nat × Int)) (residue : Bool) : State :=
  let s := s.acuRamps
  let b := s.audio
  let inputs := s.soundInputs given
  let run := s.ancState == 0
  let s := if audSpks b = 0 then s else (sampleArea b).foldl (fun s r => (s.readMem r.1 r.2).2) s
  let s := if audSpks b = 0 then s else s.pushRefs b inputs n
  let y := (List.range (audSpks b)).map fun sp => if residue then 0 else s.antiNoise b n sp
  let f : SoundFrame := { inputs := inputs, y := y, a := s.acu.a.g, duck := s.acu.duck.g, mute := s.acu.mute.g
                          ports := (List.range 6).map fun p => (s.acuPort p).ramp.g }
  let s := if run ∧ n % field b 8 1 = 0 then s.adapt b inputs n else s
  let s := if residue then s.soundFault R.ACU_RESIDUE_COUNT else s
  let energy := (List.range (audErrs b)).map fun e => s.acu.energy.getD e 0 + (sourceIn inputs [] (audErr b e)).natAbs ^ 2
  let s := { s with acu.energy := energy, acu.pipe := s.acu.pipe ++ [some f] }
  if s.flag R.ACU_STATUS_BP_RUN then (audCapList b).foldl (fun s e => s.captureFrame n f e) s else s

/-- The end of frame `n`: after every 48, a block is there to be judged. -/
def State.blockEnd (s : State) (n : Nat) : State :=
  if n % 48 = 47 then
    let clamps := (List.range (audOuts s.audio)).map fun o => (Sparse.get ({} : GovSlot) s.acu.gov o).clamps
    { s with acu.block := some ⟨s.acu.energy, clamps⟩, acu.energy := []
             acu.gov := s.acu.gov.map fun x : Nat × GovSlot => (x.1, { x.2 with clamps := 0 }) }
  else s

/-- The anti-noise of a frame taken away (R477). -/
def SoundFrame.silent (f : SoundFrame) : SoundFrame := { f with y := f.y.map fun _ => 0 }

/-- A sample frame: the mute pads sampled, the frame computed two frames before sent, the inputs gathered and the next computed.
`residue` and `deadline` are the checks of R477, and `readback` the ports whose pads differed. -/
def execSampleFrame (dt : Nat) (inputs : List (Nat × Int)) (padA padB residue deadline : Bool) (readback : List Nat) (s : State) :
    Host.Outcome State Fault Refusal :=
  let s := s.elapse dt
  .next (if s.flag R.ACU_STATUS_SP_RUN then
      let n := s.acu.frame
      let s := (s.tmuxPulse 0x04 0).samplePads padA padB
      let late := deadline && s.acu.pipe.any (·.isSome)
      let s := if late then s.soundFault R.ACU_DEADLINE_COUNT else s
      let pipe := if late then s.acu.pipe.map fun (f : Option SoundFrame) => f.map SoundFrame.silent else s.acu.pipe
      let s := { s with acu.pipe := pipe.drop 1 }
      let s := match pipe.head? with
        | some (some f) => s.sendFrame n f
        | _ => s
      let s := (List.range 6).foldl (fun s p => if portOn (audPort s.audio p) then s.readback p (readback.contains p) else s) s
      let s := (s.computeFrame n inputs residue).blockEnd n
      { s with acu.frame := n + 1, acu.last := some s.now }.acuShow
    else s)

/-! ### The end of a block (R479, R480) -/

/-- The clamps of a block judged. -/
def State.judgeClamps (s : State) (k : SoundBlock) : State :=
  (List.range (audOuts s.audio)).foldl (fun s o =>
    let limit := field (audOut s.audio o) 0x2D 1
    let many := limit != 0 && decide (limit ≤ k.clamps.getD o 0)
    let g : GovSlot := Sparse.get {} s.acu.gov o
    if g.armed then (if many then s.govTrip o false else s)
    else
      let quiet := g.quiet || (!g.mid && !many)
      { s with acu.gov := Sparse.put {} s.acu.gov o { g with mid := false, quiet := quiet, armed := g.below && quiet } }) s

/-- Es of a microphone exceeds El × DIV_RATIO. -/
def esOver (ratio e : Nat) (l : Nat × Nat) : Bool := decide (l.1 * ratio < e * 256 * 2 ^ l.2)

/-- El after a block of RUN. -/
def baseNext (tau e : Nat) (l : Nat × Nat) : Nat × Nat := (l.1 * (2 ^ tau - 1) + e * 2 ^ l.2, l.2 + tau)

/-- The energy of speaker `sp`'s coefficients exceeds COEF_MAX. -/
def State.coefOver (s : State) (b : List Byte) (sp : Nat) : Bool :=
  let e := sumTo (audRefs b) fun r => sumTo (audTaps b) fun k => s.loadInt (wBase + 4 * wIndex b r sp k) 4 ^ 2
  decide ((field (audSpk b sp) 8 4 : Int) * 2 ^ 60 < e * 2 ^ 24)

/-- The divergence detector at the end of a block. -/
def State.judgeEnergy (s : State) (k : SoundBlock) : State :=
  let b := s.audio
  let st := s.ancState
  let es := (List.range (audErrs b)).map fun e => k.energy.getD e 0
  let above := match s.acu.base with
    | none => es.map fun _ => 0
    | some l => (List.range es.length).map fun i =>
        if st ≠ 2 ∧ esOver (field b 0x14 2) (es.getD i 0) (l.getD i (0, 0)) then s.acu.aboveBase.getD i 0 + 1 else 0
  let base := match s.acu.base with
    | none => if st = 2 then none else some (es.map fun e => (e, 0))
    | some l => some (if st = 0 then (List.range es.length).map fun i => baseNext (field b 0x17 1) (es.getD i 0) (l.getD i (0, 0))
                      else l)
  let found := above.any (fun n => decide (field b 0x16 1 ≤ n)) || (List.range (audSpks b)).any fun sp => s.coefOver b sp
  let s := { s with acu.aboveBase := above, acu.base := base, acu.lastEs := some es }
  let fresh := found && !s.inExcursion 0x74 0
  let s := if found then s.ancCause 0x20 0 else s
  let s := if fresh then s.incReg R.ACU_DIV_TRIPS_COUNT else s
  s.excursion 0x74 0 found 0x74 0 0

/-- The end of a 1 ms block judged. -/
def execAudioBlockEnd (dt : Nat) (s : State) : Host.Outcome State Fault Refusal :=
  let s := s.elapse dt
  .next (match s.acu.block with
    | some k =>
      let s := ({ s with acu.block := none }).judgeClamps k
      if audSpks s.audio = 0 then s else s.judgeEnergy k
    | none => s)

/-! ### Ports (R464, R484 to R486) -/

/-- Port `n` is enabled and the section is applied. -/
def State.portUp (s : State) (n : Nat) : Bool := decide (n < 6) && s.applied && s.powered 6 && portOn (audPort s.audio n)

/-- Two expected edges missing or out of tolerance. -/
def execPortLockLoss (dt n : Nat) (s : State) : Host.Outcome State Fault Refusal :=
  let s := s.elapse dt
  .next (if s.portUp n then
      let was := s.flag R.ACU_PORT_STAT_FAULT n
      let s := (s.setAcuPort n { s.acuPort n with since := s.tick }).setReg R.ACU_PORT_STAT_LOCKED 0 n
      let s := s.setReg R.ACU_PORT_STAT_FAULT 1 n
      let s := if field s.audio 0 1 = n + 1 then s.setReg R.ACU_STATUS_SP_RUN 0 else s
      let s := s.acuClock
      if was then s else (s.incReg R.ACU_PORT_FAULTS_COUNT n).raise 0x70 n 0
    else s)

/-- The sample clock and the master ports start with the slave port that CLK_SRC names. -/
def State.clockStart (s : State) (n : Nat) : State :=
  if field s.audio 0 1 = n + 1 then
    let s := s.setReg R.ACU_STATUS_SP_RUN 1
    (List.range 6).foldl (fun s p =>
      if portOn (audPort s.audio p) ∧ portMaster (audPort s.audio p) then s.setReg R.ACU_PORT_STAT_LOCKED 1 p else s) s
  else s

/-- 100 ms of continuous lock end a clock fault. -/
def execPortRelock (dt n : Nat) (s : State) : Host.Outcome State Fault Refusal :=
  let s := s.elapse dt
  .next (if s.portUp n ∧ s.flag R.ACU_PORT_STAT_FAULT n ∧ (s.acuPort n).since + msTicks 100 ≤ s.tick then
      let s := (s.setReg R.ACU_PORT_STAT_FAULT 0 n).setReg R.ACU_PORT_STAT_LOCKED 1 n
      let x := s.acuPort n
      let s := if x.change.isNone ∧ x.ramp.tgt = 0 then s.setAcuPort n { x with ramp := x.ramp.slope 32768 480 } else s
      (s.clockStart n).acuClock
    else s)

/-- The slave port that CLK_SRC names locks, and the sample clock starts (R463, R486). -/
def execPortFirstLock (dt n : Nat) (s : State) : Host.Outcome State Fault Refusal :=
  let s := s.elapse dt
  .next (if s.portUp n ∧ field s.audio 0 1 = n + 1 ∧ s.flag R.ACU_PORT_STAT_LOCKED n = false then
      (((s.setAcuPort n { s.acuPort n with since := s.tick }).setReg R.ACU_PORT_STAT_LOCKED 1 n).clockStart n).acuShow
    else s)

/-- After the ramp-down, a port takes up its other rate and ramps up (R484). -/
def execRateSwitch (dt n : Nat) (s : State) : Host.Outcome State Fault Refusal :=
  let s := s.elapse dt
  let x := s.acuPort n
  .next (match x.change with
    | some sel =>
      if s.portUp n ∧ x.ramp.g = 0 ∧ s.flag R.ACU_PORT_STAT_FAULT n = false then
        let s := s.setAcuPort n { x with change := none, ramp := x.ramp.slope 32768 480 }
        (s.setReg R.ACU_PORT_STAT_ALT (ofBool sel) n).incReg R.ACU_RATE_CHANGES_COUNT
      else s
    | none => s)

/-- A slave port in clock fault settles at its other configured rate (R485). -/
def execSlaveRateSettle (dt n : Nat) (s : State) : Host.Outcome State Fault Refusal :=
  let s := s.elapse dt
  let e := audPort s.audio n
  .next (if s.portUp n ∧ portMaster e = false ∧ portAlt e ≠ 3 ∧ s.flag R.ACU_PORT_STAT_FAULT n then
      let x := s.acuPort n
      let s := s.setAcuPort n { x with change := none, ramp := Ramp.at 0, since := s.tick }
      (s.setReg R.ACU_PORT_STAT_CHANGING 0 n).setReg R.ACU_PORT_STAT_ALT (ofBool !(s.flag R.ACU_PORT_STAT_ALT n)) n
    else s)

/-! ### Start (R471, R486, R488) -/

/-- W_HOME copied into W; nothing is copied where W_HOME holds an uncorrectable word (R476). -/
def State.restoreW (s : State) : Bool × State :=
  let b := s.audio
  let n := 4 * audRefs b * audSpks b * audTaps b
  if s.acu.homeBad then (false, s) else
  match s.readMem wHome n with
  | (some _, s) => (false, { s with acu.homeBad := true })
  | (none, s) => (true, (s.writeMem wBase (s.bytes wHome n)).2)

/-- Causes cleared by RESUME or DONE, with the copy that they call for (R476). -/
def State.ancClear (s : State) (causes : Nat) (restore : Bool) : State :=
  let clr := causes &&& s.reg R.ACU_STATUS_ANC_CAUSE
  if restore ∨ clr &&& 0x60 ≠ 0 then
    match s.restoreW with
    | (true, s) => s.ancCause 0 clr
    | (false, s) => s.ancCause 0x40 (clr - (clr &&& 0x40))
  else s.ancCause 0 clr

/-- DONE of a start. -/
def State.acuDone (s : State) : State := if s.flag R.ACU_STATUS_BP_RUN then s.ancClear 0x71 false else s

/-- The sample-path part of the section applied after the domain was off. -/
def State.acuLoad (s : State) : State :=
  let b := s.audio
  let n := 4 * audRefs b * audSpks b * audTaps b
  let s := (s.resetRegs 0x00F000240000 0x00F000241000).clearMem acousticMem stagingBase
  let s := (s.setBytes wBase (slice b (audW0 b) n)).setBytes wHome (slice b (audW0 b) n)
  let s := s.setBytes modelBase (slice b (audModels b) (2 * audSpks b * audErrs b * audSpLen b))
  let s := { s with acu := { loaded := true } }
  let s := (s.setReg R.ACU_STATUS_ANC_CAUSE 1).setReg R.ACU_STATUS_SP_RUN (ofBool (field b 0 1 == 0))
  let s := (List.range 6).foldl (fun s p =>
    let e := audPort b p
    if ¬ portOn e then s
    else if portMaster e then s.setReg R.ACU_PORT_STAT_LOCKED (ofBool (field b 0 1 == 0)) p
    else (s.setReg R.ACU_PORT_STAT_FAULT 1 p).setAcuPort p { since := s.tick }) s
  s.acuClock

/-- The acoustic part of a BRINGUP step. -/
def State.acuBringup (s : State) : State :=
  if s.audio = [] then s else
  let s := if s.acu.loaded then s.ancCause 1 0 else s.acuLoad
  let s := (s.resetRegs 0x00F000241000 0x00F000250000).clearMem stagingBase (acousticMem + 0x200000)
  let s := { s with acu.caps := [], acu.plays := [], acu.capStart := s.acu.frame, acu.duck := Ramp.at 32768 }
  (s.setReg R.ACU_STATUS_BP_RUN 1).acuShow

/-! ### Opcodes (R493 to R496, R503) -/

/-- Elements of `acu.play` by DTYPE: bytes, and the Q1.31 value.  A NaN has none, and is a free value. -/
def playSize (dt : Nat) : Nat := if dt = 3 then 2 else 4

def playValue (dt c : Nat) : Int :=
  if dt = 3 then signed 16 c * 65536
  else if dt = 4 then signed 32 c
  else match f32 c with
    | .nan => clampInt (-(2 ^ 31)) (2 ^ 31 - 1) (Config.ulpOffset 0x80 c)
    | .inf neg => if neg then -(2 ^ 31) else 2 ^ 31 - 1
    | .fin neg m e =>
      let big := decide (2 ^ 31 ≤ m * 2 ^ (e + 31).toNat) && decide (0 ≤ e + 31)
      if big then (if neg then -(2 ^ 31) else 2 ^ 31 - 1)
      else
        let n : Nat := if 0 ≤ e + 31 then m * 2 ^ (e + 31).toNat else rneShift m (-(e + 31)).toNat
        clampInt (-(2 ^ 31)) (2 ^ 31 - 1) (sgn neg n)

/-- Output frames from the next one sent to the first whose stamp lies at or after PLAY_AT − P ÷ 2, in steps of P from the
last frame's stamp. -/
def State.playFrames (s : State) (playAt : Nat) : Int :=
  let next : Int := match s.acu.last with
    | some t => 6 * (t : Int) + 125000
    | none => 6 * (s.now : Int)
  let d : Int := 6 * (playAt : Int) - 62500 - next
  (d + 124999) / 125000

/-- The samples of one channel of a hop as output frames: each 16 kHz sample spans three, after an interpolation that is not
given. -/
def State.playOut (s : State) (p : Nat) (l : List Int) : List Int × State :=
  match s.playEntry p with
  | some e => if field e 2 1 = 0 then (l, s) else
      let r := s.freeRows (3 * l.length) 1
      (r.1.map fun x => x.headD 0, r.2)
  | none => (l, s)

/-- A hop placed on channel `p`: samples already late dropped, then against the hop before it (R494). -/
def State.playPlace (s : State) (p : Nat) (d : Int) (l : List Int) : State :=
  let (l, s) := s.playOut p l
  let per := match s.playEntry p with | some e => if field e 2 1 = 0 then 1 else 3 | none => 1
  let late := min (-d).toNat l.length
  let s := s.incReg R.ACU_PLAY_LATE_COUNT p 0 (late / per)
  if late = l.length then s else
  let x : PlayChan := Sparse.get {} s.acu.plays p
  let start := ((s.acu.frame : Int) + d).toNat + late
  let start := max start s.acu.frame
  let l := l.drop late
  let e := x.ended.getD start
  let s := if e < start then s.incReg R.ACU_PLAY_GAP_COUNT p else if start < e then s.incReg R.ACU_PLAY_OVERLAP_COUNT p else s
  let l := l.drop (e - start)
  let start := max start e
  if l = [] then s
  else
    let h : PlayHop := ⟨start, l⟩
    let y : PlayChan := ⟨x.hops ++ [h], some (start + l.length)⟩
    { s with acu.plays := Sparse.put {} s.acu.plays p y }.incReg R.ACU_PLAY_HOPS_COUNT p

/-- RESULT written, when it is given. -/
def acuResult (c : Cmd) (w code : Nat) : Eff Unit :=
  if c.addr w = 0 then Eff.pure () else Eff.write c.part (c.addr w) (leBytes 8 code)

/-- `acu.play`. -/
def execAcuPlay (dt id : Nat) (s : State) : Host.Outcome State Fault Refusal :=
  .next ((s.elapse dt).runEngine id 0x80 fun c =>
    let first := bits (c.word 1) 2 0
    let n := bits (c.word 1) 7 4
    let ty := bits (c.word 1) 11 8
    let frames := bits (c.word 3) 15 0
    let size := playSize ty
    let chans := (List.range n).map (first + ·)
    (Eff.read c.part (c.addr 2) (frames * n * size)).bind fun b => Eff.get.bind fun s =>
    if chans.any fun p => decide (4 ≤ (Sparse.get ({} : PlayChan) s.acu.plays p).hops.length) then
      (Eff.modify fun s => chans.foldl (fun s p => s.incReg R.ACU_PLAY_FULL_COUNT p) s).bind fun _ => acuResult c 5 2
    else if frames = 0 then acuResult c 5 0
    else
      let d := s.playFrames (c.word 4)
      let per := match s.playEntry first with | some e => if field e 2 1 = 0 then 1 else 3 | none => 1
      let code := if (frames * per : Nat) ≤ -d then 3 else if d < 0 then 1 else 0
      (Eff.modify fun s => (List.range n).foldl (fun s i =>
        s.playPlace (first + i) d ((List.range frames).map fun f => playValue ty (field b ((f * n + i) * size) size))) s).bind
        fun _ => acuResult c 5 code)

/-- The held buffers of a capture, with CAP_HELD. -/
def State.setCapHeld (s : State) (c : Nat) (l : List Nat) : State :=
  (s.setCapture c { s.capture c with held := l }).setReg R.ACU_CAP_HELD_BUFS
    ((List.range 8).map fun b => if l.contains b then 2 ^ b else 0).sum c

/-- `acu.hold` (R257). -/
def execAcuHold (dt id : Nat) (s : State) : Host.Outcome State Fault Refusal :=
  .next ((s.elapse dt).runEngine id 0x81 fun c => Eff.get.bind fun s =>
    let n := bits (c.word 1) 1 0
    let x := s.capture n
    match x.items.find? fun i => i.2 == bits (c.word 2) 31 0 with
    | none => acuResult c 3 1
    | some (b, _) =>
      if x.held.contains b then acuResult c 3 2
      else (Eff.modify fun s => s.setCapHeld n (b :: x.held)).bind fun _ => acuResult c 3 0)

/-- `acu.release` (R257). -/
def execAcuRelease (dt id : Nat) (s : State) : Host.Outcome State Fault Refusal :=
  .next ((s.elapse dt).runEngine id 0x82 fun c => Eff.get.bind fun s =>
    let n := bits (c.word 1) 1 0
    let x := s.capture n
    match x.items.find? fun i => i.2 == bits (c.word 2) 31 0 with
    | some (b, _) =>
      if x.held.contains b then
        (Eff.modify fun s => s.setCapHeld n (x.held.filter fun y => y != b)).bind fun _ => acuResult c 3 0
      else acuResult c 3 3
    | none => acuResult c 3 3)

/-- `acu.duck`. -/
def execAcuDuck (dt id : Nat) (s : State) : Host.Outcome State Fault Refusal :=
  .next ((s.elapse dt).runEngine id 0x83 fun c => Eff.modify fun s =>
    ({ s with acu.duck := s.acu.duck.toward (bits (c.word 1) 15 0) (48 * bits (c.word 1) 31 16) }).acuShow)

/-- The result of `acu.anc`: the state and the causes after it. -/
def ancResult (c : Cmd) : Eff Unit := Eff.get.bind fun s =>
  acuResult c 2 (s.ancState + 2 ^ 8 * s.reg R.ACU_STATUS_ANC_CAUSE)

/-- `acu.anc` of one ACTION run: the effect, then the result. -/
def State.runAnc (s : State) (id action : Nat) (f : Cmd → State → State) : State :=
  match s.cmd? id with
  | some c =>
    if bits (c.word 1) 1 0 = action then
      s.runEngine id 0x84 fun c => (Eff.modify (f c)).bind fun _ => ancResult c
    else s
  | none => s

/-- `acu.anc` RESUME. -/
def execAncResume (dt id : Nat) (s : State) : Host.Outcome State Fault Refusal :=
  .next ((s.elapse dt).runAnc id 0 fun c s => s.ancClear 0x7C (bit (c.word 1) 4))

/-- `acu.anc` HOLD. -/
def execAncHold (dt id : Nat) (s : State) : Host.Outcome State Fault Refusal :=
  .next ((s.elapse dt).runAnc id 1 fun _ s => s.ancCause 8 0)

/-- `acu.anc` STOP. -/
def execAncStop (dt id : Nat) (s : State) : Host.Outcome State Fault Refusal :=
  .next ((s.elapse dt).runAnc id 2 fun _ s => s.ancCause 4 0)

/-- `acu.rate` (R484, R501). -/
def execAcuRate (dt id : Nat) (s : State) : Host.Outcome State Fault Refusal :=
  .next ((s.elapse dt).runEngine id 0x85 fun c => Eff.get.bind fun s =>
    let n := bits (c.word 1) 2 0
    let sel := bit (c.word 1) 8
    let x := s.acuPort n
    if s.flag R.ACU_PORT_STAT_CHANGING n then acuResult c 2 2
    else if s.flag R.ACU_PORT_STAT_FAULT n then acuResult c 2 3
    else if s.flag R.ACU_PORT_STAT_ALT n = sel then acuResult c 2 1
    else (Eff.modify fun s => (s.setAcuPort n { x with change := some sel, ramp := x.ramp.slope 0 480 }).setReg
        R.ACU_PORT_STAT_CHANGING 1 n).bind fun _ => acuResult c 2 0)

/-- What the fetch checks ask of an ACOUSTIC command (R495). -/
def State.acuInfo (s : State) (p op : Nat) (words : List Nat) : Option OpInfo :=
  let w := fun i => words.getD i 0
  let b := s.audio
  let ctrl := bit (field b 0xC 1) p
  let range := fun (i : Nat) => let a := bits (w i) 47 0; (i, a, if a = 0 then 0 else 8, true)
  match op with
  | 0x80 =>
    let first := bits (w 1) 2 0
    let n := bits (w 1) 7 4
    let ty := bits (w 1) 11 8
    let frames := bits (w 3) 15 0
    let src := bits (w 2) 47 0
    let es := (List.range n).map fun i => s.playEntry (first + i)
    let rate := match s.playEntry first with | some e => field e 2 1 | none => 0
    let ok := decide (1 ≤ n ∧ n ≤ 8 ∧ first + n ≤ audPlays b) && (ty == 3 || ty == 4 || ty == 9) &&
      es.all fun o => match o with
        | some e => field e 1 1 == p && field e 2 1 == rate
        | none => false
    some { masks := [0xFF7, mAddr, 0xFFFF, mAll, mAddr]
           limits := [(1, ok), (2, src % playSize ty == 0), (3, decide (frames ≤ if rate = 0 then 480 else 160))]
           ranges := [(2, src, frames * n * playSize ty, false), range 5] }
  | 0x81 | 0x82 =>
    let ok := match s.capEntry (bits (w 1) 1 0) with
      | some e => field e 1 1 == p
      | none => false
    some { masks := [3, mLow, mAddr], limits := [(1, ok)], ranges := [range 3] }
  | 0x83 =>
    some { masks := [mLow], limits := [(1, ctrl && decide (bits (w 1) 15 0 ≤ 32768 ∧ bits (w 1) 31 16 ≤ 1000))] }
  | 0x84 =>
    let act := bits (w 1) 1 0
    some { masks := [0x13, mAddr], limits := [(1, ctrl && decide (act < 3) && (!bit (w 1) 4 || act == 0))], ranges := [range 2] }
  | 0x85 =>
    let e := audPort b (bits (w 1) 2 0)
    some { masks := [0x107, mAddr]
           limits := [(1, ctrl && decide (bits (w 1) 2 0 < 6) && portOn e && portAlt e != 3)], ranges := [range 2] }
  | _ => none

end Sys2Proof.Machine
end

