-- ==== Sys2Proof/Machine/Matrix.lean ====
section
/-!
DEFINITION. The tensor core: types, operand words, the array's passes with their checksum column, `tc.mma` and `tc.selftest`
(R267 to R288, R296 to R300).
-/

namespace Sys2Proof.Machine

open Sys2Proof

/-! ### Types (R273, R279, Table 7.2) -/

/-- Bits of an element. -/
def typeBits (t : Nat) : Nat :=
  if t = 2 then 4 else if t = 3 ∨ t = 7 ∨ t = 8 then 16 else if t = 4 ∨ t = 9 then 32 else 8

def isFloat (t : Nat) : Bool := decide (5 ≤ t ∧ t ≤ 9)

/-- The format of a floating type. -/
def typeFmt (t : Nat) : FloatFmt :=
  if t = 5 then e4m3 else if t = 6 then e5m2 else if t = 7 then bf16 else if t = 8 then fp16 else fp32

/-- Least and greatest value of an integer type. -/
def typeRange (t : Nat) : Int × Int := if t = 1 then (0, 255) else (-(2 ^ (typeBits t - 1)), 2 ^ (typeBits t - 1) - 1)

/-- The integer of an element's code. -/
def toI (t raw : Nat) : Int := if t = 1 then ((raw % 256 : Nat) : Int) else signed (typeBits t) raw

/-- The exact value of an element's code. -/
def toFl (t raw : Nat) : Fl := if isFloat t then (typeFmt t).decode raw else .ofInt (toI t raw)

/-- The code of an integer in an integer type, saturating. -/
def ofI (t : Nat) (x : Int) : Nat := unsigned (typeBits t) (clampInt (typeRange t).1 (typeRange t).2 x)

/-- The code of a value in a type: one rounding, saturating (R279). -/
def ofFl (t : Nat) (v : Fl) : Nat := if isFloat t then (typeFmt t).round true v else ofI t v.toInt

/-- An element as FP32. -/
def toFp (t raw : Nat) : Nat := toF32 (toFl t raw)

/-- An FP32 result in a type. -/
def ofFp (t c : Nat) : Nat := ofFl t (f32 c)

/-- Bytes of `n` packed elements. -/
def typeBytes (t n : Nat) : Nat := ceilDiv (n * typeBits t) 8

/-- Elements of more than one byte cut from a byte string. -/
def chunkBytes (k : Nat) : Nat → List Byte → List Nat
  | 0, _ => []
  | n + 1, bs => leNat (bs.take k) :: chunkBytes k n (bs.drop k)

/-- The codes of the first `n` elements of a packed row. -/
def unpack (t n : Nat) (bs : List Byte) : List Nat :=
  if t = 2 then (bs.flatMap fun b => [b.toNat % 16, b.toNat / 16]).take n else chunkBytes (typeBits t / 8) n bs

/-- Pairs of nibbles as bytes. -/
def packNibbles : List Nat → List Byte
  | a :: b :: l => BitVec.ofNat 8 (a % 16 + 16 * (b % 16)) :: packNibbles l
  | [a] => [BitVec.ofNat 8 (a % 16)]
  | [] => []

/-- A packed row of element codes. -/
def pack (t : Nat) (l : List Nat) : List Byte :=
  if t = 2 then packNibbles l else l.flatMap (leBytes (typeBits t / 8))

/-! ### Operand words (R270, Table 7.1) -/

def opOffset (w : Nat) : Nat := bits w 22 0
def opPitch (w : Nat) : Nat := bits w 55 32
def opSpace (w : Nat) : Bool := bit w 23

/-- Bits that an operand word may have. -/
def mOp : Nat := 0x00FFFFFF00FFFFFF

/-- Address of an operand in an executing core. -/
def opAddr (core w : Nat) : Nat := (if opSpace w then cmemBase (core / 4) else spadBase core) + opOffset w

/-- Address of row `i` of a matrix operand. -/
def opRow (core w i : Nat) : Nat := opAddr core w + i * opPitch w

/-- Bytes from the first to the last of `n` rows of `len` bytes. -/
def rowSpan (n pitch len : Nat) : Nat := if n = 0 ∨ len = 0 then 0 else (n - 1) * pitch + len

/-- Limits of a matrix operand word: alignment, and a pitch that holds its row. -/
def matLimit (w align len : Nat) : Bool :=
  decide (opOffset w % align = 0 ∧ opPitch w % align = 0 ∧ opPitch w ≤ 8388608 ∧ len ≤ opPitch w)

/-- Limits of a vector operand word. -/
def vecLimit (w align : Nat) : Bool := decide (opOffset w % align = 0 ∧ opPitch w = 0)

/-- Two operands' bounding ranges overlap in a core. -/
def opOverlap (a n b m : Nat) : Bool := opSpace a == opSpace b && overlaps (opOffset a) n (opOffset b) m

/-- Cores of a mask. -/
def maskCores (mask : Nat) : List Nat := (List.range 16).filter fun n => mask.testBit n

/-- The ranges of operands, (word, operand word, bytes, write), in every core of a mask. -/
def opRanges (mask : Nat) (l : List (Nat × Nat × Nat × Bool)) : List (Nat × Nat × Nat × Bool) :=
  l.flatMap fun x => (maskCores mask).map fun n => (x.1, opAddr n x.2.1, x.2.2.1, x.2.2.2)

/-- A core mask names only cores of the partition (R271). -/
def State.maskOk (s : State) (p mask : Nat) : Bool := (maskCores mask).all fun n => (s.partCores p).testBit n

/-! ### Cores running a command (R267, R271, R287, R299, R300) -/

/-- DETAIL of a failure (Table 7.9). -/
def tcDetail (cause core pass row : Nat) : Nat := cause + 2 ^ 8 * core + 2 ^ 16 * min pass 65535 + 2 ^ 32 * row

/-- A core stops with an engine error: LAST_ERR, the fault, and the failure at its place in time. -/
def Eff.tcFail {α : Type} (source cause core pass row at_ : Nat) : Eff α := fun s =>
  let d := tcDetail cause core pass row
  let s := s.setReg R.TC_LAST_ERR_DETAIL d core
  (.error { status := 0x20, detail := d, at_ := at_ }, s.raise (source + core) ((s.corePart core).getD 0) d)

/-- Every selected core runs the command on its own memories; the earliest failure, of the lowest core among equals, is the
command's. -/
def State.runCores (s : State) (f : Nat → Eff Unit) : List Nat → Done × State
  | [] => ({}, s)
  | n :: l =>
    let r := f n s
    let rest := r.2.runCores f l
    match r.1 with
    | .ok _ => rest
    | .error d => (if rest.1.status = 0 ∨ d.at_ ≤ rest.1.at_ then d else rest.1, rest.2)

/-- A TENSOR command run by the cores of its CMASK. -/
def State.runTensor (s : State) (id op : Nat) (f : Cmd → Nat → Eff Unit) : State :=
  match s.engine id op with
  | some c => let r := (s.beginWork c).runCores (f c) (maskCores c.coreMask); r.2.finish id r.1
  | none => s

/-! ### Passes (R274 to R287) -/

/-- The combinations of Table 7.3. -/
def mmaTypes (at_ wt ot : Nat) : Bool :=
  (decide (at_ ≤ 1) && (wt == 0 || wt == 2) && [0, 1, 3, 4].contains ot) ||
  ((at_ == 5 || at_ == 6) && (wt == 5 || wt == 6) && decide (5 ≤ ot ∧ ot ≤ 9)) ||
  (at_ == 7 && wt == 7 && decide (7 ≤ ot ∧ ot ≤ 9)) || (at_ == 8 && wt == 8 && decide (7 ≤ ot ∧ ot ≤ 9))

/-- Accumulator type of an activation type: INT32 or FP32. -/
def accType (at_ : Nat) : Nat := if isFloat at_ then 9 else 4

/-- Tile width NW. -/
def tileWidth (wt : Nat) : Nat := if wt = 2 then 256 else 128

/-- The control fields of word 8 (Table 7.6). -/
structure MatCtl where
  at_ : Nat
  wt : Nat
  ot : Nat
  accIn : Nat
  quant : Bool
  relu : Bool
  tol : Nat
  deriving DecidableEq, Repr

def matCtl (w8 : Nat) : MatCtl :=
  ⟨bits w8 3 0, bits w8 7 4, bits w8 11 8, bits w8 13 12, bit w8 14, bit w8 15, bits w8 17 16⟩

/-- Limits of word 8. -/
def MatCtl.ok (m : MatCtl) : Bool :=
  mmaTypes m.at_ m.wt m.ot && decide (m.accIn ≤ 2) && m.quant == (m.ot != accType m.at_) &&
  !(m.accIn == 2 && m.quant) && (isFloat m.at_ || m.tol == 0)

/-- One output: the products of a pass added to the incoming partial sum (R275, R276). -/
def dotAcc (at_ wt : Nat) (row col : List Nat) (x : Nat) : Nat :=
  if isFloat at_ then (row.zip col).foldl (fun acc p => toF32 ((f32 acc).add ((toFl at_ p.1).mul (toFl wt p.2)))) x
  else unsigned 32 (signed 32 x + ((row.zip col).map fun p => toI at_ p.1 * toI wt p.2).sum)

/-- The checksum weight of a grid row (R284): an FP32 code, or an integer. -/
def rowSumF (wt : Nat) (row : List Nat) : Nat := fsum (row.map (toFp wt))
def rowSumI (wt : Nat) (row : List Nat) : Int := (row.map (toI wt)).sum

/-- The verdict on a drained row: passed, judged by the non-finite rule, and the ratio to the bound (R285). -/
structure RowVerdict where
  pass : Bool
  nonfinite : Bool := false
  ratio : Option Nat := none
  deriving DecidableEq, Repr

/-- The floating check of S1, S2 and the magnitude sum. -/
def checkF (fac abs_ : Nat) (inc out : List Nat) (a : List Nat) (ws : List Nat) : RowVerdict :=
  let s2 := (a.zip ws).foldl (fun acc p => ffma p.1 p.2 acc) (fsum inc)
  let s1 := fsum out
  if (out.all ffinite) && ffinite s1 && ffinite s2 then
    let mag := fadd (fsum (out.map fabs)) (fabs s2)
    let diff := fabs (fsub s1 s2)
    let bound := fadd abs_ (fmul (toF32 (.ofInt fac (-16))) mag)
    { pass := (f32 diff).le (f32 bound), ratio := if bound = 0 then none else some (fdiv diff bound) }
  else { pass := !ffinite s2, nonfinite := true }

/-- The integer check: S1 and S2 equal modulo 2^32. -/
def checkI (inc out : List Nat) (a ws : List Int) : RowVerdict :=
  let s1 := (out.map (signed 32)).sum
  let s2 := (inc.map (signed 32)).sum + ((a.zip ws).map fun p => p.1 * p.2).sum
  { pass := (s1 - s2) % 2 ^ 32 == 0 }

/-- A weight row after the load, as the cells hold it. -/
def cellRow (faults : List TcFault) (core pass k : Nat) (row : List Nat) : List Nat :=
  faults.foldl (fun row f =>
    match f with
    | .weight c p k' n b => if c = core ∧ p = pass ∧ k' = k then row.modify n (· ^^^ 2 ^ b) else row
    | _ => row) row

/-- Outputs of a row as they reach the checksum adder. -/
def drained (faults : List TcFault) (core pass row : Nat) (out : List Nat) : List Nat :=
  faults.foldl (fun out f =>
    match f with
    | .drain c p r n b => if c = core ∧ p = pass ∧ r = row then out.modify n (· ^^^ 2 ^ b) else out
    | _ => out) out

/-- The checker of a core stuck one way, if it is. -/
def stuck (faults : List TcFault) (core : Nat) : Option Bool :=
  faults.findSome? fun f => match f with
    | .checker c b => if c = core then some b else none
    | _ => none

/-- A matrix product as a core runs it: dimensions, operand words, control, how a row's activations are read, and where an
output row lies. -/
structure MatJob where
  core : Nat
  part : Nat
  m : Nat
  k : Nat
  n : Nat
  ctl : MatCtl
  wOp : Nat
  bias : Nat
  qparam : Nat
  acc : Nat
  /-- Row, first index, count: element codes. -/
  readA : Nat → Nat → Nat → Eff (List Nat)
  /-- Address of output row. -/
  rowC : Nat → Nat
  faults : List TcFault

/-- An accumulator value as an output (R278). -/
def MatJob.output (j : MatJob) (acc q : Nat) : Nat :=
  let c := j.ctl
  if isFloat c.at_ then
    let v := if c.quant then fmul acc (q % 2 ^ 32) else acc
    let v := if c.relu then fmax v 0 else v
    if c.quant then ofFp c.ot v else v
  else if c.quant then
    let qs := bits q 37 32
    let zp := signed 16 (q / 2 ^ 48)
    let h : Int := if qs = 0 then 0 else 2 ^ (qs - 1)
    let v := clampInt (typeRange c.ot).1 (typeRange c.ot).2 ((signed 32 acc * signed 32 q + h) / 2 ^ qs + zp)
    ofI c.ot (if c.relu then max v zp else v)
  else if c.relu then unsigned 32 (max (signed 32 acc) 0) else acc

/-- A QPARAM entry within its limits. -/
def MatJob.qOk (j : MatJob) (q : Nat) : Bool :=
  if isFloat j.ctl.at_ then q / 2 ^ 32 == 0 else decide (bits q 37 32 ≤ 47) && bits q 47 38 == 0

/-- Registers after a checked row: CHK_ROWS, CHK_NONFINITE, CHK_WORST. -/
def State.countRow (s : State) (core : Nat) (v : RowVerdict) : State :=
  let s := s.incReg R.TC_CHK_ROWS_COUNT core
  let s := if v.nonfinite then s.incReg R.TC_CHK_NONFINITE_COUNT core else s
  match v.ratio with
  | some r => if v.pass ∧ s.reg R.TC_CHK_WORST_RATIO core < r then s.setReg R.TC_CHK_WORST_RATIO r core else s
  | none => s

/-- The feed of a row's addresses disagrees (R313). -/
def MatJob.feedBad (j : MatJob) (pass row : Nat) : Bool :=
  j.faults.any fun f => match f with
    | .feed c p r => c == j.core && p == pass && r == row
    | _ => false

/-- Outputs, and the verdict, of one row of a pass: activations, the weight rows as loaded, and incoming sums. -/
def MatJob.row (j : MatJob) (s : State) (pass m : Nat) (a : List Nat) (rows : List (List Nat)) (cols : List (List Nat))
    (inc : List Nat) : List Nat × RowVerdict :=
  let out := drained j.faults j.core pass m ((cols.zip inc).map fun p => dotAcc j.ctl.at_ j.ctl.wt a p.1 p.2)
  let v :=
    if isFloat j.ctl.at_ then
      checkF (s.reg R.TC_CHK_TOL_FAC j.core j.ctl.tol) (s.reg R.TC_CHK_ABS_ABS j.core j.ctl.tol % 2 ^ 31) inc out
        (a.map (toFp j.ctl.at_)) (rows.map (rowSumF j.ctl.wt))
    else checkI inc out (a.map (toI j.ctl.at_)) (rows.map (rowSumI j.ctl.wt))
  (out, { v with pass := (stuck j.faults j.core).getD v.pass })

/-- Element n of every row. -/
def columns (n : Nat) (rows : List (List Nat)) : List (List Nat) :=
  rows.foldr (fun r cs => (r.zip cs).map fun p => p.1 :: p.2) (List.replicate n [])

/-- A drained row checked, and written only if it passes (R287). -/
def MatJob.check (j : MatJob) (pass m at_ : Nat) (v : RowVerdict) : Eff Unit :=
  let bad := j.feedBad pass m
  (Eff.modify fun s => s.countRow j.core v).bind fun _ =>
  if v.pass && !bad then Eff.pure ()
  else
    (Eff.modify fun s => (if bad then s.incReg R.TC_FEED_MISMATCH_COUNT j.core else s).incReg R.TC_CHK_FAIL_COUNT j.core).bind
      fun _ => Eff.tcFail 0x20 0x01 j.core pass m at_

/-- One pass: N-tile `t`, K-tile `i`, over the rows of A. -/
def MatJob.pass (j : MatJob) (t i : Nat) (bias qs : List Nat) : Eff Unit :=
  let nw := tileWidth j.ctl.wt
  let n0 := nw * t
  let nt := min nw (j.n - n0)
  let kt := ceilDiv j.k 128
  let k0 := 128 * i
  let kn := min 128 (j.k - k0)
  let pass := t * kt + i
  let key := pass * 2 ^ 22
  let wLo := n0 * typeBits j.ctl.wt / 8
  (Eff.when key (Eff.map (fun k => (Eff.read j.part (opRow j.core j.wOp (k0 + k) + wLo) (typeBytes j.ctl.wt nt)).bind fun b =>
      Eff.pure (unpack j.ctl.wt nt b)) (List.range kn))).bind fun rows =>
  let cells := (rows.zip (List.range kn)).map fun r => cellRow j.faults j.core pass r.2 r.1
  let cols := columns nt cells
  Eff.each (fun m =>
    let key := key + 1 + m
    let accAt := opRow j.core j.acc m
    let ot := j.ctl.ot
    let outAt := j.rowC m + n0 * typeBits ot / 8
    (Eff.when key (j.readA m k0 kn)).bind fun a =>
    (Eff.when key (
      if i ≠ 0 then (Eff.read j.part accAt (4 * nt)).bind fun b => Eff.pure (chunkBytes 4 nt b)
      else if j.ctl.accIn = 0 then Eff.pure (List.replicate nt 0)
      else if j.ctl.accIn = 1 then Eff.pure bias
      else (Eff.read j.part outAt (4 * nt)).bind fun b => Eff.pure (chunkBytes 4 nt b))).bind fun inc =>
    Eff.get.bind fun s =>
    let r := j.row s pass m a rows cols inc
    (j.check pass m key r.2).bind fun _ =>
    Eff.when key (
      if i + 1 ≠ kt then Eff.write j.part accAt (r.1.flatMap (leBytes 4))
      else
        let vals := if j.ctl.quant then (r.1.zip qs).map fun p => j.output p.1 p.2 else r.1.map fun x => j.output x 0
        Eff.write j.part outAt (pack ot vals))) (List.range j.m)

/-- Bytes whose content is unspecified afterwards. -/
def Eff.scramble (a n : Nat) : Eff Unit := fun s =>
  (.ok (), s.scramble a n)

/-- The workspace after the command: unspecified (R282). -/
def MatJob.loseAcc (j : MatJob) : Eff Unit :=
  if j.k ≤ 128 then Eff.pure () else
  Eff.each (fun m => Eff.scramble (opRow j.core j.acc m) (4 * min (tileWidth j.ctl.wt) j.n)) (List.range j.m)

/-- The BIAS values and QPARAM entries of an N-tile of `nt` columns from column `n0`, read as it begins. -/
def MatJob.tileParams (j : MatJob) (n0 nt : Nat) : Eff (List Nat × List Nat) :=
  (if j.ctl.accIn = 1 then (Eff.read j.part (opAddr j.core j.bias + 4 * n0) (4 * nt)).bind fun b => Eff.pure (chunkBytes 4 nt b)
   else Eff.pure []).bind fun bias =>
  (if j.ctl.quant then (Eff.read j.part (opAddr j.core j.qparam + 8 * n0) (8 * nt)).bind fun b => Eff.pure (chunkBytes 8 nt b)
   else Eff.pure []).bind fun qs =>
  if qs.all j.qOk then Eff.pure (bias, qs) else Eff.fail 0x14 0

/-- A core's product, in the loop order of R280. -/
def MatJob.run (j : MatJob) : Eff Unit :=
  let nw := tileWidth j.ctl.wt
  let kt := ceilDiv j.k 128
  if j.m = 0 ∨ j.k = 0 ∨ j.n = 0 then Eff.pure () else
  (Eff.each (fun t =>
    let n0 := nw * t
    (Eff.when (t * kt * 2 ^ 22) (j.tileParams n0 (min nw (j.n - n0)))).bind fun q =>
    Eff.each (fun i => j.pass t i q.1 q.2) (List.range kt)) (List.range (ceilDiv j.n nw))).bind fun _ => j.loseAcc

/-- The product of a `tc.mma` on a core. -/
def mmaJob (c : Cmd) (faults : List TcFault) (core : Nat) : MatJob :=
  let ctl := matCtl (c.word 8)
  let w7 := c.word 7
  { core := core, part := c.part, m := bits w7 19 0, k := bits w7 35 20, n := bits w7 51 36, ctl := ctl
    wOp := c.word 2, bias := c.word 4, qparam := c.word 5, acc := c.word 6
    readA := fun m k n =>
      (Eff.read c.part (opRow core (c.word 1) m + k * typeBits ctl.at_ / 8) (typeBytes ctl.at_ n)).bind fun b =>
        Eff.pure (unpack ctl.at_ n b)
    rowC := opRow core (c.word 3)
    faults := faults }

/-- `tc.mma` (R280). -/
def execTcMma (dt id : Nat) (faults : List TcFault) (s : State) : Host.Outcome State Fault Refusal :=
  .next ((s.elapse dt).runTensor id 0x21 fun c core => (mmaJob c faults core).run)

/-- What the fetch checks ask of a `tc.mma` of partition `p` (Table 7.6, R297). -/
def State.mmaInfo (s : State) (p : Nat) (words : List Nat) : OpInfo :=
  let w := fun i => words.getD i 0
  let m := matCtl (w 8)
  let rows := bits (w 7) 19 0
  let k := bits (w 7) 35 20
  let n := bits (w 7) 51 36
  let mask := bits (w 8) 47 32
  let useAcc := decide (128 < k)
  let useBias := m.accIn == 1
  let lenA := typeBytes m.at_ k
  let lenW := typeBytes m.wt n
  let lenC := typeBytes m.ot n
  let some' := rows != 0 && k != 0 && n != 0
  let span := fun (r pitch len : Nat) => if some' then rowSpan r pitch len else 0
  let sA := span rows (opPitch (w 1)) lenA
  let sW := span k (opPitch (w 2)) lenW
  let sC := span rows (opPitch (w 3)) lenC
  let sB := if useBias && some' then 4 * n else 0
  let sQ := if m.quant && some' then 8 * n else 0
  let sAcc := if useAcc then span rows (opPitch (w 6)) (4 * tileWidth m.wt) else 0
  let others := [(w 1, sA), (w 2, sW), (w 4, sB), (w 5, sQ)]
  { slots := [2]
    masks := [mOp, mOp, mOp, if useBias then mOp else 0, if m.quant then mOp else 0, if useAcc then mOp else 0,
              2 ^ 52 - 1, 0x0000FFFF0003FFFF]
    limits := [(8, m.ok), (1, matLimit (w 1) 16 lenA), (2, matLimit (w 2) 16 lenW), (3, matLimit (w 3) 16 lenC),
      (4, !useBias || vecLimit (w 4) 16), (5, !m.quant || vecLimit (w 5) 16),
      (6, !useAcc || matLimit (w 6) 16 (4 * tileWidth m.wt)), (8, s.maskOk p mask),
      (3, !(others.any fun x => opOverlap (w 3) sC x.1 x.2)),
      (6, !(((w 3, sC) :: others).any fun x => opOverlap (w 6) sAcc x.1 x.2))]
    ranges := opRanges mask [(1, w 1, sA, false), (2, w 2, sW, false), (3, w 3, sC, true), (4, w 4, sB, false),
      (5, w 5, sQ, false), (6, w 6, sAcc, true), (6, w 6, sAcc, false)] ++
      (if m.accIn = 2 then opRanges mask [(3, w 3, sC, false)] else []) }

/-! ### `tc.selftest` (R288) -/

/-- `n` bytes of the stream. -/
def lfsrBytes : Nat → Nat → List Nat
  | 0, _ => []
  | n + 1, s => let r := lfsrBits 8 s; r.1 :: lfsrBytes n r.2

/-- Rows of 128 codes. -/
def rows128 (n : Nat) (l : List Nat) : List (List Nat) := (List.range n).map fun i => (l.drop (128 * i)).take 128

/-- `tc.selftest` on one core: the clean pass must pass every row, and the injected one must fail row 0. -/
def selftestCore (c : Cmd) (faults : List TcFault) (core : Nat) : Eff Unit := fun s =>
  let w4 := c.word 4
  let stream := lfsrBytes 32768 (bits w4 15 0)
  let a := rows128 128 stream
  let w := rows128 128 (stream.drop 16384)
  let j : MatJob := { core := core, part := c.part, m := 128, k := 128, n := 128, ctl := ⟨0, 0, 4, 0, false, false, 0⟩
                      wOp := 0, bias := 0, qparam := 0, acc := 0, readA := fun _ _ _ => Eff.pure [], rowC := fun _ => 0
                      faults := faults }
  let judge := fun (pass m : Nat) (fs : List TcFault) =>
    let cells := (w.zip (List.range 128)).map fun r => cellRow fs core pass r.2 r.1
    (({ j with faults := fs }).row s pass m (a.getD m []) w (columns 128 cells) (List.replicate 128 0)).2.pass
  let clean := (List.range 128).find? fun m => !judge 0 m faults
  let injected := judge 1 0 (.drain core 1 0 (bits w4 38 32) (bits w4 20 16) :: faults)
  let s := s.incReg R.TC_SELFTEST_RUNS core
  match clean, injected with
  | none, false => (.ok (), s)
  | some m, _ => Eff.tcFail 0x40 0x03 core 0 m m (s.incReg R.TC_SELFTEST_FAILS core)
  | none, true => Eff.tcFail 0x40 0x03 core 1 0 128 (s.incReg R.TC_SELFTEST_FAILS core)

/-- `tc.selftest`. -/
def execTcSelftest (dt id : Nat) (faults : List TcFault) (s : State) : Host.Outcome State Fault Refusal :=
  .next ((s.elapse dt).runTensor id 0x2A fun c core => selftestCore c faults core)

end Sys2Proof.Machine
end

