-- ==== Sys2Proof/Machine/Comet.lean ====
section
/-!
DEFINITION. Comet: vocabularies, tokenizing, detokenizing, grammars and the slot table (R424 to R460).
-/

namespace Sys2Proof.Machine

open Sys2Proof

/-! ### The COMET section (R427, Tables 12.2, 12.3, 12.9) -/

/-- The vocabulary and grammar descriptors of a COMET section. -/
def vocabEntries (b : List Byte) : List (List Byte) := (List.range (field b 0 1)).map fun i => slice b (16 + 128 * i) 128
def grammarEntries (b : List Byte) : List (List Byte) :=
  (List.range (field b 1 1)).map fun i => slice b (16 + 128 * field b 0 1 + 48 * i) 48

/-- A vocabulary descriptor. -/
structure Vocab where
  n : Nat
  unigram : Bool
  flags : Nat
  maxLen : Nat
  pmask : Nat
  phashLog2 : Nat
  mergeLog2 : Nat
  tokens : Nat
  bos : Nat
  eos : Nat
  marker : Nat
  unk : Nat
  byteBase : Nat
  prefix_ : Nat
  unkScore : Nat
  norm : Nat
  pieces : Nat
  pool : Nat
  poolSize : Nat
  normSize : Nat
  attr : Nat
  phash : Nat
  merge : Nat
  scores : Nat
  byteTok : Nat
  deriving DecidableEq, Repr

def vocabOf (b : List Byte) : Vocab :=
  { n := field b 0 1, unigram := field b 1 1 == 1, flags := field b 2 1, maxLen := field b 3 1, pmask := field b 4 1
    phashLog2 := field b 5 1, mergeLog2 := field b 6 1, tokens := field b 8 4, bos := field b 0x0C 4, eos := field b 0x10 4
    marker := field b 0x14 4, unk := field b 0x18 4, byteBase := field b 0x1C 4, prefix_ := field b 0x20 4
    unkScore := field b 0x24 4, norm := field b 0x28 8, pieces := field b 0x30 8, pool := field b 0x38 8
    poolSize := field b 0x40 4, normSize := field b 0x44 4, attr := field b 0x48 8, phash := field b 0x50 8
    merge := field b 0x58 8, scores := field b 0x60 8, byteTok := field b 0x68 8 }

def Vocab.initBytes (v : Vocab) : Bool := bit v.flags 0
def Vocab.byteFallback (v : Vocab) : Bool := bit v.flags 1
def Vocab.spaceMark (v : Vocab) : Bool := bit v.flags 2
def Vocab.stripLead (v : Vocab) : Bool := bit v.flags 3
def Vocab.addPrefix (v : Vocab) : Bool := bit v.flags 4

/-- A grammar descriptor. -/
structure Grammar where
  n : Nat
  vocab : Nat
  pmask : Nat
  states : Nat
  stateTab : Nat
  trans : Nat
  masks : Nat
  transCount : Nat
  maskCount : Nat
  deriving DecidableEq, Repr

def grammarOf (b : List Byte) : Grammar :=
  ⟨field b 0 1, field b 1 1, field b 2 1, field b 4 4, field b 8 8, field b 0x10 8, field b 0x18 8, field b 0x20 4,
   field b 0x24 4⟩

/-- "None" of a token field. -/
def noToken : Nat := 0xFFFFFFFF

def State.vocab (s : State) (n : Nat) : Option Vocab := ((vocabEntries (s.sec 0x0B)).map vocabOf).find? fun v => v.n == n
def State.grammar (s : State) (n : Nat) : Option Grammar :=
  ((grammarEntries (s.sec 0x0B)).map grammarOf).find? fun g => g.n == n

/-- A vocabulary, or a grammar, that partition `p` may use. -/
def State.vocabFor (s : State) (p n : Nat) : Option Vocab := (s.vocab n).filter fun v => bit v.pmask p
def State.grammarFor (s : State) (p n : Nat) : Option Grammar := (s.grammar n).filter fun g => bit g.pmask p

/-! ### Tables as Comet reads them (R429, R430, Tables 12.4 to 12.7, 12.14) -/

/-- A table entry breaks its format. -/
def tableErr {α : Type} (kind owner entry : Nat) : Eff α := fun s =>
  (.error { status := 0x20, detail := 1 + 2 ^ 8 * kind + 2 ^ 12 * owner + 2 ^ 32 * min entry (2 ^ 32 - 1) },
   s.incReg R.TOK_TABLE_ERR_COUNT)

/-- A check of an entry. -/
def tableOk (ok : Bool) (kind owner entry : Nat) : Eff Unit := if ok then Eff.pure () else tableErr kind owner entry

/-- A code point that a table may hold. -/
def codePoint (c : Nat) : Bool := decide (c ≤ 0x10FFFF) && !decide (0xD800 ≤ c ∧ c ≤ 0xDFFF)

/-- ATTR of a token. -/
def Vocab.attrOf (v : Vocab) (p t : Nat) : Eff Bool :=
  (Eff.load p (v.attr + t) 1).bind fun a => (tableOk (decide (a ≤ 1)) 3 v.n t).bind fun _ => Eff.pure (a == 1)

/-- The bytes of a token's piece. -/
def Vocab.piece (v : Vocab) (p t : Nat) : Eff (List Byte) :=
  (Eff.load p (v.pieces + 4 * t) 4).bind fun a =>
  (Eff.load p (v.pieces + 4 * (t + 1)) 4).bind fun b =>
  (tableOk (decide (a ≤ b ∧ b ≤ v.poolSize ∧ b ≤ a + 255 ∧ (t = 0 → a = 0))) 1 v.n t).bind fun _ =>
  Eff.read p (v.pool + a) (b - a)

/-- FNV-1a, 32 bits. -/
def fnv1a (bs : List Byte) : Nat := bs.foldl (fun h b => ((h ^^^ b.toNat) * 0x01000193) % 2 ^ 32) 0x811C9DC5

/-- A piece sought from a hash entry, for `n` more entries. -/
def Vocab.findPiece (v : Vocab) (p h : Nat) (bs : List Byte) : Nat → Nat → Eff (Option Nat)
  | 0, i => tableErr 4 v.n i
  | n + 1, i =>
    (Eff.load p (v.phash + 8 * i) 8).bind fun e =>
    if e = 2 ^ 64 - 1 then Eff.pure none else
    let t := bits e 49 32
    let next := v.findPiece p h bs n ((i + 1) % 2 ^ v.phashLog2)
    (tableOk (bits e 63 50 == 0 && decide (t < v.tokens)) 4 v.n i).bind fun _ =>
    if bits e 31 0 ≠ h then next else
    (v.attrOf p t).bind fun special => (v.piece p t).bind fun b =>
    (tableOk (!special && fnv1a b == h) 4 v.n i).bind fun _ =>
    if b = bs then Eff.pure (some t) else next

/-- The token of a piece of exactly these bytes. -/
def Vocab.lookup (v : Vocab) (p : Nat) (bs : List Byte) : Eff (Option Nat) :=
  let h := fnv1a bs
  v.findPiece p h bs 64 (h >>> (32 - v.phashLog2))

/-- A merge sought from a hash entry, for `n` more entries: its rank and result. -/
def Vocab.findMerge (v : Vocab) (p l r : Nat) : Nat → Nat → Eff (Option (Nat × Nat))
  | 0, i => tableErr 5 v.n i
  | n + 1, i =>
    (Eff.load p (v.merge + 16 * i) 8).bind fun w0 => (Eff.load p (v.merge + 16 * i + 8) 8).bind fun w1 =>
    if bits w1 31 0 = noToken then Eff.pure none else
    let a := bits w0 17 0
    let b := bits w0 49 32
    let x := bits w1 49 32
    (tableOk (bits w0 31 18 == 0 && bits w0 63 50 == 0 && bits w1 63 50 == 0 &&
      decide (a < v.tokens ∧ b < v.tokens ∧ x < v.tokens)) 5 v.n i).bind fun _ =>
    if a = l ∧ b = r then Eff.pure (some (bits w1 31 0, x)) else v.findMerge p l r n ((i + 1) % 2 ^ v.mergeLog2)

/-- The merge of a pair of symbols. -/
def Vocab.mergeOf (v : Vocab) (p l r : Nat) : Eff (Option (Nat × Nat)) :=
  v.findMerge p l r 64 (((l * 0x9E3779B1 + r * 0x85EBCA77) % 2 ^ 32) >>> (32 - v.mergeLog2))

/-- A code point through the normalisation table of `pages` pages and `words` pool words: what it yields, and the class
(R433).  Entries of NORM are counted in
4-byte words. -/
def Vocab.normOf (v : Vocab) (p pages words c : Nat) : Eff (List Nat × Nat) :=
  let err := fun (ok : Bool) (o : Nat) => tableOk ok 0 v.n (o / 4)
  let o := 0x40 + 4 * (c / 256)
  (Eff.load p (v.norm + o) 4).bind fun d =>
  (err (decide (d ≤ pages)) o).bind fun _ =>
  if d = 0 then Eff.pure ([c], 0) else
  let o := 0x4440 + 1024 * (d - 1) + 4 * (c % 256)
  (Eff.load p (v.norm + o) 4).bind fun e =>
  let val := bits e 20 0
  let kind := bits e 25 24
  let cls := bits e 31 28
  (err (bits e 23 21 == 0 && bits e 27 26 == 0 &&
    (match kind with | 0 => val == 0 | 1 => codePoint val | 2 => decide (val < words) | _ => val == 0)) o).bind fun _ =>
  match kind with
  | 0 => Eff.pure ([c], cls)
  | 1 => Eff.pure ([val], cls)
  | 2 =>
    let q := 0x4440 + 1024 * pages + 4 * val
    (Eff.load p (v.norm + q) 4).bind fun n =>
    (err (decide (1 ≤ n ∧ n ≤ 16 ∧ val + n < words)) q).bind fun _ =>
    (Eff.map (fun i => (Eff.load p (v.norm + q + 4 * (i + 1)) 4).bind fun x =>
      (err (codePoint x) (q + 4 * (i + 1))).bind fun _ => Eff.pure x) (List.range n)).bind fun l => Eff.pure (l, cls)
  | _ => Eff.pure ([], cls)

/-! ### UTF-8 (R432) -/

/-- One decoded unit of a text: its code point, or nothing for an ill-formed subpart; its bytes; and whether it is a proper
prefix of a well-formed sequence at the end of the text. -/
structure Utf where
  cp : Option Nat
  len : Nat
  cut : Bool := false
  deriving DecidableEq, Repr

/-- The rest of a sequence of which `got` bytes are read: `want` continuation bytes, the next within [lo, hi]. -/
def utfTail (lo hi got cp : Nat) : Nat → List Byte → Utf
  | 0, _ => ⟨some cp, got, false⟩
  | _ + 1, [] => ⟨none, got, true⟩
  | n + 1, b :: l =>
    if lo ≤ b.toNat ∧ b.toNat ≤ hi then utfTail 0x80 0xBF (got + 1) (64 * cp + b.toNat % 64) n l else ⟨none, got, false⟩

/-- The first unit of a text: a character of RFC 3629, or a maximal subpart of an ill-formed sequence. -/
def utfOne : List Byte → Utf
  | [] => ⟨none, 0, false⟩
  | b :: l =>
    let x := b.toNat
    if x < 0x80 then ⟨some x, 1, false⟩
    else if 0xC2 ≤ x ∧ x ≤ 0xDF then utfTail 0x80 0xBF 1 (x % 32) 1 l
    else if 0xE0 ≤ x ∧ x ≤ 0xEF then
      utfTail (if x = 0xE0 then 0xA0 else 0x80) (if x = 0xED then 0x9F else 0xBF) 1 (x % 16) 2 l
    else if 0xF0 ≤ x ∧ x ≤ 0xF4 then
      utfTail (if x = 0xF0 then 0x90 else 0x80) (if x = 0xF4 then 0x8F else 0xBF) 1 (x % 8) 3 l
    else ⟨none, 1, false⟩

/-- The units of a text. -/
def utfUnits : Nat → List Byte → List Utf
  | 0, _ => []
  | _ + 1, [] => []
  | n + 1, b :: l => let u := utfOne (b :: l); u :: utfUnits n ((b :: l).drop u.len)

/-- The UTF-8 bytes of a code point. -/
def utfBytes (c : Nat) : List Byte :=
  (if c < 0x80 then [c] else if c < 0x800 then [0xC0 + c / 64, 0x80 + c % 64]
   else if c < 0x10000 then [0xE0 + c / 4096, 0x80 + c / 64 % 64, 0x80 + c % 64]
   else [0xF0 + c / 262144, 0x80 + c / 4096 % 64, 0x80 + c / 64 % 64, 0x80 + c % 64]).map (BitVec.ofNat 8)

/-- U+FFFD in UTF-8. -/
def utfBad : List Byte := utfBytes 0xFFFD

/-! ### Words (R433, R434) -/

/-- The normalised code points of a text, each with its class. -/
def Vocab.normal (v : Vocab) (p : Nat) (cps : List Nat) : Eff (List (Nat × Nat)) :=
  (Eff.load p (v.norm + 0x20) 4).bind fun w => (Eff.load p (v.norm + 0x24) 4).bind fun seq =>
  (Eff.read p (v.norm + 0x28) 24).bind fun rsv =>
  let pages := bits w 31 16
  (tableOk (decide (16 ≤ bits w 15 0 ∧ bits w 15 0 ≤ 1024 ∧ pages ≤ 4352 ∧ v.normSize = 0x4440 + 1024 * pages + 4 * seq) &&
    rsv.all (· == 0#8)) 0 v.n 8).bind fun _ =>
  (Eff.map (fun c => (v.normOf p pages seq c).bind fun r => Eff.pure (r.1.map fun x => (x, r.2))) cps).bind fun l =>
  let out := l.flatten
  if v.addPrefix && !out.isEmpty then
    (v.normOf p pages seq v.prefix_).bind fun r => Eff.pure ((v.prefix_, r.2) :: out)
  else Eff.pure out

/-- Normalised code points cut into words: `cur` holds the current word, newest first, `len` its UTF-8 length. -/
def cutWords (breaks : List Nat) (max_ : Nat) : List (Nat × Nat) → Nat → List (Nat × Nat) → List (List Nat)
  | cur, _, [] => if cur.isEmpty then [] else [(cur.map (·.1)).reverse]
  | cur, len, x :: l =>
    let n := (utfBytes x.1).length
    let split := match cur with
      | [] => false
      | y :: _ => bit (breaks.getD y.2 0) x.2 || decide (max_ < len + n)
    if split then (cur.map (·.1)).reverse :: cutWords breaks max_ [x] n l else cutWords breaks max_ (x :: cur) (len + n) l

def Vocab.words (v : Vocab) (p : Nat) (cps : List Nat) : Eff (List (List Nat)) :=
  (v.normal p cps).bind fun l => (Eff.read p v.norm 32).bind fun b => (Eff.load p (v.norm + 0x20) 2).bind fun m =>
  Eff.pure (cutWords (chunkBytes 2 16 b) m [] 0 l)

/-! ### BPE and unigram (R435, R436) -/

/-- The tokens of a code point that is no piece. -/
def Vocab.unknown (v : Vocab) (c : Nat) : List Nat :=
  if v.byteFallback then (utfBytes c).map fun b => v.byteBase + b.toNat else [v.unk]

/-- A word's initial symbols. -/
def Vocab.symbols (v : Vocab) (p : Nat) (word : List Nat) : Eff (List Nat) :=
  if v.initBytes then
    Eff.map (fun (b : Byte) => (Eff.load p (v.byteTok + 4 * b.toNat) 4).bind fun t =>
      (tableOk (decide (t < v.tokens)) 7 v.n b.toNat).bind fun _ => Eff.pure t) (word.flatMap utfBytes)
  else
    (Eff.map (fun c => (v.lookup p (utfBytes c)).bind fun t => Eff.pure (match t with
      | some t => [t]
      | none => v.unknown c)) word).bind fun l => Eff.pure l.flatten

/-- The pair to merge next: place, rank and result. -/
def Vocab.bestPair (v : Vocab) (p : Nat) : Nat → List Nat → Option (Nat × Nat × Nat) → Eff (Option (Nat × Nat × Nat))
  | _, [], best => Eff.pure best
  | _, [_], best => Eff.pure best
  | i, a :: b :: l, best =>
    (v.mergeOf p a b).bind fun m =>
    v.bestPair p (i + 1) (b :: l) (match m, best with
      | none, x => x
      | some (r, t), none => some (i, r, t)
      | some (r, t), some x => if r < x.2.1 then some (i, r, t) else some x)

/-- Merges made until no pair is found; each shortens the word. -/
def Vocab.merges (v : Vocab) (p : Nat) : Nat → List Nat → Eff (List Nat)
  | 0, l => Eff.pure l
  | n + 1, l =>
    (v.bestPair p 0 l none).bind fun m => match m with
      | none => Eff.pure l
      | some (i, _, t) => v.merges p n (l.take i ++ t :: l.drop (i + 2))

/-- Best path to position `e`: candidates from each start, best first seen; `best` holds positions 0 to e − 1: score, start
and tokens. -/
def Vocab.pathTo (v : Vocab) (p : Nat) (word : List Nat) (best : List (Nat × Nat × List Nat)) (e : Nat) :
    List Nat → Option (Nat × Nat × List Nat) → Eff (Option (Nat × Nat × List Nat))
  | [], x => Eff.pure x
  | s :: l, x =>
    let from_ := (best.getD s (0, 0, [])).1
    let cand := fun (score : Nat) (ts : List Nat) => match x with
      | none => some (score, s, ts)
      | some y => if (f32 score).le (f32 y.1) then some y else some (score, s, ts)
    (v.lookup p (((word.drop s).take (e - s)).flatMap utfBytes)).bind fun t => match t with
      | some t =>
        (Eff.load p (v.scores + 4 * t) 4).bind fun sc => (tableOk (ffinite sc) 6 v.n t).bind fun _ =>
        v.pathTo p word best e l (cand (fadd from_ sc) [t])
      | none =>
        v.pathTo p word best e l (if e - s = 1 then cand (fadd from_ v.unkScore) (v.unknown (word.getD s 0)) else x)

/-- Best paths to positions `e` upwards. -/
def Vocab.paths (v : Vocab) (p : Nat) (word : List Nat) : Nat → Nat → List (Nat × Nat × List Nat) →
    Eff (List (Nat × Nat × List Nat))
  | 0, _, best => Eff.pure best
  | n + 1, e, best =>
    (v.pathTo p word best e ((List.range e).drop (e - v.maxLen)) none).bind fun x =>
    v.paths p word n (e + 1) (best ++ [x.getD (0, e - 1, [])])

/-- Tokens read back from position `e`. -/
def readBack (best : List (Nat × Nat × List Nat)) : Nat → Nat → List Nat
  | 0, _ => []
  | n + 1, e => if e = 0 then [] else let x := best.getD e (0, 0, []); readBack best n x.2.1 ++ x.2.2

/-- The tokens of a word, and whether UNK was produced. -/
def Vocab.wordTokens (v : Vocab) (p : Nat) (word : List Nat) : Eff (List Nat × Bool) :=
  if v.unigram then
    (v.paths p word word.length 1 [(0, 0, [])]).bind fun best =>
    let l := readBack best word.length word.length
    Eff.pure (l, l.contains v.unk)
  else
    (v.symbols p word).bind fun l => (v.merges p l.length l).bind fun m => Eff.pure (m, l.contains v.unk)

/-! ### `tok.encode` (R431, R432, R437, R438) -/

/-- The limit of R437: whether it cut, and the tokens. -/
def limitTokens (l h marker : Nat) (t : List Nat) : Bool × List Nat :=
  if t.length ≤ l then (false, t) else (true, t.take h ++ marker :: t.drop (t.length - (l - h - 1)))

/-- A 16-byte result record, if the command asks for one. -/
def laneResult (c : Cmd) (w0 w1 : Nat) : Eff Unit :=
  if c.addr 6 = 0 then Eff.pure () else Eff.write c.part (c.addr 6) (leBytes 8 w0 ++ leBytes 8 w1)

/-- `tok.encode` on a lane. -/
def encodeText (c : Cmd) (v : Vocab) : Eff Unit :=
  let p := c.part
  let len := bits (c.word 3) 31 0
  (Eff.read p (c.addr 2) (min len 1048576)).bind fun b =>
  let units := utfUnits b.length b
  let cut := decide (1048576 < len)
  let units := if cut then units.filter fun u => !u.cut else units
  let consumed := (units.map (·.len)).sum
  let replaced := units.any fun u => u.cp.isNone
  (v.words p (units.map fun u => u.cp.getD 0xFFFD)).bind fun ws =>
  (Eff.map (v.wordTokens p) ws).bind fun ts =>
  let body := (ts.map (·.1)).flatten
  let unk := ts.any (·.2)
  let t := (if bit (c.word 1) 4 then [v.bos] else []) ++ body ++ (if bit (c.word 1) 5 then [v.eos] else [])
  let r := limitTokens (bits (c.word 5) 15 0) (bits (c.word 5) 31 16) v.marker t
  (Eff.write p (c.addr 4) (r.2.flatMap (leBytes 4))).bind fun _ =>
  (laneResult c (r.2.length + 2 ^ 16 * t.length + 2 ^ 48 * ofBool cut + 2 ^ 49 * ofBool r.1 + 2 ^ 50 * ofBool replaced +
    2 ^ 51 * ofBool unk) consumed).bind fun _ =>
  Eff.modify fun s =>
    let s := (s.incReg R.TOK_BYTES_IN_COUNT 0 0 consumed).incReg R.TOK_TOKENS_OUT_COUNT 0 0 r.2.length
    let s := s.incReg R.TOK_INPUT_CUT_COUNT 0 0 (ofBool cut)
    (s.incReg R.TOK_TOKENS_CUT_COUNT 0 0 (ofBool r.1)).incReg R.TOK_REPLACED_COUNT 0 0 (ofBool replaced)

/-- `tok.encode`. -/
def execTokEncode (dt id : Nat) (s : State) : Host.Outcome State Fault Refusal :=
  .next ((s.elapse dt).runEngine id 0x70 fun c s =>
    match s.vocab (bits (c.word 1) 2 0) with
    | some v => encodeText c v s
    | none => (.error { status := 0x14 }, s))

/-! ### Detokenizing (R439, R440) -/

/-- A run of bytes that a token adds to the text, with the place, in the holdback and the piece, of its first byte. -/
structure TextRun where
  bytes : List Byte
  at_ : Nat
  bad : Bool := false
  deriving DecidableEq, Repr

/-- The characters of decoded units from place `at_`, and how many bytes are held at the end. -/
def Vocab.runs (v : Vocab) : Nat → List Utf → List TextRun × Nat
  | _, [] => ([], 0)
  | at_, u :: l =>
    if u.cut then ([], u.len) else
    let r := v.runs (at_ + u.len) l
    let run := match u.cp with
      | some c => ⟨if v.spaceMark ∧ c = 0x2581 then [0x20#8] else utfBytes c, at_, false⟩
      | none => ⟨utfBad, at_, true⟩
    (run :: r.1, r.2)

/-- The runs a token adds, the new holdback, and the bytes of its piece that it used. -/
def Vocab.tokenRuns (v : Vocab) (p : Nat) (emit : Bool) (hold : List Byte) (t : Nat) :
    Eff (List TextRun × List Byte × Nat) :=
  (v.attrOf p t).bind fun special =>
  if special && !emit then Eff.pure ([], hold, 0) else
  (v.piece p t).bind fun b =>
  if special then
    Eff.pure ((if hold.isEmpty then [] else [⟨utfBad, 0, true⟩]) ++ (if b.isEmpty then [] else [⟨b, hold.length, false⟩]), [], 0)
  else
    let all := hold ++ b
    let r := v.runs 0 (utfUnits all.length all)
    Eff.pure (r.1, all.drop (all.length - r.2), b.length)

/-- STRIP_LEAD on the runs of a sequence: the first byte that the sequence writes is dropped if it is a space; and whether
the sequence has come to its first byte. -/
def Vocab.strip (v : Vocab) (led : Bool) (l : List TextRun) : Bool × List TextRun :=
  if led then (true, l)
  else match l with
    | [] => (false, [])
    | r :: rs => (true, if v.stripLead ∧ r.bytes.head? = some 0x20#8 then { r with bytes := r.bytes.drop 1 } :: rs else l)

/-- A `tok.decode` under way: the bytes written, the holdback with the place of each byte's token, the flags. -/
structure Decoding where
  out : List Byte := []
  hold : List (Byte × Nat) := []
  led : Bool := false
  replaced : Bool := false
  badToken : Bool := false
  /-- The text is full; tokens whose text was wholly written. -/
  full : Option Nat := none
  deriving DecidableEq, Repr

/-- Runs of token `i` written up to the size. -/
def Decoding.put (d : Decoding) (size i : Nat) (owners : List Nat) : List TextRun → Decoding
  | [] => d
  | r :: l =>
    if size < d.out.length + r.bytes.length then { d with full := some (owners.getD r.at_ i) }
    else ({ d with out := d.out ++ r.bytes, replaced := d.replaced || r.bad }).put size i owners l

/-- Tokens `i` upwards into text. -/
def Vocab.decodeTokens (v : Vocab) (p size : Nat) (emit : Bool) : Nat → List Nat → Decoding → Eff Decoding
  | i, [], d =>
    if d.full.isSome ∨ d.hold.isEmpty then Eff.pure d else
    let r := v.strip d.led [⟨utfBad, 0, true⟩]
    let e : Decoding := { d with led := r.1 }
    Eff.pure (e.put size i (d.hold.map fun h => h.2) r.2)
  | i, t :: l, d =>
    if d.full.isSome then Eff.pure d
    else if v.tokens ≤ t then v.decodeTokens p size emit (i + 1) l { d with badToken := true }
    else
      (v.tokenRuns p emit (d.hold.map fun (h : Byte × Nat) => h.1) t).bind fun x =>
      let r := v.strip d.led x.1
      let owners := d.hold.map fun h => h.2
      let e : Decoding := { d with led := r.1 }
      let keep := x.2.1.length
      let all := owners ++ List.replicate x.2.2 i
      let own := x.2.1.zip (all.drop (all.length - keep))
      v.decodeTokens p size emit (i + 1) l { e.put size i owners r.2 with hold := own }

/-- `tok.decode` on a lane. -/
def decodeText (c : Cmd) (v : Vocab) : Eff Unit :=
  let p := c.part
  let n := bits (c.word 3) 23 0
  (Eff.read p (c.addr 2) (4 * n)).bind fun b =>
  (v.decodeTokens p (bits (c.word 5) 31 0) (bit (c.word 1) 4) 0 (chunkBytes 4 n b) {}).bind fun d =>
  (Eff.write p (c.addr 4) d.out).bind fun _ =>
  (laneResult c (d.out.length + 2 ^ 48 * ofBool d.full.isSome + 2 ^ 49 * ofBool d.badToken + 2 ^ 50 * ofBool d.replaced)
    (d.full.getD n)).bind fun _ =>
  Eff.modify fun s => s.incReg R.TOK_REPLACED_COUNT 0 0 (ofBool d.replaced)

/-- `tok.decode`. -/
def execTokDecode (dt id : Nat) (s : State) : Host.Outcome State Fault Refusal :=
  .next ((s.elapse dt).runEngine id 0x71 fun c s =>
    match s.vocab (bits (c.word 1) 2 0) with
    | some v => decodeText c v s
    | none => (.error { status := 0x14 }, s))

/-! ### Slots (R443 to R447) -/

def State.slotOf (s : State) (n : Nat) : Slot := Sparse.get {} s.slots n
def State.setSlot (s : State) (n : Nat) (x : Slot) : State := { s with slots := Sparse.put {} s.slots n x }

/-- Whether partition `p` has slot `n` (R443). -/
def State.ownSlot (s : State) (p n : Nat) : Bool :=
  decide (s.reg R.TOK_SLOT_RANGE_FIRST p ≤ n ∧ n < s.reg R.TOK_SLOT_RANGE_FIRST p + s.reg R.TOK_SLOT_RANGE_COUNT p)

/-- ACTIVE and not FINISHED. -/
def Slot.live (x : Slot) : Bool := x.active && !x.finished

/-- A result code to RESULT, if it is given. -/
def slotResult (c : Cmd) (i code : Nat) : Eff Unit :=
  if c.addr i = 0 then Eff.pure () else Eff.write c.part (c.addr i) (leBytes 8 code)

/-- A `tok.slot` of one action. -/
def State.runSlot (s : State) (id action : Nat) (f : Cmd → Nat → Eff Unit) : State :=
  match s.engine id 0x72 with
  | some c =>
    if bits (c.word 1) 10 8 = action then s.runEngine id 0x72 fun c => f c (bits (c.word 1) 6 0) else s
  | none => s

/-- `tok.slot` OPEN. -/
def execSlotOpen (dt id : Nat) (s : State) : Host.Outcome State Fault Refusal :=
  .next ((s.elapse dt).runSlot id 0 fun c n => Eff.get.bind fun s =>
    let x := s.slotOf n
    let w := c.word 1
    if x.active then slotResult c 4 1 else
    (Eff.modify fun s => s.setSlot n
      { active := true, vocab := bits w 14 12, grammar := bits w 22 16, state := bits w 47 32, maxNew := bits w 63 48
        emitSpecial := bit w 15, out := c.addr 2, outSize := bits (c.word 3) 31 0, epoch := (x.epoch + 1) % 65536 }).bind
      fun _ => slotResult c 4 0)

/-- The holdback flushed at the end of a slot's sequence, where it fits: the bytes, and the slot after it (R439, R446). -/
def Slot.flush (x : Slot) : List Byte × Slot :=
  let y := { x with hold := [], led := x.led || !x.hold.isEmpty }
  if x.hold.isEmpty ∨ x.outSize < x.used + 3 then ([], y)
  else (utfBad, { y with used := x.used + 3 })

/-- `tok.slot` CLOSE. -/
def execSlotClose (dt id : Nat) (s : State) : Host.Outcome State Fault Refusal :=
  .next ((s.elapse dt).runSlot id 1 fun c n => Eff.get.bind fun s =>
    let x := s.slotOf n
    if x.active = false then slotResult c 4 2 else
    let r := if x.finished then ([], x) else x.flush
    (if r.1.isEmpty then Eff.pure () else Eff.write c.part (x.out + x.used) r.1).bind fun _ =>
    (Eff.modify fun s => s.setSlot n { r.2 with active := false }).bind fun _ => slotResult c 4 0)

/-- `tok.list`. -/
def execTokList (dt id : Nat) (s : State) : Host.Outcome State Fault Refusal :=
  .next ((s.elapse dt).runEngine id 0x73 fun c => Eff.get.bind fun s =>
    let l := (List.range 128).filter fun n => s.ownSlot c.part n && (s.slotOf n).live
    (Eff.write c.part (c.addr 1) (l.flatMap fun n => leBytes 4 (n + 2 ^ 16 * (s.slotOf n).epoch))).bind fun _ =>
    slotResult c 2 l.length)

/-! ### Grammars (R442, Table 12.11) -/

/-- A state's mask, DEFAULT, FIRST and COUNT. -/
def Grammar.stateOf (g : Grammar) (p i : Nat) : Eff (Nat × Nat × Nat × Nat) :=
  (Eff.load p (g.stateTab + 16 * i) 8).bind fun w0 => (Eff.load p (g.stateTab + 16 * i + 8) 8).bind fun w1 =>
  let m := bits w0 19 0
  let first := bits w1 31 0
  let n := bits w1 47 32
  (tableOk (bits w0 31 20 == 0 && bits w0 63 48 == 0 && bits w1 63 48 == 0 &&
    decide ((m < g.maskCount ∨ m = 0xFFFFF) ∧ bits w0 47 32 < g.states ∧ first + n ≤ g.transCount)) 8 g.n i).bind fun _ =>
  Eff.pure (m, bits w0 47 32, first, n)

/-- MB: bytes of a mask. -/
def maskBytes (tokens : Nat) : Nat := ceilDiv tokens 512 * 64

/-- The allowed set of a mask of the dictionary as bits. -/
def Grammar.maskOf (g : Grammar) (v : Vocab) (p m : Nat) : Eff Nat :=
  if m = 0xFFFFF then Eff.pure (2 ^ v.tokens - 1) else
  (Eff.load p (g.masks + maskBytes v.tokens * m) (maskBytes v.tokens)).bind fun x =>
  (tableOk (decide (x < 2 ^ v.tokens)) 10 g.n m).bind fun _ => Eff.pure x

/-- The next state for a token, by binary search of transitions [lo, hi) of which `n` halvings remain; `above` and `below`
are the ranges found around. -/
def Grammar.search (g : Grammar) (v : Vocab) (p t dflt : Nat) : Nat → Nat → Nat → Nat → Nat → Eff Nat
  | 0, _, _, _, _ => Eff.pure dflt
  | n + 1, lo, hi, above, below =>
    if hi ≤ lo then Eff.pure dflt else
    let m := (lo + hi) / 2
    (Eff.load p (g.trans + 8 * m) 8).bind fun w =>
    let a := bits w 17 0
    let b := bits w 35 18
    (tableOk (bits w 63 52 == 0 &&
      decide (a ≤ b ∧ b < v.tokens ∧ bits w 51 36 < g.states ∧ above ≤ a ∧ b < below)) 9 g.n m).bind fun _ =>
    if t < a then g.search v p t dflt n lo m above a
    else if b < t then g.search v p t dflt n (m + 1) hi (b + 1) below
    else Eff.pure (bits w 51 36)

/-- A slot's vocabulary and grammar. -/
def State.slotTables (s : State) (x : Slot) : Option (Vocab × Option Grammar) :=
  (s.vocab x.vocab).map fun v => (v, s.grammar x.grammar)

/-! ### List entries (R448) -/

/-- The list entries of a command: slot and epoch. -/
def listEntries (p a n : Nat) : Eff (List Nat) := (Eff.read p a (4 * n)).bind fun b => Eff.pure (chunkBytes 4 n b)

/-- An entry is stale. -/
def State.stale (s : State) (e : Nat) : Bool :=
  let x := s.slotOf (e % 128)
  !x.active || x.epoch != e / 2 ^ 16

/-- The check of a whole list before any write. -/
def State.listOk (s : State) (p : Nat) (l : List Nat) : Bool :=
  (l.all fun e => bits e 15 7 == 0 && s.ownSlot p (e % 128)) && (l.map (· % 128)).Nodup

/-! ### `tok.mask` (R449) -/

/-- Runs of set bits among `n` columns of a set, from column `i`: first column and columns. -/
def columnRuns (test : Nat → Bool) : Nat → Nat → Option (Nat × Nat) → List (Nat × Nat)
  | 0, _, cur => cur.toList
  | n + 1, i, cur =>
    if test i then columnRuns test n (i + 1) (some (match cur with
      | some (a, k) => (a, k + 1)
      | none => (i, 1)))
    else cur.toList ++ columnRuns test n (i + 1) none

/-- Number of set bits among the first `n`. -/
def popCount (x : Nat) : Nat → Nat
  | 0 => 0
  | n + 1 => ofBool (x.testBit n) + popCount x n

/-- Row `i` of `tok.mask`, of entry `e`: its MRESULT entry. -/
def maskRow (c : Cmd) (e i : Nat) : Eff Nat := Eff.get.bind fun s =>
  let x := s.slotOf (e % 128)
  let w3 := c.word 3
  let n := bits w3 18 0
  let ty := bits w3 23 20
  let size := typeBytes ty 1
  let row := c.addr 1 + i * bits (c.word 2) 39 0
  let ninf := (typeFmt ty).round false (.inf true)
  let clear := fun (test : Nat → Bool) => Eff.each (fun (r : Nat × Nat) =>
    Eff.write c.part (row + size * r.1) ((List.replicate r.2 (leBytes size ninf)).flatten)) (columnRuns test n 0 none)
  if s.stale e then (Eff.modify fun s => s.incReg R.TOK_STALE_COUNT).bind fun _ => Eff.pure (2 ^ 24)
  else if x.finished then Eff.pure (2 ^ 25)
  else match s.slotTables x with
    | none => Eff.pure 0
    | some (v, none) => (clear fun t => decide (v.tokens ≤ t)).bind fun _ => Eff.pure v.tokens
    | some (v, some g) =>
      (g.stateOf c.part x.state).bind fun st => (g.maskOf v c.part st.1).bind fun m =>
      if m = 0 then
        (clear fun t => t != v.eos).bind fun _ =>
        (Eff.write c.part (row + size * v.eos) (leBytes size 0)).bind fun _ =>
        (Eff.modify fun s => s.incReg R.TOK_DEAD_COUNT).bind fun _ => Eff.pure (2 ^ 26)
      else (clear fun t => !m.testBit t).bind fun _ => Eff.pure (popCount m v.tokens)

/-- `tok.mask` on the slot unit. -/
def maskRows (c : Cmd) : Eff Unit :=
  let n := bits (c.word 3) 39 32
  (listEntries c.part (c.addr 4) n).bind fun l => Eff.get.bind fun s =>
  let wide := l.all fun e => s.stale e || !(s.slotOf (e % 128)).live ||
    decide (((s.vocab (s.slotOf (e % 128)).vocab).map (·.tokens)).getD 0 ≤ bits (c.word 3) 18 0)
  if s.listOk c.part l = false ∨ wide = false then Eff.fail 0x14 0 else
  Eff.each (fun (x : Nat × Nat) => (maskRow c x.1 x.2).bind fun r =>
    if c.addr 5 = 0 then Eff.pure () else Eff.write c.part (c.addr 5 + 4 * x.2) (leBytes 4 r)) (l.zip (List.range n))

/-- `tok.mask`. -/
def execTokMask (dt id : Nat) (s : State) : Host.Outcome State Fault Refusal :=
  .next ((s.elapse dt).runEngine id 0x74 maskRows)

/-! ### `tok.step` (R450, R451) -/

/-- A step record (Table 12.12). -/
def stepRecord (token flags reason count offset n : Nat) : List Byte :=
  leBytes 8 (token + 2 ^ 24 * flags + 2 ^ 32 * reason + 2 ^ 48 * count) ++ leBytes 8 (offset + 2 ^ 32 * n)

/-- A pick of PFMT 0 or 1: the chosen index, or empty. -/
def pickOf (fmt : Bool) (w : Nat) : Option Nat :=
  if fmt then
    let v := bits w 31 0
    if (f32 v).isNan ∨ v = 0xFF800000 then none else some (bits w 63 32)
  else if bit w 48 then none else some (bits w 31 0)

/-- The slot finishes: the holdback is flushed where it fits. -/
def Slot.finish (x : Slot) (reason : Nat) : List Byte × Slot :=
  let r := x.flush
  (r.1, { r.2 with finished := true, reason := reason })

/-- The allowed set in the slot's state, or every token without a grammar. -/
def slotAllowed (p : Nat) (v : Vocab) (g : Option Grammar) (state : Nat) : Eff Nat :=
  match g with
  | none => Eff.pure (2 ^ v.tokens - 1)
  | some g => (g.stateOf p state).bind fun st => g.maskOf v p st.1

/-- A token taken into a slot: the token, the bytes it writes and the slot after it.  A dead state gives DEAD whatever the pick
(R456); otherwise the order is that of R450. -/
def takeToken (p : Nat) (v : Vocab) (g : Option Grammar) (x : Slot) (pick : Option Nat) : Eff (Nat × List Byte × Slot) :=
  (slotAllowed p v g x.state).bind fun m =>
  let r : Nat × Nat :=
    if m = 0 then (v.eos, 3)
    else match pick with
      | none => (v.eos, 4)
      | some t => if v.tokens ≤ t then (v.eos, 7) else if m.testBit t then (t, 0) else (v.eos, 5)
  (Eff.modify fun s =>
    let s := if r.2 = 0 then s else s.incReg R.TOK_FORCED_COUNT
    if r.2 = 5 then s.incReg R.TOK_VIOLATION_COUNT else s).bind fun _ =>
  let x := { x with count := (x.count + 1) % 65536 }
  let t := r.1
  if t = v.eos then
    let f := x.finish (if r.2 = 0 then 1 else r.2)
    Eff.pure (t, f.1, f.2)
  else
    (v.tokenRuns p x.emitSpecial x.hold t).bind fun runs =>
    let st := v.strip x.led runs.1
    let text := st.2.flatMap fun (r : TextRun) => r.bytes
    if x.outSize < x.used + text.length then
      Eff.pure (t, [], { x with hold := [], finished := true, reason := 6 })
    else
      (match g with
        | none => Eff.pure x.state
        | some g => (g.stateOf p x.state).bind fun q => g.search v p t q.2.1 17 q.2.2.1 (q.2.2.1 + q.2.2.2) 0 v.tokens).bind
      fun next =>
      let y := { x with hold := runs.2.1, led := st.1, used := x.used + text.length, state := next }
      if y.count = y.maxNew then
        let f := y.finish 2
        Eff.pure (t, text ++ f.1, f.2)
      else Eff.pure (t, text, y)

/-- Entry `e` of `tok.step`, with its pick: its step record. -/
def stepEntry (c : Cmd) (e pick : Nat) : Eff (List Byte) := Eff.get.bind fun s =>
  let x := s.slotOf (e % 128)
  let sout := c.addr 4 != 0
  let accept := fun (v : Vocab) (g : Option Grammar) (state : Nat) =>
    if sout && g.isSome then (slotAllowed c.part v g state).bind fun m => Eff.pure (m.testBit v.eos) else Eff.pure g.isNone
  if s.stale e then
    (Eff.modify fun s => s.incReg R.TOK_STALE_COUNT).bind fun _ => Eff.pure (stepRecord 0 1 0 0 0 0)
  else match s.slotTables x with
    | none => Eff.pure (stepRecord 0 2 0 x.count x.used 0)
    | some (v, g) =>
      if x.finished then
        (accept v g x.state).bind fun acc =>
        Eff.pure (stepRecord 0 (2 + 8 * ofBool (acc || x.reason == 1)) 0 x.count x.used 0)
      else
        (takeToken c.part v g x (pickOf (bit (c.word 3) 8) pick)).bind fun r =>
        let y := r.2.2
        (if r.2.1.isEmpty then Eff.pure () else Eff.write c.part (x.out + x.used) r.2.1).bind fun _ =>
        (Eff.modify fun s => s.setSlot (e % 128) y).bind fun _ =>
        (accept v g y.state).bind fun acc =>
        Eff.pure (stepRecord r.1 (4 * ofBool y.finished + 8 * ofBool (acc || (y.finished && y.reason == 1)) +
          16 * ofBool (!y.hold.isEmpty)) y.reason y.count x.used r.2.1.length)

/-- `tok.step` on the slot unit. -/
def stepSlots (c : Cmd) : Eff Unit :=
  let n := bits (c.word 3) 7 0
  (listEntries c.part (c.addr 2) n).bind fun l => Eff.get.bind fun s =>
  if s.listOk c.part l = false then Eff.fail 0x14 0 else
  Eff.each (fun (x : Nat × Nat) =>
    (Eff.load c.part (c.addr 1 + 8 * x.2) 8).bind fun pick => (stepEntry c x.1 pick).bind fun r =>
    if c.addr 4 = 0 then Eff.pure () else Eff.write c.part (c.addr 4 + 16 * x.2) r) (l.zip (List.range n))

/-- `tok.step`. -/
def execTokStep (dt id : Nat) (s : State) : Host.Outcome State Fault Refusal :=
  .next ((s.elapse dt).runEngine id 0x75 stepSlots)

/-! ### Fetch checks -/

/-- What the fetch checks ask of a TOKEN command. -/
def State.tokInfo (s : State) (p op : Nat) (words : List Nat) : Option OpInfo :=
  let w := fun i => words.getD i 0
  let a := fun i => bits (w i) 47 0
  let opt := fun (i n : Nat) => (i, a i, if a i = 0 then 0 else n, true)
  match op with
  | 0x70 =>
    let l := bits (w 5) 15 0
    let v := s.vocabFor p (bits (w 1) 2 0)
    some { masks := [0x37, mAddr, mLow, mAddr, mLow, mAddr]
           limits := [(1, match v with | some v => !bit (w 1) 4 || v.bos != noToken | none => false), (4, a 4 % 4 == 0),
                      (5, decide (1 ≤ l ∧ l ≤ 32768 ∧ bits (w 5) 31 16 < l)), (6, a 6 % 8 == 0)]
           ranges := [(2, a 2, min (bits (w 3) 31 0) 1048576, false), (4, a 4, 4 * l, true), opt 6 16] }
  | 0x71 =>
    some { masks := [0x17, mAddr, 0xFFFFFF, mAddr, mLow, mAddr]
           limits := [(1, (s.vocabFor p (bits (w 1) 2 0)).isSome), (2, a 2 % 4 == 0), (6, a 6 % 8 == 0)]
           ranges := [(2, a 2, 4 * bits (w 3) 23 0, false), (4, a 4, bits (w 5) 31 0, true), opt 6 16] }
  | 0x72 =>
    let act := bits (w 1) 10 8
    let own := s.ownSlot p (bits (w 1) 6 0)
    if act = 1 then
      some { masks := [0x77F, 0, 0, mAddr], limits := [(1, own), (4, a 4 % 8 == 0)], ranges := [opt 4 8] }
    else
      let v := bits (w 1) 14 12
      let g := bits (w 1) 22 16
      let size := bits (w 3) 31 0
      let new := bits (w 1) 63 48
      let gOk := g == 0x7F || (match s.grammarFor p g with
        | some x => x.vocab == v && decide (bits (w 1) 47 32 < x.states)
        | none => false)
      some { masks := [0xFFFFFFFF007FF77F, mAddr, mLow, mAddr]
             limits := [(1, act == 0 && own && (s.vocabFor p v).isSome && gOk && decide (1 ≤ new ∧ new ≤ 32768)),
                        (3, decide (1 ≤ size ∧ size ≤ 16777216)), (4, a 4 % 8 == 0)]
             ranges := [(2, a 2, size, true), opt 4 8] }
  | 0x73 =>
    some { masks := [mAddr, mAddr], limits := [(1, a 1 % 4 == 0), (2, a 2 % 8 == 0)]
           ranges := [(1, a 1, 4 * s.reg R.TOK_SLOT_RANGE_COUNT p, true), opt 2 8] }
  | 0x74 =>
    let n := bits (w 3) 18 0
    let ty := bits (w 3) 23 20
    let k := bits (w 3) 39 32
    let size := typeBytes ty 1
    let pitch := bits (w 2) 39 0
    some { masks := [mAddr, 2 ^ 40 - 1, 0xFF00F7FFFF, mAddr, mAddr]
           limits := [(2, pitch % size == 0), (3, decide (1 ≤ n ∧ n ≤ 262144 ∧ 7 ≤ ty ∧ ty ≤ 9 ∧ k ≤ 128)), (5, a 5 % 4 == 0)]
           ranges := [(1, a 1, rowSpan k pitch (size * n), true), (4, a 4, 4 * k, false), opt 5 (4 * k)] }
  | 0x75 =>
    let k := bits (w 3) 7 0
    some { masks := [mAddr, mAddr, 0x1FF, mAddr], limits := [(1, a 1 % 8 == 0), (3, decide (k ≤ 128)), (4, a 4 % 8 == 0)]
           ranges := [(1, a 1, 8 * k, false), (2, a 2, 4 * k, false), opt 4 (16 * k)] }
  | _ => none

end Sys2Proof.Machine
end

