-- ==== Sys2Proof/Machine/Crypto.lean ====
section
/-!
DEFINITION. The published algorithms the spec names: SHA-384, AES-256 in GCM, ECDSA over P-384, and CTR_DRBG over AES-256
(R88 to R90, R404, R702).  PRESUMED: FIPS 180-4, FIPS 197, SP 800-38D, FIPS 186-4 and SP 800-90A, as the spec names them.
-/

namespace Sys2Proof.Machine

open Sys2Proof

/-! ### SHA-384 -/

/-- SHA-512 round constants 0 to 15 (FIPS 180-4). -/
def sha512K0 : List Nat :=
  [0x428A2F98D728AE22, 0x7137449123EF65CD, 0xB5C0FBCFEC4D3B2F, 0xE9B5DBA58189DBBC, 0x3956C25BF348B538,
   0x59F111F1B605D019, 0x923F82A4AF194F9B, 0xAB1C5ED5DA6D8118, 0xD807AA98A3030242, 0x12835B0145706FBE,
   0x243185BE4EE4B28C, 0x550C7DC3D5FFB4E2, 0x72BE5D74F27B896F, 0x80DEB1FE3B1696B1, 0x9BDC06A725C71235,
   0xC19BF174CF692694]
/-- SHA-512 round constants 16 to 31 (FIPS 180-4). -/
def sha512K1 : List Nat :=
  [0xE49B69C19EF14AD2, 0xEFBE4786384F25E3, 0x0FC19DC68B8CD5B5, 0x240CA1CC77AC9C65, 0x2DE92C6F592B0275,
   0x4A7484AA6EA6E483, 0x5CB0A9DCBD41FBD4, 0x76F988DA831153B5, 0x983E5152EE66DFAB, 0xA831C66D2DB43210,
   0xB00327C898FB213F, 0xBF597FC7BEEF0EE4, 0xC6E00BF33DA88FC2, 0xD5A79147930AA725, 0x06CA6351E003826F,
   0x142929670A0E6E70]
/-- SHA-512 round constants 32 to 47 (FIPS 180-4). -/
def sha512K2 : List Nat :=
  [0x27B70A8546D22FFC, 0x2E1B21385C26C926, 0x4D2C6DFC5AC42AED, 0x53380D139D95B3DF, 0x650A73548BAF63DE,
   0x766A0ABB3C77B2A8, 0x81C2C92E47EDAEE6, 0x92722C851482353B, 0xA2BFE8A14CF10364, 0xA81A664BBC423001,
   0xC24B8B70D0F89791, 0xC76C51A30654BE30, 0xD192E819D6EF5218, 0xD69906245565A910, 0xF40E35855771202A,
   0x106AA07032BBD1B8]
/-- SHA-512 round constants 48 to 63 (FIPS 180-4). -/
def sha512K3 : List Nat :=
  [0x19A4C116B8D2D0C8, 0x1E376C085141AB53, 0x2748774CDF8EEB99, 0x34B0BCB5E19B48A8, 0x391C0CB3C5C95A63,
   0x4ED8AA4AE3418ACB, 0x5B9CCA4F7763E373, 0x682E6FF3D6B2B8A3, 0x748F82EE5DEFB2FC, 0x78A5636F43172F60,
   0x84C87814A1F0AB72, 0x8CC702081A6439EC, 0x90BEFFFA23631E28, 0xA4506CEBDE82BDE9, 0xBEF9A3F7B2C67915,
   0xC67178F2E372532B]
/-- SHA-512 round constants 64 to 79 (FIPS 180-4). -/
def sha512K4 : List Nat :=
  [0xCA273ECEEA26619C, 0xD186B8C721C0C207, 0xEADA7DD6CDE0EB1E, 0xF57D4F7FEE6ED178, 0x06F067AA72176FBA,
   0x0A637DC5A2C898A6, 0x113F9804BEF90DAE, 0x1B710B35131C471B, 0x28DB77F523047D84, 0x32CAAB7B40C72493,
   0x3C9EBE0A15C9BEBC, 0x431D67C49C100D4C, 0x4CC5D4BECB3E42B6, 0x597F299CFC657E2A, 0x5FCB6FAB3AD6FAEC,
   0x6C44198C4A475817]

def sha512K : List Nat := sha512K0 ++ sha512K1 ++ sha512K2 ++ sha512K3 ++ sha512K4

/-- Initial hash value of SHA-384. -/
def sha384IV : List Nat :=
  [0xCBBB9D5DC1059ED8, 0x629A292A367CD507, 0x9159015A3070DD17, 0x152FECD8F70E5939, 0x67332667FFC00B31,
   0x8EB44A8768581511, 0xDB0C2E0D64F98FA7, 0x47B5481DBEFA4FA4]

/-- `x` rotated right by `n` on 64 bits. -/
def rotr64 (x n : Nat) : Nat := (x >>> n) ||| ((x <<< (64 - n)) % 2 ^ 64)

/-- The big-endian value of a byte string. -/
def beNat (bs : List Byte) : Nat := bs.foldl (fun n b => 256 * n + b.toNat) 0

/-- The `n` bytes of `v`, most significant first. -/
def beBytes (n v : Nat) : List Byte := (leBytes n v).reverse

/-- The message schedule: the newest word first, extended `n` times. -/
def shaSchedule : Nat → List Nat → List Nat
  | 0, w => w
  | n + 1, w =>
    let a := w.getD 1 0
    let b := w.getD 14 0
    let s1 := rotr64 a 19 ^^^ rotr64 a 61 ^^^ (a >>> 6)
    let s0 := rotr64 b 1 ^^^ rotr64 b 8 ^^^ (b >>> 7)
    shaSchedule n ((s1 + w.getD 6 0 + s0 + w.getD 15 0) % 2 ^ 64 :: w)

/-- One round on the working variables a to h. -/
def shaRound (v : List Nat) (kw : Nat) : List Nat :=
  match v with
  | [a, b, c, d, e, f, g, h] =>
    let ch := (e &&& f) ^^^ ((2 ^ 64 - 1 - e) &&& g)
    let t1 := h + (rotr64 e 14 ^^^ rotr64 e 18 ^^^ rotr64 e 41) + ch + kw
    let t2 := (rotr64 a 28 ^^^ rotr64 a 34 ^^^ rotr64 a 39) + ((a &&& b) ^^^ (a &&& c) ^^^ (b &&& c))
    [(t1 + t2) % 2 ^ 64, a, b, c, (d + t1) % 2 ^ 64, e, f, g]
  | _ => v

/-- One 128-byte block into the hash. -/
def shaBlock (h : List Nat) (block : List Byte) : List Nat :=
  let w := (List.range 16).map fun i => beNat ((block.drop (8 * i)).take 8)
  let ws := (shaSchedule 64 w.reverse).reverse
  let v := (sha512K.zip ws).foldl (fun v x => shaRound v (x.1 + x.2)) h
  (h.zip v).map fun x => (x.1 + x.2) % 2 ^ 64

/-- Whole blocks of a padded message, `n` of them. -/
def shaBlocks : Nat → List Nat → List Byte → List Nat
  | 0, h, _ => h
  | n + 1, h, m => shaBlocks n (shaBlock h (m.take 128)) (m.drop 128)

/-- SHA-384 of a byte string: 48 bytes. -/
def sha384 (m : List Byte) : List Byte :=
  let zeros := (2 * 128 - 17 - m.length % 128) % 128
  let p := m ++ 0x80#8 :: List.replicate zeros 0#8 ++ beBytes 16 (8 * m.length)
  ((shaBlocks (p.length / 128) sha384IV p).take 6).flatMap (beBytes 8)

/-! ### AES-256 -/

/-- Product in GF(2^8) modulo x^8 + x^4 + x^3 + x + 1, over `n` bits of `b`. -/
def gfMul : Nat → Nat → Nat → Nat
  | 0, _, _ => 0
  | n + 1, a, b =>
    let a2 := if a < 128 then 2 * a else (2 * a) ^^^ 0x11B
    (if b % 2 = 1 then a else 0) ^^^ gfMul n a2 (b / 2)

/-- Inverse in GF(2^8), as the 254th power; 0 for 0. -/
def gfInv (a : Nat) : Nat :=
  let m := gfMul 8
  let a2 := m a a
  let a4 := m a2 a2
  let a8 := m a4 a4
  let a16 := m a8 a8
  let a32 := m a16 a16
  let a64 := m a32 a32
  let a128 := m a64 a64
  m a128 (m a64 (m a32 (m a16 (m a8 (m a4 a2)))))

/-- The AES substitution of one byte. -/
def aesSub (a : Nat) : Nat :=
  let x := gfInv a
  let r := fun n => ((x <<< n) ||| (x >>> (8 - n))) % 256
  x ^^^ r 1 ^^^ r 2 ^^^ r 3 ^^^ r 4 ^^^ 0x63

/-- The next four key words from the last eight, newest last, at key step `i`. -/
def aesKeyStep (rc : Nat) (odd : Bool) (w : List (List Nat)) : List (List Nat) :=
  let x := fun (a b : List Nat) => (a.zip b).map fun p => p.1 ^^^ p.2
  let last := (w.getD 7 []).map aesSub
  let t := if odd then last else
    match last with
    | [a, b, c, d] => [b ^^^ rc, c, d, a]
    | l => l
  let a := x (w.getD 0 []) t
  let b := x (w.getD 1 []) a
  let c := x (w.getD 2 []) b
  let d := x (w.getD 3 []) c
  [a, b, c, d]

/-- Round keys of AES-256, 16 bytes each, `n` more from the last eight key words. -/
def aesExpand : Nat → Nat → Bool → List (List Nat) → List (List Nat)
  | 0, _, _, _ => []
  | n + 1, rc, odd, w =>
    let k := aesKeyStep rc odd w
    k.flatten :: aesExpand n (if odd then (if rc < 128 then 2 * rc else (2 * rc) ^^^ 0x11B) else rc) (!odd) (w.drop 4 ++ k)

/-- The 15 round keys of a 32-byte key. -/
def aesKeys (key : List Byte) : List (List Nat) :=
  let b := key.map (·.toNat)
  let w := (List.range 8).map fun i => (b.drop (4 * i)).take 4
  b.take 16 :: b.drop 16 :: aesExpand 13 1 false w

/-- Rows shifted: byte i of the result comes from column i/4 + i%4. -/
def aesShift (s : List Nat) : List Nat := (List.range 16).map fun i => s.getD ((i + 4 * (i % 4)) % 16) 0

/-- Columns mixed. -/
def aesMix (s : List Nat) : List Nat :=
  (List.range 16).map fun i =>
    let c := 4 * (i / 4)
    let b := fun k => s.getD (c + (i + k) % 4) 0
    gfMul 8 (b 0) 2 ^^^ gfMul 8 (b 1) 3 ^^^ b 2 ^^^ b 3

def aesAdd (s k : List Nat) : List Nat := (s.zip k).map fun p => p.1 ^^^ p.2

/-- The rounds after the first key. -/
def aesRounds : List (List Nat) → List Nat → List Nat
  | [], s => s
  | [k], s => aesAdd (aesShift (s.map aesSub)) k
  | k :: ks, s => aesRounds ks (aesAdd (aesMix (aesShift (s.map aesSub))) k)

/-- AES-256 of one 16-byte block, given the round keys. -/
def aesBlock (ks : List (List Nat)) (b : List Byte) : List Byte :=
  match ks with
  | [] => b
  | k :: ks => (aesRounds ks (aesAdd (b.map (·.toNat)) k)).map fun n => BitVec.ofNat 8 n

/-! ### GCM -/

/-- Product in GF(2^128) as GHASH has it, over `n` more bits of `x` from its most significant. -/
def ghashMul : Nat → Nat → Nat → Nat
  | 0, _, _ => 0
  | n + 1, x, v =>
    (if x.testBit n then v else 0) ^^^ ghashMul n x (if v % 2 = 1 then (v / 2) ^^^ (0xE1 <<< 120) else v / 2)

/-- GHASH of whole 16-byte blocks, `n` of them. -/
def ghash (h : Nat) : Nat → Nat → List Byte → Nat
  | 0, y, _ => y
  | n + 1, y, m => ghash h n (ghashMul 128 (y ^^^ beNat (m.take 16)) h) (m.drop 16)

/-- A byte string padded with zeros to whole 16-byte blocks. -/
def pad16 (m : List Byte) : List Byte := m ++ List.replicate ((16 - m.length % 16) % 16) 0#8

/-- Counter mode from a counter block value: `n` blocks of key stream. -/
def gcmStream (ks : List (List Nat)) (iv : List Byte) : Nat → Nat → List Byte
  | 0, _ => []
  | n + 1, c => aesBlock ks (iv ++ beBytes 4 c) ++ gcmStream ks iv n (c + 1)

/-- AES-256-GCM with a 12-byte IV: the plaintext, and the 16-byte tag that the ciphertext and the additional data have. -/
def gcmDecrypt (key iv aad ct : List Byte) : List Byte × List Byte :=
  let ks := aesKeys key
  let h := beNat (aesBlock ks (List.replicate 16 0#8))
  let x := fun (a b : List Byte) => (a.zip b).map fun p => p.1 ^^^ p.2
  let pt := x ct (gcmStream ks iv (ceilDiv ct.length 16) 2)
  let m := pad16 aad ++ pad16 ct ++ beBytes 8 (8 * aad.length) ++ beBytes 8 (8 * ct.length)
  (pt, x (beBytes 16 (ghash h (m.length / 16) 0 m)) (aesBlock ks (iv ++ beBytes 4 1)))

/-! ### ECDSA over P-384 -/

def p384p : Nat := 2 ^ 384 - 2 ^ 128 - 2 ^ 96 + 2 ^ 32 - 1
def p384n : Nat :=
  0xFFFFFFFFFFFFFFFFFFFFFFFFFFFFFFFFFFFFFFFFFFFFFFFFC7634D81F4372DDF581A0DB248B0A77AECEC196ACCC52973
def p384b : Nat :=
  0xB3312FA7E23EE7E4988E056BE3F82D19181D9C6EFE8141120314088F5013875AC656398D8A2ED19D2A85C8EDD3EC2AEF
def p384G : Nat × Nat :=
  (0xAA87CA22BE8B05378EB1C71EF320AD746E1D3B628BA79B9859F741E082542A385502F25DBF55296C3A545E3872760AB7,
   0x3617DE4A96262C6F5D9E98BF9292DC29F8F41DBD289A147CE9DA3113B5F0B8C00A60B1CE1D7E819D7A431D7C90EA0E5F)

/-- `a ^ e mod m`, over `n` bits of the exponent. -/
def powMod (m : Nat) : Nat → Nat → Nat → Nat
  | 0, _, _ => 1
  | n + 1, a, e => ((if e % 2 = 1 then a else 1) * powMod m n (a * a % m) (e / 2)) % m

/-- Inverse modulo the prime `m`. -/
def invMod (m a : Nat) : Nat := powMod m 384 (a % m) (m - 2)

/-- Sum of two points of P-384; nothing stands for the point at infinity. -/
def ecAdd (a b : Option (Nat × Nat)) : Option (Nat × Nat) :=
  match a, b with
  | none, b => b
  | a, none => a
  | some (x1, y1), some (x2, y2) =>
    let p := p384p
    if x1 = x2 ∧ (y1 + y2) % p = 0 then none else
    let l := if x1 = x2 then (3 * x1 * x1 + (p - 3)) * invMod p (2 * y1) % p
             else (y2 + (p - y1)) * invMod p (x2 + (p - x1)) % p
    let x3 := (l * l + 2 * p - x1 - x2) % p
    some (x3, (l * (x1 + p - x3) + p - y1) % p)

/-- A multiple of a point, over `n` bits. -/
def ecMul : Nat → Nat → Option (Nat × Nat) → Option (Nat × Nat)
  | 0, _, _ => none
  | n + 1, k, q => ecAdd (if k % 2 = 1 then q else none) (ecMul n (k / 2) (ecAdd q q))

/-- ECDSA verification over P-384 of a 48-byte digest. -/
def ecdsaVerify (x y r s : Nat) (digest : List Byte) : Bool :=
  let p := p384p
  let n := p384n
  if r = 0 ∨ n ≤ r ∨ s = 0 ∨ n ≤ s ∨ p ≤ x ∨ p ≤ y ∨ y * y % p ≠ (x * x * x + (p - 3) * x + p384b) % p then false else
  let w := invMod n s
  match ecAdd (ecMul 384 (beNat digest * w % n) (some p384G)) (ecMul 384 (r * w % n) (some (x, y))) with
  | none => false
  | some (u, _) => u % n == r

/-! ### CTR_DRBG with AES-256 and the derivation function (R407) -/

/-- Exclusive or of two byte strings. -/
def xorBytes (a b : List Byte) : List Byte := (a.zip b).map fun p => p.1 ^^^ p.2

/-- The chaining value over whole 16-byte blocks, `n` of them. -/
def drbgBcc (ks : List (List Nat)) : Nat → List Byte → List Byte → List Byte
  | 0, chain, _ => chain
  | n + 1, chain, m => drbgBcc ks n (aesBlock ks (xorBytes chain (m.take 16))) (m.drop 16)

/-- The derivation function: 48 bytes from an input string. -/
def drbgDf (input : List Byte) : List Byte :=
  let t := beBytes 4 input.length ++ beBytes 4 48 ++ input ++ [0x80#8]
  let m := pad16 t
  let ks := aesKeys ((List.range 32).map (BitVec.ofNat 8))
  let part := fun i => drbgBcc ks (m.length / 16 + 1) (List.replicate 16 0#8) (beBytes 4 i ++ List.replicate 12 0#8 ++ m)
  let temp := part 0 ++ part 1 ++ part 2
  let ks := aesKeys (temp.take 32)
  let x1 := aesBlock ks (temp.drop 32)
  let x2 := aesBlock ks x1
  x1 ++ x2 ++ aesBlock ks x2

/-- A counter block advanced by `n`. -/
def drbgInc (v : List Byte) (n : Nat) : List Byte := beBytes 16 ((beNat v + n) % 2 ^ 128)

/-- Update with 48 bytes of provided data. -/
def drbgUpdate (data : List Byte) (d : Stream) : Stream :=
  let ks := aesKeys d.key
  let temp := xorBytes (aesBlock ks (drbgInc d.v 1) ++ aesBlock ks (drbgInc d.v 2) ++ aesBlock ks (drbgInc d.v 3)) data
  { d with key := temp.take 32, v := temp.drop 32 }

/-- Instantiate from 32 bytes of entropy input and a 16-byte nonce. -/
def drbgInstantiate (entropyNonce : List Byte) : Stream :=
  { drbgUpdate (drbgDf entropyNonce) { key := List.replicate 32 0#8, v := List.replicate 16 0#8 } with count := 1 }

/-- Generate 128 bits: the output, and the state after it. -/
def drbgGenerate (d : Stream) : List Byte × Stream :=
  let v := drbgInc d.v 1
  let out := aesBlock (aesKeys d.key) v
  (out, { drbgUpdate (List.replicate 48 0#8) { d with v := v } with count := d.count + 1 })

end Sys2Proof.Machine
end

