-- ==== Sys2Proof/Machine/Memory.lean ====
section
/-!
DEFINITION. The memory family: the copy engine, scrubbing, the patrol, link ECC and refresh (R345 to R347, R352 to R354,
R358 to R362, R205 to R207).
-/

namespace Sys2Proof.Machine

open Sys2Proof

/-! ### The copy engine (R352 to R354, Table 9.5) -/

/-- Bytes written up to a failing word, or all of them. -/
def State.copyOut (s : State) (p dst : Nat) (bs : List Byte) : Nat × Done × State :=
  match (s.countWr p dst bs.length).writeMem dst bs with
  | (none, s) => (bs.length, {}, s)
  | (some w, s) => (w - dst, { status := 0x1F, detail := w }, s)

/-- Pieces of a source, address and bytes, read in order until a word is uncorrectable. -/
def State.copyIn (s : State) (p : Nat) : List (Nat × Nat) → List Byte × Done × State
  | [] => ([], {}, s)
  | (a, n) :: l =>
    match (s.countRd p a n).readMem a n with
    | (some w, s) => (s.bytes a (w - a), { status := 0x1F, detail := w }, s)
    | (none, s) =>
      let r := s.copyIn p l
      (s.bytes a n ++ r.1, r.2.1, r.2.2)

/-- One run of destination bytes from the pieces of its source: bytes before an uncorrectable source word are written. -/
def State.copyRun (s : State) (p dst : Nat) (src : List (Nat × Nat)) : Nat × Done × State :=
  let (bs, d, s) := s.copyIn p src
  let (n, e, s) := s.copyOut p dst bs
  (n, if e.status = 0 then d else e, s)

/-- Runs one after another, up to the first that fails. -/
def State.copyRuns (s : State) (p : Nat) : List (Nat × List (Nat × Nat)) → Nat × Done × State
  | [] => (0, {}, s)
  | (dst, src) :: l =>
    let (n, d, s) := s.copyRun p dst src
    if d.status ≠ 0 then (n, d, s) else
    let r := s.copyRuns p l
    (n + r.1, r.2.1, r.2.2)

/-- The parts that bytes `a` to `b` of a destination cover of its rows of `row` bytes: row, first byte, bytes. -/
def rowParts (row a b : Nat) : List (Nat × Nat × Nat) :=
  if row = 0 ∨ b ≤ a then [] else
  (List.range ((b - 1) / row + 1 - a / row)).map fun k =>
    let r := a / row + k
    let lo := max a (r * row) - r * row
    (r, lo, min b ((r + 1) * row) - r * row - lo)

/-- A checkpoint of a copy comes after each MiB of destination (Table 4.12). -/
def copyStep (_ : Cmd) : Nat := 0x100000

/-- `copy.linear`. -/
def execCopyLinear (dt id : Nat) (s : State) : Host.Outcome State Fault Refusal :=
  .next ((s.elapse dt).runLong id 0x40 (fun c => c.word 3) copyStep fun c a b s =>
    s.copyRun c.part (c.addr 2 + a) [(c.addr 1 + a, b - a)])

/-- Destination bytes of `copy.strided`. -/
def stridedTotal (c : Cmd) : Nat := bits (c.word 4) 47 24 * bits (c.word 4) 23 0 * c.word 3

/-- `copy.strided`. -/
def execCopyStrided (dt id : Nat) (s : State) : Host.Outcome State Fault Refusal :=
  .next ((s.elapse dt).runLong id 0x41 stridedTotal copyStep fun c a b s =>
    let rows := bits (c.word 4) 23 0
    s.copyRuns c.part ((rowParts (c.word 3) a b).map fun x =>
      let q := x.1 / rows
      let i := x.1 % rows
      (c.addr 2 + q * c.word 8 + i * c.word 6 + x.2.1, [(c.addr 1 + q * c.word 7 + i * c.word 5 + x.2.1, x.2.2)])))

/-- ROWS, COLS and the element size of `copy.transpose`. -/
def transDims (w3 : Nat) : Nat × Nat × Nat := (bits w3 23 0, bits w3 47 24, 2 ^ bits w3 49 48)

/-- `copy.transpose`: row j of the destination holds element j of every source row. -/
def execCopyTranspose (dt id : Nat) (s : State) : Host.Outcome State Fault Refusal :=
  .next ((s.elapse dt).runLong id 0x42
    (fun c => let (r, n, e) := transDims (c.word 3); r * n * e) copyStep fun c a b s =>
    let (r, _, e) := transDims (c.word 3)
    s.copyRuns c.part ((rowParts (r * e) a b).map fun x =>
      (c.addr 2 + x.1 * c.word 5 + x.2.1,
       (List.range ((x.2.1 + x.2.2 - 1) / e + 1 - x.2.1 / e)).map fun k =>
         let i := x.2.1 / e + k
         let lo := max x.2.1 (i * e) - i * e
         (c.addr 1 + i * c.word 4 + x.1 * e + lo, min (x.2.1 + x.2.2) ((i + 1) * e) - i * e - lo))))

/-- `copy.fill`. -/
def execCopyFill (dt id : Nat) (s : State) : Host.Outcome State Fault Refusal :=
  .next ((s.elapse dt).runLong id 0x43 (fun c => c.word 3) copyStep fun c a b s =>
    let pat := leBytes 8 (c.word 1)
    s.copyOut c.part (c.addr 2 + a) ((List.range (b - a)).map fun i => pat.getD ((a + i) % 8) 0#8))

/-- What the fetch checks ask of a COPY command. -/
def copyInfo (op : Nat) (words : List Nat) : Option OpInfo :=
  let w := fun i => words.getD i 0
  let a := fun i => bits (w i) 47 0
  let m40 := 2 ^ 40 - 1
  let span := fun (n pitch row : Nat) => if n = 0 ∨ row = 0 then 0 else (n - 1) * pitch + row
  match op with
  | 0x40 =>
    some { ckpt := true, masks := [mAddr, mAddr, m40]
           limits := [(3, decide (w 3 ≤ 2 ^ 36)), (2, !overlaps (a 1) (w 3) (a 2) (w 3))]
           ranges := [(1, a 1, w 3, false), (2, a 2, w 3, true)] }
  | 0x41 =>
    let rows := bits (w 4) 23 0
    let planes := bits (w 4) 47 24
    let n := span planes (w 7) (span rows (w 5) (w 3))
    let m := span planes (w 8) (span rows (w 6) (w 3))
    some { slots := [2], ckpt := true, masks := [mAddr, mAddr, mLow, mAddr, m40, m40, m40, m40]
           limits := [(6, decide (rows ≤ 1 ∨ w 3 ≤ w 6)), (8, decide (planes ≤ 1 ∨ (rows - 1) * w 6 + w 3 ≤ w 8)),
                      (2, !overlaps (a 1) n (a 2) m)]
           ranges := [(1, a 1, n, false), (2, a 2, m, true)] }
  | 0x42 =>
    let (r, cs, e) := transDims (w 3)
    let n := span r (w 4) (cs * e)
    let m := span cs (w 5) (r * e)
    some { slots := [2], ckpt := true, masks := [mAddr, mAddr, 2 ^ 50 - 1, m40, m40]
           limits := [(3, bits (w 3) 49 48 != 3), (4, decide (cs * e ≤ w 4)), (5, decide (r * e ≤ w 5)),
                      (2, !overlaps (a 1) n (a 2) m)]
           ranges := [(1, a 1, n, false), (2, a 2, m, true)] }
  | 0x43 =>
    some { ckpt := true, masks := [mAll, mAddr, m40], limits := [(3, decide (w 3 ≤ 2 ^ 36))]
           ranges := [(2, a 2, w 3, true)] }
  | _ => none

/-! ### Scrubbing (R345 to R347) -/

/-- Power domain, base and bytes of the SRAM of an index: 0 to 17 of Table 9.11, 0x100 + n for a scratchpad. -/
def sramAt (i : Nat) : Option (Nat × Nat × Nat) :=
  if 0x100 ≤ i ∧ i < 0x110 then some ((i - 0x100) / 4 + 1, spadBase (i - 0x100), 0x600000)
  else if i < 4 then some (i + 1, cmemBase i, 0x800000)
  else match i with
    | 4 => some (5, visionMem, 0x400000)
    | 5 => some (7, cometMem, 0x600000)
    | 6 => some (8, selectMem, 0x200000)
    | 7 => some (8, embedMem, 0x100000)
    | 8 => some (6, acousticMem, 0x200000)
    | 17 => some (0, islandMem, 0x100000)
    | _ => if 9 ≤ i ∧ i < 17 then some (9, seqMemBase (i - 9), 0x40000) else none

/-- Row bytes and banks of an SRAM, rows of one bank, and bytes of a bank group (Table 9.2, R338). -/
def sramRows (i : Nat) : Nat × Nat × Nat :=
  if 0x100 ≤ i then (128, 48, 1024)
  else if i < 4 then (64, 16, 8192)
  else if i = 4 then (64, 16, 4096)
  else if i = 5 then (64, 24, 4096)
  else if i = 6 ∨ i = 8 then (64, 8, 4096)
  else if 9 ≤ i ∧ i < 17 then (64, 4, 1024)
  else (64, 4, 4096)

/-- First offset of row `r` of bank `b`: a scratchpad has four groups of twelve banks, every other SRAM interleaves all its
banks every row (R338). -/
def sramRow (i b r : Nat) : Nat :=
  if 0x100 ≤ i then 0x180000 * (b / 12) + 128 * (12 * r + b % 12)
  else let (row, banks, _) := sramRows i; row * (banks * r + b)

/-- Whether a scrubber works: the memory is powered, and outside the compute reset or with it released (R370). -/
def State.scrubs (s : State) (i : Nat) : Bool :=
  match sramAt i with
  | some (d, _, _) =>
    if d = 0 then s.boot.phase != .por
    else s.powered d && (i == 8 || !s.flag R.RST_STATUS_ASSERTED)
  | none => false

/-- The words of a row checked one by one: corrected and counted, or poisoned and raised (R345, R372). -/
def State.scrubWords (s : State) : List (Nat × Health) → State
  | [] => s
  | (w, .correctable) :: l => ({ s.countCe w with health := Sparse.put .good s.health w .good }).scrubWords l
  | (w, _) :: l => (s.foundBad w).scrubWords l

/-- A scrub progress: next row by bank, tick of the pass's beginning, and whether it is forced. -/
def State.scrub (s : State) (i : Nat) : Scrub := Sparse.get {} s.scrubbers i

def State.setScrub (s : State) (i : Nat) (x : Scrub) : State := { s with scrubbers := Sparse.put {} s.scrubbers i x }

/-- PASSES of an SRAM counted. -/
def State.countPass (s : State) (i : Nat) : State :=
  if 0x100 ≤ i then s.incReg R.TC_SCRUB_PASSES (i - 0x100) else s.incReg R.MEMC_SRAM_SCRUB_PASSES i

/-- A window of a bank's scrubber: it reads its next row; the last row of the last bank ends the pass (R345). -/
def execScrubWindow (dt i b : Nat) (s : State) : Host.Outcome State Fault Refusal :=
  let s := s.elapse dt
  .next (match sramAt i with
    | none => s
    | some (_, base, _) =>
      let (row, banks, rows) := sramRows i
      let x := s.scrub i
      let r := Sparse.get 0 x.rows b
      if ¬ s.scrubs i ∨ banks ≤ b ∨ rows ≤ r then s else
      let a := base + sramRow i b r
      let s := s.scrubWords (s.badWords a row)
      let x := s.scrub i
      let at_ := Sparse.put 0 x.rows b (r + 1)
      if (List.range banks).all fun k => rows ≤ Sparse.get 0 at_ k then
        (s.setScrub i { rows := [], began := s.tick, forced := false }).countPass i
      else s.setScrub i { x with rows := at_ })

/-- A pass has not ended 200 ms after it began (R347). -/
def execScrubForced (dt i : Nat) (s : State) : Host.Outcome State Fault Refusal :=
  let s := s.elapse dt
  let x := s.scrub i
  .next (if s.scrubs i ∧ x.forced = false ∧ x.began + msTicks 200 ≤ s.tick then
      let s := s.setScrub i { x with forced := true }
      let s := if 0x100 ≤ i then s.incReg R.TC_SCRUB_FORCED (i - 0x100) else s.incReg R.MEMC_SRAM_SCRUB_FORCED i
      s.raise 0x52 i 0
    else s)

/-! ### Patrol, link ECC and refresh (R358 to R362) -/

/-- Whether DRAM is in use: trained, and not in self-refresh for a fall of PMIC_PG. -/
def State.dramUp (s : State) : Bool := s.flag R.MEMC_STATUS_TRAINED && s.flag R.PWR_PMIC_PG

/-- Data bytes of all inline-ECC ranges, the addresses that the patrol walks. -/
def State.patrolSize (s : State) : Nat := ((eccRanges (s.sec 5)).map fun r => 7 * r.size / 8).sum

/-- Address of byte `n` of the patrol's walk. -/
def patrolAddr : List Region → Nat → Nat
  | [], _ => 0
  | r :: l, n => if n < 7 * r.size / 8 then r.base + n else patrolAddr l (n - 7 * r.size / 8)

/-- The patrol reads its next `n` words, correcting or poisoning (R360). -/
def execPatrolRead (dt n : Nat) (s : State) : Host.Outcome State Fault Refusal :=
  let s := s.elapse dt
  let total := s.patrolSize
  .next (if s.dramUp ∧ 0 < total ∧ s.reg R.MEMC_CFG_PATROL ≠ 0 then
      let ranges := eccRanges (s.sec 5)
      let lo := s.patrolAt
      let hi := min (lo + 8 * n) total
      let met := s.health.filter fun x => ranges.any (fun r => decide (r.base ≤ x.1 ∧ x.1 < r.base + 7 * r.size / 8)) &&
        (List.range ((hi - lo) / 8)).any fun k => patrolAddr ranges (lo + 8 * k) == x.1
      let s := s.scrubWords met
      if hi = total then { s.incReg R.MEMC_PATROL_PASSES_COUNT with patrolAt := 0 } else { s with patrolAt := hi }
    else s)

/-- The channel of a DRAM address (R357). -/
def dramChannel (a : Nat) : Nat := bits a 12 8 ^^^ bits a 17 13 ^^^ bits a 22 18 ^^^ bits a 27 23 ^^^ bits a 32 28

/-- A DRAM request with an uncorrectable link error (R359): `good` says whether this attempt succeeds; the third attempt that
fails ends it, failing the command that read. -/
def execLinkEccReissue (dt addr : Nat) (good : Bool) (work : NetWork) (s : State) : Host.Outcome State Fault Refusal :=
  let s := s.elapse dt
  .next (if s.dramUp = false ∨ s.isDram addr = false then s else
    let tried : Option Nat := (s.hub.reissue.find? fun x => x.1 == addr).map (·.2)
    let rest := s.hub.reissue.filter fun x => x.1 != addr
    if good then
      if tried.isSome then { s with hub.reissue := rest } else s.incReg R.MEMC_LINK_RETRY_COUNT
    else if tried.getD 0 < 2 then
      ({ s with hub.reissue := rest ++ [(addr, tried.getD 0 + 1)] }).incReg R.MEMC_LINK_RETRY_COUNT
    else
      let s := ({ s with hub.reissue := rest }).incReg R.MEMC_LINK_FAIL_COUNT
      let s := match work with
        | .command id => s.finish id { status := 0x1F, detail := addr }
        | _ => s
      s.raise 0x54 (dramChannel addr) addr)

/-- Transfer rate of a SPEED code, in MT/s (R356). -/
def dramSpeed (code : Nat) : Nat :=
  match code with
  | 0 => 6400 | 1 => 7500 | 2 => 8533 | 3 => 9600 | _ => 10667

/-- DELIV of R362 for a SPEED code, a refresh factor in thousandths, whether an inline-ECC range is declared, and PATROL. -/
def deliv (speed rf : Nat) (ecc : Bool) (patrol : Nat) : Nat :=
  let e := if ecc then 85 else 87
  1000 * ((dramSpeed speed * 64 * e * rf - patrol * 100000) / 100000000)

/-- Refresh factor of a RATE code, in thousandths (Table 9.7). -/
def refreshFactor (rate : Nat) : Nat := if rate = 0 then 1000 else if rate = 1 then 950 else 900

/-- DELIV in force. -/
def State.delivNow (s : State) : Nat :=
  deliv (s.reg R.MEMC_CFG_SPEED) (refreshFactor (s.reg R.MEMC_STATUS_RATE)) (s.flag R.MEMC_STATUS_ECC_ANY)
    (s.reg R.MEMC_CFG_PATROL)

/-- RD.G and WR.G of partition `p`, and SYS_RD_G and SYS_WR_G, of the image in use (Tables 5.1 and 5.2). -/
def State.rdG (s : State) (p : Nat) : Nat := s.partField p 0x10 4
def State.wrG (s : State) (p : Nat) : Nat := s.partField p 0x1C 4

/-- Guarantees cut in increasing CRIT (R205): excess left, and (partition, RD_EFF, WR_EFF). -/
def cutGuarantees : Int → List (Nat × Nat × Nat) → Int × List (Nat × Nat × Nat)
  | x, [] => (x, [])
  | x, (p, rd, wr) :: l =>
    let own := rd + wr
    if x ≤ 0 ∨ own = 0 then
      let r := cutGuarantees x l
      (r.1, (p, rd, wr) :: r.2)
    else
      let keep := ((own : Int) - x).toNat
      let rd' := rd * keep / own
      let wr' := wr * keep / own
      let r := cutGuarantees (x - (own - rd' - wr' : Nat)) l
      (r.1, (p, rd', wr') :: r.2)

/-- The effective rates of regulator `i` changed; its tokens are kept (R215). -/
def State.setRate (s : State) (i g : Nat) : State :=
  { s with regulators := Sparse.put {} s.regulators i { (s.regulator i).fill s.tick with g := g } }

/-- LIMIT and every G_eff recomputed, with cut notices and exhaustion (R205 to R207). -/
def State.recomputeBw (s : State) : State :=
  let d := s.delivNow
  let s := (s.setReg R.PART_BW_DELIV_DELIV d).setReg R.PART_BW_LIMIT_LIMIT (d * 85 / 100)
  let parts := sortBy (fun a b => decide (s.partCrit a ≤ s.partCrit b)) ((List.range 4).filter fun p => (s.part p).isSome)
  let excess : Int := (s.reg R.PART_BW_SUM_SUM : Int) - (s.reg R.PART_BW_LIMIT_LIMIT : Int)
  let r := cutGuarantees excess (parts.map fun p => (p, s.rdG p, s.wrG p))
  let s := r.2.foldl (fun s x =>
    let p := x.1
    let lowered := x.2.1 < s.reg R.PART_RD_EFF_G p ∨ x.2.2 < s.reg R.PART_WR_EFF_G p
    let s := (s.setReg R.PART_RD_EFF_G x.2.1 p).setReg R.PART_WR_EFF_G x.2.2 p
    let s := (s.setRate (3 * p) x.2.1).setRate (3 * p + 1) x.2.2
    let s := if x.2.1 = s.rdG p ∧ x.2.2 = s.wrG p then s.setBit R.PART_BW_CUT_CUT p false else s
    if lowered then ((s.setBit R.PART_BW_CUT_CUT p true).incReg R.PART_CUT_COUNT_COUNT).raise 0x56 p 0 else s) s
  if 0 < r.1 then
    if s.flag R.PART_BW_CUT_EXHAUST then s else (s.setReg R.PART_BW_CUT_EXHAUST 1).raise 0x57 0 0
  else s.setReg R.PART_BW_CUT_EXHAUST 0

/-- The refresh reports of the 32 channels (R361): the worst sets the refresh class, and DELIV follows it. -/
def execRefreshReportRead (dt : Nat) (rates : List Nat) (s : State) : Host.Outcome State Fault Refusal :=
  let s := s.elapse dt
  .next (if s.dramUp = false then s else
    let rate := fun c => min (rates.getD c 0) 3
    let s := (List.range 32).foldl (fun s c => s.setReg R.MEMC_CH_RATE_RATE (rate c) c) s
    let worst := (List.range 32).foldl (fun m c => max m (rate c)) 0
    let at_ := ((List.range 32).find? fun c => rate c == worst).getD 0
    let old := s.reg R.MEMC_STATUS_RATE
    let s := if worst = old then s else (s.setReg R.MEMC_STATUS_RATE worst).incReg R.MEMC_RATE_CHANGES_COUNT
    let s := if refreshFactor worst ≠ refreshFactor old ∧ s.applied then s.recomputeBw else s
    s.excursion 0x55 0 (worst == 3) 0x55 at_ 0)

end Sys2Proof.Machine
end

