-- ==== Sys2Proof/Machine/Judge.lean ====
section
/-!
DEFINITION. What VERIFY checks of an image as a whole: header, layout, key, signature, encryption and hashes, register loads,
placements, weights, cabin functions and the ranges of R87 (R26, R78 to R91, R115, R336).
-/

namespace Sys2Proof.Machine

open Sys2Proof

/-! ### Rejections (Table 3.9) -/

/-- Nothing, or the failure code of Table 3.9 and the index of the section that it is about, if one. -/
abbrev Rejection := Option (Nat × Option Nat)

/-- A check: its failure carries a code and a section. -/
def require (ok : Bool) (code : Nat) (sec : Option Nat := none) : Rejection := if ok then none else some (code, sec)

def failHeader : Nat := 0x02
def failLayout : Nat := 0x03
def failReserved : Nat := 0x04
def failKey : Nat := 0x05
def failSignature : Nat := 0x06
def failDecrypt : Nat := 0x07
def failHash : Nat := 0x08
def failContent : Nat := 0x09

/-- Every byte is zero. -/
def allZero (bs : List Byte) : Bool := bs.all fun b => b == 0#8

/-- Fields (offset, size) of an entry are zero. -/
def zeroAt (e : List Byte) (fs : List (Nat × Nat)) : Bool := fs.all fun f => field e f.1 f.2 == 0

/-- Ranges (address, size) none of which overlaps another. -/
def apart : List (Nat × Nat) → Bool
  | [] => true
  | r :: l => (l.all fun x => !overlaps r.1 r.2 x.1 x.2) && apart l

/-- Numbers that rise strictly. -/
def rises : List Nat → Bool
  | a :: b :: l => decide (a < b) && rises (b :: l)
  | _ => true

/-- Numbers none of which appears twice. -/
def distinct : List Nat → Bool
  | [] => true
  | a :: l => !l.contains a && distinct l

/-- `x` lies in `[lo, hi]`. -/
def within (lo hi x : Nat) : Bool := decide (lo ≤ x ∧ x ≤ hi)

/-! ### Header (R79, R100) -/

/-- IMAGE_GEN, SECTION_COUNT, IMAGE_SIZE and IMAGE_HOME of a header. -/
def hdrGen (h : List Byte) : Nat := field h 0x10 4
def hdrCount (h : List Byte) : Nat := field h 0x1A 2
def hdrSize (h : List Byte) : Nat := field h 0x1C 4
def hdrHome (h : List Byte) : Nat := field h 0x20 8

/-- What R100 asks of a header, the bad mark apart. -/
def hdrEligible (h : List Byte) : Bool :=
  field h 0 8 == 0x3130444C4F4E454A && field h 8 2 == 1 && field h 0xA 2 == 0x100 && field h 0x16 2 == 0x0480 &&
  field h 0xF8 4 == crc32 (h.take 0xF8) && within 1 0xFFFFFFFE (hdrGen h)

/-- Every header field lies within Table 3.2, the reserved ones apart. -/
def hdrOk (h : List Byte) : Bool :=
  hdrEligible h && decide (field h 0x14 1 ≤ 32) && decide (field h 0x15 1 ≤ 3) && within 1 64 (hdrCount h) &&
  hdrHome h % 0x10000 == 0 && decide (hdrHome h < 2 ^ 48) && field h 0x28 2 != 0 && field h 0x2A 2 != 0 && field h 0x2C 2 != 0 &&
  (bit (field h 0xC 4) 0 || field h 0x30 8 == 0)

/-- Start of the signature block, and its end. -/
def signAt (h : List Byte) : Nat := 0x100 + 64 * hdrCount h
def signEnd (h : List Byte) : Nat := signAt h + 256

/-! ### Section table (R78, R80, R82) -/

def entType (e : List Byte) : Nat := field e 0 2
def entOffset (e : List Byte) : Nat := field e 8 4
def entLength (e : List Byte) : Nat := field e 0xC 4
def entEnc (e : List Byte) : Bool := bit (field e 2 2) 0
/-- Bytes of the stored extent. -/
def entStored (e : List Byte) : Nat := entLength e + (if entEnc e then 16 else 0)

/-- The allowed counts of a section type (Table 3.5). -/
def typeCount (t : Nat) : Nat × Nat :=
  match t with
  | 1 => (0, 16) | 2 | 3 | 4 | 5 | 0xC | 0xD => (1, 1) | 6 | 7 | 8 | 0xB => (0, 1) | 9 => (0, 48) | 0xA => (0, 8) | _ => (0, 0)

/-- Entries in order of OFFSET, extents apart, from the end of the signature block up to IMAGE_SIZE: `from_` is where the next may
begin.  Answers the index of the first breach. -/
def layoutFail (size : Nat) : Nat → Nat → Nat → List (List Byte) → Option Nat
  | _, _, _, [] => none
  | i, last, from_, e :: l =>
    if entOffset e % 64 ≠ 0 ∨ size < entOffset e + entStored e ∨ entOffset e < last ∨ entOffset e < from_ ∧ entStored e ≠ 0 then some i
    else layoutFail size (i + 1) (entOffset e) (if entStored e = 0 then from_ else entOffset e + entStored e) l

/-- The index of the first section whose type is reserved or appears too often. -/
def typeFail (es : List (List Byte)) : Option Nat :=
  (List.range es.length).find? fun i =>
    let t := entType (es.getD i [])
    decide ((typeCount t).2 < ((es.take (i + 1)).filter fun e => entType e == t).length)

/-- Every required type appears. -/
def typesPresent (es : List (List Byte)) : Bool := [2, 3, 4, 5, 0xC, 0xD].all fun t => es.any fun e => entType e == t

/-- The bytes between the signature block and the end of the image that lie in no stored extent are zero. -/
def paddingOk (img : List Byte) : Nat → List (List Byte) → Bool
  | at_, [] => allZero (img.drop at_)
  | at_, e :: l =>
    if entStored e = 0 then paddingOk img at_ l
    else allZero ((img.drop at_).take (entOffset e - at_)) && paddingOk img (entOffset e + entStored e) l

/-- Layout of an image (R78, R80, R82). -/
def judgeLayout (h : List Byte) (es : List (List Byte)) : Rejection :=
  require (hdrSize h % 64 == 0 && decide (hdrSize h ≤ 0x2000000) && decide (signEnd h ≤ hdrSize h)) failLayout <|>
  ((typeFail es).map fun i => (failLayout, some i)) <|>
  require (typesPresent es) failLayout <|>
  (layoutFail (hdrSize h) 0 (signEnd h) (signEnd h) es).map fun i => (failLayout, some i)

/-- Reserved fields and padding outside the sections (R26, R80). -/
def judgeOuterReserved (img h : List Byte) (es : List (List Byte)) : Rejection :=
  require (zeroAt h [(0x19, 1), (0x2E, 2), (0x38, 192), (0xFC, 4)] && field h 0xC 4 / 4 == 0) failReserved <|>
  ((List.range es.length).findSome? fun i =>
    let e := es.getD i []
    require (field e 4 4 == 0 && field e 2 2 / 2 == 0) failReserved (some i)) <|>
  require (zeroAt (slice img (signAt h) 256) [(0xC0, 64)]) failReserved <|>
  require (paddingOk img (signEnd h) es) failReserved

/-! ### Key, signature, encryption and hashes (R88 to R90) -/

/-- The key slot, the fused hash, the security version, the revision and the image key (R88). -/
def keyOk (f : Fuses) (rev : Nat) (h sign : List Byte) : Bool :=
  let slot := field h 0x15 1
  (match f.keyHash.find? fun x => x.1 == slot with
   | some x => !f.revoked.contains slot && sha384 (sign.take 96) == x.2
   | none => false) &&
  decide (f.svn ≤ field h 0x14 1) && decide (field h 0x18 1 ≤ rev) &&
  (!bit (field h 0xC 4) 0 || (f.imageKey.isSome && !f.imageKeyOff))

/-- The ECDSA signature over header and section table (R81, R89). -/
def signatureOk (img h sign : List Byte) : Bool :=
  ecdsaVerify (field sign 0 48) (field sign 0x30 48) (field sign 0x60 48) (field sign 0x90 48) (sha384 (img.take (signAt h)))

/-- The plaintext of section `i`, if its encryption is permitted and its tag matches (R90). -/
def plaintext (f : Fuses) (img h : List Byte) (i : Nat) (e : List Byte) : Option (List Byte) :=
  let stored := slice img (entOffset e) (entStored e)
  if ¬ entEnc e then some stored
  else if ¬ bit (field h 0xC 4) 0 then none
  else
    let iv := slice h 0x30 8 ++ leBytes 4 i
    let r := gcmDecrypt (f.imageKey.getD []) iv e (stored.take (entLength e))
    if r.2 = slice stored (entLength e) 16 then some r.1 else none

/-! ### Register loads (R83, R563) -/

/-- The bits of a register that a REGS entry may write: a REACT field is rws only for a source of class N. -/
def loadMask (a : Nat) : Nat :=
  match R.SAFE_FAULT_CFG_REACT.index a with
  | some (src, _, _) => if State.reset.reg R.SAFE_FAULT_CFG_CLASS src = 2 then accessMask a .rws else 0
  | none => accessMask a .rws

/-- The entries of a REGS section. -/
def loadOk (e : List Byte) : Bool :=
  let a := field e 0 8
  let m := field e 0xC 4
  a % 4 == 0 && decide (regSpace ≤ a ∧ a < regSpace + 0x1000000) && loadMask a != 0 && m &&& loadMask a == m && field e 8 4 &&& m == field e 8 4

/-- The step at which an entry is applied: 5 DRAM, 8 LINKS, 9 BRINGUP. -/
def loadStep (a : Nat) : Nat :=
  let w := windowOf a
  if w = 0x30 then 5 else if 0x40 ≤ w ∧ w ≤ 0x43 then 8 else 9

/-- One entry applied. -/
def State.applyLoad (s : State) (e : List Byte) : State :=
  let a := field e 0 8
  s.setRegWord a (mergeBits (s.regWord a) (field e 8 4) (field e 0xC 4))

/-- The REGS entries of the image in use, in order of section, then entry. -/
def State.loads (s : State) : List (List Byte) :=
  match s.image with
  | some m => (m.sections 1).flatMap fun (x : Section) => entries 16 x.bytes
  | none => []

/-- The entries of one step applied. -/
def State.applyLoads (s : State) (step : Nat) : State :=
  (s.loads.filter fun e => loadStep (field e 0 8) == step).foldl (fun s e => s.applyLoad e) s

/-! ### Placements and weights (R84, R87, R336) -/

/-- Index of the first section of a type. -/
def Image.idx (m : Image) (type : Nat) : Option Nat := m.secs.findIdx? fun x => x.type == type

/-- The sections of a type with their indices. -/
def Image.indexed (m : Image) (type : Nat) : List (Nat × List Byte) :=
  ((List.range m.secs.length).zip m.secs).filterMap fun x => if x.2.type = type then some (x.1, x.2.bytes) else none

/-- The REGS section that a rule about a block's registers is about: the one section that loads it, if one. -/
def Image.loader (m : Image) (window : Nat) : Option Nat :=
  match (m.indexed 1).filter fun x => (entries 16 x.2).any fun e => windowOf (field e 0 8) == window with
  | [x] => some x.1
  | _ => none

/-- The placements of an image: section, destination and bytes. -/
def Image.places (m : Image) : List (Nat × Nat × List Byte) :=
  (m.indexed 9).map fun x => (x.1, field x.2 0 8, x.2.drop 16)

/-- The weight entries of an image with the index of their section. -/
def Image.weights (m : Image) : List (Nat × List Byte) :=
  (m.indexed 0xA).flatMap fun x => (entries 80 x.2).map fun e => (x.1, e)

/-- A range lies in one of a list of memories. -/
def inMemory (ms : List (Nat × Nat)) (a n : Nat) : Bool := ms.any fun m => decide (m.1 ≤ a ∧ a + n ≤ m.1 + m.2)

def spads : List (Nat × Nat) := (List.range 16).map fun n => (spadBase n, 0x600000)
def cmems : List (Nat × Nat) := (List.range 4).map fun c => (cmemBase c, 0x800000)
def seqMems : List (Nat × Nat) := (List.range 8).map fun p => (seqMemBase p, 0x40000)
/-- The engine-local memories of Table 9.1. -/
def engineMems : List (Nat × Nat) :=
  [(visionMem, 0x400000), (cometMem, 0x600000), (selectMem, 0x200000), (embedMem, 0x100000), (acousticMem, 0x200000)]

/-- The ranges of R87 with the section each belongs to, and whether it is a weight destination or the image home. -/
def Image.ranges (m : Image) : List ((Nat × Nat) × Option Nat × Bool) :=
  ((m.places.filter fun p => p.2.2.length != 0).map fun p => ((p.2.1, p.2.2.length), some p.1, false)) ++
  (m.weights.map fun w => ((field w.2 0x18 8, field w.2 0x10 8), some w.1, true)) ++
  [((hdrHome m.hdr, hdrSize m.hdr), none, true)]

/-- Every region of every table of a REGIONS section. -/
def allRegions (b : List Byte) : List Region := sysRegions b ++ (List.range 4).flatMap fun p => partRegions b p

/-- The rules of R87 over the ranges of an image; `dram` is the configured capacity. -/
def judgeRanges (m : Image) (dram : Nat) : Rejection :=
  let mems := (0, dram) :: spads ++ cmems ++ engineMems
  let writable := ((m.sections 5).flatMap fun x => allRegions x.bytes).filter fun r => r.write
  (m.ranges.findSome? fun r =>
    require (inMemory (if r.2.2 then [(0, dram)] else mems) r.1.1 r.1.2) failLayout r.2.1) <|>
  ((List.range m.ranges.length).findSome? fun k =>
    match m.ranges[k]? with
    | some r => require ((m.ranges.take k).all fun x => !overlaps x.1.1 x.1.2 r.1.1 r.1.2) failLayout
      (r.2.1 <|> ((m.ranges.take k).find? fun x => overlaps x.1.1 x.1.2 r.1.1 r.1.2).bind fun x => x.2.1)
    | none => none) <|>
  (m.ranges.findSome? fun r =>
    require (!r.2.2 || writable.all fun g => !overlaps r.1.1 r.1.2 g.base g.size) failLayout r.2.1)

/-- The content rules of a PLACE and of a WEIGHTS section, reserved fields apart. -/
def placeOk (b : List Byte) : Bool := decide (16 ≤ b.length) && field b 0 8 % 64 == 0
def weightOk (e : List Byte) : Bool :=
  decide (field e 0 1 ≤ 7) && within 1 0x10000000 (field e 0x10 8) && field e 0x18 8 % 4096 == 0 && decide (field e 0x18 8 < 2 ^ 48)

/-! ### Cabin functions (R86) -/

def cabinFn (e : List Byte) : Nat := field e 0 1
def cabinParts (e : List Byte) : Nat := field e 1 1 % 16
def cabinGroups (e : List Byte) : Nat := field e 4 4

/-- The partitions that a PARTITIONS section enables. -/
def enabledParts (b : List Byte) : List Nat := (partEntries b).map fun e => field e 0 1

/-- The partitions that serve MONITOR or DOOR. -/
def safetyParts (b : List Byte) : Nat := ((cabinEntries b).filter fun e => decide (cabinFn e ≤ 1)).foldl (fun m e => m ||| cabinParts e) 0

/-- The rules of R86, of a state in which the image's register loads hold. -/
def State.cabinOk (s : State) : Bool :=
  let es := cabinEntries (s.sec 0xD)
  let parts := enabledParts (s.sec 2)
  (s.sec 0xD).length % 16 == 0 && distinct (es.map cabinFn) &&
  (es.all fun e => decide (cabinFn e ≤ 5) &&
    ((List.range 4).all fun p => !bit (cabinParts e) p || parts.contains p) &&
    ((List.range 32).all fun g => !bit (cabinGroups e) g || s.flag R.TIME_FG_CFG_ENABLE g)) &&
  parts.all fun p => es.any fun e => bit (cabinParts e) p

end Sys2Proof.Machine
end

