-- ==== Sys2Proof/Machine/Pixels.lean ====
section
/-!
DEFINITION. Pixel arithmetic of the vision engine: unpacking, demosaic, depth, colour, warp, resize, pyramid and
quantisation (R230 to R236, R241 to R249, R258).
-/

namespace Sys2Proof.Machine

open Sys2Proof

/-! ### Images -/

/-- A plane of samples. -/
structure Img where
  w : Nat
  h : Nat
  px : Array (Array Int)

def Img.make (w h : Nat) (f : Nat → Nat → Int) : Img :=
  ⟨w, h, (Array.range h).map fun y => (Array.range w).map fun x => f x y⟩

/-- The sample at (x, y), or `fill` outside. -/
def Img.at_ (m : Img) (fill : Int) (x y : Int) : Int :=
  if 0 ≤ x ∧ x < m.w ∧ 0 ≤ y ∧ y < m.h then (m.px.getD y.toNat #[]).getD x.toNat fill else fill

/-! ### Stream stage (R230 to R236) -/

/-- Samples a line of a stream carries. -/
def lineLen (e : List Byte) : Nat := if strKind e = 2 then 2 * strW e else strW e

/-- The 16-bit value of a sample as it arrives (R231). -/
def unpackSample (dt v : Nat) : Nat :=
  (match dt with
   | 0x2A | 0x1E => v * 256
   | 0x2B => v * 64
   | 0x2C => v * 16
   | 0x2D => v * 4
   | _ => v) % 65536

/-- The plane of a position of a colour filter array. -/
def cfaPlane (e : List Byte) (x y : Nat) : Nat := let k := 4 * (y % 4) + x % 4; bits (field e 0x10 4) (2 * k + 1) (2 * k)

/-- Black level and gain of plane `p` (R231). -/
def levelGain (e : List Byte) (p v : Nat) : Nat :=
  min 65535 (((v - field e (0x14 + 2 * p) 2) * field e (0x1C + 2 * p) 2 + 2048) / 4096)

/-- Line `y` of a stream after R231: cut or filled to its length. -/
def correctLine (e : List Byte) (y : Nat) (line : List Nat) : List Nat :=
  let n := lineLen e
  let l := line.take n ++ List.replicate (n - line.length) 0
  (l.zip (List.range n)).map fun p =>
    let v := unpackSample (field e 3 1) p.1
    match strKind e with
    | 0 => levelGain e 3 v
    | 1 => levelGain e (cfaPlane e p.2 y) v
    | 2 => if p.2 % 2 = 1 then levelGain e 0 v else v
    | _ => levelGain e 0 v

/-- A position mirrored about the edge pixels of `n`. -/
def mirror (n : Nat) (x : Int) : Nat := if x < 0 then (-x).toNat else if (n : Int) ≤ x then (2 * (n : Int) - 2 - x).toNat else x.toNat

/-- Sum and number of the samples of plane `p` in the centred square of side 2r + 1. -/
def cfaSum (e : List Byte) (m : Img) (p x y r : Nat) : Int × Nat :=
  let d := (List.range (2 * r + 1)).map fun (i : Nat) => ((i : Nat) : Int) - r
  (d.flatMap fun dy => d.map fun dx => (dx, dy)).foldl (fun (a : Int × Nat) q =>
    let x' := mirror m.w (x + q.1)
    let y' := mirror m.h (y + q.2)
    if cfaPlane e x' y' = p then (a.1 + m.at_ 0 x' y', a.2 + 1) else a) (0, 0)

/-- Plane `p` of a colour filter array at a pixel (R232).  A plane with no position in the array has no stated value. -/
def cfaValue (e : List Byte) (m : Img) (p x y : Nat) : Int :=
  if cfaPlane e x y = p then m.at_ 0 x y else
  let a := cfaSum e m p x y 1
  let b := cfaSum e m p x y 2
  if a.2 ≠ 0 then (a.1 + a.2 / 2) / a.2
  else if b.2 ≠ 0 then (b.1 + b.2 / 2) / b.2
  else (Config.openSample p x y % 65536 : Nat)

/-- Planes 0 to 3 of a frame after the stream stage (R232, R233). -/
def streamPlanes (e : List Byte) (rows : List (List Nat)) : List Img :=
  let w := strW e
  let h := strH e
  let a : Array (Array Int) := (rows.map fun (r : List Nat) => (r.map fun (v : Nat) => (v : Int)).toArray).toArray
  let raw : Img := ⟨lineLen e, h, a⟩
  let zero := Img.make w h fun _ _ => 0
  match strKind e with
  | 0 => [zero, zero, zero, raw]
  | 1 =>
    let n := Img.make w h (cfaValue e raw 3)
    let plane := fun p => Img.make w h fun x y =>
      max 0 (cfaValue e raw p x y - ((field e (0x24 + 2 * p) 2 : Nat) * n.at_ 0 x y + 8192) / 16384)
    [plane 0, plane 1, plane 2, n]
  | _ =>
    [Img.make w h fun x y => raw.at_ 0 (2 * x + 1 : Nat) y, Img.make w h fun x y => raw.at_ 0 (4 * (x / 2) : Nat) y,
     Img.make w h fun x y => raw.at_ 0 (4 * (x / 2) + 2 : Nat) y, zero]

/-! ### Depth (R235, R236) -/

/-- atan of a fixed-point value in [0, 1], with 192 fraction bits: halved three times, then its series. -/
def atanFix (t : Nat) : Nat :=
  let half := fun (t : Nat) => t * fixOne / (fixOne + isqrt ((fixOne * fixOne + t * t)))
  let t := half (half (half t))
  let t2 := t * t / fixOne
  8 * ((List.range 60).foldl (fun (a : Int × Nat) i =>
    (a.1 + (if i % 2 = 0 then 1 else -1) * ((a.2 / (2 * i + 1) : Nat) : Int), a.2 * t2 / fixOne)) (0, t)).1.toNat

/-- 2π with 192 fraction bits. -/
def fixTau : Nat := 8 * atanFix fixOne

/-- The angle of (I, Q) as a fraction of a turn, floored to units of 2^−16, and whether it is exact. -/
def angleUnits (i q : Int) : Nat × Bool :=
  let a := i.natAbs
  let b := q.natAbs
  let exact := decide (a = 0 ∨ b = 0 ∨ a = b)
  -- angle within the first quadrant, in units of 2^-16 turn with 192 fraction bits
  let first := if b ≤ a then (if a = 0 then 0 else atanFix (b * fixOne / a) * 65536 * fixOne / fixTau)
               else 16384 * fixOne - atanFix (a * fixOne / b) * 65536 * fixOne / fixTau
  let first := if exact then (if b = 0 then 0 else if a = 0 then 16384 * fixOne else 8192 * fixOne) else first
  let turn := 65536 * fixOne
  let ang := if 0 ≤ i then (if 0 ≤ q then first else turn - first) else if 0 ≤ q then turn / 2 - first else turn / 2 + first
  (ang / fixOne % 65536, exact)

/-- φ of a pixel, within ±2 units of the exact angle; any value where the spec's angle does not exist. -/
def tofPhase (i q : Int) : Nat :=
  let r := angleUnits i q
  let off := Config.tofOffset ((i + 65536).toNat * 2 ^ 18 + (q + 65536).toNat) 0
  if i = 0 ∧ q = 0 then (off % 65536).toNat
  else (((r.1 : Int) + clampInt (if r.2 then -2 else -1) 2 off) % 65536).toNat

/-- DEPTH before validity: the exact value is φ′ × 4000 × c ÷ (65,536 × 2 × f), and the result lies within 1 unit of it. -/
def tofDepth (phi fmod : Nat) : Nat :=
  let num := phi * 4000 * 299792458
  let den := 65536 * 2 * fmod * 100000
  let lo := num / den
  min 65535 ((lo : Int) + clampInt (if num % den = 0 then -1 else 0) 1 (Config.tofOffset phi (1 + fmod))).toNat

/-- DEPTH, AMPL and saturation of a pixel from its four phases. -/
def tofPixel (e : List Byte) (a0 a1 a2 a3 : Int) : Nat × Nat × Bool :=
  let i := a0 - a2
  let q := a3 - a1
  let ampl := min 65535 (isqrt (i * i + q * q).toNat / 2)
  let sat := decide ((field e 0x30 2 : Int) ≤ max (max a0 a1) (max a2 a3))
  let phi := (tofPhase i q + 65536 - field e 0x2C 2) % 65536
  (if ampl < field e 0x2E 2 ∨ sat then 0 else tofDepth phi (field e 0x2A 2), ampl, sat)

/-! ### Sampling (R244, R245) -/

/-- A bilinear sample at (nx ÷ dx, ny ÷ dy), fractions to 12 bits. -/
def Img.bilinear (m : Img) (fill nx : Int) (dx : Nat) (ny : Int) (dy : Nat) : Int :=
  let x := nx / dx
  let y := ny / dy
  let fx := nx % dx * 4096 / dx
  let fy := ny % dy * 4096 / dy
  let r := fun (y : Int) => m.at_ fill x y * (4096 - fx) + m.at_ fill (x + 1) y * fx
  (r y * (4096 - fy) + r (y + 1) * fy + 2 ^ 23) / 2 ^ 24

/-- Pixels that output `x` of an area resize from `n` to `r` covers, each with its weight of 12 bits. -/
def areaWeights (n r x : Nat) : List (Nat × Nat) :=
  let a := x * n
  let b := (x + 1) * n
  (List.range (ceilDiv b r - a / r)).map fun k =>
    let i := a / r + k
    (i, (min b ((i + 1) * r) - max a (i * r)) * 4096 / r)

/-- Resize of the window at (ox, oy) of `wi` × `hi` pixels to `wr` × `hr`: 0 nearest, 1 bilinear, 2 area (R245). -/
def Img.resize (m : Img) (fill : Int) (mode : Nat) (ox oy : Int) (wi hi wr hr : Nat) : Img :=
  match mode with
  | 0 => Img.make wr hr fun x y =>
      m.at_ fill (ox + ((2 * x + 1) * wi / (2 * wr) : Nat)) (oy + ((2 * y + 1) * hi / (2 * hr) : Nat))
  | 1 => Img.make wr hr fun x y =>
      m.bilinear fill (ox * (2 * wr : Nat) + ((2 * x + 1) * wi : Nat) - wr) (2 * wr)
        (oy * (2 * hr : Nat) + ((2 * y + 1) * hi : Nat) - hr) (2 * hr)
  | _ => Img.make wr hr fun x y =>
      let ws := areaWeights wi wr x
      let hs := areaWeights hi hr y
      let r := hs.foldl (fun (a : Int × Nat) q => ws.foldl (fun (a : Int × Nat) p =>
        (a.1 + (p.2 * q.2 : Nat) * m.at_ fill (ox + p.1) (oy + q.1), a.2 + p.2 * q.2)) a) (0, 0)
      (2 * r.1 + r.2) / (2 * r.2 : Nat)

/-! ### Channels (R241 to R248) -/

/-- CROP window: X, Y, W, H. -/
structure Crop where
  x : Nat
  y : Nat
  w : Nat
  h : Nat
  deriving DecidableEq, Repr

def chanCrop (c : List Byte) : Crop := ⟨field c 4 2, field c 6 2, field c 8 2, field c 10 2⟩
/-- A signed field of a byte string. -/
def sfield (b : List Byte) (o n : Nat) : Int := signed (8 * n) (field b o n)

/-- A value through a gamma table of 257 entries of 2 bytes. -/
def gammaValue (t : List Byte) (v : Int) : Int :=
  let i := v.toNat / 256
  let a := (field t (2 * i) 2 : Int)
  a + (((field t (2 * i + 2) 2 : Int) - a) * (v % 256) + 128) / 256

/-- Candidate plane `p` at a pixel: matrix and gamma (R243).  `yuv` says that the source is a YUV stream. -/
def candidate (c : List Byte) (yuv : Bool) (gamma : Option (List Byte)) (planes : List Img) (p x y : Nat) : Int :=
  let px := fun (k : Nat) => (match planes[k]? with | some m => m.at_ 0 x y | none => 0)
  let xj := fun (k : Nat) => if yuv && k != 0 then px k - 32768 else px k
  let v :=
    if p < 3 ∧ bit (field c 0x46 1) 0 then
      let sum := ((List.range 3).map fun j => sfield c (0x34 + 2 * (3 * p + j)) 2 * xj j).sum
      min 65535 (max 0 ((sum + 2048) / 4096 + sfield c (0x48 + 2 * p) 2))
    else px p
  match gamma with
  | some t => gammaValue t v
  | none => v

/-- A grid block as line memory holds it: columns, shift and the bytes of its nodes. -/
structure GridMap where
  cols : Nat
  gs : Nat
  nodes : List Byte

/-- A node's coordinate, with 8 fraction bits. -/
def GridMap.node (g : GridMap) (i j o : Nat) : Int := sfield g.nodes (8 * (j * g.cols + i) + o) 4

/-- A source coordinate of a grid at (u, v), over 2^(8 + 2 GS). -/
def GridMap.coord (g : GridMap) (u v o : Nat) : Int :=
  let n := 2 ^ g.gs
  let i := u / n
  let j := v / n
  let fu : Int := (u % n : Nat)
  let fv : Int := (v % n : Nat)
  (g.node i j o * (n - fu) + g.node (i + 1) j o * fu) * (n - fv) +
    (g.node i (j + 1) o * (n - fu) + g.node (i + 1) (j + 1) o * fu) * fv

/-- The warp output of a plane (R244). -/
def warpOut (c : List Byte) (crop : Crop) (grid : GridMap) (m : Img) : Img :=
  let fill : Int := field c 0x62 2
  Img.make crop.w crop.h fun x y =>
    let u := crop.x + x
    let v := crop.y + y
    let af := fun (k : Nat) => sfield c (0x10 + 4 * k) 4
    match field c 0x0C 1 with
    | 0 => m.at_ fill u v
    | 1 => m.bilinear fill (af 0 * u + af 1 * v + af 2) 65536 (af 3 * u + af 4 * v + af 5) 65536
    | _ => m.bilinear fill (grid.coord u v 0) (2 ^ (8 + 2 * grid.gs)) (grid.coord u v 4) (2 ^ (8 + 2 * grid.gs))

/-- Flip, then rotate clockwise (R246). -/
def flipRot (c : List Byte) (m : Img) : Img :=
  let f := field c 3 1
  let a := Img.make m.w m.h fun x y =>
    m.at_ 0 (if bit f 2 then m.w - 1 - x else x : Nat) (if bit f 3 then m.h - 1 - y else y : Nat)
  match chanRot c with
  | 0 => a
  | 1 => Img.make a.h a.w fun x y => a.at_ 0 y (a.h - 1 - x : Nat)
  | 2 => Img.make a.w a.h fun x y => a.at_ 0 (a.w - 1 - x : Nat) (a.h - 1 - y : Nat)
  | _ => Img.make a.h a.w fun x y => a.at_ 0 (a.w - 1 - y : Nat) x

/-- The levels of a pyramid above one (R247). -/
def pyramid (fill : Int) : List (Nat × Nat) → Img → List Img
  | [], _ => []
  | (w, h) :: l, m => let n := m.resize fill 2 0 0 m.w m.h w h; n :: pyramid fill l n

/-- A quantised output (R248). -/
def quantise (c : List Byte) (k : Nat) (v : Int) : List Byte :=
  let dt := field c 0x32 1
  let sh := field c 0x58 1
  let h : Int := if sh = 0 then 0 else 2 ^ (sh - 1)
  let q := (v * (field c (0x50 + 2 * k) 2 : Nat) + h) / 2 ^ sh + sfield c (0x5A + 2 * k) 2
  let b := 8 * visBytes dt
  leBytes (visBytes dt) (unsigned b (if dt % 2 = 0 then clampInt 0 (2 ^ b - 1) q else clampInt (-(2 ^ (b - 1))) (2 ^ (b - 1) - 1) q))

/-- The bytes of a level, from its output planes. -/
def levelBytes (c : List Byte) (w h : Nat) (planes : List Img) : List Byte :=
  let pad := List.replicate ((field c 0x33 1 - planes.length) * visBytes (field c 0x32 1)) 0#8
  (List.range h).flatMap fun (y : Nat) => (List.range w).flatMap fun (x : Nat) =>
    ((planes.zip (List.range planes.length)).flatMap fun p => quantise c p.2 (p.1.at_ 0 x y)) ++ pad

/-- The planes that a channel selects. -/
def chanPlanes (c : List Byte) : List Nat := (List.range (field c 0x30 1)).map fun k => bits (field c 0x31 1) (2 * k + 1) (2 * k)

/-- Byte strings each at the next 64 B boundary. -/
def align64 (bs : List Byte) : List Byte := bs ++ List.replicate ((64 - bs.length % 64) % 64) 0#8

/-- The data of a channel's item: its levels (R242 to R248). -/
def channelData (c : List Byte) (yuv : Bool) (crop : Crop) (gamma : Option (List Byte)) (grid : GridMap) (planes : List Img) :
    List Byte :=
  let fill : Int := field c 0x62 2
  let (wr, hr) := chanSize c
  let levels := chanLevels c
  let src := planes.headD ⟨0, 0, #[]⟩
  let outs := (chanPlanes c).map fun p =>
    let cand := Img.make src.w src.h (candidate c yuv gamma planes p)
    let m := flipRot c ((warpOut c crop grid cand).resize fill (field c 0x2C 1) 0 0 crop.w crop.h wr hr)
    m :: pyramid fill levels.tail m
  let data := (List.range levels.length).map fun k =>
    let (w, h) := levels.getD k (0, 0)
    levelBytes c w h (outs.map fun l => l.getD k ⟨0, 0, #[]⟩)
  data.dropLast.flatMap align64 ++ data.getLastD []

/-! ### The known-answer pattern (R249) -/

/-- `n` 16-bit outputs of the LFSR. -/
def visLfsrWords : Nat → Nat → List Nat
  | 0, _ => []
  | n + 1, s => let r := lfsrBits 16 s; r.1 :: visLfsrWords n r.2

/-- The checksum that a channel's settings give over the pattern. -/
def chanKat (c : List Byte) (yuv : Bool) (gamma : Option (List Byte)) : Nat :=
  let l := (visLfsrWords 4096 0xACE1).toArray
  let planes := (List.range 4).map fun p => Img.make 64 16 fun x y => (l.getD (4 * (64 * y + x) + p) 0 : Nat)
  let outs := (chanPlanes c).map fun p =>
    (Img.make 64 16 (candidate c yuv gamma planes p)).resize (field c 0x62 2 : Nat) (field c 0x2C 1) 0 0 64 16 32 8
  crc32 (levelBytes c 32 8 outs)

end Sys2Proof.Machine
end

