-- ==== Sys2Proof/Machine/JudgeTables.lean ====
section
/-!
DEFINITION. Content rules of the sections PARTITIONS, QUEUES, EVENTS and REGIONS and of the register loads (R62, R122, R123, R143,
R170 to R174, R182, R187, R203, R204, R348, R349, R356, R374, R408, R443, R552, R563, R570, R591, R667).  They are judged on a
state that holds the image and every register load of it.
-/

namespace Sys2Proof.Machine

open Sys2Proof

/-! ### PARTITIONS (Tables 5.1 to 5.5) -/

/-- Length, and the counts that it follows from (R170). -/
def partLength (b : List Byte) : Bool :=
  decide (64 ≤ b.length) && within 1 4 (field b 0 1) && decide (field b 1 1 ≤ 64 ∧ field b 2 1 ≤ 64) &&
  b.length == 64 + 256 * field b 0 1 + 16 * field b 1 1 + 32 * field b 2 1

/-- Reserved fields of a PARTITIONS section. -/
def partReserved (b : List Byte) : Bool :=
  zeroAt b [(3, 1), (0xE, 2), (0x18, 40)] &&
  ((partEntries b).all fun e =>
    zeroAt e [(0xE, 2), (0x1A, 2), (0x26, 2), (0x32, 2), (0x34, 4), (0x44, 4), (0xE8, 24)] &&
    (List.range 8).all fun j => field e (0x4A + 8 * j) 2 == 0) &&
  ((clientEntries b).all fun e => field e 0xC 4 == 0) &&
  (routeEntries b).all fun e => zeroAt e [(3, 1), (0xA, 2), (0x1E, 2)]

/-- A regulator's fields (Table 5.3). -/
def regulatorOk (e : List Byte) (o : Nat) : Bool :=
  let g := field e o 4
  let c := field e (o + 4) 4
  decide (g ≤ 683000) && (c == 0 || within g 683000 c) && within 1 1024 (field e (o + 8) 2)

/-- Ones of a number below 2^32. -/
def ones (n : Nat) : Nat := ((List.range 32).filter fun i => bit n i).length

/-- The job queues that an entry names, with their budgets. -/
def jobQueues (e : List Byte) : List (Nat × Nat) :=
  ((List.range 8).map fun j => (field e (0x48 + 8 * j) 2, field e (0x4C + 8 * j) 4)).filter fun q => q.1 != 0

/-- The fields of a partition entry lie within Table 5.2. -/
def partFieldsOk (e : List Byte) : Bool :=
  let init := field e 0x38 8
  decide (field e 0 1 ≤ 3 ∧ field e 1 1 ≤ 3 ∧ field e 5 1 ≤ 63) && field e 2 2 != 0 && within 1 2 (ones (field e 4 1)) &&
  within 1 1000 (field e 6 2) && field e 0xC 2 % 8 == 7 && decide (field e 0xC 2 < 1024) &&
  regulatorOk e 0x10 && regulatorOk e 0x1C && regulatorOk e 0x28 &&
  init % 64 == 0 && decide (field e 0x40 4 ≤ 1048576) && (init != 0 || field e 0x40 4 == 0) &&
  (jobQueues e).all (fun q => within 1 10000000 q.2) &&
  ((List.range 8).all fun j => field e (0x48 + 8 * j) 2 != 0 || field e (0x4C + 8 * j) 4 == 0)

/-- A QUEUES entry by queue number. -/
def State.queueEntry (s : State) (q : Nat) : Option (List Byte) := (queueEntries (s.sec 3)).find? fun e => field e 8 2 == q

/-- A queue of a kind, of a partition. -/
def State.queueIs (s : State) (q kind part : Nat) : Bool :=
  match s.queueEntry q with
  | some e => decide (32 ≤ q) && field e 0xB 1 == kind && field e 0xC 1 == part
  | none => false

/-- A queue's producer and consumer codes. -/
def State.queueCodes (s : State) (q producer consumer : Nat) : Bool :=
  match s.queueEntry q with
  | some e => field e 0xD 1 == producer && field e 0x12 1 == consumer
  | none => false

/-- The threads of a partition entry that are or come to be present (R169, R182, R553). -/
def State.entryThread (s : State) (e : List Byte) (t : Nat) : Bool :=
  decide (t < 64) && bit (field e 4 1) (t / 8) &&
  (t % 8 < 4 || s.reg R.SAFE_PAIR_CFG_MODE (t / 8) == 1 || s.reg R.SAFE_PAIR_CFG_MODE (t / 8) == 2)

/-- The ranges of rings of queues. -/
def State.rings (s : State) : List (Nat × Nat) := (queueEntries (s.sec 3)).map fun e => (field e 0 8, 64 * 2 ^ field e 0xA 1)

/-- A range lies in one region of a table that grants reading, and writing if asked. -/
def granted (rs : List Region) (a n : Nat) (write : Bool) : Bool :=
  (boundsFail rs a n false).isNone && (!write || (boundsFail rs a n true).isNone)

/-- The registers that a PERMIT entry may name (R174). -/
def State.permitOk (s : State) (part o : Nat) : Bool :=
  o == 0 || regSpace + o == R.EVT_READ_SEL_EVENT.at 0 0 ||
  (queueEntries (s.sec 3)).any fun q => decide (32 ≤ field q 8 2) && field q 0xC 1 == part &&
    regSpace + o == R.QUE_PRIO_PRIORITY.at (field q 8 2) 0

/-- The rules of R171 to R174, R182, R204 and R591 for one partition entry. -/
def State.partOk (s : State) (e : List Byte) : Bool :=
  let p := field e 0 1
  partFieldsOk e && s.entryThread e (field e 5 1) &&
  ((List.range 32).all fun k => !bit (field e 8 4) k || bits (field e 2 2) (4 * (k / 8) + 3) (4 * (k / 8)) != 0) &&
  jobQueues e != [] &&
  ((jobQueues e).all fun q => s.queueIs q.1 0 p && decide (s.reg R.RST_WD_CFG_NET_US ≤ q.2 ∧ s.reg R.RST_WD_CFG_THREAD_US ≤ q.2)) &&
  ((List.range 24).all fun i => s.permitOk p (field e (0x88 + 4 * i) 4)) &&
  (field e 0x38 8 == 0 || granted (partRegions (s.sec 5) p) (field e 0x38 8) (64 * field e 0x40 4) false) &&
  (field e 0x28 4 == 0 || bit (field e 0xC 2) 8)

/-- Fields of 32 bits of which no bit is set in two. -/
def disjointMasks : List Nat → Bool
  | [] => true
  | a :: l => (l.all fun b => a &&& b == 0) && disjointMasks l

/-- The clients and routes of R187. -/
def State.clientOk (s : State) (e : List Byte) : Bool :=
  field e 0 2 != 0 && !bit (field e 2 1) 7 && decide (field e 3 1 < 4) &&
  (List.range 64).all fun r => !bit (field e 4 8) r || (s.route r).isSome

def State.routeOk (s : State) (e : List Byte) : Bool :=
  let p := field e 1 1
  let job := field e 2 1 == 1
  decide (field e 0 1 ≤ 63 ∧ field e 2 1 ≤ 1) && (s.part p).isSome &&
  s.queueIs (field e 4 2) 1 p && s.queueCodes (field e 4 2) 3 0 && s.queueIs (field e 6 2) 1 p && s.queueCodes (field e 6 2) 0 1 &&
  (match s.queueEntry (field e 4 2) with
   | some q => decide (field e 0xC 4 ≤ 64 * (2 ^ field q 0xA 1 - 1))
   | none => false) &&
  within 1 1024 (field e 0x1C 2) &&
  (if job then
    (s.jobBudget p (field e 8 2)).isSome && s.queueCodes (field e 8 2) 3 0 && field e 0x10 8 % 64 == 0 &&
      within 1 1048576 (field e 0x18 4) && granted (partRegions (s.sec 5) p) (field e 0x10 8) (64 * field e 0x18 4) false
   else zeroAt e [(8, 2), (0x10, 8), (0x18, 4)])

/-- The content rules of the PARTITIONS section (R170 to R174, R182, R187, R203, R204, R591). -/
def State.partitionsOk (s : State) (m : Image) : Bool :=
  let b := s.sec 2
  let ps := partEntries b
  let rs := routeEntries b
  let jobs := rs.filter fun e => field e 2 1 == 1
  let sum (o : Nat) : Nat := (ps.map fun e => field e o 4).sum
  let intake := (field b 0x10 8, 0x4000 * field b 1 1)
  partLength b && decide (field b 4 4 ≤ 683000 ∧ field b 8 4 ≤ 683000) && within 1 1024 (field b 0xC 2) &&
  rises (ps.map fun e => field e 0 1) && distinct (ps.map fun e => field e 1 1) &&
  disjointMasks (ps.map fun e => field e 2 2) && disjointMasks (ps.map fun e => field e 4 1) &&
  disjointMasks (ps.map fun e => field e 8 4) && distinct (ps.flatMap fun e => (jobQueues e).map fun (q : Nat × Nat) => q.1) &&
  (ps.all fun e => s.partOk e) &&
  decide (field b 4 4 + field b 8 4 + sum 0x10 + sum 0x1C ≤
    deliv (s.reg R.MEMC_CFG_SPEED) 1000 (decide (field (s.sec 5) 0 1 ≠ 0)) (s.reg R.MEMC_CFG_PATROL) * 85 / 100) &&
  decide (sum 0x28 ≤ 21250) &&
  rises (rs.map fun e => field e 0 1) && (rs.all fun e => s.routeOk e) &&
  distinct (rs.map fun e => field e 4 2) && distinct (rs.map fun e => field e 6 2) && distinct (jobs.map fun e => field e 8 2) &&
  distinct ((clientEntries b).map fun e => field e 0 2) && ((clientEntries b).all fun e => s.clientOk e) &&
  (if field b 1 1 = 0 then intake.1 == 0
   else intake.1 % 0x10000 == 0 && decide (intake.1 < 2 ^ 48) && granted (sysRegions (s.sec 5)) intake.1 intake.2 true &&
     (s.rings.all fun r => !overlaps intake.1 intake.2 r.1 r.2) && m.ranges.all fun r => !overlaps intake.1 intake.2 r.1.1 r.1.2)

/-! ### QUEUES (Table 4.3) -/

/-- The kinds that a producer code allows (Table 4.4). -/
def producerAllows (producer kind : Nat) : Bool :=
  match kind with
  | 0 => producer == 0 || producer == 3
  | 1 => decide (producer ≤ 5)
  | _ => producer == 6

/-- The fields of a QUEUES entry lie within Table 4.3. -/
def queueFieldsOk (e : List Byte) : Bool :=
  let q := field e 8 2
  field e 0 8 % 64 == 0 && decide (field e 0 8 < 2 ^ 48) && within 4 16 (field e 0xA 1) &&
  (if q < 32 then (q == 1 || q == 2 || within 4 23 q) && zeroAt e [(0xB, 1), (0xC, 1), (0xD, 1), (0xE, 1), (0xF, 1), (0x10, 2), (0x12, 1)]
   else decide (q ≤ 511 ∧ field e 0xB 1 ≤ 2 ∧ field e 0xC 1 ≤ 3) && producerAllows (field e 0xD 1) (field e 0xB 1) &&
     (if field e 0xB 1 = 0 then decide (field e 0xE 1 ≤ 7) else zeroAt e [(0xE, 1), (0xF, 1), (0x10, 2)]) &&
     (if field e 0xB 1 = 1 then decide (field e 0x12 1 ≤ 2) else field e 0x12 1 == 0))

def State.queueOk (s : State) (e : List Byte) : Bool :=
  let p := field e 0xC 1
  let cq := field e 0x10 2
  queueFieldsOk e &&
  granted (if field e 8 2 < 32 then sysRegions (s.sec 5) else partRegions (s.sec 5) p) (field e 0 8) (64 * 2 ^ field e 0xA 1) true &&
  (field e 8 2 < 32 || field e 0xB 1 != 0 ||
    ((match s.part p with
      | some x => s.entryThread x (field e 0xF 1)
      | none => false) && (cq == 0 || s.queueIs cq 2 p)))

/-- The content rules of the QUEUES section (R122, R123). -/
def State.queuesOk (s : State) : Bool :=
  let b := s.sec 3
  let es := queueEntries b
  let cmds := es.filter fun e => decide (32 ≤ field e 8 2) && field e 0xB 1 == 0
  b != [] && b.length % 32 == 0 && distinct (es.map fun e => field e 8 2) && (es.all fun e => s.queueOk e) &&
  ((List.range 64).all fun t => decide ((cmds.filter fun e => field e 0xF 1 == t).length ≤ 8)) && apart s.rings

/-! ### EVENTS (Table 4.10) -/

/-- A partition may name an event: any of its own, or a global one whose PMASK includes it (R143). -/
def State.mayName (s : State) (p e : Nat) (global : Bool) : Bool := !global || s.eventAccess p e true

/-- The content rules of the EVENTS section and of the groups that name events (R143). -/
def State.eventsOk (s : State) : Bool :=
  let b := s.sec 4
  let es := (eventEntries b).map fun e => field e 0 8
  b.length % 8 == 0 && distinct (es.map fun w => bits w 14 0) &&
  (es.all fun w =>
    if bit w 14 then decide (bits w 11 0 < 1024) && bits w 13 12 == 0 && (List.range 4).all fun p => !bit w (16 + p) || (s.part p).isSome
    else bits w 19 16 == 0 && (s.part (bits w 13 12)).isSome) &&
  (List.range 32).all fun g => !s.flag R.TIME_FG_CFG_ENABLE g ||
    s.mayName (s.reg R.TIME_FG_CFG_PART g) (s.reg R.TIME_FG_CFG_EVENT g) (s.flag R.TIME_FG_CFG_GLOBAL g)

/-! ### REGIONS (Tables 9.3 and 9.4) -/

/-- Raw words 0 and 1 of entry `i` of a REGIONS section. -/
def regionWords (b : List Byte) (i : Nat) : Nat × Nat := (field b (16 * (1 + i)) 8, field b (16 * (1 + i) + 8) 8)

/-- A region entry lies within Table 9.4. -/
def regionEntryOk (w : Nat × Nat) : Bool :=
  decide (w.1 < 2 ^ 48) && w.1 % 64 == 0 && bits w.2 39 0 % 64 == 0 && within 64 (2 ^ 36) (bits w.2 39 0) && within 1 3 (w.2 / 2 ^ 40)

/-- An inline-ECC entry lies within Table 9.4. -/
def eccEntryOk (w : Nat × Nat) : Bool :=
  decide (w.1 < 2 ^ 48) && w.1 % 0x800000 == 0 && w.2 % 0x800000 == 0 && within 0x800000 (2 ^ 36) w.2

/-- Memories that a partition's regions may lie in (R349). -/
def State.ownMemories (s : State) (p : Nat) : List (Nat × Nat) :=
  (0, s.dramSize) :: ((List.range 16).filter fun n => bit (s.partCores p) n).map (fun n => (spadBase n, 0x600000)) ++
  ((List.range 8).filter fun n => bit (s.partPairs p) n).map fun n => (seqMemBase n, 0x40000)

/-- A range of cluster memory whose granules are all the partition's. -/
def State.ownGranules (s : State) (p a n : Nat) : Bool :=
  inMemory cmems a n && n != 0 &&
  let c := (a - 0x00E100000000) / 0x1000000
  let o := a - cmemBase c
  (List.range 8).all fun g => !overlaps o n (0x100000 * g) 0x100000 || bit (s.partField p 8 4) (8 * c + g)

/-- A range does not touch the check part of an inline-ECC range. -/
def clearOfChecks (ecc : List Region) (a n : Nat) : Bool := ecc.all fun r => !overlaps a n (r.base + 7 * r.size / 8) (r.size / 8)

/-- A DRAM region lies apart from every inline-ECC range, or wholly in the data part of one. -/
def eccFits (ecc : List Region) (r : Region) : Bool :=
  ecc.all fun x => !overlaps r.base r.size x.base x.size || decide (x.base ≤ r.base ∧ r.base + r.size ≤ x.base + 7 * x.size / 8)

def regionRanges (rs : List Region) : List (Nat × Nat) := rs.map fun r => (r.base, r.size)

/-- The content rules of the REGIONS section (R336, R348, R349). -/
def State.regionsOk (s : State) (m : Image) : Bool :=
  let b := s.sec 5
  let counts := (List.range 4).map fun p => field b (4 + 2 * p) 2
  let nEcc := field b 0 1
  let nReg := field b 2 2 + counts.sum
  let ecc := eccRanges b
  let intake := (field (s.sec 2) 0x10 8, 0x4000 * field (s.sec 2) 1 1)
  decide (16 ≤ b.length) && decide (nEcc ≤ 16 ∧ field b 2 2 ≤ 256) && (counts.all fun n => decide (n ≤ 256)) &&
  b.length == 16 * (1 + nEcc + nReg) &&
  ((List.range 4).all fun p => counts.getD p 0 == 0 || (s.part p).isSome) &&
  ((List.range nEcc).all fun i => eccEntryOk (regionWords b i)) && ((List.range nReg).all fun i => regionEntryOk (regionWords b (nEcc + i))) &&
  apart (regionRanges ecc) && apart (regionRanges (sysRegions b)) && ((List.range 4).all fun p => apart (regionRanges (partRegions b p))) &&
  (ecc.all fun r => inMemory [(0, s.dramSize)] r.base r.size) &&
  ((sysRegions b).all fun r => inMemory [(0, s.dramSize)] r.base r.size) &&
  ((List.range 4).all fun p => (partRegions b p).all fun r => inMemory (s.ownMemories p) r.base r.size || s.ownGranules p r.base r.size) &&
  ((allRegions b).all fun r => eccFits ecc r && clearOfChecks ecc r.base r.size) &&
  (s.rings.all fun r => clearOfChecks ecc r.1 r.2) && clearOfChecks ecc intake.1 intake.2 &&
  m.ranges.all fun r => clearOfChecks ecc r.1.1 r.1.2

/-! ### Register loads -/

/-- MEMC (R356, Table 9.11). -/
def State.memcOk (s : State) : Bool :=
  decide (s.reg R.MEMC_CFG_SPEED ≤ 4 ∧ s.reg R.MEMC_CFG_DENSITY ≤ 2 ∧ s.reg R.MEMC_CFG_PATROL ≤ 1000) && s.reg R.MEMC_SRAM_CE_LIMIT_LIMIT != 0

/-- CLK (Table 18.7, R667). -/
def State.clkOk (s : State) : Bool :=
  ((List.range 4).all fun c => within 825 1200 (s.reg R.CLK_TC_MAX_MHZ c) && s.reg R.CLK_TC_MAX_MHZ c % 25 == 0) &&
  within 85 120 (s.reg R.CLK_THERM_CFG_T_THROT) && within 100 125 (s.reg R.CLK_THERM_CFG_T_TRIP) &&
  decide (s.reg R.CLK_THERM_CFG_T_THROT + 5 ≤ s.reg R.CLK_THERM_CFG_T_TRIP)

/-- TC.CHK_TOL and CHK_ABS (Table 7.10): −0 stands, other codes below zero and non-finite ones do not. -/
def State.tcOk (s : State) (n : Nat) : Bool :=
  (List.range 4).all fun t =>
    s.reg R.TC_CHK_TOL_FAC n t != 0 && (s.reg R.TC_CHK_ABS_ABS n t == 0x80000000 || decide (s.reg R.TC_CHK_ABS_ABS n t < 0x7F800000))

/-- RST.CFG and WD_CFG (Table 16.10, R591). -/
def State.rstOk (s : State) : Bool :=
  s.reg R.RST_CFG_ESC_M != 0 && within 1 3600 (s.reg R.RST_CFG_ESC_W) && within 1 1000 (s.reg R.RST_WD_CFG_THREAD_US) &&
  within 10 10000 (s.reg R.RST_WD_CFG_NET_US)

/-- TIME.CFG (Table 2.6). -/
def State.timeOk (s : State) : Bool := decide (s.reg R.TIME_CFG_ACQ_WAIT ≤ 100) && s.reg R.TIME_CFG_HOLD_LIMIT != 0

/-- The REACT settings of class-N sources, and the pair modes (R552, R563, Table 15.4). -/
def State.safeOk (s : State) : Bool :=
  ((List.range 256).all fun x => s.reg R.SAFE_FAULT_CFG_CLASS x != 2 || decide (s.reg R.SAFE_FAULT_CFG_REACT x ≤ 1)) &&
  (List.range 8).all fun p =>
    let mode := s.reg R.SAFE_PAIR_CFG_MODE p
    mode != 3 && (mode == 2 || s.reg R.SAFE_PAIR_CFG_SPLIT_EVT p == 0) &&
    (mode == 0 || (match s.pairPart p with
      | some part => !bit (safetyParts (s.sec 0xD)) part
      | none => false))

/-- The ranges of random streams (R408) or of slots (R443): apart, below 128, and of partitions that the engine serves. -/
def State.rangesServed (s : State) (first count : RegRow) (engine : Nat) : Bool :=
  let rs := (List.range 4).map fun p => (s.reg first p, s.reg count p)
  apart rs && (List.range 4).all fun p => s.reg count p == 0 ||
    (decide (s.reg first p + s.reg count p ≤ 128) && (s.part p).isSome && bit (s.partEngines p) engine)

/-! ### Embedding tables (R374) -/

/-- Address and count of a partition's descriptor array. -/
def State.embArray (s : State) (p : Nat) : Nat × Nat :=
  (s.reg R.EMB_DESC_LO_BASE_LO p + 2 ^ 32 * s.reg R.EMB_DESC_HI_BASE_HI p, s.reg R.EMB_DESC_HI_COUNT p)

/-- A partition's descriptors as the PLACE section that holds the array carries them. -/
def State.embPlaced (s : State) (m : Image) (p : Nat) : List (List Byte) :=
  let a := s.embArray p
  match m.places.find? fun x => decide (x.2.1 ≤ a.1 ∧ a.1 + 64 * a.2 ≤ x.2.1 + x.2.2.length) with
  | some x => (List.range a.2).map fun t => slice x.2.2 (a.1 - x.2.1 + 64 * t) 64
  | none => []

/-- A descriptor lies within Table 10.1, reserved bits included. -/
def embDescOk (d : List Byte) : Bool :=
  let w1 := field d 8 8
  let w2 := field d 16 8
  let dim := bits w2 14 0
  let int4 := bit w1 40
  let pb := if int4 then dim / 2 else dim
  decide (field d 0 8 < 2 ^ 48) && field d 0 8 % 64 == 0 && bits w1 39 0 != 0 && w1 / 2 ^ 41 == 0 && !bit w2 15 && w2 / 2 ^ 48 == 0 &&
  (if int4 then within 8 16384 dim && dim % 2 == 0 else within 4 8192 dim) && pb % 4 == 0 && within 4 8192 pb &&
  bits w2 47 16 % 4 == 0 && within (pb + 4) 65536 (bits w2 47 16) &&
  decide (field d 24 8 < 2 ^ 48) && field d 24 8 % 64 == 0 && (field d 32 4 != 0 || field d 24 8 == 0) &&
  decide (field d 32 4 ≤ bits w1 39 0) && field d 36 4 == 0 && zeroAt d [(40, 24)]

def embTable (d : List Byte) : Nat × Nat := (field d 0 8, bits (field d 8 8) 39 0 * bits (field d 16 8) 47 16)
def embHot (d : List Byte) : Nat × Nat := (field d 24 8, field d 32 4 * bits (field d 16 8) 47 16)

/-- The rules of R374. -/
def State.embOk (s : State) (m : Image) : Bool :=
  let all := (List.range 4).flatMap fun p => s.embPlaced m p
  decide (((List.range 4).map fun p => (s.embArray p).2).sum ≤ 64) &&
  (List.range 4).all fun p =>
    let a := s.embArray p
    a.2 == 0 || (a.1 % 64 == 0 && decide (a.2 ≤ 64) && (s.part p).isSome && bit (s.partEngines p) 4 && (s.embPlaced m p).length == a.2 &&
      (s.embPlaced m p).all fun d =>
        let hot := embHot d
        embDescOk d && granted (partRegions (s.sec 5) p) (embTable d).1 (embTable d).2 false &&
        (hot.2 == 0 || (s.ownGranules p hot.1 hot.2 && granted (partRegions (s.sec 5) p) hot.1 hot.2 false)) &&
        all.all fun x => !overlaps hot.1 hot.2 (embTable x).1 (embTable x).2)

/-! ### Fusion groups (R62, R250, R570) -/

/-- The owning partition and the SAFETY bit of a member's source, where the source exists (Table 2.3). -/
def State.memberSource (s : State) (kind n : Nat) : Option (Nat × Bool) :=
  match kind with
  | 0 => (s.streamEntry n).bind fun e => if strKind e = 3 then none else some (field e 0x3E 1, bit (field e 0xB 1) 1)
  | 1 => (s.streamEntry n).bind fun e => if strKind e = 3 then some (field e 0x3E 1, bit (field e 0xB 1) 1) else none
  | 2 => (s.lidarEntry n).map fun e => (field e 1 1, bit (field e 0x21 1) 0)
  | 3 => (s.capEntry n).map fun e => (field e 1 1, true)
  | 4 => (s.chanEntry n).map fun e => (field e 0x65 1, bit (field e 3 1) 1)
  | _ => none

/-- Members of a group: kind, source and offset. -/
def State.members (s : State) (g : Nat) : List (Nat × Nat × Int) :=
  ((List.range 8).filter fun m => s.flag R.TIME_FG_MEMBER_USED g m).map fun m =>
    (s.reg R.TIME_FG_MEMBER_KIND g m, s.reg R.TIME_FG_MEMBER_SOURCE g m, signed 32 (s.reg R.TIME_FG_MOFS_OFFSET g m))

/-- The rules of R62 for one enabled group. -/
def State.groupOk (s : State) (g : Nat) : Bool :=
  let p := s.reg R.TIME_FG_PERIOD_P g
  let w := s.reg R.TIME_FG_WINDOW_W g
  let part := s.reg R.TIME_FG_CFG_PART g
  let q := s.reg R.TIME_FG_CFG_QUEUE g
  let ms := s.members g
  within 1000000 1000000000 p && decide (s.reg R.TIME_FG_PHASE_PHASE g < p) && within 1000 p w &&
  decide (w ≤ 2 * s.reg R.TIME_FG_DEADLINE_D g ∧ s.reg R.TIME_FG_DEADLINE_D g ≤ 2 * p) &&
  decide (s.reg R.TIME_FG_HOLD_HOLD_MAX g ≤ 4 * p) && s.flag R.TIME_FG_MEMBER_USED g 0 &&
  ((List.range 7).all fun m => s.flag R.TIME_FG_MEMBER_USED g m || !s.flag R.TIME_FG_MEMBER_USED g (m + 1)) &&
  distinct (ms.map fun m => 256 * m.1 + m.2.1) &&
  (ms.all fun m => decide (-(p : Int) ≤ m.2.2 ∧ m.2.2 ≤ p) && (match s.memberSource m.1 m.2.1 with
    | some x => x.1 == part
    | none => false)) &&
  s.queueIs q 1 part && (match s.queueEntry q with
    | some e => field e 0xD 1 == 1
    | none => false)

/-- The rules of R62 and R570 for every enabled group. -/
def State.groupsOk (s : State) : Bool :=
  let safety := ((cabinEntries (s.sec 0xD)).filter fun e => decide (cabinFn e ≤ 1)).foldl (fun m e => m ||| cabinGroups e) 0
  (List.range 32).all fun g => !s.flag R.TIME_FG_CFG_ENABLE g ||
    (s.groupOk g && (!bit safety g || (s.members g).all fun m => match s.memberSource m.1 m.2.1 with
      | some x => x.2
      | none => true))

end Sys2Proof.Machine
end

