-- ==== Sys2Proof/Machine/JudgeComet.lean ====
section
/-!
DEFINITION. Content rules of the COMET section and of the tables that PLACE sections carry (R427, R428, R441).
-/

namespace Sys2Proof.Machine

open Sys2Proof

/-! ### Where tables lie (R428) -/

/-- What a PLACE section carries for the extent `[a, a + n)`, if one holds it all. -/
def Image.placed (m : Image) (a n : Nat) : Option (List Byte) :=
  match m.places.find? fun x => decide (x.2.1 ≤ a ∧ a + n ≤ x.2.1 + x.2.2.length) with
  | some x => some (slice x.2.2 (a - x.2.1) n)
  | none => none

/-- A table's extent lies wholly inside a PLACE destination in Comet memory below the slot table, or a PLACE or WEIGHTS destination in
a DRAM region that every partition of the mask may read. -/
def State.tableAt (s : State) (m : Image) (pmask a n : Nat) : Bool :=
  let holds (r : Nat × Nat) : Bool := decide (r.1 ≤ a ∧ a + n ≤ r.1 + r.2)
  let dram := decide (a + n ≤ s.dramSize) && (List.range 4).all fun p => !bit pmask p || granted (partRegions (s.sec 5) p) a n false
  let place := m.places.any fun x => holds (x.2.1, x.2.2.length)
  let weight := m.weights.any fun w => holds (field w.2 0x18 8, field w.2 0x10 8)
  a % 64 == 0 && decide (a < 2 ^ 48) &&
  (n == 0 || (place && decide (cometMem ≤ a ∧ a + n ≤ cometMem + 0x5F0000)) || ((place || weight) && dram))

/-- A content rule of a table, judged where a PLACE section carries it. -/
def Image.judgeTable (m : Image) (a n : Nat) (ok : List Byte → Bool) : Bool :=
  match m.placed a n with
  | some b => ok b
  | none => true

def words4 (b : List Byte) : List Nat := (List.range (b.length / 4)).map fun i => field b (4 * i) 4

/-- An FP32 code that is finite. -/
def fp32Finite (w : Nat) : Bool := bits w 30 23 != 255

/-! ### Normalisation table (Table 12.5) -/

def poolSequenceOk (b : List Byte) (pool words i : Nat) : Bool :=
  let n := field b (pool + 4 * i) 4
  decide (i < words) && within 1 16 n && decide (i + 1 + n ≤ words) &&
  (List.range n).all fun k => codePoint (field b (pool + 4 * (i + 1 + k)) 4)

def normEntryOk (b : List Byte) (pool words e : Nat) : Bool :=
  let v := bits e 20 0
  bits e 23 21 == 0 && bits e 27 26 == 0 &&
  match bits e 25 24 with
  | 1 => codePoint v
  | 2 => poolSequenceOk b pool words v
  | _ => v == 0

def normOk (b : List Byte) : Bool :=
  let pages := field b 0x22 2
  let words := field b 0x24 4
  let pool := 0x4440 + 1024 * pages
  decide (0x4440 ≤ b.length) && within 16 1024 (field b 0x20 2) && decide (pages ≤ 4352) && b.length == pool + 4 * words && zeroAt b [(0x28, 24)] &&
  ((List.range 4352).all fun i => decide (field b (0x40 + 4 * i) 4 ≤ pages)) &&
  (List.range (256 * pages)).all fun i => normEntryOk b pool words (field b (0x4440 + 4 * i) 4)

/-! ### Vocabularies (Tables 12.3 to 12.7) -/

/-- Offsets start at 0, do not fall, end within the pool, and cut pieces of at most 255 bytes. -/
def piecesOk (pool : Nat) (os : List Nat) : Bool :=
  os.headD 1 == 0 && decide (os.getLastD 0 ≤ pool) && (os.zip os.tail).all fun x => decide (x.1 ≤ x.2 ∧ x.2 ≤ x.1 + 255)

/-- Whether a token is SPECIAL, where a PLACE section carries ATTR. -/
def Image.special (m : Image) (e : List Byte) (t : Nat) : Option Bool :=
  (m.placed (field e 0x48 8) (field e 8 4)).map fun b => field b t 1 == 1

/-- The piece of a token, where PLACE sections carry PIECES and POOL. -/
def Image.pieceOf (m : Image) (e : List Byte) (t : Nat) : Option (List Byte) :=
  match m.placed (field e 0x30 8) (4 * (field e 8 4 + 1)), m.placed (field e 0x38 8) (field e 0x40 4) with
  | some os, some pool => let o := field os (4 * t) 4; some (slice pool o (field os (4 * t + 4) 4 - o))
  | _, _ => none

def Image.phashEntryOk (m : Image) (e : List Byte) (w : Nat) : Bool :=
  let t := bits w 49 32
  w == 2 ^ 64 - 1 ||
    (w / 2 ^ 50 == 0 && decide (t < field e 8 4) && m.special e t != some true && (match m.pieceOf e t with
      | some bs => fnv1a bs == bits w 31 0
      | none => true))

def mergeEntryOk (tokens : Nat) (b : List Byte) : Bool :=
  let w0 := field b 0 8
  let w1 := field b 8 8
  bits w1 31 0 == 0xFFFFFFFF ||
    (bits w0 31 18 == 0 && w0 / 2 ^ 50 == 0 && w1 / 2 ^ 50 == 0 && decide (bits w0 17 0 < tokens ∧ bits w0 49 32 < tokens ∧ bits w1 49 32 < tokens))

/-- The fields of a vocabulary descriptor lie within Table 12.3. -/
def vocabFieldsOk (e : List Byte) : Bool :=
  let unigram := field e 1 1 == 1
  let flags := field e 2 1
  let tokens := field e 8 4
  let usesHash := unigram || !bit flags 0
  let isToken (o : Nat) : Bool := decide (field e o 4 < tokens)
  let orNone (o : Nat) : Bool := isToken o || field e o 4 == noToken
  decide (field e 0 1 ≤ 7 ∧ field e 1 1 ≤ 1 ∧ flags < 32 ∧ field e 4 1 < 16) && (!unigram || !bit flags 0) &&
  (if unigram then within 1 64 (field e 3 1) else field e 3 1 == 0) &&
  (if usesHash then within 4 24 (field e 5 1) else field e 5 1 == 0 && field e 0x50 8 == 0) &&
  (if unigram then field e 6 1 == 0 && field e 0x58 8 == 0 else within 4 24 (field e 6 1) && field e 0x60 8 == 0) &&
  within 256 262144 tokens && orNone 0xC && isToken 0x10 && isToken 0x14 && (isToken 0x18 || (field e 0x18 4 == noToken && bit flags 1)) &&
  (if bit flags 1 then decide (field e 0x1C 4 + 255 < tokens) else field e 0x1C 4 == noToken) &&
  (if bit flags 4 then codePoint (field e 0x20 4) else field e 0x20 4 == 0) &&
  (if unigram then fp32Finite (field e 0x24 4) else field e 0x24 4 == 0) && (bit flags 0 || field e 0x68 8 == 0)

/-- The tables of a vocabulary: offset of the address in the descriptor, size, and the content rule. -/
def Image.vocabTables (m : Image) (e : List Byte) : List (Nat × Nat × (List Byte → Bool)) :=
  let unigram := field e 1 1 == 1
  let bytes := bit (field e 2 1) 0
  let tokens := field e 8 4
  [(0x28, field e 0x44 4, normOk), (0x30, 4 * (tokens + 1), fun b => piecesOk (field e 0x40 4) (words4 b)),
   (0x38, field e 0x40 4, fun _ => true), (0x48, tokens, fun b => b.all fun x => decide (x.toNat ≤ 1))] ++
  (if unigram || !bytes then [(0x50, 8 * 2 ^ field e 5 1, fun b => (entries 8 b).all fun w => m.phashEntryOk e (leNat w))] else []) ++
  (if unigram then [(0x60, 4 * tokens, fun b => (words4 b).all fp32Finite)]
   else [(0x58, 16 * 2 ^ field e 6 1, fun b => (entries 16 b).all (mergeEntryOk tokens))]) ++
  (if bytes then [(0x68, 1024, fun b => (words4 b).all fun t => decide (t < tokens) && m.special e t != some true)] else [])

/-- A vocabulary descriptor and its tables (R428). -/
def State.vocabOk (s : State) (m : Image) (e : List Byte) : Bool :=
  let pmask := field e 4 1
  let mustBe (o : Nat) : Bool := field e o 4 == noToken || m.special e (field e o 4) != some false
  vocabFieldsOk e && ((List.range 4).all fun p => !bit pmask p || ((s.part p).isSome && bit (s.partEngines p) 6)) &&
  ((m.vocabTables e).all fun t => s.tableAt m pmask (field e t.1 8) t.2.1 && m.judgeTable (field e t.1 8) t.2.1 t.2.2) &&
  mustBe 0xC && mustBe 0x10 && mustBe 0x14 &&
  (!bit (field e 2 1) 1 || (List.range 256).all fun k => m.special e (field e 0x1C 4 + k) != some true)

/-! ### Grammars (Tables 12.9 and 12.11) -/

def stateEntryOk (e b : List Byte) : Bool :=
  let w0 := field b 0 8
  let w1 := field b 8 8
  bits w0 31 20 == 0 && w0 / 2 ^ 48 == 0 && w1 / 2 ^ 48 == 0 &&
  (bits w0 19 0 == 0xFFFFF || decide (bits w0 19 0 < field e 0x24 4)) && decide (bits w0 47 32 < field e 4 4) &&
  decide (bits w1 31 0 + bits w1 47 32 ≤ field e 0x20 4)

def transEntryOk (e : List Byte) (tokens w : Nat) : Bool :=
  w / 2 ^ 52 == 0 && decide (bits w 17 0 ≤ bits w 35 18 ∧ bits w 35 18 < tokens ∧ bits w 51 36 < field e 4 4)

/-- Transitions in increasing order of LO that do not overlap. -/
def transRise (ws : List Nat) : Bool := (ws.zip ws.tail).all fun x => decide (bits x.1 35 18 < bits x.2 17 0)

/-- The transitions of every state, where PLACE sections carry both tables. -/
def Image.transOk (m : Image) (e : List Byte) : Bool :=
  match m.placed (field e 8 8) (16 * field e 4 4), m.placed (field e 0x10 8) (8 * field e 0x20 4) with
  | some st, some tr => (entries 16 st).all fun x =>
      transRise ((List.range (field x 12 2)).map fun i => field tr (8 * (field x 8 4 + i)) 8)
  | _, _ => true

/-- A grammar descriptor and its tables (R441). -/
def State.grammarOk (s : State) (m : Image) (e : List Byte) : Bool :=
  match (vocabEntries (s.sec 0xB)).find? fun v => field v 0 1 == field e 1 1 with
  | none => false
  | some v =>
    let tokens := field v 8 4
    let pmask := field e 2 1
    let mb := maskBytes tokens
    let tables : List (Nat × Nat × (List Byte → Bool)) :=
      [(8, 16 * field e 4 4, fun b => (entries 16 b).all (stateEntryOk e)),
       (0x10, 8 * field e 0x20 4, fun b => (entries 8 b).all fun w => transEntryOk e tokens (leNat w)),
       (0x18, mb * field e 0x24 4, fun b => (entries mb b).all fun x => decide (leNat x < 2 ^ tokens))]
    decide (field e 0 1 ≤ 63 ∧ pmask < 16) && pmask &&& field v 4 1 == pmask && within 1 65536 (field e 4 4) &&
    decide (field e 0x20 4 ≤ 16777216 ∧ field e 0x24 4 ≤ 1048575) &&
    (tables.all fun t => s.tableAt m pmask (field e t.1 8) t.2.1 && m.judgeTable (field e t.1 8) t.2.1 t.2.2) && m.transOk e

/-- Reserved fields of a COMET section. -/
def cometReserved (b : List Byte) : Bool :=
  zeroAt b [(2, 14)] && ((vocabEntries b).all fun e => zeroAt e [(7, 1), (0x70, 16)]) &&
  (grammarEntries b).all fun e => zeroAt e [(3, 1), (0x28, 8)]

/-- The content rules of the COMET section (R427, R428, R441). -/
def State.cometOk (s : State) (m : Image) : Bool :=
  let b := s.sec 0xB
  if m.sections 0xB = [] then (List.range 4).all fun p => !bit (s.partEngines p) 6
  else decide (16 ≤ b.length) && within 1 8 (field b 0 1) && decide (field b 1 1 ≤ 64) &&
    b.length == 16 + 128 * field b 0 1 + 48 * field b 1 1 &&
    rises ((vocabEntries b).map fun e => field e 0 1) && rises ((grammarEntries b).map fun e => field e 0 1) &&
    ((vocabEntries b).all fun e => s.vocabOk m e) && (grammarEntries b).all fun e => s.grammarOk m e

end Sys2Proof.Machine
end

