-- ==== Sys2Proof/Machine/Partitions.lean ====
section
/-!
DEFINITION. The partition family: the job watchdog, the deadlock detector, and intake control (R179, R185 to R198, R208 to
R219).
-/

namespace Sys2Proof.Machine

open Sys2Proof

/-! ### Watchdog and detector -/

/-- A job's elapsed time exceeds its BUDGET (R179): the JOB_WATCHDOG record, and the fault. -/
def execJobWatchdogExpire (dt p : Nat) (s : State) : Host.Outcome State Fault Refusal :=
  let s := s.elapse dt
  .next (match s.job? p with
    | some j =>
      let budget := s.reg R.PART_JOB_BUDGET_US p
      if j.initial = false ∧ j.fired = false ∧ usTicks budget < s.tick - j.start then
        let s := { s with jobs := s.jobs.map fun x : Nat × Job => if x.1 = p then (p, { x.2 with fired := true }) else x }
        let s := s.q2 (0x03 + 2 ^ 8 * p + 2 ^ 19 * s.reg R.PART_JOB_QUEUE p) (2 ^ 32 * budget) (s.jobElapsed p)
          (s.reg R.PART_JOB_SEQNO_SEQNO p)
        s.raise 0x1C p 0
      else s
    | none => s)

/-- The WAIT record of thread `t` of partition `p` (Table 5.10). -/
def State.waitRecord (s : State) (p t : Nat) : State :=
  let head := 0x02 + 2 ^ 8 * p + 2 ^ 10 * t + 2 ^ 16 * s.threadState t
  match s.blockedOn t with
  | some (e, g, thr, q, n) =>
    s.q2 (head + 2 ^ 19 * (q % 512)) (e + 2 ^ 12 * ofBool g + 2 ^ 13 * ofBool (s.eventExternal p e g) + 2 ^ 32 * thr)
      (s.event (eventIndex p e g)) n
  | none => s.q2 head 0 0 0

/-- The conditions of R208 have held for DL_TIME: records, and the fault, once until the next BRINGUP (R210). -/
def execDeadlockDetect (dt p : Nat) (s : State) : Host.Outcome State Fault Refusal :=
  let s := s.elapse dt
  let d : Deadlock := Sparse.get {} s.deadlocks p
  let limit := s.reg R.PART_DL_DL_TIME p
  .next (if p < 4 ∧ d.fired = false ∧ s.quiet p ∧ d.since.any (fun t => decide (t + usTicks limit ≤ s.tick)) then
      let ts := s.partThreads p
      let s := { s with deadlocks := Sparse.put {} s.deadlocks p { d with fired := true } }
      let s := s.q2 (0x01 + 2 ^ 8 * p + 2 ^ 28 * ts.length) (2 ^ 32 * limit) 0 0
      let s := ts.foldl (fun s t => s.waitRecord p t) s
      s.raise 0x1D p 0
    else s)

/-! ### Intake control -/

/-- A request as intake control takes it: its interface, its header and its body. -/
structure Request where
  iface : Nat
  hdr : List Byte
  body : List Byte
  deriving DecidableEq, Repr

def Request.word (r : Request) (i : Nat) : Nat := field r.hdr (8 * i) 8
def Request.type (r : Request) : Nat := bits (r.word 0) 7 0
def Request.routeNo (r : Request) : Nat := bits (r.word 0) 15 8
def Request.clientId (r : Request) : Nat := bits (r.word 0) 31 16
def Request.reqId (r : Request) : Nat := bits (r.word 0) 63 32
def Request.len (r : Request) : Nat := bits (r.word 1) 31 0

/-- Whether the on-chip network is in reset, so that intake control holds its requests (R588). -/
def State.netReset (s : State) : Bool :=
  match s.hub.reset with
  | .asserted _ => true
  | _ => false

/-- The interface whose request landed first; equal times go to the lower interface (R185, R213). -/
def State.intakeNext (s : State) : Option Nat :=
  let ready := (List.range 8).filter fun i => s.qState (8 + i) == qActive && (s.itemSlots (8 + i)).isSome
  let time := fun i => field (s.slot (8 + i) (s.rptr (8 + i))) 32 8
  ready.find? fun i => ready.all fun j => decide (time i < time j ∨ (time i = time j ∧ i ≤ j))

/-- The first request landed without a queue, unless the one at the front of the queue of interface `queued` landed earlier. -/
def State.intakeDirect (s : State) (queued : Option Nat) : Option (Nat × List Byte) :=
  match s.ifaces.direct, queued with
  | [], _ => none
  | x :: _, none => some x
  | x :: _, some i =>
    let t := field (s.slot (8 + i) (s.rptr (8 + i))) 32 8
    let u := field x.2 32 8
    if u < t ∨ (u = t ∧ x.1 ≤ i) then some x else none

/-- The next request and the state with its item released. -/
def State.intakeTake (s : State) : Option (Request × State) :=
  if s.netReset then none else
  let queued := if s.noQueues then none else s.intakeNext
  match s.intakeDirect queued, queued with
  | some (i, m), _ => some (⟨i, slice m 0 64, m.drop 64⟩, { s with ifaces.direct := s.ifaces.direct.tail })
  | none, none => none
  | none, some i =>
    let q := 8 + i
    let h := s.slot q (s.rptr q)
    let body := s.itemBody q (field h 8 4)
    match s.itemSlots q with
    | some n => some (⟨i, h, body⟩, s.release q n)
    | none => none

/-- An answer to a request with a status, DUPLICATE flag and body. -/
def State.reply (s : State) (r : Request) (status : Nat) (dup : Nat := 0) (body : List Byte := []) : State :=
  s.answer r.iface (r.word 0) status dup 0 body

/-- A request refused at a check (R190): counted. -/
def State.refuse (s : State) (r : Request) (status : Nat) : State :=
  (s.incReg R.PART_INTAKE_REFUSE_COUNT).reply r status

/-- Whether a type is a status read. -/
def statusRead (type : Nat) : Bool := decide (1 ≤ type ∧ type ≤ 3)

/-- A snapshot selector's form, but for the channels that Tide enables (Table 14.10). -/
def selectorForm (v : Nat) : Bool :=
  let kind := bits v 3 0
  decide (kind ≤ 5) && bits v 7 4 == 0 && bits v 15 12 == 0 && bits v 63 48 == 0 &&
  (if kind = 4 then decide (bits v 11 8 ≤ 6 ∨ bits v 11 8 = 9) else bits v 11 8 == 0) &&
  (kind == 5 || bits v 47 16 == 0)

/-- The form of a request of Table 5.7 (check 3). -/
def Request.form (r : Request) : Bool :=
  let a0 := r.word 2
  let a1 := r.word 3
  let count := decide (1 ≤ a1 ∧ a1 ≤ 64)
  bits (r.word 1) 63 35 == 0 && r.word 5 / 256 == 0 && r.word 6 == 0 && r.word 7 == 0 &&
  (r.type == 4 || r.routeNo == 0) &&
  (match r.type with
   | 1 => decide (a0 < 2 ^ 48 ∧ a0 % 4 = 0 ∧ regSpace ≤ a0 ∧ a0 + 4 * a1 ≤ regSpace + 0x1000000) && count
   | 2 => decide (a0 ≤ 2) && count
   | 3 => selectorForm a0 && a1 == 0
   | 4 => true
   | 5 => decide (a0 < 2 ^ 32) && a1 == 0
   | _ => false)

/-- Checks 1 to 3 of R190: the status of the first that fails, 0 if none does.  Check 2 is not made where no client table
is in force. -/
def State.judgeFirst (s : State) (r : Request) : Nat :=
  let svc := s.svc
  let cfgOnly := r.type == 1 && decide (windowOf (bits (r.word 2) 47 0) = 0 ∨ windowOf (bits (r.word 2) 47 0) = 6) &&
    decide (bits (r.word 2) 47 0 % 0x10000 + 4 * bits (r.word 3) 6 0 ≤ 0x10000)
  if svc = 4 ∧ ¬ cfgOnly then 0x0B
  else if svc ≠ 1 ∧ statusRead r.type = false then (if svc = 3 then 0x0A else if svc = 4 then 0x0B else 0x09)
  else if s.hasTables && !((s.client r.clientId).any fun c => bit (field c.2 2 1) r.iface) then 0x0C
  else if ¬ r.form then 0x0F
  else 0

/-- Checks 5 and 6 of R190. -/
def State.judgeRights (s : State) (r : Request) : Nat :=
  let c := match s.client r.clientId with | some c => c.2 | none => []
  let rights := field c 3 1
  let route := s.route r.routeNo
  let ok := match r.type with
    | 1 | 2 => bit rights 0
    | 3 => bit rights 1
    | 4 => route.isSome && bit (field c 4 8) r.routeNo
    | _ => true
  if s.hasTables && !ok then 0x0D
  else
    let max := if r.type = 4 then (match route with | some e => field e 0x0C 4 | none => 0) else 0
    if max < r.len then 0x0E else 0

/-- A request of a type of Table 5.7 taken from the front of intake control and judged: refused with the first failing
check, or handed on (R190).  `f` gets the request and the index of its client. -/
def State.intake (s : State) (type : Nat → Bool) (f : Request → Nat → State → State) : State :=
  match s.intakeTake with
  | none => s
  | some (r, s') =>
    if ¬ type r.type then s else
    let e := s'.judgeFirst r
    if e ≠ 0 then s'.refuse r e else
    f r ((s'.client r.clientId).map (·.1) |>.getD 0) s'

/-- Checks 5 and 6, then `f`. -/
def State.withRights (s : State) (r : Request) (f : State → State) : State :=
  let e := s.judgeRights r
  if e ≠ 0 then s.refuse r e else f s

/-- STATUS_READ (R198, R219): COUNT registers, or REG_DENIED. -/
def execStatusRead (dt : Nat) (s : State) : Host.Outcome State Fault Refusal :=
  .next ((s.elapse dt).intake (· == 1) fun r _ s => s.withRights r fun s =>
    let a := bits (r.word 2) 47 0
    let n := bits (r.word 3) 6 0
    let s := s.incReg R.PART_INTAKE_ACCEPT_COUNT
    if (List.range n).any fun i => !mapped (a + 4 * i) || closedWindow (a + 4 * i) then s.reply r 0x12
    else
      let v := s.readRegs a n
      v.2.reply r 0 0 (v.1.flatMap (leBytes 4)))

/-- LOG_READ (R198): the most recent records of Q0, Q1 or Q2, oldest first; nothing is consumed. -/
def execLogRead (dt : Nat) (s : State) : Host.Outcome State Fault Refusal :=
  .next ((s.elapse dt).intake (· == 2) fun r _ s => s.withRights r fun s =>
    let recs := s.logRecords (bits (r.word 2) 1 0)
    let n := bits (r.word 3) 6 0
    (s.incReg R.PART_INTAKE_ACCEPT_COUNT).reply r 0 0 (recs.drop (recs.length - n)).flatten)

/-- A request whose TYPE is none of Table 5.7 (R189). -/
def execUndefinedRequestType (dt : Nat) (s : State) : Host.Outcome State Fault Refusal :=
  .next ((s.elapse dt).intake (fun t => t == 0 || decide (5 < t)) fun r _ s => s.refuse r 0x0F)

/-! ### SUBMIT and ABORT (R191, R194, R195) -/

/-- The window entry of a request identifier (R194). -/
def State.entry? (s : State) (i req : Nat) : Option WinEntry := (s.window i).find? fun e => e.reqId == req

/-- A repeated identifier answered at once (R194); otherwise `f`. -/
def State.unlessDuplicate (s : State) (r : Request) (i : Nat) (f : State → State) : State :=
  match s.entry? i r.reqId with
  | some e => (s.incReg R.PART_INTAKE_DUP_COUNT).reply r (e.closed.getD 0x08) 1
  | none => f s

/-- The window holds 1024 entries and its oldest is open (check 7). -/
def State.windowBusy (s : State) (i : Nat) : Bool :=
  decide (1024 ≤ (s.window i).length) && (s.window i).head?.any (·.closed.isNone)

/-- An entry added to a window; the oldest is evicted from a full one. -/
def State.openEntry (s : State) (i : Nat) (e : WinEntry) : State :=
  let w := s.window i
  s.setWindow i ((if 1024 ≤ w.length then w.drop 1 else w) ++ [e])

/-- Open requests of a route. -/
def State.openOn (s : State) (route : Nat) : Nat :=
  ((List.range 64).map fun i =>
    ((s.window i).filter fun e => e.closed.isNone && !e.isAbort && e.route == route).length).sum

/-- The item of a request: its header and its padded body slots. -/
def Request.item (r : Request) : List (List Byte) :=
  r.hdr :: (List.range (ceilDiv r.body.length 64)).map fun i => slice r.body (64 * i) 64

/-- A request answered LOST and its entry closed (R196). -/
def State.loseRequest (s : State) (i req : Nat) : State :=
  match s.entry? i req with
  | some e => (s.closeEntry i e 0x11 0).incReg R.PART_INTAKE_LOST_COUNT
  | none => s

/-- Whether a queue lacks room for `n` slots, as check 7 judges it. -/
def State.lacksRoom (s : State) (q n : Nat) : Bool := decide (s.qFree q < n)

/-- An accepted SUBMIT: its entry, its item, and on a JOB route its call (R191). -/
def State.submit (s : State) (r : Request) (i : Nat) (e : List Byte) : State :=
  let q := field e 4 2
  let jq := field e 8 2
  let job := field e 2 1 == 1
  let s := s.incReg R.PART_INTAKE_ACCEPT_COUNT
  let seqno := s.reg R.QUE_SEQNO_NEXT jq + (s.untaken jq).length
  let s := s.openEntry i { reqId := r.reqId, route := r.routeNo, iface := r.iface, word0 := r.word 0, isAbort := false
                           seqno := if job then some seqno else none, itemQ := q, itemPtr := s.wptr q }
  let p := s.produce q r.item
  if ¬ p.1 then p.2.loseRequest i r.reqId
  else if job then
    let c := p.2.produce jq [wordsBytes [0x08, field e 0x10 8, field e 0x18 4, 0, 0, 0, 0, 0]]
    if c.1 then c.2 else c.2.loseRequest i r.reqId
  else p.2

/-- SUBMIT (R190, R191). -/
def execSubmit (dt : Nat) (s : State) : Host.Outcome State Fault Refusal :=
  .next ((s.elapse dt).intake (· == 4) fun r i s => s.unlessDuplicate r i fun s => s.withRights r fun s =>
    match s.route r.routeNo with
    | none => s.refuse r 0x0D
    | some e =>
      let busy := s.windowBusy i || decide (field e 0x1C 2 ≤ s.openOn r.routeNo) ||
        s.lacksRoom (field e 4 2) (1 + ceilDiv r.len 64) || (field e 2 1 == 1 && s.lacksRoom (field e 8 2) 1)
      if busy then s.refuse r 0x10 else s.submit r i e)

/-- ABORT (R195): by the state of the target's window entry. -/
def execAbort (dt : Nat) (s : State) : Host.Outcome State Fault Refusal :=
  .next ((s.elapse dt).intake (· == 5) fun r i s => s.unlessDuplicate r i fun s => s.withRights r fun s =>
    let target := s.entry? i (bits (r.word 2) 31 0)
    let route := match target with | some t => s.route t.route | none => none
    let q := match route with | some e => field e 4 2 | none => 0
    let jq := match route with | some e => field e 8 2 | none => 0
    let item := target.any fun t => t.closed.isNone && t.seqno.isNone
    if s.windowBusy i ∨ (item ∧ s.lacksRoom q 1) then s.refuse r 0x10 else
    let s := s.incReg R.PART_INTAKE_ACCEPT_COUNT
    let e : WinEntry := { reqId := r.reqId, route := (target.map (·.route)).getD 0, iface := r.iface, word0 := r.word 0
                          isAbort := true, itemQ := q, itemPtr := s.wptr q }
    let s := s.openEntry i e
    match target with
    | none => s.closeEntry i e 0x03 0
    | some t =>
      if t.closed.isSome then s.closeEntry i e 0x02 0
      else match t.seqno with
        | some n => let a := s.arbiter jq n; a.2.closeEntry i e a.1 0
        | none =>
          let p := s.produce q [r.hdr]
          if p.1 then p.2 else p.2.loseRequest i r.reqId)

/-- RESPONSE_ITEM (R192): the link engine takes the item at the front of a RES_QUEUE. -/
def execResponseItem (dt q : Nat) (s : State) : Host.Outcome State Fault Refusal :=
  let s := s.elapse dt
  .next (if s.applied ∧ s.netReset = false ∧ s.qState q = qActive then s.takeResponse q else s)

end Sys2Proof.Machine
end

