-- ==== Sys2Proof/Machine/Tide.lean ====
section
/-!
DEFINITION. Tide: samples and range pairs, cycles and disturbances, energy registers, latches and their persistence, pulses,
snapshots and the event log (R504 to R546).
-/

namespace Sys2Proof.Machine

open Sys2Proof

/-! ### The sealed body (Tables 14.2 to 14.6) -/

def tideChan (b : List Byte) (c : Nat) : List Byte := slice b (0x40 + 16 * c) 16
def tideKind (b : List Byte) (c : Nat) : Nat := field (tideChan b c) 0 1
def tideFs (b : List Byte) (c : Nat) : Nat := field (tideChan b c) 4 4
def tideWiring (b : List Byte) : Nat := field b 7 1
def tideNcyc (b : List Byte) : Nat := field b 8 2
def tide60 (b : List Byte) : Bool := bit (field b 6 1) 1
def tidePhases (b : List Byte) : Nat := if tideWiring b = 0 then 0 else if tideWiring b = 1 then 1 else 3
def tidePairE (b : List Byte) (j : Nat) : List Byte := slice b (0xE0 + 16 * j) 16
def tidePin (b : List Byte) (k : Nat) : List Byte := slice b (0x100 + 4 * k) 4
def tidePout (b : List Byte) (j : Nat) : List Byte := slice b (0x110 + 16 * j) 16

/-- An enabled AC channel (R530): kinds 1 to 4. -/
def tideAc (b : List Byte) (c : Nat) : Bool := decide (c < 10) && decide (1 ≤ tideKind b c ∧ tideKind b c ≤ 4)

/-- Weight of a whole sample. -/
def tideSample : Nat := 3 * 2 ^ 40

/-- Weight of a pseudo-cycle: 1 ÷ F_NOM at 8 kHz. -/
def tidePseudo (b : List Byte) : Nat := if tide60 b then 400 * 2 ^ 40 else 480 * 2 ^ 40

/-- Parts of one unit of an energy register in which the running registers are held. -/
def tideUnit : Nat := 86400 * 2 ^ 102

def State.tideRun (s : State) : Bool := s.flag R.MTR_STATUS_RUN

/-! ### Event log (R534, R539) -/

/-- The 32 bytes of an event entry (Table 14.11). -/
def tideEntry (index powerups : Nat) (e : TideEvent) : List Byte :=
  let b := leBytes 4 index ++ leBytes 4 powerups ++ leBytes 8 e.time ++ leBytes 1 e.code ++ leBytes 1 e.ch ++
    leBytes 1 e.quality ++ leBytes 1 0 ++ leBytes 4 e.value ++ leBytes 4 e.aux
  b ++ leBytes 4 (crc32 b)

/-- An event written at the next INDEX. -/
def State.tideWrite (s : State) (e : TideEvent) : State :=
  let i := s.reg R.MTR_EVT_COUNT_COUNT
  let s := { s with fram := setCellBytes s.fram (0x800 + 32 * (i % 256)) (tideEntry i (s.reg R.MTR_POWERUPS_COUNT) e) }
  s.setReg R.MTR_EVT_COUNT_COUNT (i + 1)

/-- Tide logs an event; one that comes while a supply-loss commit is under way is written after it. -/
def State.tideLog (s : State) (code ch value : Nat) (aux : Option Nat := none) : State :=
  if ¬ s.tideRun then s else
  let e : TideEvent := { code := code, ch := ch, value := value % 2 ^ 32, aux := (aux.getD (s.reg R.MTR_LATCH_SEQ_COUNT)) % 2 ^ 32
                         time := s.now, quality := s.quality }
  if s.framBusy then { s with tide.held := s.tide.held ++ [e] } else s.tideWrite e

/-- `num ÷ den` as a logged whole number, whose rounding is not stated. -/
def State.tideRound (s : State) (num den : Nat) : Nat × State :=
  if num % den = 0 then (num / den, s) else
  let (k, s) := s.freeBelow 2
  (num / den + k, s)

/-- A condition starts or ends, and is logged with its value or its duration in ms. -/
def State.tideCond (s : State) (code ch : Nat) (on : Bool) (value : Nat := 0) : State :=
  match s.tide.since.find? fun x => x.1 == (code, ch) with
  | none =>
    if on then ({ s with tide.since := s.tide.since ++ [((code, ch), s.tick)] }).tideLog code ch value else s
  | some x =>
    if on then s else
    let (ms, s) := ({ s with tide.since := s.tide.since.erase x }).tideRound (s.tick - x.2) 25000
    s.tideLog (code + 0x80) ch ms

/-- Whether a condition lasts. -/
def State.tideHas (s : State) (code ch : Nat) : Bool := s.tide.since.any fun x => x.1 == (code, ch)

/-! ### Commits (R522, R523, R538) -/

/-- The totals copy `i`, if it is valid: its 512 bytes. -/
def State.tideCopy (s : State) (i : Nat) : Option (List Byte) :=
  let b := cellBytes s.fram (0x200 * i) 512
  if field b 0 4 = 0x45444954 ∧ field b 4 2 = 1 ∧ field b 0x1FC 4 = crc32 (b.take 0x1FC) then some b else none

/-- The copy to write and the SEQ to give: not the valid one of highest SEQ. -/
def State.tideNext (s : State) : Nat × Nat :=
  match s.tideCopy 0, s.tideCopy 1 with
  | none, none => (0, 1)
  | some a, none => (1, field a 8 8 + 1)
  | none, some b => (0, field b 8 8 + 1)
  | some a, some b => if field a 8 8 < field b 8 8 then (0, field b 8 8 + 1) else (1, field a 8 8 + 1)

/-- Pending energy of output `j` in whole units of its source. -/
def State.tidePacc (s : State) (j : Nat) : Nat :=
  let c := field (tidePout s.tide.body j) 4 4
  if c = 0 then 0 else ((Sparse.get ({} : TideOut) s.tide.outs j).pend / ((c : Int) * tideUnit)).toNat

/-- Bytes 0x10 to 0x1FB of a totals record. -/
def State.tideTotals (s : State) (e pcnt : List Nat) : List Byte :=
  leBytes 8 (s.reg R.MTR_LATCH_SEQ_COUNT) ++ leBytes 4 (s.reg R.MTR_POWERUPS_COUNT) ++ leBytes 4 (s.reg R.MTR_SEAL_CRC) ++
  ((List.range 20).flatMap fun r =>
    let x := e.getD r 0
    leBytes 12 (x / tideUnit) ++ leBytes 4 (x % tideUnit * 2 ^ 32 / tideUnit)) ++
  ((List.range 4).flatMap fun k => leBytes 8 (pcnt.getD k 0)) ++ leBytes 8 (s.tidePacc 0) ++ leBytes 8 (s.tidePacc 1) ++
  List.replicate 108 0#8

/-- The pulse-input counts. -/
def State.tidePcnt (s : State) : List Nat := (List.range 4).map fun k => s.reg R.MTR_PCNT_COUNT k

/-- The first waiting commit begins. -/
def State.tideBegin (s : State) : State :=
  match s.tide.commits with
  | c :: l =>
    if c.begun.isSome then s else
    let (copy, seq) := s.tideNext
    { s with tide.commits := { c with begun := some (copy, seq, s.tick) } :: l }
  | [] => s

/-- A commit asked for: it begins when none is under way. -/
def State.tideCommit (s : State) (kind : Nat) (e pcnt : List Nat) : State :=
  let c : TideCommit := { kind := kind, body := s.tideTotals e pcnt }
  ({ s with tide.commits := s.tide.commits ++ [c] }).tideBegin

/-- A totals record is written and valid. -/
def execTideCommitComplete (dt : Nat) (s : State) : Host.Outcome State Fault Refusal :=
  let s := s.elapse dt
  .next (match s.tide.commits with
    | c :: l =>
      match c.begun with
      | some (copy, seq, t) =>
        let b := leBytes 4 0x45444954 ++ leBytes 2 1 ++ leBytes 1 c.kind ++ leBytes 1 0 ++ leBytes 8 seq ++ c.body
        let s := { s with fram := setCellBytes s.fram (0x200 * copy) (b ++ leBytes 4 (crc32 b)), tide.commits := l }
        let s := s.incReg R.MTR_COMMITS_COUNT
        let s :=
          if c.kind = 1 then
            let r := (s.incReg R.MTR_LOSS_COMMITS_COUNT).tideRound (s.tick - t) 25
            let s : State := r.2.tideLog 3 0 r.1
            (s.tide.held.foldl (fun (s : State) (e : TideEvent) => s.tideWrite e) { s with tide.held := [] }).plogFlush
          else s
        s.tideBegin
      | none => s
    | [] => s)

/-! ### Test pulse outputs (R527 to R529) -/

def State.tideOut (s : State) (j : Nat) : TideOut := Sparse.get {} s.tide.outs j
def State.setTideOut (s : State) (j : Nat) (x : TideOut) : State := { s with tide.outs := Sparse.put {} s.tide.outs j x }

/-- Whether an output's backlog runs over: its start, and its end logged with the backlog left. -/
def State.tideBacklog (s : State) (j : Nat) : State :=
  let n := ((s.tideOut j).pend / (10 ^ 12 * (tideUnit : Int))).toNat
  let was := bit (s.reg R.MTR_STATUS_PULSE_OVERRUN) j
  if 255 < n then s.setBit R.MTR_STATUS_PULSE_OVERRUN j true
  else if was then (s.setBit R.MTR_STATUS_PULSE_OVERRUN j false).tideLog 0x0E j n
  else s

/-- An idle output with a quantum pending drives a pulse. -/
def State.tideEmit (s : State) (j : Nat) : State :=
  let x := s.tideOut j
  let s :=
    if field (tidePout s.tide.body j) 0 1 = 1 ∧ x.busy = none ∧ 10 ^ 12 * (tideUnit : Int) ≤ x.pend then
      (s.setTideOut j { x with pend := x.pend - 10 ^ 12 * (tideUnit : Int), low := true, busy := some s.tick }).emit (.pulse j)
    else s
  s.tideBacklog j

/-- PW of an output has passed: an active one is released, and a released one is idle and takes the next pulse. -/
def execPulseOutputTimer (dt j : Nat) (s : State) : Host.Outcome State Fault Refusal :=
  let s := s.elapse dt
  let x := s.tideOut j
  let pw := msTicks (field (tidePout s.tide.body j) 2 1)
  .next (match x.busy with
    | some t =>
      if t + pw ≤ s.tick then
        if x.low then s.setTideOut j { x with low := false, busy := some s.tick }
        else (s.setTideOut j { x with busy := none }).tideEmit j
      else s
    | none => s)

/-- The increment of a P register that sums over `a` give (Table 14.7). -/
def tideIncP (a : TideAcc) (n r : Nat) : Nat :=
  let p := fun k => a.sums.getD (6 + k) 0
  let total := ((List.range n).map p).sum
  let dc := a.sums.getD 11 0
  match r with
  | 0 => total.toNat
  | 1 => (-total).toNat
  | 10 | 11 | 12 => (p (r - 10)).toNat
  | 13 | 14 | 15 => (-(p (r - 13))).toNat
  | 16 => dc.toNat
  | 17 => (-dc).toNat
  | 18 => total.toNat + dc.toNat
  | 19 => (-total).toNat + (-dc).toNat
  | _ => 0

/-- An output brought to the running increment of its register. -/
def State.tideShare (s : State) (j : Nat) (restart : Bool) : State :=
  let e := tidePout s.tide.body j
  let src := field e 1 1
  if field e 0 1 = 0 then s
  else if 2 ≤ src ∧ src ≤ 9 then s
  else
    let x := s.tideOut j
    let now : Int := tideIncP s.tide.energy (tidePhases s.tide.body) src
    s.setTideOut j { x with pend := x.pend + (now - x.given) * field e 4 4, given := if restart then 0 else now }

/-- A sample's share of an increment that R520 does not form from exact products: nothing in it is stated, and it is at most
what voltage and current together could give. -/
def State.tideLoose (s : State) (j : Nat) (products : List Int) : State :=
  let e := tidePout s.tide.body j
  let src := field e 1 1
  if field e 0 1 = 1 ∧ 2 ≤ src ∧ src ≤ 9 then
    let bound := ((List.range (tidePhases s.tide.body)).map fun p => (products.getD (6 + p) 0).natAbs).sum * tideSample
    let (k, s) := s.freeBelow (bound + 1)
    let x := s.tideOut j
    s.setTideOut j { x with pend := x.pend + k * field e 4 4 }
  else s

/-! ### Samples (R510 to R513) -/

/-- Weighted products added to sums. -/
def TideAcc.add (a : TideAcc) (w : Nat) (p : List Int) : TideAcc :=
  ⟨a.w + w, (List.range 16).map fun i => a.sums.getD i 0 + w * p.getD i 0⟩

/-- The sums with weight `w` of the last sample taken out. -/
def TideAcc.less (a : TideAcc) (w : Nat) (p : List Int) : TideAcc :=
  ⟨a.w - w, (List.range 16).map fun i => a.sums.getD i 0 - w * p.getD i 0⟩

/-- A calibrated sample: sat((x − OFFSET) × GAIN) in Q1.31 (R510). -/
def tideCal (b : List Byte) (c : Nat) (x : Int) : Int :=
  let e := tideChan b c
  let v := (x - signed 32 (field e 0xC 4)) * field e 8 4
  clampInt (-(2 ^ 31)) (2 ^ 31 - 1) ((v + 2 ^ 29) / 2 ^ 30)

/-- The samples of every channel after calibration: 0 in a fault (R507); a fractional delay and a coil's integration have an
error bound and no stated result, so what leaves them is a free value. -/
def State.tideCals (s : State) (xs : List Int) : List Int × State :=
  let b := s.tide.body
  (List.range 10).foldl (fun (r : List Int × State) c =>
    let s := r.2
    let k := tideKind b c
    if k = 0 ∨ s.flag R.MTR_STATUS_MCLK_FAULT ∨ bit (s.reg R.MTR_STATUS_CH_FAULT) c then (r.1 ++ [0], s)
    else if k = 4 ∨ (k < 5 ∧ field (tideChan b c) 2 2 ≠ 0) then
      let (v, s) := s.freeWithin (2 ^ 31 - 1)
      (r.1 ++ [v], s)
    else (r.1 ++ [tideCal b c (xs.getD c 0)], s)) ([], s)

def State.tidePair (s : State) (j : Nat) : TidePair := Sparse.get {} s.tide.pairs j

/-- A pair changed, with PAIR_HIGH. -/
def State.setTidePair (s : State) (j : Nat) (x : TidePair) : State :=
  ({ s with tide.pairs := Sparse.put {} s.tide.pairs j x }).setBit R.MTR_STATUS_PAIR_HIGH j x.high

/-- A sample of a pair: arming, and the switch at a sign change or forced (R513). -/
def State.tideSwitch (s : State) (j : Nat) (cal : List Int) : State :=
  let e := tidePairE s.tide.body j
  if field e 0 1 = 0 then s else
  let hi := cal.getD (field e 1 1) 0
  let lo := cal.getD (field e 2 1) 0
  let x := s.tidePair j
  let cur := if x.high then hi else lo
  let neg := decide (cur < 0)
  let turned := neg != x.neg
  if x.armed ∧ turned then
    (s.setTidePair j { x with high := !x.high, armed := false, low := 0, neg := neg }).incReg R.MTR_RANGE_SWITCHES_COUNT
  else if ¬ x.high ∧ 98 * 2 ^ 31 ≤ 100 * lo.natAbs then
    let (v, s) := (s.setTidePair j { x with high := true, armed := false, low := 0, neg := decide (hi < 0) }).tideRound
      (lo.natAbs * 1000) (2 ^ 31)
    (s.incReg R.MTR_RANGE_SWITCHES_COUNT).tideLog 0x0D j v
  else
    let up := !x.high && decide (field e 4 2 * 2 ^ 31 ≤ 1000 * lo.natAbs)
    s.setTidePair j { x with armed := x.armed || up, neg := neg }

/-- Physical value of a channel's sample: mV or mA × 2^−31. -/
def tidePhys (b : List Byte) (cal : List Int) (c : Nat) : Int := cal.getD c 0 * tideFs b c

/-- The channel that feeds the current of phase `p`. -/
def State.tideCurrent (s : State) (p : Nat) : Nat :=
  match (List.range 2).find? fun j =>
      field (tidePairE s.tide.body j) 0 1 == 1 && field (tidePairE s.tide.body j) 1 1 == 3 + p with
  | some j => if (s.tidePair j).high then 3 + p else field (tidePairE s.tide.body j) 2 1
  | none => 3 + p

/-- Whether a channel is the LOW of a pair. -/
def tideLow (b : List Byte) (c : Nat) : Bool :=
  (List.range 2).any fun j => field (tidePairE b j) 0 1 == 1 && field (tidePairE b j) 2 1 == c

/-- The products of a sample. -/
def State.tideProducts (s : State) (cal : List Int) : List Int :=
  let b := s.tide.body
  let n := tidePhases b
  let v := (List.range 3).map fun p => if p < n then tidePhys b cal p else 0
  let i := (List.range 3).map fun p => if p < n then tidePhys b cal (s.tideCurrent p) else 0
  let vd := tidePhys b cal 7
  let id := tidePhys b cal 8
  let sq := fun (c : Nat) => if tideLow b c then 0 else tidePhys b cal c ^ 2
  (v.map fun x => x ^ 2) ++ (i.map fun x => x ^ 2) ++ ((List.range 3).map fun p => v.getD p 0 * i.getD p 0) ++
    [vd, id, vd * id, sq 6, sq 9] ++
    (List.range 2).map fun j =>
      if field (tidePairE b j) 0 1 = 1 then tidePhys b cal (field (tidePairE b j) 1 1) ^ 2 else 0

/-- One 8 kHz sample: `xs` are the decimators' outputs by channel, in Q1.31. -/
def execMeterSample (dt : Nat) (xs : List Int) (s : State) : Host.Outcome State Fault Refusal :=
  let s := s.elapse dt
  .next (if s.tideRun then
      let (cal, s) := s.tideCals xs
      let s := (List.range 2).foldl (fun s j => s.tideSwitch j cal) s
      let p := s.tideProducts cal
      let (e, s) := s.freeWithin 500
      let s := { s with tide.cycle := s.tide.cycle.add tideSample p, tide.energy := s.tide.energy.add tideSample p, tide.last := p
                        tide.stamp := ((s.now : Int) - 1500000 + e).toNat, tide.quality := s.quality }
      (List.range 2).foldl (fun s j => ((s.tideShare j false).tideLoose j p).tideEmit j) s
    else s)

/-! ### Closing a cycle (R514 to R520) -/

/-- Re(V1 × conj I1) and Im(V1 × conj I1). -/
def tidePower (x : TidePhasor) : Int := x.vr * x.ir + x.vi * x.ii
def tideReactive (x : TidePhasor) : Int := x.vi * x.ir - x.vr * x.ii

/-- V_p × I_p × T, within the precision of R520. -/
def State.tideVa (s : State) (a : TideAcc) (p : Nat) : Nat × State :=
  let x := isqrt ((a.sums.getD p 0).toNat * (a.sums.getD (3 + p) 0).toNat)
  let (e, s) := s.freeWithin (x / 2 ^ 40)
  (((x : Int) + e).toNat, s)

/-- The 20 increments of Table 14.7 for sums and phasors. -/
def State.tideIncs (s : State) (a : TideAcc) (ph : List TidePhasor) : List Nat × State :=
  let n := tidePhases s.tide.body
  let p1 := ((ph.take n).map tidePower).sum * a.w
  let q1 := ((ph.take n).map tideReactive).sum * a.w
  let quad := if 0 ≤ q1 then (if 0 ≤ p1 then 4 else 5) else (if p1 < 0 then 6 else 7)
  let p := ((List.range n).map fun k => a.sums.getD (6 + k) 0).sum
  let (va, s) := (List.range n).foldl (fun (r : Nat × State) k => let x := r.2.tideVa a k; (r.1 + x.1, x.2)) (0, s)
  ((List.range 20).map fun r =>
    if r = 2 then p1.toNat
    else if r = 3 then (-p1).toNat
    else if 4 ≤ r ∧ r ≤ 7 then (if r = quad then q1.natAbs else 0)
    else if r = 8 then (if 0 ≤ p then va else 0)
    else if r = 9 then (if p < 0 then va else 0)
    else tideIncP a n r, s)

/-- The sums not yet in the registers added to them. -/
def State.tideFold (s : State) (ph : List TidePhasor) : State :=
  let s := (List.range 2).foldl (fun s j => s.tideShare j true) s
  let (l, s) := s.tideIncs s.tide.energy ph
  { s with tide.e := (List.range 20).map fun r => (s.tide.e.getD r 0 + l.getD r 0) % (2 ^ 96 * tideUnit)
           tide.energy := {} }

/-- A condition of R515 of phase `p` on its voltage: start below (or above) a threshold, end beyond it with hysteresis. -/
def State.tideVolt (s : State) (p : Nat) (v2 w : Nat) : State :=
  let b := s.tide.body
  let nom := field b 0xC 4
  let under := fun (t : Nat) => decide (v2 * 10 ^ 6 < (t * nom) ^ 2 * 2 ^ 62 * w)
  let above := fun (t : Nat) => decide ((t * nom) ^ 2 * 2 ^ 62 * w < v2 * 10 ^ 6)
  let sag := field b 0x10 2
  let swell := field b 0x12 2
  let intr := field b 0x14 2
  let hyst := field b 0x16 2
  let (m, s) := s.freeBelow 2
  let mille := isqrt (v2 * 10 ^ 6 / (w * 2 ^ 62)) / nom + m
  let step := fun (s : State) (code : Nat) (start stop : Bool) =>
    if s.tideHas code (p + 1) then (if stop then s.tideCond code (p + 1) false else s)
    else if start then s.tideCond code (p + 1) true mille else s
  let s := step s 0x0A (under intr) (above (intr + hyst))
  let s := step s 0x08 (under sag && !s.tideHas 0x0A (p + 1)) (above (sag + hyst))
  step s 0x09 (above swell) (under (swell - hyst))

/-- Whether the fundamental of V2 lies 0° to 180° ahead of that of V1 (R515). -/
def tideReverse (ph : List TidePhasor) : Bool :=
  match ph with
  | a :: b :: _ => decide (0 < b.vi * a.vr - b.vr * a.vi ∨ (b.vi * a.vr = b.vr * a.vi))
  | _ => false

/-- The phase sequence judged after a cycle. -/
def State.tideSequence (s : State) (ph : List TidePhasor) : State :=
  if tideWiring s.tide.body ≠ 2 then s else
  let is := s.tideHas 0x0C 0
  if tideReverse ph = is then { s with tide.seqDiffers := 0 }
  else if s.tide.seqDiffers < 4 then { s with tide.seqDiffers := s.tide.seqDiffers + 1 }
  else ({ s with tide.seqDiffers := 0 }).tideCond 0x0C 0 (!is)

/-- HIGH's RMS of a cycle judged for a down-switch (R513). -/
def State.tideDown (s : State) (j : Nat) (a : TideAcc) : State :=
  let e := tidePairE s.tide.body j
  if field e 0 1 = 0 then s else
  let x := s.tidePair j
  let h2 := (a.sums.getD (14 + j) 0).toNat
  let below := decide (h2 * 10 ^ 6 < (field e 6 2 * tideFs s.tide.body (field e 2 1)) ^ 2 * 2 ^ 62 * a.w)
  if ¬ x.high then s
  else if ¬ below then s.setTidePair j { x with low := 0, armed := false }
  else s.setTidePair j { x with low := x.low + 1, armed := x.armed || decide (field e 3 1 ≤ x.low + 1) }

/-- MTR.E and the live pulse counts at the close of a cycle. -/
def State.tideShow (s : State) : State :=
  let s := (List.range 20).foldl (fun s r => s.setReg R.MTR_E_NWH (s.tide.e.getD r 0 / tideUnit) r) s
  { s with tide.pcntLive := s.tidePcnt }

/-- The running cycle closes: the last sample belongs to it with weight `frac`.  A cycle that makes up NCYC leaves a latch due. -/
def State.tideClose (s : State) (frac mhz : Nat) (ph : List TidePhasor) : State :=
  let rest := tideSample - min frac tideSample
  let p := s.tide.last
  let a := s.tide.cycle.less rest p
  let s := ({ s with tide.energy := s.tide.energy.less rest p }).tideFold ph
  let s := { s with tide.quant := some ⟨a, ph, mhz⟩, tide.cycle := ({} : TideAcc).add rest p
                    tide.energy := ({} : TideAcc).add rest p, tide.window := s.tide.window + 1 }
  let s := (List.range 2).foldl (fun s j => (s.tideShare j false).tideDown j a) s
  let s := (List.range (tidePhases s.tide.body)).foldl (fun s k => s.tideVolt k (a.sums.getD k 0).toNat a.w) s
  let s := ((s.tideSequence ph).tideShow).tmuxPulse 0x0E 0
  let s := s.setReg R.MTR_LATCH_CYC_COUNT (s.reg R.MTR_LATCH_CYC_COUNT + 1)
  if s.reg R.MTR_LATCH_CYC_COUNT = tideNcyc s.tide.body then
    { s with tide.due := some { e := s.tide.e, pcnt := s.tidePcnt, taken := s.tide.stamp, quality := s.tide.quality
                                cycles := s.reg R.MTR_LATCH_CYC_COUNT } }
  else s

/-- A line cycle ends at a zero crossing, at `frac` of the last sample; a pseudo-cycle ends after 1 ÷ F_NOM.  `mhz` is the tracked
frequency and `ph` the fundamental phasors, which the tracking and resampling of R514 and R516 give within an error bound. -/
def execCycleClose (dt frac mhz : Nat) (ph : List TidePhasor) (s : State) : Host.Outcome State Fault Refusal :=
  let s := s.elapse dt
  .next (if s.tideRun then
      if s.flag R.MTR_STATUS_MAINS_LOCK then
        if 44500 ≤ mhz ∧ mhz ≤ 66500 ∧ tideSample < s.tide.cycle.w + frac then
          (s.tideClose frac mhz ph).setReg R.MTR_FREQ_MHZ mhz
        else s
      else if tidePseudo s.tide.body ≤ s.tide.cycle.w then
        s.tideClose (tideSample - min tideSample (s.tide.cycle.w - tidePseudo s.tide.body)) 0 ph
      else s
    else s)

/-- The tracker gains lock, at the zero crossing that begins the first line cycle, or loses it: the running cycle closes. -/
def execMainsLockChange (dt : Nat) (gained : Bool) (frac mhz : Nat) (ph : List TidePhasor) (s : State) :
    Host.Outcome State Fault Refusal :=
  let s := s.elapse dt
  .next (if s.tideRun ∧ tideWiring s.tide.body ≠ 0 ∧ s.flag R.MTR_STATUS_MAINS_LOCK ≠ gained then
      if gained then
        if 45000 ≤ mhz ∧ mhz ≤ 66000 then
          let s := { s.tideClose frac mhz ph with tide.windowBad := true }
          ((s.setReg R.MTR_STATUS_MAINS_LOCK 1).setReg R.MTR_FREQ_MHZ mhz).tideLog 0x8B 0 mhz
        else s
      else
        let last := s.reg R.MTR_FREQ_MHZ
        let s := { s.tideClose tideSample last ph with tide.windowBad := true }
        ((s.setReg R.MTR_STATUS_MAINS_LOCK 0).setReg R.MTR_FREQ_MHZ 0).tideLog 0x0B 0 last
    else s)

/-- A window of 10 or 12 cycles completes (R517): by channel the RMS and phase of harmonics 1 to 50, and by phase THD_V, THD_I and
Q, as FP32 codes. -/
def execHarmonicWindow (dt : Nat) (harm : List (Nat × List (Nat × Nat))) (derived : List (Nat × Nat × Nat)) (s : State) :
    Host.Outcome State Fault Refusal :=
  let s := s.elapse dt
  let n := if tide60 s.tide.body then 12 else 10
  .next (if s.tideRun ∧ n ≤ s.tide.window then
      let bad := s.tide.windowBad
      let s := { s with tide.window := s.tide.window - n, tide.windowBad := false }
      if bad then s
      else { s with tide.harm := harm.filter fun x => tideAc s.tide.body x.1
                    tide.derived := derived.take (tidePhases s.tide.body) }
    else s)

/-! ### Latches (R521, R535, R540) -/

/-- The latch due is published. -/
def State.tideTake (s : State) (d : TideLatch) : State :=
  let s := s.setReg R.MTR_LATCH_SEQ_COUNT (s.reg R.MTR_LATCH_SEQ_COUNT + 1)
  let s := { s with tide.due := none, tide.latched := { d with seq := s.reg R.MTR_LATCH_SEQ_COUNT } }
  s.setReg R.MTR_LATCH_CYC_COUNT (s.reg R.MTR_LATCH_CYC_COUNT - d.cycles)

/-- A body put in force. -/
def State.tideAdopt (s : State) (b : List Byte) (crc : Nat) : State :=
  let old := s.tide.body
  let s := { s with tide.body := b, tide.pairs := [], tide.next := none, boot.sealBefore := none }
  let s := (s.setReg R.BOOT_SEAL_CRC_CRC crc).setReg R.BOOT_STATUS_SEALED 1
  let s := ((s.setReg R.MTR_SEAL_CRC crc).setReg R.MTR_LATCH_CFG_NCYC (tideNcyc b)).setReg R.MTR_LATCH_CFG_WIRING (tideWiring b)
  let s := s.setReg R.MTR_LATCH_CFG_F_NOM (ofBool (tide60 b))
  let s := (List.range 2).foldl (fun s j =>
    let s := s.setBit R.MTR_STATUS_PAIR_HIGH j (field (tidePairE b j) 0 1 == 1)
    let x := s.tideOut j
    let c := field (tidePout old j) 4 4
    let on := field (tidePout b j) 0 1 == 1
    s.setTideOut j { x with pend := if c = 0 then 0 else x.pend * field (tidePout b j) 4 4 / c
                            low := on && x.low, given := 0 }) s
  if tideWiring b = 0 then (s.setReg R.MTR_STATUS_MAINS_LOCK 0).setReg R.MTR_FREQ_MHZ 0 else s

/-- The latch of the NCYC-th cycle: published and committed, or with a seal change taken up. -/
def execLatch (dt : Nat) (s : State) : Host.Outcome State Fault Refusal :=
  let s := s.elapse dt
  .next (match s.tide.due with
    | some d =>
      let s := s.tideTake d
      match s.tide.next with
      | none => s.tideCommit 0 d.e d.pcnt
      | some (b, crc) =>
        let old := s.reg R.MTR_SEAL_CRC
        let s := (s.tideCommit 2 s.tide.e s.tidePcnt).tideLog 2 0 crc (some old)
        s.tideAdopt b crc
    | none => s)

/-- The supply-loss commit (R524, R538, R540). -/
def State.tideLoss (s : State) : State :=
  if ¬ s.tideRun ∨ s.framBusy then s else
  let s := match s.tide.due with
    | some d => s.tideTake d
    | none => s
  let ph := match s.tide.quant with
    | some q => q.phasors
    | none => []
  let s := s.tideFold ph
  let c : TideCommit := ⟨1, s.tideTotals s.tide.e s.tidePcnt, none⟩
  match s.tide.commits with
  | d :: l =>
    match d.begun with
    | some (copy, seq, _) => { s with tide.commits := { c with begun := some (copy, seq, s.tick) } :: l }
    | none => ({ s with tide.commits := c :: d :: l }).tideBegin
  | [] => ({ s with tide.commits := [c] }).tideBegin

/-! ### Input faults (R507) -/

/-- MTR_MCLK misses 4 edges, or has run 10 ms without a miss. -/
def execMclkFault (dt : Nat) (on : Bool) (s : State) : Host.Outcome State Fault Refusal :=
  let s := s.elapse dt
  .next (if s.tideRun then (s.setReg R.MTR_STATUS_MCLK_FAULT (ofBool on)).tideCond 5 0 on else s)

/-- An enabled input shows no transition for 1 ms, or has shown transitions for 10 ms. -/
def execChannelFault (dt c : Nat) (on : Bool) (s : State) : Host.Outcome State Fault Refusal :=
  let s := s.elapse dt
  .next (if s.tideRun ∧ c < 10 ∧ tideKind s.tide.body c ≠ 0 then (s.setBit R.MTR_STATUS_CH_FAULT c on).tideCond 6 c on else s)

/-- An input's ones density over 10 ms lies outside 0.05 to 0.95, or within. -/
def execOverload (dt c : Nat) (on : Bool) (s : State) : Host.Outcome State Fault Refusal :=
  let s := s.elapse dt
  .next (if s.tideRun ∧ c < 10 ∧ tideKind s.tide.body c ≠ 0 then s.tideCond 7 c on else s)

/-! ### Pulse inputs (R526, R542) -/

def State.tideIn (s : State) (k : Nat) : TideIn := Sparse.get {} s.tide.ins k
def State.setTideIn (s : State) (k : Nat) (x : TideIn) : State := { s with tide.ins := Sparse.put {} s.tide.ins k x }

/-- A raw edge on a pulse input, `sub` ns into the tick: stamped, and its debounce begun again. -/
def execPulseInputEdge (dt k : Nat) (level : Bool) (sub : Nat) (s : State) : Host.Outcome State Fault Refusal :=
  let s := s.elapse dt
  .next (if k < 4 then
      let x := s.tideIn k
      let (t, s) := s.stamp sub 100
      s.setTideIn k { x with raw := level, since := s.tick
                             began := if level = x.level then none else some (x.began.getD t) }
    else s)

/-- A level stable for DEB ms is accepted; a change to the active level counts. -/
def execPulseInputAccept (dt k : Nat) (s : State) : Host.Outcome State Fault Refusal :=
  let s := s.elapse dt
  let e := tidePin s.tide.body k
  let x := s.tideIn k
  .next (if s.tideRun ∧ k < 4 ∧ bit (field e 0 1) 0 ∧ x.raw ≠ x.level ∧ x.since + msTicks (field e 1 1) ≤ s.tick then
      let active := x.raw != bit (field e 0 1) 1
      let s := s.setTideIn k { x with level := x.raw, began := none, stamp := if active then x.began.getD x.stamp else x.stamp }
      if active then s.incReg R.MTR_PCNT_COUNT k else s
    else s)

/-! ### Start (R104, R525, R535) -/

/-- One more than the highest INDEX among valid event entries (R534). -/
def State.tideEvents (s : State) : Nat :=
  (List.range 256).foldl (fun n i =>
    let b := cellBytes s.fram (0x800 + 32 * i) 32
    if field b 28 4 = crc32 (b.take 28) ∧ b.any (· != 0#8) then max n (field b 0 4 + 1) else n) 0

/-- The totals that a valid copy gives: registers with their fractions, pulse counts. -/
def copyEnergy (b : List Byte) : List Nat :=
  (List.range 20).map fun r => (field b (0x20 + 16 * r) 12 * 2 ^ 32 + field b (0x2C + 16 * r) 4) * (tideUnit / 2 ^ 32)
def copyPcnt (b : List Byte) : List Nat := (List.range 4).map fun k => field b (0x160 + 8 * k) 8

/-- Tide starts with a sealed body: it restores its totals, commits them and logs START. -/
def State.tideStart (s : State) (b : List Byte) (crc : Nat) : State :=
  let copies := [s.tideCopy 0, s.tideCopy 1].filterMap id
  let zero := (s.fram.all fun c => decide (0x4000 ≤ c.1))
  let value := if copies.length = 2 then 0 else if copies.length = 1 then 1 else if zero then 3 else 2
  let best := copies.foldl (fun (o : Option (List Byte)) c => match o with
    | some x => if field x 8 8 < field c 8 8 then some c else some x
    | none => some c) none
  let rec_ := best.getD []
  let latch := ((copies.filter fun c => field c 6 1 == 0).foldl (fun (o : Option (List Byte)) c => match o with
    | some x => if field x 8 8 < field c 8 8 then some c else some x
    | none => some c) none).getD rec_
  let (taken, s) := s.freeBelow (2 ^ 64)
  let (quality, s) := s.freeBelow 256
  let s := { s with tide := { ins := s.tide.ins.map fun x : Nat × TideIn => (x.1, { x.2 with level := x.2.raw, began := none }) } }
  let s := (s.setReg R.MTR_STATUS_RUN 1).setReg R.MTR_STATUS_TOTALS_LOST (ofBool (value == 2))
  let s := s.tideAdopt b crc
  let s := { s with tide.e := copyEnergy rec_
                    tide.latched := { e := copyEnergy latch, pcnt := copyPcnt latch, taken := taken, quality := quality, seq := field latch 0x10 8
                                      cycles := if latch = [] then 0 else tideNcyc b } }
  let s := (List.range 4).foldl (fun s k => s.setReg R.MTR_PCNT_COUNT ((copyPcnt rec_).getD k 0) k) s
  let s := (List.range 2).foldl (fun s j =>
    s.setTideOut j { pend := field rec_ (0x180 + 8 * j) 8 * field (tidePout b j) 4 4 * (tideUnit : Int) }) s
  let s := (s.setReg R.MTR_LATCH_SEQ_COUNT (field rec_ 0x10 8)).setReg R.MTR_POWERUPS_COUNT (min (field rec_ 0x18 4 + 1) (2 ^ 32 - 1))
  let s := (s.setReg R.MTR_EVT_COUNT_COUNT s.tideEvents).setReg R.MTR_STATUS_ON_BACKUP (s.reg R.PWR_AON_ON_BAK)
  ((s.tideShow.tideCommit 3 s.tide.e s.tidePcnt).tideLog 1 0 value).setReg R.TOP_SVC_TIDE_RUN 1

/-- The SEAL step's part for Tide: a METER section is handed over (R104). -/
def State.tideSeal (s : State) (sec : List Byte) : State :=
  if sec = [] then s else
  let b := sec.drop 16
  let crc := field sec 8 4
  if ¬ s.tideRun then s.tideStart b crc
  else if s.reg R.MTR_SEAL_CRC = crc ∧ b.length = s.tide.body.length then { s with tide.next := none }
  else { s with tide.next := some (b, crc) }

/-! ### Snapshots (R530 to R533) -/

/-- An FP32 code, nearest `num ÷ den`, off by at most the last place: R537 bounds the error and gives no rounding. -/
def tideFp (neg : Bool) (num den : Nat) : Nat :=
  if num = 0 ∨ den = 0 then 0 else
  let c := toF32 (.fin neg (num * 2 ^ 200 / den) (-200))
  ((c : Int) + clampInt (-1) 1 (Config.ulpOffset 0x90 c)).toNat

/-- √(num ÷ den) as an FP32 code. -/
def tideRoot (num den : Nat) : Nat := if den = 0 then 0 else tideFp false (isqrt (num * 2 ^ 200 / den)) (2 ^ 100)

/-- A signed ratio as an FP32 code. -/
def tideRat (num : Int) (den : Nat) : Nat := tideFp (decide (num < 0)) num.natAbs den

/-- The 44 FP32 values of QUANT. -/
def State.tideQuant (s : State) : List Nat × State :=
  match s.tide.quant with
  | none => (List.replicate 44 0, s)
  | some c =>
    let n := tidePhases s.tide.body
    let m := fun i => c.acc.sums.getD i 0
    let d := c.acc.w * 2 ^ 62 * 10 ^ 6
    let mag := fun (a b : Int) => tideRoot (a.natAbs ^ 2 + b.natAbs ^ 2) (2 ^ 62 * 10 ^ 6)
    let phase := fun (p : Nat) =>
      if n ≤ p then List.replicate 12 0 else
      let x := c.phasors.getD p ⟨0, 0, 0, 0⟩
      let h := s.tide.derived.getD p (0, 0, 0)
      [tideRoot (m p).toNat d, tideRoot (m (3 + p)).toNat d, mag x.vr x.vi, mag x.ir x.ii, tideRat (m (6 + p)) d,
       tideRat (tidePower x) (2 ^ 62 * 10 ^ 6), tideRat (tideReactive x) (2 ^ 62 * 10 ^ 6), h.2.2,
       tideFp false (isqrt ((m p).toNat * (m (3 + p)).toNat)) d,
       tideFp false (isqrt ((x.vr.natAbs ^ 2 + x.vi.natAbs ^ 2) * (x.ir.natAbs ^ 2 + x.ii.natAbs ^ 2))) (2 ^ 62 * 10 ^ 6),
       h.1, h.2.1]
    let k := s.freeCtr
    let angle := fun (p : Nat) => if n ≤ p then 0 else Config.freeNat (k + p) % 2 ^ 32
    let w := c.acc.w * 2 ^ 31 * 1000
    (phase 0 ++ phase 1 ++ phase 2 ++
      [tideFp false c.mhz 1000, tideRoot (m 12).toNat d, tideRoot (m 13).toNat d, tideRat (m 9) w, tideRat (m 10) w,
       tideRat (m 11) d, angle 1, angle 2], { s with freeCtr := k + 3 })

/-- Length of a snapshot's body (Table 14.13). -/
def snapLength (kind : Nat) : Nat :=
  match kind with
  | 0 => 64 | 1 => 384 | 2 => 384 | 3 => 208 | 4 => 432 | _ => 288

/-- The registers and pulse counts of a latched or live set. -/
def snapRegs (e pcnt : List Nat) : List Byte :=
  ((List.range 20).flatMap fun r => leBytes 12 (e.getD r 0) ++ leBytes 4 0) ++ (List.range 4).flatMap fun k => leBytes 8 (pcnt.getD k 0)

/-- The snapshot header (Table 14.12). -/
def State.snapHeader (s : State) (kind taken seq quality cycles : Nat) : List Byte :=
  wordsBytes [kind + 2 ^ 4 + 2 ^ 5 * s.reg R.MTR_STATUS_MAINS_LOCK + 2 ^ 8 + 2 ^ 16 * s.reg R.MTR_STATUS_CH_FAULT
      + 2 ^ 26 * s.reg R.MTR_STATUS_MCLK_FAULT + 2 ^ 27 * s.reg R.MTR_STATUS_TOTALS_LOST + 2 ^ 32 * s.reg R.MTR_POWERUPS_COUNT,
    taken, seq, s.reg R.MTR_SEAL_CRC + 2 ^ 32 * quality + 2 ^ 48 * min cycles 65535]

/-- The body of one snapshot (R531). -/
def State.snapshot (s : State) (sel : Nat) : List Byte × State :=
  let kind := bits sel 3 0
  if ¬ s.tideRun then (List.replicate 32 0#8, s) else
  let b := s.tide.body
  let seq := s.reg R.MTR_LATCH_SEQ_COUNT
  let h := s.snapHeader kind s.tide.stamp seq s.tide.quality (if kind = 2 then s.reg R.MTR_LATCH_CYC_COUNT else 0)
  match kind with
  | 0 => (h ++ leBytes 4 b.length ++ slice b 2 2 ++ slice b 7 1 ++ slice b 6 1 ++ slice b 8 2 ++ List.replicate 6 0#8 ++
      leBytes 4 (s.reg R.MTR_COMMITS_COUNT) ++ leBytes 4 (s.reg R.MTR_LOSS_COMMITS_COUNT) ++
      leBytes 4 (s.reg R.MTR_EVT_COUNT_COUNT) ++ leBytes 4 0, s)
  | 1 =>
    let l := s.tide.latched
    (s.snapHeader 1 l.taken l.seq l.quality l.cycles ++ snapRegs (l.e.map fun x => x / tideUnit) l.pcnt, s)
  | 2 => (h ++ snapRegs ((List.range 20).map fun r => s.reg R.MTR_E_NWH r) s.tide.pcntLive, s)
  | 3 => let q := s.tideQuant; (h ++ q.1.flatMap (leBytes 4), q.2)
  | 4 =>
    let l := ((s.tide.harm.find? fun x => x.1 == bits sel 11 8).map (·.2)).getD []
    (h ++ (List.range 50).flatMap fun (i : Nat) => leBytes 4 (l.getD i (0, 0)).1 ++ leBytes 4 (l.getD i (0, 0)).2, s)
  | _ =>
    let from_ := bits sel 47 16
    let n := s.reg R.MTR_EVT_COUNT_COUNT
    (h ++ (List.range 8).flatMap fun (i : Nat) =>
      let k := from_ + i
      let e := cellBytes s.fram (0x800 + 32 * (k % 256)) 32
      if k < n ∧ n ≤ k + 256 ∧ field e 0 4 = k then e else List.replicate 32 0#8, s)

/-- `mtr.snap`. -/
def execMtrSnap (dt id : Nat) (s : State) : Host.Outcome State Fault Refusal :=
  .next ((s.elapse dt).runEngine id 0x90 fun c => fun s =>
    let r := s.snapshot (c.word 1)
    let n := snapLength (bits (c.word 1) 3 0)
    Eff.write c.part (c.addr 2) (if s.tideRun then slice r.1 0 n else r.1) r.2)

/-- A snapshot selector's form, with the channel of HARM (R530). -/
def State.selectorOk (s : State) (v : Nat) : Bool :=
  selectorForm v && (bits v 3 0 != 4 || !s.tideRun || tideAc s.tide.body (bits v 11 8))

/-- What the fetch checks ask of a METER-READ command. -/
def State.mtrInfo (s : State) (op : Nat) (words : List Nat) : Option OpInfo :=
  let w := fun i => words.getD i 0
  let n := snapLength (bits (w 1) 3 0)
  let a := bits (w 2) 47 0
  if op = 0x90 then
    some { masks := [mAll, mAddr, 0xFFFF]
           limits := [(1, s.selectorOk (w 1)), (2, a % 8 == 0), (3, decide (n ≤ bits (w 3) 15 0))], ranges := [(2, a, n, true)] }
  else none

/-- METER_READ (R532): the snapshot port puts its result into the next of Q4 to Q7, and the request is answered from it; or BUSY.
Where that queue is passed by, the request is answered from the snapshot itself.
The item stays until the answer has been sent. -/
def execMeterRead (dt : Nat) (s : State) : Host.Outcome State Fault Refusal :=
  .next ((s.elapse dt).intake (· == 3) fun r _ s => s.withRights r fun s =>
    let sel := r.word 2
    if ¬ s.selectorOk sel then s.refuse r 0x0F else
    let len := if s.tideRun then snapLength (bits sel 3 0) else 32
    let q := 4 + s.tide.port
    if s.passedBy q then
      let x := s.snapshot sel
      ({ x.2 with tide.port := (x.2.tide.port + 1) % 4 }.incReg R.PART_INTAKE_ACCEPT_COUNT).reply r 0 0 x.1
    else if s.qFree q < 1 + ceilDiv len 64 then s.reply r 0x10
    else
      let (b, s) := s.snapshot sel
      let item := wordsBytes [r.word 0, b.length, r.word 2, 0, 0, 0, 0, 0] ::
        (List.range (ceilDiv b.length 64)).map fun i => slice b (64 * i) 64
      let s := (s.produce q item).2
      let s := { s with tide.port := (s.tide.port + 1) % 4 }
      let before := s.qCount (16 + r.iface)
      let s := (s.incReg R.PART_INTAKE_ACCEPT_COUNT).reply r 0 0 b
      if before < s.qCount (16 + r.iface) ∨ s.passedBy (16 + r.iface) = true then { s with tide.answers := s.tide.answers ++ [(r.iface, r.word 0, q)] }
      else s.release q item.length)

end Sys2Proof.Machine
end

