-- ==== Sys2Proof/Machine/JudgeLinks.lean ====
section
/-!
DEFINITION. Content rules of the sections METER and INTERFACES (R85, R508 to R512, R614 to R636, R730).
-/

namespace Sys2Proof.Machine

open Sys2Proof

/-! ### METER (Tables 14.2 to 14.6) -/

/-- The kinds of Table 14.4 that a channel allows (Table 14.1). -/
def tideKindOk (c kind : Nat) : Bool :=
  if c ≤ 2 then kind == 1
  else if c ≤ 6 then within 2 4 kind
  else if c = 7 then kind == 5
  else if c = 8 then kind == 6
  else within 1 6 kind

/-- A channel entry (Table 14.3, R510); a disabled one is all zero. -/
def tideChanOk (b : List Byte) (c : Nat) : Bool :=
  let e := tideChan b c
  if ¬ bit (field b 2 2) c then allZero e
  else tideKindOk c (field e 0 1) && field e 1 1 == 0 && field e 4 4 != 0 && within 0x20000000 0x7FFFFFFF (field e 8 4) &&
    (decide (field e 0 1 ≤ 4) || field e 2 2 == 0)

/-- A range pair (Table 14.5, R512); an unused one is all zero. -/
def tidePairOk (b : List Byte) (j : Nat) : Bool :=
  let e := tidePairE b j
  let high := field e 1 1
  let low := field e 2 1
  if field e 0 1 = 0 then allZero e
  else field e 0 1 == 1 && within 3 5 high && (low == 6 || low == 9) && field e 3 1 != 0 && within 500 980 (field e 4 2) &&
    within 100 (field e 4 2 - 100) (field e 6 2) && field e 8 8 == 0 && decide (tideFs b low < tideFs b high) &&
    bit (field b 2 2) high && bit (field b 2 2) low && tideKind b low != 1 && tideKind b low != 5 && tideWiring b != 0

/-- Pulse entries (Table 14.6); disabled ones are all zero. -/
def tidePinOk (b : List Byte) (k : Nat) : Bool :=
  let e := tidePin b k
  if ¬ bit (field e 0 1) 0 then allZero e else decide (field e 0 1 < 4) && field e 1 1 != 0 && field e 2 2 == 0

def tidePoutOk (b : List Byte) (j : Nat) : Bool :=
  let e := tidePout b j
  if field e 0 1 = 0 then allZero e
  else field e 0 1 == 1 && decide (field e 1 1 ≤ 19) && field e 2 1 != 0 && field e 3 1 == 0 && within 1 1000000 (field e 4 4) && field e 8 8 == 0

/-- The enabled channels match WIRING, and REF_CH names one of them (R509). -/
def tideWiringOk (b : List Byte) : Bool :=
  let on (c : Nat) : Bool := bit (field b 2 2) c
  let wiring := tideWiring b
  let ref := field b 0xA 1
  on 7 == on 8 && (wiring != 0 || on 7) &&
  (if wiring = 0 then (List.range 6).all (fun c => !on c) && ref == 0
   else if wiring = 1 then on 0 && on 3 && ref == 0
   else (List.range 6).all (fun c => on c) && decide (ref ≤ 2))

/-- The sealed body (R508 to R512). -/
def tideBodyOk (b : List Byte) : Bool :=
  let pairs := (List.range 2).filter fun j => field (tidePairE b j) 0 1 != 0
  b.length == 304 && field b 0 2 == 1 && decide (field b 2 2 < 1024) && within 512 2560 (field b 4 2) && decide (field b 6 1 < 4) &&
  decide (tideWiring b ≤ 2) && tideNcyc b != 0 && decide (field b 0xA 1 ≤ 2) && field b 0xB 1 == 0 && within 1 1000000 (field b 0xC 4) &&
  within (field b 0x14 2 + 1) 999 (field b 0x10 2) && within 1001 2000 (field b 0x12 2) && field b 0x14 2 != 0 && within 1 100 (field b 0x16 2) &&
  zeroAt b [(0x18, 40)] && ((List.range 10).all fun c => tideChanOk b c) && ((List.range 2).all fun j => tidePairOk b j) &&
  ((List.range 4).all fun k => tidePinOk b k) && ((List.range 2).all fun j => tidePoutOk b j) && tideWiringOk b &&
  distinct (pairs.map fun j => field (tidePairE b j) 1 1) && distinct (pairs.map fun j => field (tidePairE b j) 2 1)

/-- Reserved fields of the seal header. -/
def meterReserved (b : List Byte) : Bool := zeroAt b [(2, 2), (0xC, 4)]

/-- The content rules of the METER section (R85). -/
def meterOk (m : Image) : Bool :=
  (m.sections 8).all fun x =>
    let body := x.bytes.drop 16
    x.flags % 2 == 0 && decide (16 ≤ x.bytes.length) && field x.bytes 0 2 == 1 && field x.bytes 4 4 == body.length &&
    field x.bytes 8 4 == crc32 body && tideBodyOk body

/-! ### INTERFACES (Tables 17.1 to 17.17) -/

def ifLength (b : List Byte) : Bool :=
  decide (464 ≤ b.length ∧ ifFilters b ≤ 4 ∧ ifWindows b ≤ 8 ∧ ifScripts b ≤ 32 ∧ ifOps b ≤ 4096) &&
  b.length == 464 + 16 * ifFilters b + 16 * ifWindows b + 8 * ifScripts b + 8 * ifOps b

/-- Reserved fields of an INTERFACES section; those of disabled entries are judged with the entry. -/
def ifReserved (b : List Byte) : Bool :=
  zeroAt b [(3, 1), (6, 58)] &&
  ((List.range 2).all fun n => !bit (field (ifEth b n) 0 1) 0 || zeroAt (ifEth b n) [(0xE, 2), (0x20, 32)]) &&
  (!bit (field (ifPcie b) 0 1) 0 || zeroAt (ifPcie b) [(4, 28)]) &&
  ((List.range 4).all fun k => !bit (field (ifCan b k) 0 1) 0 || zeroAt (ifCan b k) [(1, 1), (0x12, 14)]) &&
  zeroAt (ifLink b) [(3, 1), (9, 55)] &&
  ((List.range 4).all fun k => (ifI2c b k % 2 == 0 || ifI2c b k / 8 == 0) &&
    (ifSpi b k % 2 == 0 || (bits (ifSpi b k) 7 3 == 0 && ifSpi b k / 2 ^ 20 == 0))) &&
  ((List.range (ifFilters b)).all fun i => !bit (field (ifFilter b i) 0 8) 3 && field (ifFilter b i) 8 8 == 0) &&
  ((List.range (ifWindows b)).all fun i => field (ifWindow b i) 0 8 / 2 ^ 48 == 0 && field (ifWindow b i) 8 8 / 2 ^ 51 == 0) &&
  (List.range (ifScripts b)).all fun i => ifScript b i / 2 ^ 36 == 0

/-- An ETH entry (Table 17.4). -/
def ethOk (e : List Byte) : Bool :=
  let ctrl := field e 0 1
  let req := bit ctrl 3
  if ¬ bit ctrl 0 then allZero e
  else decide (ctrl < 16) && bits ctrl 2 1 != 3 && decide (field e 1 1 < 8 ∧ field e 2 2 < 4096) && within 1500 9000 (field e 4 2) &&
    within 1 1000 (field e 6 2) && field e 8 6 != 0 && !bit (field e 8 1) 0 && field e 0x10 4 != 0 && field e 0x14 2 != 0 &&
    (if req then within 1 2048 (field e 0x16 2) && field e 0x18 8 % 0x10000 == 0 else field e 0x16 2 == 0 && field e 0x18 8 == 0)

/-- The PCIE entry (Table 17.8). -/
def pcieOk (e : List Byte) : Bool := if ¬ bit (field e 0 1) 0 then allZero e else field e 0 1 == 1 && within 1 4 (field e 1 1)

/-- A CAN entry (Table 17.10). -/
def canOk (e : List Byte) : Bool :=
  let ctrl := field e 0 1
  let ids := if bit ctrl 2 then 2 ^ 29 else 2 ^ 11
  if ¬ bit ctrl 0 then allZero e
  else decide (ctrl < 8) && [125, 250, 500, 1000].contains (field e 2 2) && [1000, 2000, 4000, 5000, 8000].contains (field e 4 2) &&
    within 128 230 (field e 6 1) && within 128 230 (field e 7 1) && decide (field e 8 4 < ids ∧ field e 0xC 4 < ids) &&
    field e 8 4 != field e 0xC 4 && within 1 1000 (field e 0x10 2)

/-- The LINK entry (Table 17.11). -/
def linkOk (e : List Byte) : Bool :=
  let ctrl := field e 0 1
  let g := field e 2 1
  let route (r : Nat) : Nat := bits (field e 8 1) (2 * r + 1) (2 * r)
  decide (ctrl < 16) && (bit ctrl 0 || !bit ctrl 2) && (bit ctrl 1 || !bit ctrl 3) && within 1 4 g && (ctrl % 4 != 0 || g == 1) &&
  decide (field e 1 1 < g) && (if g = 1 then field e 4 4 == 0 else field e 4 4 != 0) &&
  (List.range 4).all fun r =>
    if r = field e 1 1 ∨ g ≤ r then route r == 3 else (route r == 0 && bit ctrl 0) || (route r == 1 && bit ctrl 1)

/-- The bits that a script op uses (Table 17.17). -/
def opMask (kind : Nat) : Nat :=
  match kind with
  | 1 => 0xFFFFFFFF00077F3F | 2 => 0x77F3F | 3 => 0xFFFFFFFF0007033F | 4 => 0x11F0F | 5 => 0xFFFFFFFF0000000F | _ => 0

/-- A script op (Table 17.17). -/
def opOk (b : List Byte) (op : Nat) : Bool :=
  let kind := bits op 3 0
  let n := bits op 18 16
  within 1 5 kind && op &&& opMask kind == op &&
  (if kind ≤ 2 then bit (ifI2c b (bits op 5 4)) 0 && within 1 4 n
   else if kind = 3 then bit (ifSpi b (bits op 5 4)) 0 && within 1 4 n
   else if kind = 4 then bit (field (ifGpio b) 0 4) (bits op 12 8)
   else within 1 1000000 (bits op 63 32))

/-- Bus, pin and script entries (Table 17.16). -/
def sioOk (b : List Byte) : Bool :=
  ((List.range 4).all fun k =>
    (if ifI2c b k % 2 = 0 then ifI2c b k == 0 else bits (ifI2c b k) 2 1 != 3) &&
    (if ifSpi b k % 2 = 0 then ifSpi b k == 0 else within 1 50 (bits (ifSpi b k) 15 8))) &&
  ((List.range 32).all fun p => bits (field (ifGpio b) 8 8) (2 * p + 1) (2 * p) != 3) &&
  ((List.range (ifScripts b)).all fun i =>
    let w := ifScript b i
    within 1 256 (bits w 31 16) && decide (bits w 15 0 + bits w 31 16 ≤ ifOps b) && (i != 0 || bits w 35 32 == 0)) &&
  (List.range (ifOps b)).all fun i => opOk b (ifOp b i)

/-- The lidar filters (Table 17.6, R621). -/
def State.filtersOk (s : State) : Bool :=
  let b := s.sec 0xC
  let fs := (List.range (ifFilters b)).map fun i => field (ifFilter b i) 0 8
  distinct (fs.map fun w => bits w 2 1) && distinct (fs.map fun w => bit w 0 |> ofBool |> (· + 2 * (w / 16))) &&
  fs.all fun w =>
    let e := ifEth b (bits w 0 0)
    bit (field e 0 1) 0 && (s.lidarEntry (bits w 2 1)).isSome && bits w 31 16 != 0 && bits w 31 16 != field e 0x14 2

/-- A window (Table 17.12). -/
def State.linkWindowOk (s : State) (e : List Byte) : Bool :=
  let w1 := field e 8 8
  field e 0 8 % 64 == 0 && bits w1 39 0 % 64 == 0 && within 64 (2 ^ 36) (bits w1 39 0) &&
  (!bit w1 50 || s.eventExternal 0 (bits w1 49 40) true)

/-- The DRAM ranges that the section names (R615). -/
def ifRanges (b : List Byte) : List (Nat × Nat) :=
  ((List.range 2).filter fun n => bit (field (ifEth b n) 0 1) 3).map (fun n =>
    (field (ifEth b n) 0x18 8, 16 * 1024 * field (ifEth b n) 0x16 2)) ++
  (List.range (ifWindows b)).map fun i => (bits (field (ifWindow b i) 0 8) 47 0, bits (field (ifWindow b i) 8 8) 39 0)

/-- The content rules of the INTERFACES section (R614 to R636). -/
def State.interfacesOk (s : State) (m : Image) : Bool :=
  let b := s.sec 0xC
  let intake := (field (s.sec 2) 0x10 8, 0x4000 * field (s.sec 2) 1 1)
  ifLength b && ((List.range 2).all fun n => ethOk (ifEth b n)) && pcieOk (ifPcie b) && ((List.range 4).all fun k => canOk (ifCan b k)) &&
  linkOk (ifLink b) && sioOk b && s.filtersOk && ((List.range (ifWindows b)).all fun i => s.linkWindowOk (ifWindow b i)) &&
  (ifRanges b).all fun r =>
    granted (sysRegions (s.sec 5)) r.1 r.2 true && (s.rings.all fun x => !overlaps r.1 r.2 x.1 x.2) &&
    !overlaps r.1 r.2 intake.1 intake.2 && m.ranges.all fun x => !overlaps r.1 r.2 x.1.1 x.1.2

end Sys2Proof.Machine
end

