-- ==== Sys2Proof/Machine/JudgeMedia.lean ====
section
/-!
DEFINITION. Content rules of the sections VISION and AUDIO (R224, R235, R237, R241 to R254, R463, R468 to R471, R730).
-/

namespace Sys2Proof.Machine

open Sys2Proof

/-! ### Fractions -/

/-- Sum of fractions (numerator, denominator). -/
def sumFrac (l : List (Nat × Nat)) : Nat × Nat := l.foldl (fun a b => (a.1 * b.2 + b.1 * a.2, a.2 * b.2)) (0, 1)

/-! ### VISION (Tables 6.3 to 6.7) -/

def visLength (b : List Byte) : Bool :=
  decide (192 ≤ b.length ∧ visStreams b ≤ 16 ∧ visChans b ≤ 32 ∧ visLidars b ≤ 4 ∧ visGammas b ≤ 8 ∧ visGrids b ≤ 16) &&
  b.length == visGridAt b (visGrids b)

/-- Reserved fields and padding of a VISION section. -/
def visReserved (b : List Byte) : Bool :=
  zeroAt b [(5, 59)] && ((List.range 8).all fun n => zeroAt (visPort b n) [(3, 1), (8, 8)]) &&
  ((visStreamList b).all fun e => zeroAt e [(0x32, 2), (0x4C, 4), (0x58, 40)]) &&
  ((visChanList b).all fun e => zeroAt e [(0x47, 1), (0x4E, 2), (0x59, 1), (0x66, 2)]) &&
  ((visLidarList b).all fun e => zeroAt e [(0x23, 5), (0x34, 12)]) &&
  ((List.range (visGammas b)).all fun g => zeroAt (visGamma b g) [(514, 6)]) &&
  (List.range (visGrids b)).all fun g => zeroAt (slice b (visGridAt b g) 16) [(5, 3), (12, 4)]

/-- A port entry (Table 6.4); a disabled one is all zero (R730). -/
def visPortOk (e : List Byte) : Bool :=
  let ctrl := field e 0 1
  let cphy := bit ctrl 1
  let code := bits ctrl 3 2
  let lanes := if cphy then code + 1 else 2 ^ code
  let map := (List.range 4).map fun l => bits (field e 1 1) (2 * l + 1) (2 * l)
  if ¬ bit ctrl 0 then allZero e
  else decide (ctrl < 16 ∧ code ≤ 2) && distinct (map.take lanes) && ((map.take lanes).all fun x => decide (x < lanes)) &&
    ((map.drop lanes).all fun x => x == 0) && (if cphy then field e 2 1 == 0 else decide (field e 2 1 < 32)) &&
    within 80 (if cphy then 5700 else 4500) (field e 4 4)

/-- A buffer ring: NBUF strides from BASE. -/
def ringRange (base stride nbuf : Nat) : Nat × Nat := (base, nbuf * stride)

/-- Base, stride, buffers and item of a ring within their ranges (R250). -/
def ringFields (base stride nbuf item : Nat) : Bool :=
  base % 64 == 0 && decide (base < 2 ^ 48) && stride % 64 == 0 && within 2 8 nbuf && decide (item ≤ stride)

/-- A stream entry (Table 6.5). -/
def State.streamOk (s : State) (e : List Byte) : Bool :=
  let dt := field e 3 1
  let kind := strKind e
  let unit := if kind = 1 then 4 else if kind = 2 then 2 else 1
  decide (field e 0 1 ≤ 15 ∧ field e 1 1 ≤ 7 ∧ field e 2 1 ≤ 15) && bit (field (visPort (s.sec 6) (field e 1 1)) 0 1) 0 &&
  (dt == 0x1E || within 0x2A 0x2E dt) && decide (kind ≤ 3) && within 1 64 (field e 5 1) &&
  within 16 4096 (strW e) && strW e % unit == 0 && within 16 4096 (strH e) && (kind != 1 || strH e % 4 == 0) &&
  field e 0xA 1 != 0 && decide (field e 0xB 1 < 4) && within 1000000 1000000000 (field e 0xC 4) &&
  (kind != 3 || within 100 3000 (field e 0x2A 2)) && field e 0x34 4 % 64 == 0 && field e 0x38 4 % 64 == 0 && decide (field e 0x3C 2 ≤ 4096) &&
  (s.part (field e 0x3E 1)).isSome && ringFields (field e 0x40 8) (field e 0x48 4) (field e 0x3F 1) (recordSize e) &&
  (if kind = 3 then field e 0x50 8 % 64 == 0 && decide (field e 0x50 8 < 2 ^ 48) else field e 0x50 8 == 0)

/-- A lidar entry (Table 6.6): its fields lie within a record and within the header. -/
def State.lidarOk (s : State) (e : List Byte) : Bool :=
  let hdr := field e 8 2
  let rec_ := field e 0xC 1
  let sos := field e 0x16 2
  decide (field e 0 1 ≤ 3) && (s.part (field e 1 1)).isSome && s.queueCodes (field e 2 2) 2 2 &&
  within 1 512 (field e 4 2) && within 1 2048 (field e 6 2) && decide (field e 4 2 * field e 6 2 ≤ 262144 ∧ hdr ≤ 1024) &&
  within 1 2048 (field e 0xA 2) && within 2 64 rec_ && (field e 0xE 1 == 2 || field e 0xE 1 == 4) &&
  decide (field e 0xD 1 + field e 0xE 1 ≤ rec_) && (field e 0xF 1 == 0xFF || decide (field e 0xF 1 + 2 ≤ rec_)) &&
  within 1 65535 (field e 0x10 4) && decide (field e 0x14 2 + 4 ≤ hdr) && (sos == 0xFFFF || decide (sos < 8 * hdr)) &&
  within 1000000 1000000000 (field e 0x1C 4) && within 1000000 (field e 0x1C 4) (field e 0x18 4) &&
  field e 0x20 1 != 0 && decide (field e 0x21 1 < 2) &&
  ringFields (field e 0x28 8) (field e 0x30 4) (field e 0x22 1) (lidarItemSize e)

/-- Least line memory of a stream and of a channel (Table 6.10). -/
def streamLines (e : List Byte) : Nat :=
  ceilDiv ((if strKind e = 0 then 4 else if strKind e = 1 then 12 else 8) * strW e) 64 * 64

def chanLines (c src : List Byte) : Nat :=
  let crop := chanCrop c
  let warp := field c 0xC 1 != 0
  let b := 2 * field c 0x30 1
  let wi := if warp then strW src else crop.w
  let lw := if warp then 2 * field c 0xE 2 + 2 else 0
  let lr := ceilDiv crop.h (chanSize c).2 + 2
  let rot := if chanRot c % 2 = 1 then 128 * (chanSize c).1 * b else 0
  ceilDiv (b * (wi * (lw + lr) + 4 * ((chanLevels c).dropLast.map fun l => l.1).sum) + rot) 64 * 64

/-- A ratio of resizing lies within 1/16 to 4 (R245). -/
def resizeRatio (out_ in_ : Nat) : Bool := decide (0 < in_ ∧ in_ ≤ 16 * out_ ∧ out_ ≤ 4 * in_)

/-- No corner of a crop moves further than WARP_RANGE lines under an affine map (R244). -/
def affineOk (c : List Byte) : Bool :=
  let crop := chanCrop c
  let a (k : Nat) : Int := sfield c (0x10 + 4 * k) 4
  let range : Int := 65536 * field c 0xE 2
  [crop.x, crop.x + crop.w - 1].all fun u => [crop.y, crop.y + crop.h - 1].all fun v =>
    let d := a 3 * u + a 4 * v + a 5 - 65536 * v
    decide (-range ≤ d ∧ d ≤ range)

/-- A channel's grid covers its stream, and no node lies further than WARP_RANGE lines from its own row (R244). -/
def gridOk (b c src : List Byte) : Bool :=
  let o := visGridAt b (field c 0xD 1)
  let cols := field b o 2
  let rows := field b (o + 2) 2
  let n := 2 ^ field b (o + 4) 1
  let range : Int := 256 * field c 0xE 2
  decide (field c 0xD 1 < visGrids b ∧ ceilDiv (strW src) n + 1 ≤ cols ∧ ceilDiv (strH src) n + 1 ≤ rows) &&
  (List.range rows).all fun j => (List.range cols).all fun i =>
    let d := sfield b (o + 16 + 8 * (j * cols + i) + 4) 4 - 256 * (j * n : Nat)
    decide (-range ≤ d ∧ d ≤ range)

/-- A channel entry (Table 6.7) and the rules of R243 to R247, R253 and R256 about it. -/
def State.chanOk (s : State) (c : List Byte) : Bool :=
  match s.streamEntry (field c 2 1) with
  | none => false
  | some src =>
    let crop := chanCrop c
    let warp := field c 0xC 1
    let size := chanSize c
    let tof := field c 1 1 == 1
    decide (field c 0 1 ≤ 31 ∧ field c 1 1 ≤ 1 ∧ field c 3 1 < 64) && tof == (strKind src == 3) &&
    decide (crop.x + crop.w ≤ strW src ∧ crop.y + crop.h ≤ strH src) &&
    decide (warp ≤ 2 ∧ field c 0xE 2 ≤ 512) && (warp == 2 || field c 0xD 1 == 0) && (warp == 1 || field c 0x10 24 == 0) &&
    (warp != 1 || affineOk c) && (warp != 2 || gridOk (s.sec 6) c src) && (!bit (field c 3 1) 0 || warp == 0) &&
    within 1 4096 (field c 0x28 2) && within 1 4096 (field c 0x2A 2) && decide (field c 0x2C 1 ≤ 2) &&
    resizeRatio size.1 crop.w && resizeRatio size.2 crop.h && (field c 0x2C 1 != 2 || decide (size.1 ≤ crop.w ∧ size.2 ≤ crop.h)) &&
    within 1 6 (field c 0x2D 1) && (if field c 0x2D 1 = 1 then field c 0x2E 1 == 0 else within 128 230 (field c 0x2E 1)) &&
    ((chanLevels c).all fun l => decide (8 ≤ l.1 ∧ 8 ≤ l.2)) &&
    (field c 0x2F 1 == 0xFF || decide (field c 0x2F 1 < visGammas (s.sec 6))) && within 1 4 (field c 0x30 1) && decide (field c 0x32 1 ≤ 3) &&
    [1, 2, 4, 8, 16, 32].contains (field c 0x33 1) && decide (field c 0x30 1 ≤ field c 0x33 1 ∧ field c 0x46 1 ≤ 1) &&
    (!tof || (field c 0x46 1 == 0 && field c 0x2F 1 == 0xFF)) && decide (field c 0x58 1 ≤ 31) && (s.part (field c 0x65 1)).isSome &&
    ringFields (field c 0x68 8) (field c 0x70 4) (field c 0x64 1) (chanItemSize c) &&
    field c 0x74 4 % 64 == 0 && field c 0x78 4 % 64 == 0 && decide (chanLines c src ≤ field c 0x78 4)

/-- A grid block's header (R244). -/
def gridHeaderOk (b : List Byte) (g : Nat) : Bool :=
  let o := visGridAt b g
  within 3 7 (field b (o + 4) 1) && field b (o + 8) 4 % 64 == 0

/-- The allocations of line memory (R253). -/
def visAllocs (b : List Byte) : List (Nat × Nat) :=
  ((visStreamList b).map fun e => (field e 0x34 4, field e 0x38 4)) ++
  ((visChanList b).map fun e => (field e 0x74 4, field e 0x78 4)) ++
  (List.range (visGrids b)).map fun g => let o := visGridAt b g; (field b (o + 8) 4, 8 * field b o 2 * field b (o + 2) 2)

/-- The two sums of R254 as fractions. -/
def visStreamLoad (b : List Byte) : Nat × Nat :=
  sumFrac ((visStreamList b).map fun e => ((if strKind e = 3 then 4 else 1) * strW e * strH e * 1000000000, max 1 (field e 0xC 4)))

def State.visChanLoad (s : State) : Nat × Nat :=
  sumFrac ((visChanList (s.sec 6)).map fun c =>
    let px := (chanCrop c).w * (chanCrop c).h + ((chanLevels c).map fun l => l.1 * l.2).sum
    let period := match s.streamEntry (field c 2 1) with
      | some e => max 1 (field e 0xC 4)
      | none => 1
    (1000000000 * px, period * (if field c 0xC 1 = 0 then 4 else 2)))

/-- The vision buffer rings with their partitions. -/
def visRings (b : List Byte) : List (Nat × (Nat × Nat)) :=
  ((visStreamList b).map fun e => (field e 0x3E 1, ringRange (field e 0x40 8) (field e 0x48 4) (field e 0x3F 1))) ++
  ((visLidarList b).map fun e => (field e 1 1, ringRange (field e 0x28 8) (field e 0x30 4) (field e 0x22 1))) ++
  (visChanList b).map fun e => (field e 0x65 1, ringRange (field e 0x68 8) (field e 0x70 4) (field e 0x64 1))

/-- The capture rings. -/
def capRings (b : List Byte) : List (Nat × Nat) := (audCapList b).map fun e => ringRange (field e 8 8) (field e 0x10 4) (field e 7 1)

/-- The content rules of the VISION section. -/
def State.visionOk (s : State) (m : Image) : Bool :=
  let b := s.sec 6
  let rings := (visRings b).map fun r => r.2
  let load := visStreamLoad b
  let cload := s.visChanLoad
  (m.sections 6 == []) ||
  (visLength b && ((List.range 8).all fun n => visPortOk (visPort b n)) &&
   rises ((visStreamList b).map fun e => field e 0 1) && rises ((visChanList b).map fun e => field e 0 1) &&
   rises ((visLidarList b).map fun e => field e 0 1) &&
   ((visStreamList b).all fun e => s.streamOk e && decide (streamLines e ≤ field e 0x38 4)) && ((visLidarList b).all fun e => s.lidarOk e) &&
   ((visChanList b).all fun c => s.chanOk c) && ((List.range (visGrids b)).all fun g => gridHeaderOk b g) &&
   apart (visAllocs b) && ((visAllocs b).all fun a => decide (a.1 + a.2 ≤ 0x3FE000)) &&
   ((visRings b).all fun r => granted (partRegions (s.sec 5) r.1) r.2.1 r.2.2 false) &&
   apart (rings ++ capRings s.audio) &&
   (rings.all fun r => (s.rings.all fun x => !overlaps r.1 r.2 x.1 x.2) && m.ranges.all fun x => !overlaps r.1 r.2 x.1.1 x.1.2) &&
   decide (load.1 ≤ 2560000000 * load.2 ∧ cload.1 ≤ 640000000 * cload.2))

/-! ### AUDIO (Tables 13.2 to 13.8) -/

def audLength (b : List Byte) : Bool :=
  decide (256 ≤ b.length ∧ audRefs b ≤ 12 ∧ audSpks b ≤ 12 ∧ audErrs b ≤ 8 ∧ audTaps b ≤ 512 ∧ audSpLen b ≤ 256 ∧ audOuts b ≤ 96 ∧
    audCaps b ≤ 4 ∧ audPlays b ≤ 8) &&
  b.length == audModels b + 2 * audSpks b * audErrs b * audSpLen b

/-- Reserved fields of an AUDIO section. -/
def audReserved (b : List Byte) : Bool :=
  zeroAt b [(0x2C, 20)] && ((List.range 6).all fun n => !portOn (audPort b n) || zeroAt (audPort b n) [(0xC, 20)]) &&
  ((List.range (audSpks b)).all fun i => zeroAt (audSpk b i) [(0xC, 4)]) &&
  ((List.range (audOuts b)).all fun o => zeroAt (audOut b o) [(2, 2), (0x2E, 18)]) &&
  ((audCapList b).all fun e => zeroAt e [(0x14, 12), (0x30, 16)]) && (audPlayList b).all fun e => zeroAt e [(3, 29)]

/-- Header fields of an AUDIO section (Table 13.2). -/
def audHeaderOk (b : List Byte) : Bool :=
  let anc := audSpks b != 0
  decide (field b 0 1 ≤ 6) && (audRefs b != 0 || !anc) && (if anc then audErrs b != 0 else audErrs b == 0) &&
  (if anc then
    within 16 512 (audTaps b) && audTaps b % 16 == 0 && within 16 256 (audSpLen b) && audSpLen b % 16 == 0 && within 1 16 (field b 8 1) &&
      within 1 10 (field b 0x16 1) && within 1 12 (field b 0x17 1)
   else audTaps b == 0 && audSpLen b == 0 && zeroAt b [(8, 1), (0x16, 1), (0x17, 1)]) &&
  decide (field b 0xC 1 < 16 ∧ field b 0xD 1 < 4) && within 1 500 (field b 0xE 2) && field b 0x12 2 &&& field b 0x10 2 == field b 0x12 2 &&
  decide (0x100 ≤ field b 0x14 2) && ((List.range 12).all fun r => r < audRefs b || audRef b r == 0xFF) &&
  (List.range 8).all fun e => e < audErrs b || audErr b e == 0xFF

/-- Hz of a RATE code. -/
def rateHz (code : Nat) : Nat := if code = 0 then 16000 else if code = 1 then 44100 else 48000

/-- A port entry (Table 13.3); a disabled one is all zero (R730). -/
def audPortOk (b : List Byte) (n : Nat) : Bool :=
  let e := audPort b n
  let slots := field e 1 1
  let w := field e 2 1
  let clock (r : Nat) : Bool := decide (slots * 32 * rateHz r ≤ 24576000)
  if ¬ portOn e then allZero e
  else decide (portRate e ≤ 2) && within 2 16 slots && (w == 16 || w == 24 || w == 32) && decide (field e 3 1 < 8) &&
    decide (field e 4 2 < 2 ^ slots ∧ field e 6 2 < 2 ^ slots) &&
    ((List.range 16).all fun i =>
      let c := bits (field e 8 4) (2 * i + 1) (2 * i)
      c != 3 && (c == 0 || bit (field e 4 2) i)) &&
    clock (portRate e) && (portAlt e == 3 || clock (portAlt e)) &&
    (!samplePort b n || (portRate e == 2 && portAlt e == 3 && (field b 0 1 != 0 || portMaster e))) &&
    (field b 0 1 != n + 1 || (!portMaster e && portRate e == 2 && portAlt e == 3))

/-- A source identifier that is a TDM input slot or a PDM microphone in use (Table 13.8). -/
def audInput (b : List Byte) (i : Nat) : Bool :=
  (decide (i < 0x60) && portOn (audPort b (i / 16)) && bit (field (audPort b (i / 16)) 4 2) (i % 16)) ||
  (within 0x60 0x6F i && bit (field b 0x10 2) (i - 0x60))

def audAnti (b : List Byte) (i : Nat) : Bool := within 0x70 0x7B i && decide (i - 0x70 < audSpks b)
def audVoice (b : List Byte) (i : Nat) : Bool := within 0x80 0x87 i && (audPlayList b).any fun e => field e 0 1 == i - 0x80

/-- An output entry (Table 13.5). -/
def audOutOk (b o : List Byte) : Bool :=
  decide (field o 0 1 ≤ 5) && portOn (audPort b (field o 0 1)) && decide (field o 1 1 < 16) && bit (field (audPort b (field o 0 1)) 6 2) (field o 1 1) &&
  ((List.range 8).all fun t =>
    let src := field o (4 + 4 * t) 1
    field o (5 + 4 * t) 1 == 0 &&
      (if src = 0xFF then field o (6 + 4 * t) 2 == 0 else audInput b src || audAnti b src || audVoice b src)) &&
  within 1 0x7FFFFFFF (field o 0x24 4) && within 1 (field o 0x24 4) (field o 0x28 4) && within 4 16 (field o 0x2C 1) && decide (field o 0x2D 1 ≤ 48)

/-- A partition that the acoustic engine serves. -/
def State.acuServes (s : State) (p : Nat) : Bool := (s.part p).isSome && bit (s.partEngines p) 7

/-- A capture entry (Table 13.6). -/
def State.captureOk (s : State) (e : List Byte) : Bool :=
  let b := s.audio
  let q := field e 2 2
  let ch := field e 4 1
  decide (field e 0 1 ≤ 3) && s.acuServes (field e 1 1) &&
  (q == 0 || (s.queueIs q 1 (field e 1 1) && (match s.queueEntry q with
    | some x => field x 0xD 1 == 5
    | none => false))) &&
  within 1 16 ch && decide (field e 5 1 ≤ 1) && (field e 6 1 == 3 || field e 6 1 == 9) &&
  ringFields (field e 8 8) (field e 0x10 4) (field e 7 1) (capItemSize e) &&
  (List.range 16).all fun c =>
    let src := field e (0x20 + c) 1
    if c < ch then audInput b src || audAnti b src else src == 0xFF

/-- The content rules of the AUDIO section (R463, R468 to R470), and what CABIN may list without one. -/
def State.audioOk (s : State) (m : Image) : Bool :=
  let b := s.audio
  let outs := (List.range (audOuts b)).map (audOut b)
  let lists (fn : Nat) : Bool := (cabinEntries (s.sec 0xD)).any fun e => cabinFn e == fn
  let taps := outs.flatMap fun o => (outTaps o).map fun (t : Nat × Int) => t.1
  let work := audRefs b * audSpks b
  (!lists 3 || audSpks b != 0) && (!lists 2 || (audCaps b != 0 && audPlays b != 0)) &&
  ((m.sections 7 == []) ||
   (audLength b && audHeaderOk b && ((List.range 6).all fun n => audPortOk b n) &&
    (field b 0 1 == 0 || portOn (audPort b (field b 0 1 - 1))) &&
    ((List.range (audRefs b)).all fun r => audInput b (audRef b r)) && ((List.range (audErrs b)).all fun e => audInput b (audErr b e)) &&
    ((List.range (audSpks b)).all fun i => field (audSpk b i) 8 4 != 0) && (outs.all fun o => audOutOk b o) &&
    distinct (outs.map fun o => 16 * field o 0 1 + field o 1 1) &&
    ((List.range 6).all fun n => (List.range 16).all fun i => !bit (field (audPort b n) 6 2) i ||
      outs.any fun o => field o 0 1 == n && field o 1 1 == i) &&
    ((List.range (audSpks b)).all fun i => (taps.filter fun t => t == 0x70 + i).length == 1) &&
    distinct ((audCapList b).map fun e => field e 0 1) && ((audCapList b).all fun e => s.captureOk e) &&
    distinct ((audPlayList b).map fun e => field e 0 1) &&
    ((audPlayList b).all fun e => decide (field e 0 1 ≤ 7 ∧ field e 2 1 ≤ 1) && s.acuServes (field e 1 1)) &&
    ((List.range 4).all fun p => !bit (field b 0xC 1) p || s.acuServes p) &&
    decide (work * audTaps b + work * audErrs b * audSpLen b +
      (if audSpks b = 0 then 0 else ceilDiv (work * audTaps b * audErrs b) (field b 8 1)) ≤ 983040) &&
    apart (capRings b) &&
    (capRings b).all fun r => granted (sysRegions (s.sec 5)) r.1 r.2 true && (s.rings.all fun x => !overlaps r.1 r.2 x.1 x.2) &&
      m.ranges.all fun x => !overlaps r.1 r.2 x.1.1 x.1.2))

end Sys2Proof.Machine
end

