-- ==== Sys2Proof/Machine/JudgeImage.lean ====
section
/-!
DEFINITION. The judgement of an image at VERIFY: every check of R78 to R91 and every content rule of every chapter.
-/

namespace Sys2Proof.Machine

open Sys2Proof

/-- Reserved fields and padding inside a section (R26). -/
def sectionReserved (x : Section) : Bool :=
  let b := x.bytes
  match x.type with
  | 2 => partReserved b
  | 3 => (queueEntries b).all fun e => zeroAt e [(0x13, 13)]
  | 4 => (eventEntries b).all fun e => bits (field e 0 8) 31 20 == 0
  | 5 => zeroAt b [(1, 1), (0xC, 4)]
  | 6 => visReserved b
  | 7 => audReserved b
  | 8 => meterReserved b
  | 9 => zeroAt b [(8, 8)]
  | 0xA => (entries 80 b).all fun e => zeroAt e [(1, 7)]
  | 0xB => cometReserved b
  | 0xC => ifReserved b
  | 0xD => (cabinEntries b).all fun e => field e 1 1 < 16 && zeroAt e [(2, 2), (8, 8)]
  | _ => true

/-- The state on which content is judged: the image, and every register load of it over the reset values (R83). -/
def Image.trial (m : Image) : State :=
  let s : State := { State.reset with image := some m }
  s.loads.foldl (fun s e => s.applyLoad e) s

/-- The content rules of every chapter, on the trial state. -/
def State.judgeContent (s : State) (m : Image) : Rejection :=
  let rule (ok : Bool) (sec : Option Nat) : Rejection := require ok failContent sec
  ((m.indexed 1).findSome? fun x => rule (x.2.length % 16 == 0 && (entries 16 x.2).all loadOk) (some x.1)) <|>
  ((m.indexed 9).findSome? fun x => rule (placeOk x.2) (some x.1)) <|>
  (m.places.findSome? fun p => rule (p.2.2 == [] || !overlaps p.2.1 p.2.2.length acousticMem 0x200000) (some p.1)) <|>
  ((m.indexed 0xA).findSome? fun x => rule (x.2.length % 80 == 0 && (entries 80 x.2).all weightOk) (some x.1)) <|>
  rule s.memcOk (m.loader 0x30) <|> rule s.clkOk (m.loader 5) <|> ((List.range 16).findSome? fun n => rule (s.tcOk n) (m.loader (0x10 + n))) <|> rule s.rstOk (m.loader 3) <|>
  rule s.timeOk (m.loader 1) <|> rule s.safeOk (m.loader 2) <|>
  rule (s.partitionsOk m) (m.idx 2) <|> rule s.queuesOk (m.idx 3) <|> rule s.eventsOk (m.idx 4) <|> rule (s.regionsOk m) (m.idx 5) <|>
  rule (s.rangesServed R.SEL_STREAM_RANGE_FIRST R.SEL_STREAM_RANGE_COUNT 5) (m.loader 0x22) <|>
  rule (s.rangesServed R.TOK_SLOT_RANGE_FIRST R.TOK_SLOT_RANGE_COUNT 6) (m.loader 0x23) <|>
  rule (s.embOk m) (m.loader 0x21) <|> rule (s.visionOk m) (m.idx 6) <|> rule (s.audioOk m) (m.idx 7) <|> rule (meterOk m) (m.idx 8) <|>
  rule (s.cometOk m) (m.idx 0xB) <|> rule (s.interfacesOk m) (m.idx 0xC) <|> rule s.groupsOk (m.loader 1) <|> rule s.cabinOk (m.idx 0xD)

/-- `n` bytes of a slot's image (R76). -/
def State.slotBytes (s : State) (slot n : Nat) : List Byte := cellBytes s.flash (0x2000000 * slot) n

/-- TOP.REV[7:0] as R79 encodes revisions. -/
def State.revision (s : State) : Nat := s.reg R.TOP_REV_DIGIT + 16 * s.reg R.TOP_REV_LETTER

/-- The entries of a section table. -/
def tableEntries (t : List Byte) : List (List Byte) := entries 64 t

/-- The sections of an image in plaintext, or the index of the first that R90 rejects. -/
def openSections (f : Fuses) (img h : List Byte) : Nat → List (List Byte) → Except Nat (List Section)
  | _, [] => .ok []
  | i, e :: l =>
    match plaintext f img h i e with
    | none => .error i
    | some b =>
      match openSections f img h (i + 1) l with
      | .error j => .error j
      | .ok rest => .ok (⟨entType e, field e 2 2, b⟩ :: rest)

/-- Checks of the opened sections: hashes, the ranges of R87, reserved fields, content. -/
def judgeOpened (m : Image) (es : List (List Byte)) : Rejection :=
  let trial := m.trial
  ((List.range es.length).findSome? fun i =>
    match m.secs[i]? with
    | some x => require (sha384 x.bytes == slice (es.getD i []) 0x10 48) failHash (some i)
    | none => none) <|>
  judgeRanges m trial.dramSize <|>
  ((List.range es.length).findSome? fun i =>
    match m.secs[i]? with
    | some x => require (sectionReserved x) failReserved (some i)
    | none => none) <|>
  trial.judgeContent m

/-- The image of a slot, if every check passes; otherwise a failure of the first check that fails (R93, Table 3.9). -/
def State.judgeImage (s : State) (slot : Nat) : Except (Nat × Option Nat) Image :=
  let h := s.slotBytes slot 256
  if ¬ hdrOk h then .error (failHeader, none) else
  let img := s.slotBytes slot (min (hdrSize h) 0x2000000)
  let table := slice img 0x100 (64 * hdrCount h)
  let es := tableEntries table
  let sign := slice img (signAt h) 256
  let early := judgeLayout h es <|> judgeOuterReserved img h es <|> require (keyOk s.fuses s.revision h sign) failKey <|>
    require (signatureOk img h sign) failSignature
  match early with
  | some r => .error r
  | none =>
    match openSections s.fuses img h 0 es with
    | .error i => .error (failDecrypt, some i)
    | .ok secs =>
      let m : Image := ⟨h, table, secs⟩
      match judgeOpened m es with
      | some r => .error r
      | none => .ok m

end Sys2Proof.Machine
end

