-- ==== Sys2Proof/Machine/Debug.lean ====
section
/-!
DEFINITION. The debug port: JTAG instructions, unlock, debug accesses and fuses (R695 to R713), and the register reads and
writes that have an effect of their own (R24, R27, R602, R706, R709).
-/

namespace Sys2Proof.Machine

open Sys2Proof

/-- DBG.STATUS.LIFECYCLE: 0 TEST, 1 PROVISION, 2 FIELD, 3 RETURN. -/
def State.lifecycle (s : State) : Nat := s.reg R.DBG_STATUS_LIFECYCLE

/-- The level at which debug acts: as level 2 without a session in TEST, PROVISION and RETURN (Table 20.1). -/
def State.debugLevel (s : State) : Nat := if s.lifecycle = 2 then s.reg R.DBG_STATUS_LEVEL else 2

def State.inHold (s : State) : Bool := s.flag R.DBG_STATUS_HOLD

/-- Whether the test access port answers: the always-on domain is out of reset and TRST_N is high (R693, R699). -/
def State.tapOn (s : State) : Bool := decide (s.boot.phase ≠ .por) && s.dbg.trstN

/-- Whether an instruction code is allowed (Table 20.3). -/
def State.jtagAllowed (s : State) (code : Nat) : Bool :=
  if code = 0x03 then s.lifecycle != 2 || (s.inHold && s.debugLevel == 2)
  else if code = 0x10 then s.lifecycle == 2
  else if code = 0x11 then decide (1 ≤ s.debugLevel)
  else if code = 0x12 then s.lifecycle == 1 || (s.lifecycle == 2 && s.debugLevel == 2)
  else true

/-- An instruction code loaded: one that is not allowed selects the bypass register and is counted (R699). -/
def State.jtag (s : State) (code : Nat) : State :=
  if s.jtagAllowed code then
    let known := code = 0x01 ∨ code = 0x02 ∨ code = 0x03 ∨ code = 0x10 ∨ code = 0x11 ∨ code = 0x12
    { s with dbg.ir := if known then code else 0xFF, dbg.extest := code == 0x03 }
  else ({ s with dbg.ir := 0xFF, dbg.extest := false }).incReg R.DBG_DENIED_COUNT

/-- Bits of a list as a number, the first least significant. -/
def boolsNat : List Bool → Nat
  | [] => 0
  | b :: l => ofBool b + 2 * boolsNat l

/-- A JTAG instruction: nothing while the port is in reset; otherwise the code is loaded, and where it is allowed, `f`. -/
def State.tap (s : State) (code : Nat) (f : State → State) : State :=
  if ¬ s.tapOn then s else
  let ok := s.jtagAllowed code
  let s := s.jtag code
  if ok then f s else s

/-- IDCODE (R699). -/
def execIdcode (dt : Nat) (s : State) : Host.Outcome State Fault Refusal :=
  .next ((s.elapse dt).tap 0x01 fun s =>
    s.emit (.tdo 32 (s.reg R.TOP_REV_LETTER * 2 ^ 28 + 0x0480 * 2 ^ 12 + 0x3BE * 2 + 1)))

/-- SAMPLE/PRELOAD (R699): the pins are sampled, and the boundary register takes what is shifted in. -/
def execSamplePreload (dt : Nat) (pins shift : List Bool) (s : State) : Host.Outcome State Fault Refusal :=
  .next ((s.elapse dt).tap 0x02 fun s =>
    { s.emit (.tdo pins.length (boolsNat pins)) with dbg.boundary := shift })

/-- EXTEST (R700): the outputs follow their boundary cells, but for the observe-only pins. -/
def execExtest (dt : Nat) (shift : List Bool) (s : State) : Host.Outcome State Fault Refusal :=
  .next ((s.elapse dt).tap 0x03 fun s => { s with dbg.boundary := shift })

/-- BYPASS, or another instruction code that selects the bypass register (R699). -/
def execBypass (dt code : Nat) (s : State) : Host.Outcome State Fault Refusal :=
  .next (if code = 0x01 ∨ code = 0x02 then s.elapse dt
    else if (s.elapse dt).jtagAllowed code ∧ (code = 0x03 ∨ code = 0x10 ∨ code = 0x11 ∨ code = 0x12) then s.elapse dt
    else (s.elapse dt).tap code fun s => s)

/-- The challenge of R701: 64 bytes. -/
def State.challenge (s : State) (nonce : List Byte) : List Byte :=
  leBytes 16 s.fuses.dieId ++ nonce ++ leBytes 1 s.lifecycle ++ List.replicate 15 0#8

/-- DBG_AUTH capture (R701): a fresh nonce, which nothing constrains, and the challenge shifted out. -/
def execDbgAuthCapture (dt : Nat) (s : State) : Host.Outcome State Fault Refusal :=
  .next ((s.elapse dt).tap 0x10 fun s =>
    let r := s.freeBelow (2 ^ 256)
    let nonce := leBytes 32 r.1
    { r.2.emit (.tdo 512 (leNat (r.2.challenge nonce))) with dbg.nonce := some nonce })

/-- Whether a response is accepted against the challenge in force (R701, R702). -/
def State.authOk (s : State) (resp : List Byte) : Bool :=
  match s.dbg.nonce, s.fuses.debugKey with
  | some nonce, some hash =>
    let at_ := fun o => field resp o 48
    let level := field resp 0 1
    decide (resp.length = 200 ∧ level ≤ 2) && field resp 1 7 == 0 && sha384 (slice resp 8 96) == hash &&
    ecdsaVerify (at_ 8) (at_ 56) (at_ 104) (at_ 152) (sha384 (s.challenge nonce ++ resp.take 1))
  | _, _ => false

/-- DBG_AUTH response (R702): the level is set, or the rejection counted; the third one locks. -/
def execDbgAuthResponse (dt : Nat) (resp : List Byte) (s : State) : Host.Outcome State Fault Refusal :=
  .next ((s.elapse dt).tap 0x10 fun s =>
    let ok := !s.flag R.DBG_STATUS_AUTH_LOCK && s.authOk resp
    let s := { s with dbg.nonce := none }
    if ok then s.setReg R.DBG_STATUS_LEVEL (field resp 0 1)
    else
      let s : State := { s.incReg R.DBG_AUTH_FAIL_COUNT with dbg.rejects := s.dbg.rejects + 1 }
      if 3 ≤ s.dbg.rejects then s.setReg R.DBG_STATUS_AUTH_LOCK 1 else s)

/-! ### DBG_ACC (R706, R707, Tables 20.4 and 20.5) -/

/-- On-chip SRAM that debug may reach: every one but the island's. -/
def debugSram (a : Nat) : Bool :=
  match sramIndex a with
  | some i => i != 17
  | none => false

/-- The result of an access: data, STATUS, and the state after it; an access outside its reach is counted. -/
def State.denied (s : State) : Nat × Nat × State := (0, 1, s.incReg R.DBG_DENIED_COUNT)

/-- Advance of the lifecycle from FIELD to RETURN (R696). -/
def State.enterReturn (s : State) : State :=
  if s.lifecycle = 2 ∧ s.debugLevel = 2 then { s with dbg.returnDue := true, fuses.imageKeyOff := true } else s

/-- A debug read of one word. -/
def State.debugRead (s : State) (a : Nat) : Nat × Nat × State :=
  if mapped a then let r := s.readReg a; (r.1, 0, r.2)
  else if s.isDram a ∨ (debugSram a ∧ s.debugLevel = 2 ∧ s.inHold) then
    if (s.badWords a 4).any fun w => w.2 == .uncorrectable || w.2 == .poisoned then (0, 2, s)
    else (s.load a 4, 0, s)
  else s.denied

/-- A debug write of one word. -/
def State.debugWrite (s : State) (a v : Nat) : Nat × Nat × State :=
  let alter := s.debugLevel == 2 && s.inHold
  if a = R.DBG_CTRL_HOLD_REQ.at 0 0 then
    if s.debugLevel ≠ 2 then s.denied else
    let s := if s.lifecycle = 1 ∨ s.lifecycle = 2 then s.writeReg a v 1 else s
    (0, 0, if bit v 1 then s.enterReturn else s)
  else if mapped a then
    match R.QUE_DOORBELL_WPTR.index a with
    | some (q, _, 0) =>
      if alter ∧ s.qState q ≠ qDisabled ∧ 32 ≤ q ∧ s.reg R.QUE_CFG_PRODUCER q = 0 then
        (0, 0, (s.doorbell q (bits v 16 0) (bits v 31 24)).2)
      else s.denied
    | _ =>
      if accessMask a .rw = 0 then s.denied
      else if windowOf a = 7 ∨ (alter ∧ closedWindow a = false) then (0, 0, s.writeReg a v mLow32)
      else s.denied
  else if alter ∧ (s.isDram a ∨ debugSram a) then
    match s.writeMem a (leBytes 4 v) with
    | (none, s) => (0, 0, s)
    | (some _, s) => (0, 2, s)
  else s.denied
where mLow32 : Nat := 2 ^ 32 - 1

/-- DBG_ACC: the previous access is reported at the capture, and the update makes the next one (R706). -/
def execDbgAcc (dt addr data op : Nat) (s : State) : Host.Outcome State Fault Refusal :=
  .next ((s.elapse dt).tap 0x11 fun s =>
    let s := s.emit (.tdo 88 (s.dbg.accData * 2 ^ 48 + s.dbg.accStatus * 2 ^ 82))
    let r : Nat × Nat × State :=
      if op = 1 ∨ op = 2 then
        if addr % 4 ≠ 0 ∨ 2 ^ 48 ≤ addr then s.denied
        else if op = 1 then s.debugRead addr else s.debugWrite addr (data % 2 ^ 32)
      else (0, 0, s)
    { r.2.2 with dbg.accData := r.1, dbg.accStatus := r.2.1 })

/-! ### Fuses (R696 to R698) -/

/-- Whether a FUSE write is refused: the instruction is not allowed for the field, the field is already programmed, or
R698. -/
def State.fuseRefused (s : State) (f : FuseField) : Bool :=
  let has := fun i => s.fuses.keyHash.any fun x => x.1 == i
  match f with
  | .revoke i => decide (4 ≤ i)
  | .keyHash i => s.lifecycle != 1 || decide (4 ≤ i) || has i
  | .svn => s.lifecycle != 1
  | .imageKey => s.lifecycle != 1 || s.fuses.imageKey.isSome
  | .debugKeyHash => s.lifecycle != 1 || s.fuses.debugKey.isSome
  | .lifecycle =>
    s.lifecycle != 1 || s.fuses.debugKey.isNone ||
    !((List.range 4).any fun i => has i && !s.fuses.revoked.contains i)

/-- A fuse field programmed (R697): of the SVN bits that the data sets, those from the lowest unblown one upwards are blown. -/
def Fuses.program (x : Fuses) (f : FuseField) (data : List Byte) : Fuses :=
  match f with
  | .keyHash i => { x with keyHash := x.keyHash ++ [(i, slice data 0 48)] }
  | .revoke i => { x with revoked := if x.revoked.contains i then x.revoked else x.revoked ++ [i] }
  | .svn => { x with svn := (List.range 32).foldl (fun n i => if n = i ∧ (leNat data).testBit i then n + 1 else n) x.svn }
  | .imageKey => { x with imageKey := some (slice data 0 32) }
  | .debugKeyHash => { x with debugKey := some (slice data 0 48) }
  | .lifecycle => x

/-- FUSE (R696 to R698): the field is programmed and read back; a failed read-back sets FUSE_ERR. -/
def execFuse (dt : Nat) (f : FuseField) (data : List Byte) (verified : Bool) (s : State) :
    Host.Outcome State Fault Refusal :=
  .next ((s.elapse dt).tap 0x12 fun s =>
    let s := s.emit (.tdo 0 0)
    if s.fuseRefused f then s else
    let s := { s with fuses := s.fuses.program f data, dbg.fieldDue := s.dbg.fieldDue || f == .lifecycle }
    if verified then s else s.setReg R.DBG_STATUS_FUSE_ERR 1)

/-- TRST_N goes low, or is released (R693): only the test access port is reset. -/
def execTrstNAssert (dt : Nat) (low : Bool) (s : State) : Host.Outcome State Fault Refusal :=
  let s := s.elapse dt
  .next { s with dbg.trstN := !low, dbg.ir := 0x01, dbg.extest := false }

/-- A level-2 write of 1 to DBG.CTRL.RETURN (R696). -/
def execDbgReturnWrite (dt : Nat) (s : State) : Host.Outcome State Fault Refusal :=
  .next ((s.elapse dt).tap 0x11 State.enterReturn)

/-- A read of DBG.FRAM_DATA (R706). -/
def execFramDataRead (dt : Nat) (s : State) : Host.Outcome State Fault Refusal :=
  .next ((s.elapse dt).tap 0x11 fun s => (s.readReg (R.DBG_FRAM_DATA_DATA.at 0 0)).2)

/-- A write of DBG.TMUX_SEL (R709): an undefined SIG or ARG leaves the field. -/
def execTmuxSelWrite (dt n v : Nat) (s : State) : Host.Outcome State Fault Refusal :=
  .next ((s.elapse dt).tap 0x11 fun s =>
    if n < 16 then s.writeReg (R.DBG_TMUX_SEL_SIG.at n 0) v (2 ^ 16 - 1) else s)

/-! ### Register reads and writes with an effect of their own -/

/-- A read of RST.PLOG_COUNT by any reader takes a new snapshot (R602). -/
def execPlogCountRead (dt : Nat) (s : State) : Host.Outcome State Fault Refusal :=
  .next (((s.elapse dt).readReg (R.RST_PLOG_COUNT_NEXT.at 0 0)).2)

/-- A read of the lowest word of a wide counter takes its snapshot (R24). -/
def execCounterLowWordRead (dt addr : Nat) (s : State) : Host.Outcome State Fault Refusal :=
  let s := s.elapse dt
  .next (match wideAt addr with
    | some (_, _, 0) => (s.readReg addr).2
    | _ => s)

/-- A write to a register under its access type (R22, R23, R25, R27): rw fields always, rws fields until start completes. -/
def execRegisterWrite (dt addr value mask : Nat) (s : State) : Host.Outcome State Fault Refusal :=
  let s := s.elapse dt
  .next (if ¬ mapped addr ∨ addr % 4 ≠ 0 ∨ windowOf addr = 0x25 then s else
    let s := s.writeReg addr value mask
    if s.svc = 0 then
      s.setRegWord addr (mergeBits (s.regWord addr) value (mask &&& accessMask addr .rws))
    else s)

end Sys2Proof.Machine
end

