-- ==== Sys2Proof/Machine/Recovery.lean ====
section
/-!
DEFINITION. The safety and recovery family: lockstep and split hand-over, island supervision, fault records, escalation, the
compute reset, hang detectors (R548 to R568, R581 to R610).
-/

namespace Sys2Proof.Machine

open Sys2Proof

/-! ### Lockstep and split hand-over (R550 to R557) -/

/-- Whether pair `p` runs in lockstep: it is in a partition and not split. -/
def State.inLockstep (s : State) (p : Nat) : Bool :=
  (s.pairPart p).isSome && !s.flag R.SAFE_PAIR_STAT_SPLIT p && !s.flag R.SAFE_PAIR_STAT_MISMATCH p

/-- Pair `p` is stopped by its comparator (R550). -/
def State.mismatch (s : State) (p : Nat) : State := (s.setReg R.SAFE_PAIR_STAT_MISMATCH 1 p).raise (0x10 + p) p 0

/-- A comparator finds a mismatch: of pair 0 to 7, or of the island, which is 8. -/
def execLockstepMismatch (dt pair : Nat) (s : State) : Host.Outcome State Fault Refusal :=
  let s := s.elapse dt
  .next (if s.boot.phase = .por then s
    else if pair = 8 then s.raise 0x00 0 0
    else if pair < 8 ∧ s.inLockstep pair then s.mismatch pair
    else s)

/-- The pair whose hand-over the island would begin next (R554). -/
def State.splitNext (s : State) : Option (Nat × Nat) :=
  (List.range 8).findSome? fun p =>
    match s.pairPart p with
    | some part =>
      let e := eventIndex part (s.reg R.SAFE_PAIR_CFG_SPLIT_EVT p) false
      if s.reg R.SAFE_PAIR_CFG_MODE p = 2 ∧ s.inLockstep p ∧ s.flag R.SAFE_PAIR_STAT_PAUSING p = false ∧ 1 ≤ s.event e
      then some (p, e) else none
    | none => none

/-- The island consumes SPLIT_EVT and begins a hand-over (R554, R555 step 1). -/
def execSplitHandoverBegin (dt : Nat) (s : State) : Host.Outcome State Fault Refusal :=
  let s := s.elapse dt
  .next (match s.splitNext with
    | some (p, e) =>
      if s.running ∧ s.grants ∧ s.hub.handover = none then
        let s := (s.setEvent e (s.event e - 1)).setReg R.SAFE_PAIR_STAT_PAUSING 1 p
        { s with hub.handover := some ⟨p, s.tick⟩ }
      else s
    | none => s)

/-- Thread `t` is at a command boundary or in a wait. -/
def State.paused (s : State) (t : Nat) : Bool :=
  match (s.thread t).cur.bind s.cmd? with
  | some c => c.stage == .fence || c.stage == .waitEvent || c.stage == .waitTimer || c.stage == .waiting || c.stage == .held
  | none => true

/-- Every thread is paused: the final compare, and the split (R555 steps 2 to 5, R577). -/
def execSplitHandoverComplete (dt : Nat) (mismatch : Bool) (s : State) : Host.Outcome State Fault Refusal :=
  let s := s.elapse dt
  .next (match s.hub.handover with
    | some h =>
      let p := h.pair
      if (List.range 4).all fun k => s.paused (8 * p + k) then
        let s := { s with hub.handover := none }
        if mismatch then s.mismatch p
        else
          let s := (s.setReg R.SAFE_PAIR_STAT_SPLIT 1 p).setReg R.SAFE_PAIR_STAT_PAUSING 0 p
          let s := s.setReg R.SAFE_SPLIT_TIME_TIME s.now p
          let s := (List.range 4).foldl (fun s k =>
            (List.range 4).foldl (fun s c => s.setReg R.SEQ_LOOP_COUNT 0 (8 * p + 4 + k) c)
              (s.setThread (8 * p + 4 + k) { boundary := s.tick })) s
          s.raise 0x18 p 0
      else s
    | none => s)

/-- Pausing has not completed within 100 µs (R556). -/
def execSplitTimeout (dt : Nat) (s : State) : Host.Outcome State Fault Refusal :=
  let s := s.elapse dt
  .next (match s.hub.handover with
    | some h =>
      if h.since + usTicks 100 ≤ s.tick ∧ ¬ (List.range 4).all (fun k => s.paused (8 * h.pair + k)) then
        ({ s with hub.handover := none }).raise 0x19 h.pair 0
      else s
    | none => s)

/-! ### Island supervision (R558, R567, R568, R589, R590) -/

/-- No service of the island's window watchdog by 600 µs (R558). -/
def execIslandWatchdogExpire (dt : Nat) (s : State) : Host.Outcome State Fault Refusal :=
  let s := s.elapse dt
  .next (if s.boot.phase ≠ .por ∧ s.hub.served + usTicks 600 < s.tick then
      ({ s with hub.served := s.tick }).raise 0x01 0 0
    else s)

/-- The oscillator cross-check over 1 ms of crystal time (R558): `count` is the island oscillator's count, nominally
1,000,000. -/
def execOscCrossCheck (dt count : Nat) (s : State) : Host.Outcome State Fault Refusal :=
  let s := s.elapse dt
  .next (if s.boot.phase = .por then s else
    s.excursion 0x03 0 (decide (count + 50000 < 1000000 ∨ 1050000 < count)) 0x03 0 0)

/-- The island's record of a unit (Table 16.4): item, value, and the queues fenced on a disagreement. -/
def State.unitRecord (s : State) (kind i : Nat) : Nat × Nat × List Nat :=
  let cmdQueues := fun (p : Nat → Bool) => (List.range 512).filter fun q =>
    decide (32 ≤ q) && s.qState q != qDisabled && s.reg R.QUE_CFG_KIND q == 0 && p q
  match kind with
  | 0 => (0x01, s.qState i, [i])
  | 1 => (0x02, ofBool (s.corePart i).isSome + 2 * ofBool (s.corePowered i),
          cmdQueues fun q => (s.corePart i).any (· == s.qPart q))
  | 2 => (0x03, ((List.range 8).map fun k => if s.present (8 * i + k) then 2 ^ k else 0).sum,
          cmdQueues fun q => s.reg R.QUE_CFG_THREAD q / 8 == i)
  | _ => (0x04, ((List.range 4).map fun p => if (s.partEngines p).testBit i then 2 ^ p else 0).sum, cmdQueues fun _ => true)

/-- Whether a unit's report disagrees with the record: for a queue, IDLE, ACTIVE and STOPPED count as one. -/
def unitDisagrees (kind record unit : Nat) : Bool :=
  if kind = 0 then
    let cls := fun v => if v = 0 then 0 else if v = 4 then 2 else 1
    cls record != cls unit
  else record != unit

/-- A queue fenced (R130). -/
def State.fence (s : State) (q : Nat) : State := if s.qState q = qDisabled then s else s.setQState q qFenced

/-- One unit's report compared with the record (R590). -/
def State.compareUnit (s : State) (u : UnitReport) : State :=
  let (item, value, queues) := s.unitRecord u.kind u.index
  if 3 < u.kind ∨ ¬ unitDisagrees u.kind value u.value then s else
  let queues := if u.kind = 3 then queues.filter fun q => value.testBit (s.qPart q) || u.value.testBit (s.qPart q) else queues
  let s := queues.foldl (fun s q => s.fence q) s
  let s := s.q2 (0x14 + 2 ^ 8 * u.kind + 2 ^ 16 * u.index) (item + 2 ^ 8 * (value % 256) + 2 ^ 16 * (u.value % 256)) 0 0
  s.raise 0x59 u.index (u.kind + 2 ^ 8 * item + 2 ^ 16 * (value % 256) + 2 ^ 24 * (u.value % 256))

/-- A latch of a class-D or class-OUT source is set. -/
def State.dangerLatched (s : State) : Bool :=
  s.hub.latches.any fun l => sourceClass l.src == some 0 || sourceClass l.src == some 1

/-- One supervision cycle (R558, R567, R589, R590): the watchdog serviced within its window, the units' reports compared
in IN_SERVICE, and the heartbeat toggled.  `reports` lists reports of units that differ from what the unit was last told. -/
def execIslandSupervisionCycle (dt : Nat) (reports : List UnitReport) (s : State) : Host.Outcome State Fault Refusal :=
  let s := s.elapse dt
  .next (if s.boot.phase = .por ∨ s.hub.islandDead ∨ s.hub.outFrom.isSome then s else
    let gap := s.tick - s.hub.served
    let s : State := { s with hub.served := s.tick }
    let s : State := if gap < usTicks 400 ∨ usTicks 600 < gap then s.raise 0x01 0 0 else s
    let s := if s.svc = 1 then reports.foldl (fun s u => if s.svc = 1 then s.compareUnit u else s) s else s
    if s.svc = 1 ∧ s.hub.faultN ∧ ¬ s.dangerLatched then { s with hub.heartbeat := !s.hub.heartbeat } else s)

/-- The pads sampled (R568): a level other than the driven one for 1 ms, or a heartbeat without a toggle for 1 ms in
IN_SERVICE. -/
def execPinReadbackSample (dt : Nat) (faultPad hbPad : Bool) (s : State) : Host.Outcome State Fault Refusal :=
  let s := s.elapse dt
  .next (if s.boot.phase = .por then s else
    let ms := msTicks 1
    let hbWas := s.flag R.SAFE_STATUS_HB_PIN
    let s := (s.setReg R.SAFE_STATUS_FAULT_PIN (ofBool faultPad)).setReg R.SAFE_STATUS_HB_PIN (ofBool hbPad)
    let bad := if faultPad = s.hub.faultN then none else some (s.hub.pinBad.getD s.tick)
    let hb := if s.svc = 1 then (if hbPad = hbWas then some (s.hub.hbBad.getD s.tick) else some s.tick)
      else if hbPad = s.hub.heartbeat then none else some (s.hub.hbBad.getD s.tick)
    let s := { s with hub.pinBad := bad, hub.hbBad := hb }
    let long := fun (o : Option Nat) => o.any fun t => decide (t + ms ≤ s.tick)
    let s := if bad.isNone ∨ long bad then s.excursion 0x05 0 (long bad) 0x05 0 0 else s
    if hb.isNone ∨ hb = some s.tick ∨ long hb then s.excursion 0x05 1 (long hb) 0x05 1 0 else s)

/-! ### The compute reset and OUT_OF_SERVICE (R586 to R588, R597) -/

/-- What the compute reset restores (Table 16.3, R305, R426, R410, Table 9.8): registers, and the memories that are lost. -/
def State.computeLoss (s : State) : State :=
  let s := s.resetRegs 0x00F000100000 0x00F000200000
  let s := (List.range 16).foldl (fun s n => s.setReg R.TC_STATUS_POWERED (ofBool (s.corePowered n)) n) s
  let s := s.resetRegs 0x00F000210000 0x00F000240000
  let s := s.resetRegs 0x00F000241000 0x00F000250000
  let s := (List.range 8).foldl (fun s p => s.resetRegs (0x00F000020904 + 0x10 * p) (0x00F000020910 + 0x10 * p)) s
  let s := (List.range 18).foldl (fun s i =>
    if i = 8 ∨ i = 17 then s else s.resetRegs (0x00F000308000 + 0x10 * i) (0x00F000308010 + 0x10 * i)) s
  [1, 2, 3, 4, 5, 7, 8, 9].foldl (fun s d => s.zeroDomain d) s

/-- The compute reset asserted. -/
def State.assertReset (s : State) : State :=
  let s := { s.saveAnswers with queuesLost := true }
  ((s.stopEngines.computeLoss).setReg R.RST_STATUS_ASSERTED 1).incReg R.RST_COUNTS_RESETS

/-- Entry to OUT_OF_SERVICE (R597). -/
def State.enterOut (s : State) : State :=
  let s := if s.flag R.RST_STATUS_ASSERTED then s else s.assertReset
  let s := [1, 2, 3, 4, 5, 7, 8, 9].foldl (fun s d => s.powerOff d) s
  let s := s.plog { code := 0x05, before := s.svc, after := 3, value := s.reg R.RST_STATUS_ESC_COUNT
                    detail := s.reg R.RST_CFG_ESC_W }
  let s := s.setReg R.RST_STATUS_HELD 1
  ({ s with hub.reset := .held, boot.warmOnPg := false, boot.warmDue := false }).setSvc 3

/-- The entry into SAFE at RST.LAST_TIME put into the history, and counted within W (R595). -/
def State.countEntry (s : State) : State :=
  let t := s.reg R.RST_LAST_TIME_TIME
  let w := s.reg R.RST_CFG_ESC_W * 1000000000
  let s := (List.range 14).foldr (fun i s => s.setReg R.RST_ESC_TIME_TIME (s.reg R.RST_ESC_TIME_TIME i) (i + 1)) s
  let s := s.setReg R.RST_ESC_TIME_TIME t 0
  let n := ((List.range 15).filter fun i =>
    let e := s.reg R.RST_ESC_TIME_TIME i
    e != 0 && decide (t < e + w ∧ e ≤ t)).length
  s.setReg R.RST_STATUS_ESC_COUNT n

/-- The escalation decision of an entry into SAFE (R586, R595). -/
def State.escalate (s : State) : State :=
  let s := s.countEntry
  let n := s.reg R.RST_STATUS_ESC_COUNT
  if s.reg R.RST_CFG_ESC_M ≤ n then s.enterOut
  else
    let s := s.plog { code := 0x02, before := 1, after := 2, value := n, detail := ofBool s.hub.byPg }
    if s.hub.byPg then { s with hub.reset := .none, boot.warmOnPg := s.flag R.PWR_PMIC_PG == false
                                boot.warmDue := s.flag R.PWR_PMIC_PG }
    else { s with hub.reset := .due }

/-- The record of a latch written to Q1, with its persistent-log entry (R564, R565, Table 15.2). -/
def State.writeFaultRecord (s : State) (l : Latch) : State :=
  let seq := s.hub.recSeq % 2 ^ 32
  let words := [l.src + 2 ^ 8 * l.react + 2 ^ 10 * ofBool l.first + 2 ^ 16 * (l.inst % 512) + 2 ^ 25 * l.before
      + 2 ^ 28 * l.after + 2 ^ 32 * seq,
    l.time, l.quality, l.detail, s.reg R.SAFE_FAULT_COUNT_COUNT l.src, 0, 0, 0]
  let s := { s with hub.latches := s.hub.latches.filter fun x => x.src != l.src, hub.recSeq := s.hub.recSeq + 1 }
  let s := (s.record 1 words).incReg R.SAFE_RECORDS_COUNT
  if l.react = 0 then s
  else s.plog { code := 0x01, src := l.src, inst := l.inst % 512, before := l.before, after := l.after, value := seq
                detail := l.detail % 2 ^ 32 }

/-- The island writes the oldest fault record, and decides escalation of an entry into SAFE (R564, R565, R586, R595). -/
def execFaultRecordWrite (dt : Nat) (s : State) : Host.Outcome State Fault Refusal :=
  let s := s.elapse dt
  .next (if s.hub.islandDead ∨ s.hub.outFrom.isSome ∨ s.netReset then s else
    match s.hub.latches with
    | [] => s
    | l :: _ =>
      let s := s.plogFlush.writeFaultRecord l
      if s.hub.reset = .undecided then s.escalate else s)

/-- After a class-OUT fault the island has reset itself and repeated its self-test, which passes or not (R562). -/
def execIslandRestart (dt : Nat) (passed : Bool) (s : State) : Host.Outcome State Fault Refusal :=
  let s := s.elapse dt
  .next (match s.hub.outFrom with
    | none => s
    | some before =>
      if ¬ passed then { s with hub.islandDead := true }
      else
        let s := { s with hub.outFrom := none, hub.served := s.tick }
        let s := s.setReg R.SAFE_STATUS_ISLAND_RESTARTED 1
        let s := s.hub.latches.foldl (fun s l => s.writeFaultRecord l) s.plogFlush
        let s := if s.hub.reset = .undecided then s.countEntry else s
        if before = 3 ∨ before = 4 then s else s.enterOut)

/-- The island asserts the compute reset (R586). -/
def execComputeResetAssert (dt : Nat) (s : State) : Host.Outcome State Fault Refusal :=
  let s := s.elapse dt
  .next (if s.hub.reset = .due ∧ s.hub.islandDead = false ∧ s.hub.outFrom = none then
      { s.assertReset with hub.reset := .asserted s.tick }
    else s)

/-! ### Hang detectors (R582 to R585, R608) -/

/-- A thread has stayed ISSUING for THREAD_US without a boundary (R582). -/
def execThreadWatchdogExpire (dt t : Nat) (s : State) : Host.Outcome State Fault Refusal :=
  let s := s.elapse dt
  let x := s.thread t
  .next (if t < 64 ∧ s.threadState t = 1 ∧ x.boundary + usTicks (s.reg R.RST_WD_CFG_THREAD_US) ≤ s.tick then
      let c := match x.cur with
        | some id => s.cmd? id
        | none => (x.frames.head?.map (fun f : Frame => f.call)).bind s.cmd?
      let q := match c with | some c => c.queue % 512 | none => 0
      let n := match c with | some c => c.seqno | none => 0
      let s := s.q2 (0x10 + 2 ^ 8 * t + 2 ^ 16 * q) n ((s.tick - x.boundary) / 25) 0
      (s.boundary t).raise 0x1E t 0
    else s)

/-- Whether an engine instance sends heartbeats: its power domain is on and the compute reset is released (R583). -/
def State.beats (s : State) (cls i : Nat) : Bool :=
  !s.flag R.RST_STATUS_ASSERTED &&
  (match cls with
   | 1 => decide (i < 8) && (s.pairPart i).isSome && s.powered 9
   | 2 => decide (i < 16) && s.corePowered i
   | 3 => s.powered 5
   | 4 | 5 => s.powered 8
   | 6 => s.powered 7
   | 7 => s.powered 6
   | 8 => s.powered 10
   | 9 => true
   | _ => false)

/-- No heartbeat from an engine instance for 8 µs (R583); `last` is the Orbit time of its last pulse. -/
def execEngineHeartbeatLoss (dt cls i last : Nat) (s : State) : Host.Outcome State Fault Refusal :=
  let s := s.elapse dt
  .next (if s.boot.phase ≠ .por ∧ s.beats cls i then
      (s.q2 (0x11 + 2 ^ 8 * cls + 2 ^ 16 * i) last 0 0).raise 0x1F cls i
    else s)

/-- The work of a network request that timed out is lost (R584). -/
def State.netLoss (s : State) : NetWork → State
  | .command id =>
    match s.cmd? id with
    | some _ => s.finish id { status := 0x20 }
    | none => s
  | .request =>
    match s.intakeTake with
    | some (r, s) => (s.incReg R.PART_INTAKE_LOST_COUNT).reply r 0x11
    | none => s
  | .response i =>
    match s.itemSlots (16 + i) with
    | some n =>
      let s := s.release (16 + i) n
      if i < 2 then s.incReg R.ETH_TX_DROP_TX_DROP i
      else if i = 2 then s.incReg R.PCIE_TX_DROP_TX_DROP
      else s.incReg R.CAN_TX_DROP_TX_DROP (i - 3)
    | none => s
  | .item q n => s.incReg R.QUE_DISCARD_SLOTS q 0 n
  | .record n => (s.visAbandon (match s.streamEntry n with | some e => if strKind e = 3 then 1 else 0 | none => 0) n).incReg
      R.VFE_STR_DROP_COUNT n
  | .channel n => (s.visAbandon 4 n).incReg R.VFE_CH_DROP_COUNT n
  | .lidar n => (s.visAbandon 2 n).incReg R.VFE_LID_DROP_COUNT n
  | .capture n => (s.capAbandon n).incReg R.ACU_CAP_DROP_COUNT n
  | .island => s

/-- A network transaction timer reaches NET_US (R584, R593). -/
def execNetworkTimeout (dt cls i addr : Nat) (work : NetWork) (s : State) : Host.Outcome State Fault Refusal :=
  let s := s.elapse dt
  .next (if s.boot.phase = .por ∨ s.netReset then s else
    let s := if s.hub.reissue.any fun x => x.1 == addr then
        { s.supersede 1 addr ((s.hub.reissue.find? fun x => x.1 == addr).map (·.2) |>.getD 0) with
          hub.reissue := s.hub.reissue.filter fun x => x.1 != addr }
      else s
    let s := s.q2 (0x12 + 2 ^ 8 * cls + 2 ^ 16 * i) addr (s.reg R.RST_WD_CFG_NET_US) 0
    let s := s.raise 0x58 (cls % 16 + 16 * (i % 32)) addr
    s.netLoss work)

/-- A network response after its timeout is discarded and counted (R584, R608). -/
def execLateResponse (dt : Nat) (s : State) : Host.Outcome State Fault Refusal :=
  .next ((s.elapse dt).incReg R.RST_LATE_RESP_COUNT)

end Sys2Proof.Machine
end

