-- ==== Sys2Proof/Machine/Supplies.lean ====
section
/-!
DEFINITION. Supplies, resets from outside, clocks and temperatures (R92, R103, R108, R647 to R674, R684, R690 to R692).
-/

namespace Sys2Proof.Machine

open Sys2Proof

/-! ### Beginning a cold start (R51, R92, R102, R103, R696, R703 to R705) -/

/-- The lifecycle fuses as they have been blown (R696): what takes effect at the next cold start. -/
def State.lifeFuses (s : State) : Fuses :=
  { s.fuses with lifecycle := if s.dbg.returnDue then 3 else if s.dbg.fieldDue then max s.fuses.lifecycle 2 else s.fuses.lifecycle }

/-- Register words of `[lo, hi)` taken over from another state. -/
def State.keepRegs (s old : State) (lo hi : Nat) : State :=
  { s with regs := (old.regs.filter fun p => decide (lo ≤ p.1 ∧ p.1 < hi)).foldl (fun m p => Sparse.put 0#32 m p.1 p.2)
            (Sparse.clear s.regs lo hi) }

/-- What no cold start touches: the queue of commands, the time of the reference, what leaves the block, the stores, fuses and
pins. -/
def State.survive (s : State) : State :=
  { State.reset with
    pending := s.pending, tick := s.tick, freeCtr := s.freeCtr, out := s.out
    fram := s.fram, flash := s.flash, ufs := s.ufs, fuses := s.lifeFuses
    boot := { recA := s.boot.recA, recB := s.boot.recB }
    dbg := { trstN := s.dbg.trstN }
    power := { porstN := s.power.porstN, perstN := s.power.perstN } }

/-- The next INDEX of the persistent log as the log itself gives it (R601). -/
def plogNextOf (m : List Host.Cell) : Nat :=
  (List.range 7168).foldl (fun n k => match plogAt m k with
    | some (i, _) => max n (i + 1)
    | none => n) 0

/-- A cold start begins: every block but Tide and the ferroelectric RAM is reset, and Orbit time is 0.  `retry` says that the
device begins it itself after an attempt. -/
def State.coldStart (s : State) (retry : Bool) : State :=
  let n := s.survive.keepRegs s 0x00F000250000 0x00F000260000
  let n := { n with tide := s.unseal.tide, power.mainSince := s.power.mainSince
                    hub.served := s.tick, hub.plogNext := plogNextOf s.fram
                    boot := { n.boot with phase := .step, since := s.tick, begun := s.tick }
                    dbg := { n.dbg with holdStart := s.flag R.DBG_CTRL_HOLD_REQ || n.fuses.lifecycle == 0 ||
                                              n.fuses.lifecycle == 3 || (retry && s.dbg.holdStart) } }
  let n := (n.setReg R.PWR_AON_MAIN_VALID (s.reg R.PWR_AON_MAIN_VALID)).setReg R.PWR_AON_BAK_VALID (s.reg R.PWR_AON_BAK_VALID)
  let n := (n.setReg R.PWR_AON_ON_BAK (s.reg R.PWR_AON_ON_BAK)).setReg R.PWR_AON_WARN (s.reg R.PWR_AON_WARN)
  let n := (n.setReg R.PWR_PMIC_PG (s.reg R.PWR_PMIC_PG)).setReg R.DBG_STATUS_LIFECYCLE n.fuses.lifecycle
  let n := n.setReg R.RST_PLOG_COUNT_NEXT n.hub.plogNext
  let n := (n.setReg R.BOOT_SVN_FUSED n.fuses.svn).setReg R.BOOT_SVN_REVOKED
    ((List.range 4).map fun i => if n.fuses.revoked.contains i then 2 ^ i else 0).sum
  if s.tideRun then
    ((n.setReg R.TOP_SVC_TIDE_RUN 1).setReg R.BOOT_STATUS_SEALED 1).setReg R.BOOT_SEAL_CRC_CRC (s.reg R.BOOT_SEAL_CRC_CRC)
  else n

/-! ### Power-on reset (R647, R648, R690, R692) -/

/-- `main` and `bak` say which always-on inputs are valid: the domain leaves power-on reset, takes an input, and a cold start begins
once PORST_N is high. -/
def execPowerOnResetRelease (dt : Nat) (main bak : Bool) (s : State) : Host.Outcome State Fault Refusal :=
  let s := s.elapse dt
  .next (if s.boot.phase = .por ∧ (main ∨ bak) then
      let s := (s.setReg R.PWR_AON_MAIN_VALID (ofBool main)).setReg R.PWR_AON_BAK_VALID (ofBool bak)
      let s := { s.setReg R.PWR_AON_ON_BAK (ofBool (!main)) with power.mainSince := if main then some s.tick else none }
      if s.power.porstN then s.coldStart false else { s with boot.phase := .porst }
    else s)

/-- The input in use falls below 2.95 V: the always-on domain enters power-on reset, Tide stops, and a totals record that is being
written is torn. -/
def execPowerOnResetEntry (dt : Nat) (s : State) : Host.Outcome State Fault Refusal :=
  let s := s.elapse dt
  .next (if s.boot.phase = .por then s else
    let pg := s.reg R.PWR_PMIC_PG
    let s := s.tide.commits.foldl (fun (s : State) (c : TideCommit) =>
      match c.begun with
      | some (copy, _, _) =>
        { s with fram := setCellBytes s.fram (0x200 * copy) (leBytes 512 (Config.freeNat s.freeCtr)), freeCtr := s.freeCtr + 1 }
      | none => s) s
    s.survive.setReg R.PWR_PMIC_PG pg)

/-! ### PORST_N (R108, R684, R690) -/

/-- PORST_N has been low for 1 µs: an attempt in progress is abandoned. -/
def execPorstNAssert (dt : Nat) (s : State) : Host.Outcome State Fault Refusal :=
  let s := s.elapse dt
  let s := { s with power.porstN := false }
  .next (if s.svc = 0 ∧ s.boot.phase ≠ .por then
      { s.unseal.supersedeReissue.stopEngines.stopGroups with boot.phase := .porst, boot.pgSince := none }
    else s)

/-- PORST_N is released after a low level of `low` ns: one of 1 µs or more begins a cold start, outside power-on reset. -/
def execPorstNRelease (dt low : Nat) (s : State) : Host.Outcome State Fault Refusal :=
  let s := s.elapse dt
  .next (if low < 1000 then s else
    let s := { s with power.porstN := true }
    if s.boot.phase = .por then s else s.coldStart false)

/-! ### Always-on inputs (R648, R649, R669) -/

/-- The supervisor switches to an input. -/
def State.aonSwitch (s : State) (bak : Bool) : State :=
  let s := (s.setReg R.PWR_AON_ON_BAK (ofBool bak)).incReg R.PWR_AON_SWITCHES_COUNT
  let s := if s.tideRun then (s.setReg R.MTR_STATUS_ON_BACKUP (ofBool bak)).tideLog 4 0 (ofBool (!bak)) else s
  s.raise 0x84 (ofBool (!bak)) 0

/-- An input's VALID bit. -/
def State.aonValid (s : State) (bak : Bool) : Bool := s.flag (if bak then R.PWR_AON_BAK_VALID else R.PWR_AON_MAIN_VALID)
def State.setAonValid (s : State) (bak v : Bool) : State :=
  s.setReg (if bak then R.PWR_AON_BAK_VALID else R.PWR_AON_MAIN_VALID) (ofBool v)

/-- An input falls below 3.10 V: one in use gives way to the other, or the supply-loss warning rises. -/
def execAonInputFail (dt : Nat) (bak : Bool) (s : State) : Host.Outcome State Fault Refusal :=
  let s := s.elapse dt
  .next (if s.boot.phase = .por ∨ s.aonValid bak = false then s else
    let s := s.setAonValid bak false
    let s : State := if bak then s else { s with power.mainSince := none }
    if s.flag R.PWR_AON_ON_BAK ≠ bak then s
    else if s.aonValid (!bak) then s.aonSwitch (!bak)
    else ((s.setReg R.PWR_AON_WARN 1).incReg R.PWR_WARNINGS_COUNT).tideLoss)

/-- An input has been valid for 1 ms: a warning ends, and the supervisor takes that input. -/
def execAonInputValid (dt : Nat) (bak : Bool) (s : State) : Host.Outcome State Fault Refusal :=
  let s := s.elapse dt
  .next (if s.boot.phase = .por ∨ s.aonValid bak then s else
    let s := s.setAonValid bak true
    let s : State := if bak then s else { s with power.mainSince := some s.tick }
    if s.flag R.PWR_AON_WARN then
      let s := s.setReg R.PWR_AON_WARN 0
      if s.flag R.PWR_AON_ON_BAK = bak then s else s.aonSwitch bak
    else s)

/-- VAON_MAIN has been valid for 100 ms while VAON_BAK is in use. -/
def execAonBackToMain (dt : Nat) (s : State) : Host.Outcome State Fault Refusal :=
  let s := s.elapse dt
  .next (match s.power.mainSince with
    | some t => if s.boot.phase ≠ .por ∧ s.flag R.PWR_AON_ON_BAK ∧ t + msTicks 100 ≤ s.tick then s.aonSwitch false else s
    | none => s)

/-! ### PMIC_PG (R98, R108, R605, R653, R654, R670, R671) -/

/-- DRAM loses what it held (R363): what nothing has written reads there. -/
def State.loseDram (s : State) : State :=
  { s with mem := Sparse.clear s.mem 0 0x00E000000000, health := Sparse.clear s.health 0 0x00E000000000 }

/-- PMIC_PG falls: every switched domain is isolated and unpowered, the source is raised, and an attempt in progress is abandoned.
`kept` says that the LPDDR5X supplies stay within their limits. -/
def execPmicPgFall (dt : Nat) (kept : Bool) (s : State) : Host.Outcome State Fault Refusal :=
  let s := s.elapse dt
  .next (if s.flag R.PWR_PMIC_PG = false then s else
    let s := s.setReg R.PWR_PMIC_PG 0
    if s.boot.phase = .por then s else
    let s := (s.incReg R.PWR_PMIC_FALLS).raise 0x80 0 0
    let s := { s.saveAnswers with queuesLost := true }
    let s := s.stopEngines.computeLoss
    let s := (List.range 15).foldl (fun s d => s.powerOff d) s
    let s : State := if kept then s else s.loseDram
    if s.svc = 0 then
      match s.boot.phase with
      | .step => { s.unseal.supersedeReissue.stopEngines.stopGroups with boot.phase := .pgLost, boot.pgSince := none }
      | .pgBack => { s with boot.phase := .pgLost }
      | _ => s
    else if s.boot.warmDue then { s with boot.warmDue := false, boot.warmOnPg := true }
    else s)

/-- The device proceeds from ISLAND to SELECT (R654). -/
def State.beginSelect (s : State) : State :=
  let s := s.setReg R.BOOT_STATUS_STEP 2
  { s with boot.since := s.tick, boot.pgSince := none }

/-- PMIC_PG goes high. -/
def execPmicPgRise (dt : Nat) (s : State) : Host.Outcome State Fault Refusal :=
  let s := s.elapse dt
  .next (if s.flag R.PWR_PMIC_PG then s else
    let s := s.setReg R.PWR_PMIC_PG 1
    if s.boot.phase = .pgLost then { s with boot.phase := .pgBack, boot.since := s.tick }
    else match s.boot.pgSince with
      | some t =>
        if s.boot.phase = .step then
          (s.setReg R.PWR_PG_WAIT_US_US (min (s.reg R.PWR_PG_WAIT_US_US + (s.tick - t) / 25) (2 ^ 32 - 1))).beginSelect
        else s
      | none =>
        if s.boot.warmOnPg then { s with boot.warmOnPg := false, boot.warmDue := true } else s)

/-- 100 ms after PMIC_PG has returned high, a new cold start begins (R108). -/
def execPmicPgReturnWaitExpire (dt : Nat) (s : State) : Host.Outcome State Fault Refusal :=
  let s := s.elapse dt
  .next (if s.boot.phase = .pgBack ∧ s.boot.since + msTicks 100 ≤ s.tick then s.coldStart true else s)

/-! ### Rails and domains (R655, R658, R671) -/

/-- A rail has been outside its window for 5 µs, or is back within it. -/
def execRailMonitorFault (dt r : Nat) (on : Bool) (s : State) : Host.Outcome State Fault Refusal :=
  let s := s.elapse dt
  .next (if r < 6 ∧ s.boot.phase ≠ .por then
      let s := s.setBit R.PWR_RAILS_OUT r on
      if ¬ on then s.excursion 0x81 r false 0x81 r 0
      else if s.flag R.PWR_PMIC_PG ∧ s.power.armed then s.excursion 0x81 r true 0x81 r 0
      else s
    else s)

/-- The start step that powers a domain (Table 18.2). -/
def powerStep (d : Nat) : Nat :=
  if d = 10 ∨ d = 14 then 2
  else if 1 ≤ d ∧ d ≤ 4 then 3
  else if d = 9 then 5
  else if 11 ≤ d ∧ d ≤ 13 then 8
  else 9

/-- A domain that the running step powers has not reported power-good within 200 µs. -/
def execDomainPowerGoodTimeout (dt d : Nat) (s : State) : Host.Outcome State Fault Refusal :=
  let s := s.elapse dt
  .next (if 1 ≤ d ∧ d ≤ 14 ∧ s.boot.phase = .step ∧ s.boot.pgSince = none ∧ s.reg R.BOOT_STATUS_STEP = powerStep d ∧
      s.powered d = false ∧ s.boot.since + usTicks 200 ≤ s.tick then
      ({ s with power.armed := true }).raise 0x81 (0x10 + d) 0
    else s)

/-! ### Clocks (R661, R671, R673, R674) -/

/-- Rate of an Ethernet port's clock in kHz by its mode (Table 18.3). -/
def ethClock (mode : Nat) : Nat := if mode = 0 then 125000 else if mode = 1 then 78125 else 156250

/-- The frequency in force of a monitored clock domain in kHz. -/
def State.clockKhz (s : State) (c : Nat) : Nat :=
  if 3 ≤ c ∧ c ≤ 6 then 1000 * s.reg R.CLK_TC_FREQ_MHZ (c - 3)
  else if c = 7 ∨ c = 8 ∨ c = 22 then 1000000
  else if c = 10 ∨ c = 23 then 800000
  else if c = 13 then 125 * dramSpeed (s.reg R.MEMC_CFG_SPEED)
  else if c = 14 then 500 * dramSpeed (s.reg R.MEMC_CFG_SPEED)
  else if c = 15 then ethClock (bits (field (ifEth s.ifaces.cfg (if bit (field (ifEth s.ifaces.cfg 0) 0 1) 0 then 0 else 1)) 0 1) 2 1)
  else if c = 16 then 250000
  else if c = 17 then 500000
  else if c = 18 then 786432
  else if c = 19 then 722534
  else if c = 24 then 200000
  else 0

/-- The PLL of a monitored clock domain: its bit of CLK.PLL_LOCK, or 8 to 10 for the SerDes, PCIe and link PLLs. -/
def clockPll (c : Nat) : Nat :=
  if 3 ≤ c ∧ c ≤ 6 then c - 3
  else if c = 10 ∨ c = 23 then 5
  else if c = 13 ∨ c = 14 then 6
  else if c = 18 ∨ c = 19 then 7
  else if c = 15 then 8
  else if c = 16 then 9
  else if c = 17 then 10
  else 4

/-- A clock domain is monitored and its power domain on. -/
def State.clockOn (s : State) (c : Nat) : Bool := decide (c < 26) && clockPower c != 0 && s.powered (clockPower c)

def State.badWindowsOf (s : State) (c : Nat) : Nat := Sparse.get 0 s.power.badWindows c

/-- The condition of a clock domain judged: CLK_FAULT while it lasts, and the source raised once for it. -/
def State.judgeClock (s : State) (c : Nat) : State :=
  let found := decide (2 ≤ s.badWindowsOf c) || s.power.pllLost.contains (clockPll c)
  (s.setBit R.CLK_CLK_FAULT_DOMAIN (c - 1) found).excursion 0x82 c found 0x82 c 0

/-- A window of 10 µs of crystal time, in which clock domain `c` has counted `count`; one in which a ladder step took effect is not
judged. -/
def execClockMonitorWindow (dt c count : Nat) (s : State) : Host.Outcome State Fault Refusal :=
  let s := s.elapse dt
  .next (if s.boot.phase = .por ∨ s.clockOn c = false then s
    else if 3 ≤ c ∧ c ≤ 6 ∧ s.power.stepAt.any (fun x => x.1 % 4 == c - 3 && decide (s.tick < x.2 + usTicks 12)) then s
    else
      let nominal := s.clockKhz c
      let bad := decide (5000 * count < 49 * nominal ∨ 51 * nominal < 5000 * count)
      let n := if bad then min (s.badWindowsOf c + 1) 2 else 0
      ({ s with power.badWindows := Sparse.put 0 s.power.badWindows c n }).judgeClock c)

/-- A PLL reports loss of lock, or lock again. -/
def execPllLossOfLock (dt p : Nat) (lost : Bool) (s : State) : Host.Outcome State Fault Refusal :=
  let s := s.elapse dt
  let clocks := (List.range 26).filter fun c => s.clockOn c && clockPll c == p
  .next (if s.boot.phase = .por ∨ clocks = [] then s else
    let s := if p < 8 then s.setBit R.CLK_PLL_LOCK_LOCKED p (!lost) else s
    let s := { s with power.pllLost := (if lost then [p] else []) ++ s.power.pllLost.filter fun x => x != p }
    clocks.foldl (fun s c => s.judgeClock c) s)

/-! ### Temperatures (R663 to R666, R672, R673) -/

/-- Power domains by which a sensor is read (Table 18.4); none of them for the always-on one. -/
def sensorDomains (n : Nat) : List Nat :=
  match n with
  | 0 => [1] | 1 => [2] | 2 => [3] | 3 => [4] | 4 => [9, 10] | 5 => [5, 7] | 6 => [8] | 7 => [10] | 8 => [11, 12, 13] | _ => []

def State.sensorOn (s : State) (n : Nat) : Bool := n == 9 || (sensorDomains n).any fun d => s.powered d

/-- The frequency ladder of a cluster whose TC_MAX is `m` (R665). -/
def ladder (m : Nat) : List Nat := m :: [1100, 1000, 900, 825].filter fun f => decide (f < m)

/-- A cluster moved to a level of its ladder. -/
def State.setLevel (s : State) (c level : Nat) : State :=
  (s.setReg R.CLK_TC_FREQ_MHZ ((ladder (s.reg R.CLK_TC_MAX_MHZ c)).getD level 825) c).setReg R.CLK_TC_FREQ_LEVEL level c

/-- Whether the last step of a kind lies at least `n` ticks back. -/
def State.stepsApart (s : State) (k n : Nat) : Bool :=
  match s.power.stepAt.find? fun x => x.1 == k with
  | some x => decide (x.2 + n ≤ s.tick)
  | none => true

def State.noteStep (s : State) (k : Nat) : State :=
  { s with power.stepAt := (k, s.tick) :: s.power.stepAt.filter fun x => x.1 != k }

/-- A reading of a cluster's sensor, in 0.25 °C, and the ladder. -/
def State.throttle (s : State) (c : Nat) (t : Int) : State :=
  let throt : Int := 4 * s.reg R.CLK_THERM_CFG_T_THROT
  let level := s.reg R.CLK_TC_FREQ_LEVEL c
  let since := (s.power.coolSince.find? fun x => x.1 == c).map (·.2)
  let rest := s.power.coolSince.filter fun x => x.1 != c
  let cool := decide (t ≤ throt - 20)
  let begun := since.getD s.tick
  let s := { s with power.coolSince := if cool then (c, begun) :: rest else rest }
  if ¬ s.power.ladder then s
  else if throt ≤ t ∧ level + 1 < (ladder (s.reg R.CLK_TC_MAX_MHZ c)).length ∧ s.stepsApart c (msTicks 1) then
    ((s.setLevel c (level + 1)).incReg R.CLK_THROTTLE_STEPS_COUNT c).noteStep c
  else if cool ∧ 0 < level ∧ begun + msTicks 10 ≤ s.tick ∧ s.stepsApart (4 + c) (msTicks 10) then
    (s.setLevel c (level - 1)).noteStep (4 + c)
  else s

/-- A reading judged against T_TRIP (R666). -/
def State.trip (s : State) (n : Nat) (t : Int) : State :=
  let limit : Int := 4 * s.reg R.CLK_THERM_CFG_T_TRIP
  let hot := if limit ≤ t then min (Sparse.get 0 s.power.hot n + 1) 2 else 0
  let s := { s with power.hot := Sparse.put 0 s.power.hot n hot }
  if hot = 2 then s.excursion 0x83 n true 0x83 n 0
  else if t < limit - 20 then s.excursion 0x83 n false 0x83 n 0
  else s

/-- One sensor read: an unpowered one reads as zero. -/
def State.readSensor (s : State) (n : Nat) (t : Int) : State :=
  if ¬ s.sensorOn n then s.setReg R.PWR_TEMP_T 0 n else
  let old := signed 16 (s.reg R.PWR_TEMP_MAX n)
  let top := if s.power.seen.contains n ∧ t < old then old else t
  let s := ((s.setReg R.PWR_TEMP_T (unsigned 16 t) n).setReg R.PWR_TEMP_MAX (unsigned 16 top) n)
  let s := { s with power.seen := n :: s.power.seen.filter fun x => x != n }
  let s := if n < 4 then s.throttle n t else s
  s.trip n t

/-- The readings of S0 to S9, in 0.25 °C. -/
def execThermalReading (dt : Nat) (readings : List Int) (s : State) : Host.Outcome State Fault Refusal :=
  let s := s.elapse dt
  .next (if s.boot.phase = .por then s else
    (List.range 10).foldl (fun s n => match readings[n]? with
      | some t => s.readSensor n t
      | none => s) s)

end Sys2Proof.Machine
end

