-- ==== Sys2Proof/Machine/Hosts.lean ====
section
/-!
DEFINITION. Host messages over Ethernet, PCIe and CAN FD, lidar packets, and the answers of intake control (R113, R185, R188,
R611 to R626, R640, R641, R646, R678, R728).
-/

namespace Sys2Proof.Machine

open Sys2Proof

/-! ### Configuration in force -/

/-- The ETH, PCIE and CAN entries in force (R105, R614). -/
def State.eth (s : State) (p : Nat) : List Byte := ifEth s.ifaces.cfg p
def State.pcie (s : State) : List Byte := ifPcie s.ifaces.cfg
def State.can (s : State) (k : Nat) : List Byte := ifCan s.ifaces.cfg k
def State.ethMtu (s : State) (p : Nat) : Nat := field (s.eth p) 4 2
def State.ethMac (s : State) (p : Nat) : List Byte := slice (s.eth p) 8 6
def State.ethIp (s : State) (p : Nat) : Nat := field (s.eth p) 0x10 4
def State.ethVid (s : State) (p : Nat) : Nat := bits (field (s.eth p) 2 2) 11 0
def State.ethUdp (s : State) (p : Nat) : Nat := field (s.eth p) 0x14 2
def State.ethReq (s : State) (p : Nat) : Bool := bit (field (s.eth p) 0 1) 3

/-- Data bytes of every segment but the last (R618). -/
def State.segData (s : State) (p : Nat) : Nat := s.ethMtu p - 44

/-- CAN controller `k` is configured and powered. -/
def State.canOn (s : State) (k : Nat) : Bool := bit (field (s.can k) 0 1) 0 && s.powered 11

/-- Interface 0 and 1 Ethernet, 2 PCIe, 3 to 6 CAN: whether it is up (R613). -/
def State.ifUp (s : State) (i : Nat) : Bool :=
  if i < 2 then s.flag R.ETH_STATUS_UP i
  else if i = 2 then s.flag R.PCIE_STATUS_UP
  else s.canOn (i - 3) && s.reg R.CAN_STATUS_STATUS (i - 3) != 2

/-! ### Landing a request message (R188, R612) -/

def State.countMalformed (s : State) (i : Nat) : State :=
  if i < 2 then s.incReg R.ETH_RX_MALFORMED_RX_MALFORMED i
  else if i = 2 then s
  else s.incReg R.CAN_RX_MALFORMED_RX_MALFORMED (i - 3)

def State.countBusy (s : State) (i : Nat) : State :=
  if i < 2 then s.incReg R.ETH_RX_BUSY_RX_BUSY i
  else if i = 2 then s
  else s.incReg R.CAN_RX_BUSY_RX_BUSY (i - 3)

/-- The header of a message with the fields that the device writes (Table 5.6). -/
def State.landedHeader (s : State) (i : Nat) (m : List Byte) : List Byte :=
  let w := bytesWords m 8
  let w1 := w.getD 1 0
  wordsBytes [w.getD 0 0, bits w1 31 0 + 2 ^ 32 * i + 2 ^ 35 * bits w1 63 35, w.getD 2 0, w.getD 3 0, s.now,
    s.quality + 2 ^ 8 * bits (w.getD 5 0) 63 8, w.getD 6 0, w.getD 7 0]

/-- A complete request message of interface `i`: 0 landed, 1 BUSY, 2 malformed. -/
def State.landMsg (s : State) (i : Nat) (m : List Byte) : Nat × State :=
  if m.length < 64 ∨ m.length ≠ 64 + field m 8 4 then (2, s.countMalformed i) else
  let hdr := s.landedHeader i m
  let body := m.drop 64
  if s.passedBy (8 + i) then (0, { s with ifaces.direct := s.ifaces.direct ++ [(i, hdr ++ body)] }) else
  let item := hdr :: (List.range (ceilDiv body.length 64)).map fun k => slice body (64 * k) 64
  if s.qFree (8 + i) < item.length then (1, (s.countBusy i).answer i (field m 0 8) 0x10 0 0 [])
  else
    let r := s.produce (8 + i) item
    if r.1 then (0, r.2)
    else (0, (r.2.incReg R.PART_INTAKE_LOST_COUNT).answer i (field m 0 8) 0x11 0 0 [])

/-! ### Ethernet frames (R616, R617) -/

/-- The `n`-byte big-endian field of a frame at offset `o`. -/
def beField (bs : List Byte) (o n : Nat) : Nat := leNat (slice bs o n).reverse

/-- The sum of the 16-bit words of a byte string, folded as Internet checksums are: 0xFFFF where it is good. -/
def onesSum (bs : List Byte) : Nat :=
  let t := ((List.range (ceilDiv bs.length 2)).map fun i => beField bs (2 * i) 2).sum
  let t := t % 2 ^ 16 + t / 2 ^ 16
  let t := t % 2 ^ 16 + t / 2 ^ 16
  t % 2 ^ 16 + t / 2 ^ 16

/-- A UDP datagram as it has been received. -/
structure Datagram where
  mac : Nat
  src : Nat
  dst : Nat
  sport : Nat
  dport : Nat
  vid : Nat
  data : List Byte
  deriving DecidableEq, Repr

/-- What a frame carries. -/
inductive FrameKind where
  | dropped
  /-- An 802.1AS message. -/
  | sync
  /-- An ARP request: the sender's address. -/
  | arp (target sender : Nat)
  | udp (d : Datagram)
  deriving DecidableEq, Repr

/-- An IPv4 packet without options or fragmentation, with good checksums, that carries UDP. -/
def udpOf (mac vid : Nat) (p : List Byte) : FrameKind :=
  let total := beField p 2 2
  let len := beField p 24 2
  let udp := (p.take total).drop 20
  let sum := beField udp 6 2
  let pseudo := slice p 12 8 ++ [0#8, 17#8] ++ slice udp 4 2
  if beField p 0 1 = 0x45 ∧ 28 ≤ total ∧ total ≤ p.length ∧ beField p 6 2 % 0x4000 = 0 ∧ beField p 9 1 = 17 ∧
      onesSum (p.take 20) = 0xFFFF ∧ 8 ≤ len ∧ len ≤ udp.length ∧
      (sum = 0 ∨ onesSum (pseudo ++ udp.take len) = 0xFFFF) then
    .udp { mac := mac, src := beField p 12 4, dst := beField p 16 4, sport := beField udp 0 2, dport := beField udp 2 2
           vid := vid, data := (udp.take len).drop 8 }
  else .dropped

/-- An ARP request for an IPv4 address. -/
def arpOf (p : List Byte) : FrameKind :=
  if beField p 0 2 = 1 ∧ beField p 2 2 = 0x0800 ∧ beField p 4 2 = 0x0604 ∧ beField p 6 2 = 1 ∧ 28 ≤ p.length then
    .arp (beField p 24 4) (beField p 14 4)
  else .dropped

/-- A frame from its destination address to its FCS, read at port `p` (Table 17.3). -/
def State.readFrame (s : State) (p : Nat) (f : List Byte) : FrameKind :=
  let n := f.length
  let dst := slice f 0 6
  let tagged := beField f 12 2 == 0x8100
  let at_ := if tagged then 16 else 12
  let type := beField f at_ 2
  let vid := if tagged then beField f 14 2 % 0x1000 else 0
  let body := (f.take (n - 4)).drop (at_ + 2)
  let sync := dst == [0x01#8, 0x80#8, 0xC2#8, 0x00#8, 0x00#8, 0x0E#8]
  if n < 18 ∨ s.ethMtu p + 22 < n ∨ crc32 (f.take (n - 4)) ≠ field f (n - 4) 4 then .dropped
  else if sync then (if type = 0x88F7 then .sync else .dropped)
  else if dst ≠ s.ethMac p ∧ dst ≠ List.replicate 6 0xFF#8 then .dropped
  else if type = 0x0806 then arpOf body
  else if type = 0x0800 then udpOf (beField f 6 6) vid body
  else .dropped

/-! ### Request segments (R618, R619) -/

def State.reasms (s : State) (p : Nat) : List Reasm := if p = 0 then s.ifaces.reasm0 else s.ifaces.reasm1
def State.setReasms (s : State) (p : Nat) (l : List Reasm) : State :=
  if p = 0 then { s with ifaces.reasm0 := l } else { s with ifaces.reasm1 := l }

/-- A message complete on an Ethernet port, with the addresses its response goes to (R613). -/
def State.ethMessage (s : State) (p : Nat) (m : List Byte) (back : EthAddr) : State :=
  let c := field m 2 2
  let r := field m 4 4
  let s := { s with ifaces.back := (p, c, r, back) :: s.ifaces.back.filter fun x => !(x.1 == p && x.2.1 == c && x.2.2.1 == r) }
  (s.landMsg p m).2

/-- Whether a key breaks a validity rule of R619. -/
def State.reasmBad (s : State) (p : Nat) (k : Reasm) : Bool :=
  let sd := s.segData p
  let size := 1024 * field (s.eth p) 0x16 2
  let total := k.got.find? (fun x => x.1 == 0) |>.map fun x => 64 + field x.2 8 4
  (k.got.any fun x => (decide (x.1 + 1 < k.segs) && x.2.length != sd) || decide (sd < x.2.length) ||
    decide (size < x.1 * sd + x.2.length)) ||
  total.any fun n => decide (size < n) || k.segs != ceilDiv n sd

/-- A request segment: its UDP payload and the addresses it came from. -/
def State.segment (s : State) (p : Nat) (d : Datagram) : State :=
  let h := d.data
  let client := field h 4 2
  let seg := field h 6 2
  let req := field h 8 4
  let segs := field h 12 2
  let data := h.drop 16
  let back : EthAddr := ⟨d.mac, d.src, d.sport⟩
  if h.length < 16 ∨ field h 0 2 ≠ 0x4B54 ∨ field h 2 1 ≠ 1 ∨ field h 3 1 ≠ 0 ∨ field h 14 2 ≠ 0 ∨ segs ≤ seg then s.countMalformed p
  else if segs = 1 then (if s.segData p < data.length then s.countMalformed p else s.ethMessage p data back)
  else if s.svc = 4 then s.incReg R.ETH_RX_DROP_RX_DROP p
  else
    let l := s.reasms p
    let mine := fun (k : Reasm) => k.ip == d.src && k.client == client && k.reqId == req
    match l.find? mine with
    | none =>
      if 16 ≤ l.length then s.incReg R.ETH_REASM_FULL_REASM_FULL p else
      let k : Reasm := { ip := d.src, client := client, reqId := req, segs := segs, back := if seg = 0 then back else {}
                         got := [(seg, data)], first := s.tick }
      if s.reasmBad p k then s.countMalformed p else s.setReasms p (l ++ [k])
    | some k =>
      if k.got.any fun x => x.1 == seg then s else
      let k' := { k with got := (seg, data) :: k.got, back := if seg = 0 then back else k.back }
      let rest := l.filter fun x => !mine x
      if k.segs ≠ segs ∨ s.reasmBad p k' then (s.setReasms p rest).countMalformed p
      else if k'.got.length = segs then
        let m := (List.range segs).flatMap fun i => ((k'.got.find? fun x => x.1 == i).map (·.2)).getD []
        (s.setReasms p rest).ethMessage p m k'.back
      else s.setReasms p (rest ++ [k'])

/-! ### Lidar packets (R621) -/

/-- The filter that a datagram received on port `p` matches: its lidar intake. -/
def State.lidarFilter (s : State) (p : Nat) (d : Datagram) : Option Nat :=
  (List.range (ifFilters s.ifaces.cfg)).findSome? fun i =>
    let w := field (ifFilter s.ifaces.cfg i) 0 8
    if bits w 0 0 = p ∧ bits w 15 4 = d.vid ∧ bits w 31 16 = d.dport ∧ bits w 63 32 = d.src then some (bits w 2 1) else none

/-- A selected packet landed in its intake's queue, or dropped. -/
def State.landLidar (s : State) (p i : Nat) (d : Datagram) (stamp quality : Nat) : State :=
  let drop := s.incReg R.ETH_LID_DROP_LID_DROP i
  match s.lidarEntry i with
  | none => drop
  | some e =>
    let q := field e 2 2
    let n := d.data.length
    let seq := Sparse.get 0 s.ifaces.lidarSeq i
    if s.noQueues ∨ s.qFree q < 1 + ceilDiv n 64 then drop else
    let hdr := wordsBytes [n + 2 ^ 16 * i + 2 ^ 18 * p + 2 ^ 24 * quality + 2 ^ 32 * (seq % 2 ^ 32), stamp,
      d.src + 2 ^ 32 * d.sport + 2 ^ 48 * d.vid, 0, 0, 0, 0, 0]
    let r := s.produce q (hdr :: (List.range (ceilDiv n 64)).map fun k => slice d.data (64 * k) 64)
    if r.1 then { r.2 with ifaces.lidarSeq := Sparse.put 0 s.ifaces.lidarSeq i (seq + 1) }
    else r.2.incReg R.ETH_LID_DROP_LID_DROP i

/-- A frame sorted (R617).  An 802.1AS message acts at Orbit as SYNC_RECEIVED says. -/
def State.ethFrame (s : State) (p : Nat) (f : List Byte) (stamp quality : Nat) : State :=
  let drop := s.incReg R.ETH_RX_DROP_RX_DROP p
  match s.readFrame p f with
  | .dropped => drop
  | .sync => s
  | .arp target sender => if target = s.ethIp p then s.emit (.arpReply p sender) else drop
  | .udp d =>
    if s.ethReq p ∧ d.dst = s.ethIp p ∧ d.dport = s.ethUdp p ∧ d.vid = s.ethVid p then s.segment p d
    else match s.lidarFilter p d with
      | some i => s.landLidar p i d stamp quality
      | none => drop

/-- A frame received on an Ethernet port, from its destination address to its FCS, its start-frame delimiter `sub` ns into the
tick. -/
def execEthFrameReceive (dt p sub : Nat) (f : List Byte) (s : State) : Host.Outcome State Fault Refusal :=
  let s := s.elapse dt
  .next (if ¬ (p < 2 ∧ s.ifUp p) then s else
    let r := s.stamp sub 8
    let s := r.2
    if s.netReset then
      let held := ((s.ifaces.waiting.filter fun x => x.iface == p).map fun x => x.bytes.length).sum
      if 65536 < held + f.length then s.incReg R.ETH_RX_HOLD_DROP_RX_HOLD_DROP p
      else { s with ifaces.waiting := s.ifaces.waiting ++ [⟨p, r.1, s.quality, f⟩] }
    else s.ethFrame p f r.1 s.quality)

/-- A key of an Ethernet port is still incomplete REASM_MS after its first segment (R619, R646). -/
def execReassemblyTimeout (dt p : Nat) (s : State) : Host.Outcome State Fault Refusal :=
  let s := s.elapse dt
  .next (match (s.reasms p).find? fun k => decide (k.first + msTicks (field (s.eth p) 6 2) ≤ s.tick) with
    | some k =>
      if p < 2 then (s.setReasms p ((s.reasms p).erase k)).incReg R.ETH_REASM_TIMEOUT_REASM_TIMEOUT p else s
    | none => s)

/-- An Ethernet port's link goes up or down. -/
def execEthLinkChange (dt p : Nat) (up : Bool) (s : State) : Host.Outcome State Fault Refusal :=
  let s := s.elapse dt
  .next (if p < 2 ∧ (up → bit (field (s.eth p) 0 1) 0 ∧ s.powered 11) then s.setReg R.ETH_STATUS_UP (ofBool up) p else s)

/-! ### PCIe (R622 to R624, R678) -/

/-- PCIE_PERST_N changes level: low resets the endpoint's link and configuration state. -/
def execPciePerstN (dt : Nat) (level : Bool) (s : State) : Host.Outcome State Fault Refusal :=
  let s := s.elapse dt
  let s := { s with power.perstN := level }
  .next (if level then s
    else ((s.setReg R.PCIE_STATUS_UP 0).setReg R.PCIE_STATUS_GEN 0).setReg R.PCIE_STATUS_WIDTH 0)

/-- The PCIe link trains up, with its generation and width, or goes down. -/
def execPcieLinkChange (dt : Nat) (up : Bool) (gen width : Nat) (s : State) : Host.Outcome State Fault Refusal :=
  let s := s.elapse dt
  let may := bit (field s.pcie 0 1) 0 && s.powered 12 && s.power.perstN &&
    decide (1 ≤ gen ∧ gen ≤ field s.pcie 1 1 ∧ (width = 1 ∨ width = 2 ∨ width = 4))
  .next (if up ∧ may then ((s.setReg R.PCIE_STATUS_UP 1).setReg R.PCIE_STATUS_GEN gen).setReg R.PCIE_STATUS_WIDTH width
    else if up then s
    else ((s.setReg R.PCIE_STATUS_UP 0).setReg R.PCIE_STATUS_GEN 0).setReg R.PCIE_STATUS_WIDTH 0)

/-- Bytes written to a window of 1024 slots from a slot upwards, wrapping. -/
def putWindow (m : List Host.Cell) (slot : Nat) (bs : List Byte) : List Host.Cell :=
  ((List.range bs.length).zip bs).foldl (fun m x => Sparse.put 0#8 m ((64 * slot + x.1) % 65536) x.2) m

/-- `n` slots of a window from a slot upwards, wrapping. -/
def windowSlots (m : List Host.Cell) (slot n : Nat) : List Byte :=
  (List.range n).flatMap fun i => cellBytes m (64 * ((slot + i) % 1024)) 64

/-- The slots of a doorbell treated as one message (R612, R623). -/
def State.takeBell (s : State) (first slots : Nat) : State :=
  let b := windowSlots s.ifaces.reqWin first slots
  let len := 64 + field b 8 4
  let r := if 1 ≤ slots ∧ slots ≤ 1024 ∧ slots = ceilDiv len 64 then s.landMsg 2 (b.take len) else (2, s)
  { r.2 with ifaces.reqStatus := r.1, ifaces.reqDone := (s.ifaces.reqDone + 1) % 2 ^ 16, ifaces.bell := none }

/-- The host writes `data` into the request window from slot FIRST and then `v` to REQ_DOORBELL. -/
def execReqDoorbell (dt v : Nat) (data : List Byte) (s : State) : Host.Outcome State Fault Refusal :=
  let s := s.elapse dt
  let first := bits v 9 0
  .next (if s.ifUp 2 = false then s else
    let s := { s with ifaces.reqWin := putWindow s.ifaces.reqWin first data }
    if s.ifaces.reqStatus = 3 then s.incReg R.PCIE_DB_IGNORED_DB_IGNORED
    else if s.netReset then { s with ifaces.reqStatus := 3, ifaces.bell := some (first, bits v 20 10) }
    else s.takeBell first (bits v 20 10))

/-- The host writes `v` to RSP_RPTR; a value that no pointer can have is not taken. -/
def execRspRptrWrite (dt v : Nat) (s : State) : Host.Outcome State Fault Refusal :=
  let s := s.elapse dt
  .next (if s.ifUp 2 ∧ (s.ifaces.rspW + 2048 - v % 2048) % 2048 ≤ 1024 then { s with ifaces.rspR := v % 2048 } else s)

/-- The host writes 1 to INT.RESPONSE; `same` says that the device sets it in the same cycle (R22). -/
def execIntClear (dt : Nat) (same : Bool) (s : State) : Host.Outcome State Fault Refusal :=
  let s := s.elapse dt
  .next (if s.ifUp 2 ∧ ¬ same then { s with ifaces.intr := false } else s)

/-! ### CAN FD (R625, R626) -/

/-- A frame of 64 data bytes added to the message under construction on controller `k`. -/
def State.canFrame (s : State) (k : Nat) (d : List Byte) : State :=
  let old := (s.ifaces.can.find? fun x => x.1 == k).map (·.2)
  let rest := s.ifaces.can.filter fun x => x.1 != k
  let b0 := field d 0 1
  let seq := bits b0 5 0
  let drop := { s.countMalformed (3 + k) with ifaces.can := rest }
  let add := fun (s : State) (m : CanMsg) =>
    let m := { m with bytes := m.bytes ++ d.drop 1, nextSeq := (m.nextSeq + 1) % 64, last := s.tick }
    if ¬ bit b0 6 then { s with ifaces.can := (k, m) :: rest } else
    let s := { s with ifaces.can := rest }
    let need := 64 + field m.bytes 8 4
    if m.bytes.length = 63 * ceilDiv need 63 ∧ (m.bytes.drop need).all (· == 0#8) then (s.landMsg (3 + k) (m.bytes.take need)).2
    else s.countMalformed (3 + k)
  if d.length ≠ 64 then (if old.isSome then drop else s)
  else if bit b0 7 then
    let s := if old.isSome then drop else s
    if seq = 0 then add s ⟨[], 0, s.tick⟩ else s.countMalformed (3 + k)
  else match old with
    | none => s
    | some m => if seq = m.nextSeq then add s m else drop

/-- A data frame received by a CAN controller: its identifier, IDE, FDF, and data. -/
def execCanFrameReceive (dt k id : Nat) (ide fd : Bool) (d : List Byte) (s : State) : Host.Outcome State Fault Refusal :=
  let s := s.elapse dt
  let ctrl := field (s.can k) 0 1
  .next (if k < 4 ∧ s.ifUp (3 + k) ∧ fd ∧ bit ctrl 1 ∧ id = field (s.can k) 8 4 ∧ ide = bit ctrl 2 then
      if s.netReset then
        if 32 ≤ (s.ifaces.waiting.filter fun x => x.iface == 3 + k).length then s.countBusy (3 + k)
        else { s with ifaces.waiting := s.ifaces.waiting ++ [⟨3 + k, s.now, s.quality, d⟩] }
      else s.canFrame k d
    else s)

/-- GAP_MS has passed since the last frame of the message under construction. -/
def execCanGapTimeout (dt k : Nat) (s : State) : Host.Outcome State Fault Refusal :=
  let s := s.elapse dt
  .next (match s.ifaces.can.find? fun x => x.1 == k with
    | some x =>
      if k < 4 ∧ x.2.last + msTicks (field (s.can k) 0x10 2) ≤ s.tick then
        { s.countMalformed (3 + k) with ifaces.can := s.ifaces.can.filter fun y => y.1 != k }
      else s
    | none => s)

/-- A controller's fault-confinement state: 0 error active, 1 error passive, 2 bus-off. -/
def execCanBusOff (dt k state : Nat) (s : State) : Host.Outcome State Fault Refusal :=
  let s := s.elapse dt
  .next (if k < 4 ∧ state ≤ 2 ∧ s.canOn k then
      let s := if state = 2 ∧ s.reg R.CAN_STATUS_STATUS k ≠ 2 then s.incReg R.CAN_BUS_OFF_BUS_OFF k else s
      s.setReg R.CAN_STATUS_STATUS state k
    else s)

/-! ### Answers sent (R613, R618, R620, R624, R626) -/

/-- The UDP payloads of a response (Table 17.5). -/
def State.segments (s : State) (p : Nat) (m : List Byte) : List (List Byte) :=
  let sd := max 1 (s.segData p)
  let n := ceilDiv m.length sd
  (List.range n).map fun i =>
    leBytes 2 0x4B54 ++ [1#8, 1#8] ++ slice m 2 2 ++ leBytes 2 i ++ slice m 4 4 ++ leBytes 2 n ++ leBytes 2 0 ++
      (m.drop (i * sd)).take sd

/-- The data of the FD frames of a message (R626). -/
def canFrames (m : List Byte) : List (List Byte) :=
  let n := ceilDiv m.length 63
  (List.range n).map fun i =>
    BitVec.ofNat 8 (128 * ofBool (i == 0) + 64 * ofBool (i + 1 == n) + i % 64) :: slice m (63 * i) 63

def State.countTxDrop (s : State) (i : Nat) : State :=
  if i < 2 then s.incReg R.ETH_TX_DROP_TX_DROP i
  else if i = 2 then s.incReg R.PCIE_TX_DROP_TX_DROP
  else s.incReg R.CAN_TX_DROP_TX_DROP (i - 3)

/-- Whether an answer has to wait for room in the response window (R624). -/
def State.answerWaits (s : State) (i : Nat) (m : List Byte) : Bool :=
  let n := ceilDiv m.length 64
  i == 2 && s.ifUp 2 && decide (n ≤ 1024 ∧ 1024 - (s.ifaces.rspW + 2048 - s.ifaces.rspR) % 2048 < n)

/-- An answer sent on its interface, or dropped. -/
def State.sendMsg (s : State) (i : Nat) (m : List Byte) : State :=
  let m := slice m 0 16 ++ leBytes 8 s.now ++ m.drop 24
  if s.ifUp i = false then s.countTxDrop i
  else if i < 2 then
    match s.ifaces.back.find? fun x => x.1 == i && x.2.1 == field m 2 2 && x.2.2.1 == field m 4 4 with
    | some x => (s.segments i m).foldl (fun s b => s.emit (.response i x.2.2.2 b)) s
    | none => s.countTxDrop i
  else if i = 2 then
    if 1024 < ceilDiv m.length 64 then s.countTxDrop 2 else
    ({ s with ifaces.rspWin := putWindow s.ifaces.rspWin (s.ifaces.rspW % 1024) m
              ifaces.rspW := (s.ifaces.rspW + ceilDiv m.length 64) % 2048, ifaces.intr := true }).emit .msix
  else (canFrames m).foldl (fun s b => s.emit (.response i {} b)) s

/-- The snapshot result that an answer came from is released once the answer has been sent (R532). -/
def State.releaseSnapshot (s : State) (i word0 : Nat) : State :=
  match s.tide.answers.find? fun x => x.1 == i && x.2.1 == word0 with
  | none => s
  | some x =>
    let s := { s with tide.answers := s.tide.answers.erase x }
    match s.itemSlots x.2.2 with
    | some n => s.release x.2.2 n
    | none => s

/-- The next answer of an interface sent, unless it has to wait. -/
def State.sendNext (s : State) (i : Nat) : State :=
  match s.ifaces.unsent.find? fun x => x.1 == i with
  | some x => if s.answerWaits i x.2 then s else ({ s with ifaces.unsent := s.ifaces.unsent.erase x }.sendMsg i x.2).releaseSnapshot i (field x.2 0 8)
  | none =>
    if s.noQueues then s else
    match s.itemSlots (16 + i) with
    | none => s
    | some n =>
      let h := s.slot (16 + i) (s.rptr (16 + i))
      let m := h ++ s.itemBody (16 + i) (field h 8 4)
      if s.answerWaits i m then s else ((s.release (16 + i) n).sendMsg i m).releaseSnapshot i (field h 0 8)

/-- The link engine sends the next answer of an interface. -/
def execResponseSend (dt i : Nat) (s : State) : Host.Outcome State Fault Refusal :=
  let s := s.elapse dt
  .next (if i < 7 ∧ s.netReset = false ∧ s.boot.phase ≠ .por then s.sendNext i else s)

end Sys2Proof.Machine
end

