-- ==== Sys2Proof/Machine/Links.lean ====
section
/-!
DEFINITION. Chip links, the LINK opcodes, and what the interfaces held while the network was in reset (R586, R588, R605, R627 to
R636, R640 to R645).
-/

namespace Sys2Proof.Machine

open Sys2Proof

/-! ### The group (Table 17.11) -/

def State.link (s : State) : List Byte := ifLink s.ifaces.cfg
def State.linkRank (s : State) : Nat := field s.link 1 1
def State.linkG (s : State) : Nat := field s.link 2 1

/-- The port towards rank `r`: 0, 1, or 3 for none. -/
def State.linkRoute (s : State) (r : Nat) : Nat := bits (field s.link 8 1) (2 * r + 1) (2 * r)

def State.linkEn (s : State) (p : Nat) : Bool := bit (field s.link 0 1) p && s.powered 13
def State.linkUp (s : State) (p : Nat) : Bool := s.reg R.LINK_STATE_STATE p == 4

def State.port (s : State) (p : Nat) : LinkPort := if p = 0 then s.ifaces.port0 else s.ifaces.port1
def State.setPort (s : State) (p : Nat) (x : LinkPort) : State :=
  if p = 0 then { s with ifaces.port0 := x } else { s with ifaces.port1 := x }

/-! ### Frames (R628, Table 17.13) -/

/-- A frame of a type with header fields and a payload of a multiple of 8 bytes. -/
def linkFrame (type src dst seq last xfer arg : Nat) (payload : List Byte) : List Byte :=
  let w0 := type + 2 ^ 4 * src + 2 ^ 6 * dst + 2 ^ 8 * seq + 2 ^ 20 * (payload.length / 8) + 2 ^ 26 * last + 2 ^ 32 * xfer
  let b := wordsBytes [w0, arg] ++ payload
  b ++ leBytes 8 (crc32 b)

/-- A frame with another link sequence number. -/
def withSeq (f : List Byte) (seq : Nat) : List Byte :=
  let w0 := field f 0 8
  let b := leBytes 8 (bits w0 7 0 + 2 ^ 8 * seq + 2 ^ 20 * bits w0 63 20) ++ (f.take (f.length - 8)).drop 8
  b ++ leBytes 8 (crc32 b)

def frameType (f : List Byte) : Nat := bits (field f 0 8) 3 0
def frameSrc (f : List Byte) : Nat := bits (field f 0 8) 5 4
def frameDst (f : List Byte) : Nat := bits (field f 0 8) 7 6
def frameSeq (f : List Byte) : Nat := bits (field f 0 8) 19 8
def frameLen (f : List Byte) : Nat := 8 * bits (field f 0 8) 25 20
def frameLast (f : List Byte) : Bool := bit (field f 0 8) 26
def frameXfer (f : List Byte) : Nat := bits (field f 0 8) 63 32
def frameArg (f : List Byte) : Nat := field f 8 8
def framePayload (f : List Byte) : List Byte := slice f 16 (frameLen f)

/-- A frame whose length and CRC are good. -/
def frameGood (f : List Byte) : Bool :=
  f.length == 24 + frameLen f && field f (f.length - 8) 8 == crc32 (f.take (f.length - 8))

/-! ### Sending (R629) -/

/-- Waiting frames of a port sent as far as credit and the replay buffer allow. -/
def State.pump (s : State) (p : Nat) : Nat → State
  | 0 => s
  | n + 1 =>
    let x := s.port p
    match x.waiting with
    | f :: l =>
      if s.linkUp p ∧ 0 < x.credits ∧ x.replay.length < 128 then
        let g := withSeq f x.nextSeq
        let x := { x with nextSeq := (x.nextSeq + 1) % 4096, credits := x.credits - 1, waiting := l
                          replay := x.replay ++ [{ seq := x.nextSeq, frame := g, sent := s.tick }] }
        (((s.setPort p x).emit (.linkFrame p g))).pump p n
      else s
    | [] => s

def State.pumpAll (s : State) (p : Nat) : State := s.pump p (s.port p).waiting.length

/-- A frame to be sent towards its destination; one without a route is dropped (R630). -/
def State.linkSend (s : State) (f : List Byte) : State :=
  let p := s.linkRoute (frameDst f)
  if 2 ≤ p then s.incReg R.LINK_NO_ROUTE_NO_ROUTE else
  let x := s.port p
  (s.setPort p { x with waiting := x.waiting ++ [f] }).pumpAll p

/-- ACK of what a port has accepted, returning credits. -/
def State.sendAck (s : State) (p credits : Nat) : State :=
  s.emit (.linkFrame p (linkFrame 4 0 0 0 0 0 (((s.port p).expect + 4095) % 4096 + 2 ^ 16 * credits) []))

/-- NACK with the expected SEQ. -/
def State.sendNack (s : State) (p : Nat) : State := s.emit (.linkFrame p (linkFrame 5 0 0 0 0 0 (s.port p).expect []))

/-! ### Training and failure of a port (R627, R629) -/

/-- A training attempt of port `p` stands at, or has ended at, state `at_` of 0 to 3; `hello` is what the peer sends where HELLO is
exchanged: GROUP_ID, G and RANK. -/
def execLinkTrainingAttempt (dt p at_ : Nat) (hello : Option (Nat × Nat × Nat)) (s : State) : Host.Outcome State Fault Refusal :=
  let s := s.elapse dt
  .next (if ¬ (p < 2 ∧ s.linkEn p ∧ s.linkUp p = false) then s else
    match hello with
    | none => s.setReg R.LINK_STATE_STATE (min at_ 3) p
    | some (gid, g, r) =>
      let mine := field s.link 4 4
      let s := s.emit (.linkFrame p (linkFrame 6 0 0 0 0 0 (mine + 2 ^ 32 * s.linkRank + 2 ^ 34 * s.linkG) []))
      if gid = mine ∧ g = s.linkG ∧ r < g ∧ s.linkRoute r = p then
        ((s.setPort p { waiting := (s.port p).waiting }).setReg R.LINK_STATE_STATE 4 p).pumpAll p
      else s.setReg R.LINK_STATE_STATE 0 p)

/-- A frame of port `p` has been replayed 4 times, or was first sent 10 µs ago and is not acknowledged: the port retrains. -/
def execLinkAckTimeout (dt p : Nat) (s : State) : Host.Outcome State Fault Refusal :=
  let s := s.elapse dt
  .next (if p < 2 ∧ s.linkUp p ∧ ((s.port p).replay.any fun x => decide (4 ≤ x.replays ∨ x.sent + usTicks 10 ≤ s.tick)) then
      ((s.setPort p { waiting := (s.port p).waiting }).setReg R.LINK_STATE_STATE 0 p).incReg R.LINK_RETRAINS_RETRAINS p
    else s)

/-! ### Receiving (R629, R630, R632, R634) -/

/-- The window number `w` of this device: base, size, and its event if it signals one. -/
def State.linkWindow (s : State) (w : Nat) : Option (Nat × Nat × Option Nat) :=
  if w < ifWindows s.ifaces.cfg then
    let e := ifWindow s.ifaces.cfg w
    let w1 := field e 8 8
    some (bits (field e 0 8) 47 0, bits w1 39 0, if bit w1 50 then some (bits w1 49 40) else none)
  else none

/-- PUT_ACK of a transfer with a status. -/
def State.putAck (s : State) (rank xfer status : Nat) : State :=
  s.linkSend (linkFrame 2 s.linkRank rank 0 0 xfer status [])

/-- A PUT frame for this device. -/
def State.takePut (s : State) (f : List Byte) : State :=
  let src := frameSrc f
  let xfer := frameXfer f
  let mine := fun (x : PutIn) => x.rank == src && x.xfer == xfer
  if s.ifaces.putsIn.any mine then
    if frameLast f then { s with ifaces.putsIn := s.ifaces.putsIn.filter fun x => !mine x } else s
  else
    let off := bits (frameArg f) 39 0
    match s.linkWindow (bits (frameArg f) 42 40) with
    | some (base, size, ev) =>
      if off + frameLen f ≤ size then
        let s := (s.writeMem (base + off) (framePayload f)).2
        if frameLast f then
          let s := match ev with
            | some e => s.addEvent (eventIndex 0 e true) 1
            | none => s
          s.putAck src xfer 0
        else s
      else
        let s := if frameLast f then s else { s with ifaces.putsIn := s.ifaces.putsIn ++ [⟨src, xfer, true⟩] }
        s.putAck src xfer 1
    | none =>
      let s := if frameLast f then s else { s with ifaces.putsIn := s.ifaces.putsIn ++ [⟨src, xfer, true⟩] }
      s.putAck src xfer 1

/-- TIMEOUT of a `link.put` or `sel.xmerge` has passed. -/
def State.putLate (s : State) (x : PutOut) : Bool :=
  match s.cmd? x.cmd with
  | some c => decide (x.start + usTicks (bits (c.word 4) 19 0) ≤ s.tick)
  | none => true

/-- A PUT_ACK for this device: it ends its command, unless the timeout expires in this cycle (R645). -/
def State.takeAck (s : State) (f : List Byte) : State :=
  match s.ifaces.puts.find? fun x => x.rank == frameSrc f && x.xfer == frameXfer f with
  | none => s
  | some x =>
    let st := bits (frameArg f) 7 0
    if s.putLate x ∨ 2 ≤ st then s else
    let s := { s with ifaces.puts := s.ifaces.puts.erase x }
    if st = 0 then s.finish x.cmd {} else s.finish x.cmd { status := 0x20, detail := 1 + 2 ^ 8 * x.rank }

/-- An XMERGE frame for this device: its list is complete when every record has arrived (R632). -/
def State.takeMerge (s : State) (f : List Byte) : State :=
  let a := frameArg f
  let coll := frameXfer f
  let mine := fun (x : XList) => x.coll == coll && x.rank == frameSrc f
  let first := bits a 26 16
  let fresh : XList := { coll := coll, rank := frameSrc f, k := bits a 10 0, dir := bits a 12 12, g := bits a 15 13 }
  let x := (s.ifaces.lists.find? mine).getD fresh
  if x.got.contains first then s.incReg R.SEL_XM_DROP_COUNT else
  let x := { x with recs := x.recs ++ [(first, bytesWords (framePayload f) (frameLen f / 8))], got := first :: x.got
                    total := x.total + frameLen f / 8, lastSeen := x.lastSeen || frameLast f }
  let rest := s.ifaces.lists.filter fun y => !mine y
  if x.k ≤ x.total then { s with ifaces := { s.ifaces with lists := rest, ready := s.ifaces.ready ++ [x] } }
  else { s with ifaces.lists := rest ++ [x] }

/-- An accepted frame for this device. -/
def State.takeFrame (s : State) (f : List Byte) : State :=
  match frameType f with
  | 1 => s.takePut f
  | 2 => s.takeAck f
  | _ => s.takeMerge f

/-- Frames up to an acknowledged one leave the replay buffer. -/
def ackReplay (seq : Nat) : List LinkTx → Option (List LinkTx)
  | [] => none
  | x :: l => if x.seq = seq then some l else ackReplay seq l

/-- The frames of a replay buffer from the expected SEQ on. -/
def replayFrom (seq : Nat) : List LinkTx → List LinkTx
  | [] => []
  | x :: l => if x.seq = seq then x :: l else replayFrom seq l

/-- A frame received on port `p`. -/
def execLinkFrameReceive (dt p : Nat) (f : List Byte) (s : State) : Host.Outcome State Fault Refusal :=
  let s := s.elapse dt
  let x := s.port p
  .next (if ¬ (p < 2 ∧ s.linkUp p) then s
    else if ¬ frameGood f then (s.incReg R.LINK_CRC_ERR_CRC_ERR p).sendNack p
    else if frameType f = 4 then
      let credits := min 64 (x.credits + bits (frameArg f) 23 16)
      (s.setPort p { x with credits := credits
                            replay := (ackReplay (bits (frameArg f) 11 0) x.replay).getD x.replay }).pumpAll p
    else if frameType f = 5 then
      let again := replayFrom (bits (frameArg f) 11 0) x.replay
      let keep := x.replay.take (x.replay.length - again.length)
      let s := s.setPort p { x with replay := keep ++ again.map fun y : LinkTx => { y with replays := y.replays + 1 } }
      again.foldl (fun s y => s.emit (.linkFrame p y.frame)) (s.incReg R.LINK_REPLAYS_REPLAYS p 0 again.length)
    else if frameType f < 1 ∨ 3 < frameType f ∨ 256 < frameLen f then s
    else if frameSeq f ≠ x.expect then
      if (frameSeq f + 4096 - x.expect) % 4096 < 2048 then s.sendNack p else s.sendAck p 0
    else
      let s := s.setPort p { x with expect := (x.expect + 1) % 4096 }
      if frameDst f ≠ s.linkRank then (s.sendAck p 1).linkSend f
      else if s.netReset then
        { s.sendAck p 0 with ifaces.waiting := s.ifaces.waiting ++ [⟨7 + p, s.now, s.quality, f⟩] }
      else (s.sendAck p 1).takeFrame f)

/-! ### Traffic held while the network was in reset (R588, R640) -/

/-- One held frame goes on. -/
def State.goOn (s : State) (x : HeldIn) : State :=
  if x.iface < 2 then s.ethFrame x.iface x.bytes x.stamp x.quality
  else if x.iface < 7 then s.canFrame (x.iface - 3) x.bytes
  else (s.sendAck (x.iface - 7) 1).takeFrame x.bytes

/-- What the interfaces held goes on, in the order in which it came, and then a doorbell. -/
def State.releaseHeld (s : State) : State :=
  let s := s.ifaces.waiting.foldl (fun s x => s.goOn x) { s with ifaces.waiting := [] }
  match s.ifaces.bell with
  | some (first, slots) => s.takeBell first slots
  | none => s

/-- After 100 µs the compute reset is released, and a warm start is to begin, or waits for PMIC_PG (R586, R605). -/
def execComputeResetRelease (dt : Nat) (s : State) : Host.Outcome State Fault Refusal :=
  let s := s.elapse dt
  .next (match s.hub.reset with
    | .asserted t =>
      if t + usTicks 100 ≤ s.tick ∧ s.hub.islandDead = false ∧ s.hub.outFrom = none then
        let pg := s.flag R.PWR_PMIC_PG
        let s := { s with hub.reset := .none, boot.warmDue := pg, boot.warmOnPg := !pg }
        let s := [1, 2, 3, 4, 5, 7, 8, 9].foldl (fun s d => s.zeroDomain d) (s.setReg R.RST_STATUS_ASSERTED 0)
        s.releaseHeld
      else s
    | _ => s)

/-! ### `link.put` (R634, R642 to R645) -/

/-- Frames of a transfer from byte `o` on, `n` of them, up to the first that cannot be read. -/
def State.putFrames (s : State) (c : Cmd) (xfer o : Nat) : Nat → Option Nat × State
  | 0 => (none, s)
  | n + 1 =>
    let len := min 256 (bits (c.word 2) 31 0 - o)
    let a := c.addr 1 + o
    let r := (s.countRd c.part a len).readMem a len
    match r.1 with
    | some w => (some w, r.2)
    | none =>
      let payload := slice (r.2.bytes a len) 0 (8 * ceilDiv len 8)
      let arg := (bits (c.word 3) 39 0 + o) % 2 ^ 40 + 2 ^ 40 * bits (c.word 3) 42 40
      let f := linkFrame 1 r.2.linkRank (bits (c.word 3) 49 48) 0 (ofBool (n == 0)) xfer arg payload
      ((r.2.grantBytes (3 * c.part + 2) payload.length).linkSend f).putFrames c xfer (o + 256) n

/-- `link.put`. -/
def execLinkPut (dt id : Nat) (s : State) : Host.Outcome State Fault Refusal :=
  let s := s.elapse dt
  .next (match s.engine id 0x88 with
    | none => s
    | some c =>
      let xfer := s.ifaces.xfer
      let s := { s.beginWork c with ifaces.xfer := (xfer + 1) % 2 ^ 32 }
      let r := s.putFrames c xfer 0 (max 1 (ceilDiv (bits (c.word 2) 31 0) 256))
      match r.1 with
      | some w => r.2.finish id { status := 0x1F, detail := w }
      | none =>
        { r.2.setCmd { c with stage := .waiting, begun := true } with
          ifaces.puts := r.2.ifaces.puts ++ [⟨id, xfer, bits (c.word 3) 49 48, r.2.tick⟩] })

/-- A retry of a frame of a type and XFER that is in progress, in whichever port, is overtaken (R642). -/
def State.supersedeReplay (s : State) (type xfer addr : Nat) : State :=
  [0, 1].foldl (fun s p =>
    let x := s.port p
    let mine := fun (y : LinkTx) => decide (1 ≤ y.replays) && frameType y.frame == type && frameXfer y.frame == xfer &&
      frameSrc y.frame == s.linkRank
    match x.replay.find? mine with
    | none => s
    | some y =>
      let rest := x.replay.map fun z : LinkTx => if mine z then { z with replays := 0 } else z
      (s.setPort p { x with replay := rest }).supersede 2 addr y.replays) s

/-- TIMEOUT has passed without a PUT_ACK. -/
def execLinkPutTimeout (dt id : Nat) (s : State) : Host.Outcome State Fault Refusal :=
  let s := s.elapse dt
  .next (match s.ifaces.puts.find? fun x => x.cmd == id with
    | none => s
    | some x =>
      if ¬ s.putLate x then s else
      let addr := ((s.cmd? id).map fun c => c.addr 1).getD 0
      let s := ({ s with ifaces.puts := s.ifaces.puts.erase x }).supersedeReplay 1 x.xfer addr
      s.finish id { status := 0x20, detail := 2 + 2 ^ 8 * x.rank })

/-! ### `link.sio` (R635, R636) -/

/-- Bytes that a script op reads (Table 17.17). -/
def sioReads (op : Nat) : Nat := if bits op 3 0 = 2 ∨ bits op 3 0 = 3 then bits op 18 16 else 0

/-- The ops of a script. -/
def scriptOps (b : List Byte) (n : Nat) : List Nat :=
  let w := ifScript b n
  (List.range (bits w 31 16)).map fun i => ifOp b (bits w 15 0 + i)

/-- Ops run in order.  `fail` is the index of the one that fails, and whether by a NACK and not by a clock stretch; `reads` is what
the buses answer.  The result is the bytes read, and the op that failed. -/
def State.runOps (s : State) (fail : Option (Nat × Bool)) : List Nat → Nat → List Byte → List Byte × Option (Nat × Bool) × State
  | [], _, _ => ([], none, s)
  | op :: l, i, reads =>
    let kind := bits op 3 0
    let s := s.emit (.sio op)
    let bad := match fail with
      | some (k, nack) => if k = i ∧ (kind = 1 ∨ kind = 2) then some nack else none
      | none => none
    match bad with
    | some nack => ([], some (i, nack), if nack then s.incReg R.SIO_I2C_NACK_I2C_NACK (bits op 5 4) else s)
    | none =>
      let pin := bits op 12 8
      let out := s.ifaces.gpioOut
      let level := if bit op 16 then out ||| 2 ^ pin else if bit out pin then out - 2 ^ pin else out
      let s : State := if kind = 4 then { s with ifaces.gpioOut := level } else s
      let n := sioReads op
      let r := s.runOps fail l (i + 1) (reads.drop n)
      (slice reads 0 n ++ r.1, r.2)

/-- `link.sio`: the script runs; what was read before a failing op stands. -/
def execLinkSio (dt id : Nat) (fail : Option (Nat × Bool)) (reads : List Byte) (s : State) : Host.Outcome State Fault Refusal :=
  .next ((s.elapse dt).runEngine id 0x89 fun c s =>
    let r := s.runOps fail (scriptOps s.ifaces.cfg (bits (c.word 1) 4 0)) 0 reads
    let w := if c.addr 2 = 0 then (.ok (), r.2.2) else Eff.write c.part (c.addr 2) r.1 r.2.2
    match w, r.2.1 with
    | (.error e, s), _ => (.error e, s)
    | (.ok _, s), some (i, nack) => (.error { status := 0x20, detail := (if nack then 3 else 4) + 2 ^ 8 * i }, s)
    | (.ok _, s), none => (.ok (), s))

/-- What the fetch checks ask of a LINK command. -/
def State.linkInfo (s : State) (p op : Nat) (words : List Nat) : Option OpInfo :=
  let w := fun i => words.getD i 0
  let a := fun i => bits (w i) 47 0
  if op = 0x88 then
    let rank := bits (w 3) 49 48
    some { masks := [mAddr, mLow, 2 ^ 43 - 1 + 3 * 2 ^ 48, 0xFFFFF]
           limits := [(3, rank != s.linkRank && decide (rank < s.linkG) && decide (s.linkRoute rank < 2)),
                      (4, decide (1 ≤ bits (w 4) 19 0 ∧ bits (w 4) 19 0 ≤ 1000000))]
           ranges := [(1, a 1, bits (w 2) 31 0, false)] }
  else if op = 0x89 then
    let n := bits (w 1) 4 0
    let reads := ((scriptOps s.ifaces.cfg n).map sioReads).sum
    some { masks := [0x1F, mAddr, 0xFFFF]
           limits := [(1, decide (1 ≤ n ∧ n < ifScripts s.ifaces.cfg) && bit (ifScript s.ifaces.cfg n) (32 + p)),
                      (2, a 2 % 8 == 0), (3, decide (reads ≤ bits (w 3) 15 0))]
           ranges := if a 2 = 0 then [] else [(2, a 2, bits (w 3) 15 0, true)] }
  else none

end Sys2Proof.Machine
end

