-- ==== Sys2Proof/Machine/Boot.lean ====
section
/-!
DEFINITION. The steps of a start but BRINGUP: what each does, how it fails, and how a start ends (R56, R58, R88 to R116, R551, R637 to
R639, R654, R656, R704, R705).
-/

namespace Sys2Proof.Machine

open Sys2Proof

/-! ### Steps in order (R93, Table 3.7) -/

/-- The header of the image in use. -/
def State.header (s : State) : List Byte :=
  match s.image with
  | some m => m.hdr
  | none => []

/-- A warm start runs. -/
def State.warm (s : State) : Bool := s.flag R.BOOT_STATUS_WARM

/-- The limit of a step in ms. -/
def State.stepLimit (s : State) (step : Nat) : Nat :=
  match step with
  | 0 => 10
  | 1 => 40
  | 2 => 5
  | 3 => 600
  | 4 => 5
  | 5 => if s.warm then 100 else 500
  | 6 => 200
  | 7 => 10 * field s.header (if s.warm then 0x2A else 0x28) 2
  | 8 => 1000
  | 9 => field s.header 0x2C 2
  | _ => if s.warm then 10 else 100 * s.reg R.TIME_CFG_ACQ_WAIT + 10

/-- A step of a start is in progress, and it is step `k`; ISLAND has ended where SELECT waits for PMIC_PG. -/
def State.inStep (s : State) (k : Nat) : Bool :=
  s.boot.phase == .step && s.svc == 0 && s.reg R.BOOT_STATUS_STEP == k && s.boot.pgSince.isNone

/-- The step in progress has exceeded its limit. -/
def State.overLimit (s : State) : Bool :=
  decide (s.boot.since + msTicks (s.stepLimit (s.reg R.BOOT_STATUS_STEP)) < s.tick)

/-- A port that the image declares required (R96). -/
def State.linkRequired (s : State) (p : Nat) : Bool := bit (field s.link 0 1) (2 + p)

/-- Every required port has trained. -/
def State.linksReady (s : State) : Bool := (List.range 2).all fun p => !s.linkRequired p || s.linkUp p

/-- A step over its limit ends the attempt. -/
def State.stepTimeout (s : State) : State :=
  s.attemptFail (if s.reg R.BOOT_STATUS_STEP = 8 ∧ s.linksReady = false then 0x0F else 0x11)

/-- What the completion of step `k` does, where it is in progress and within its limit. -/
def State.runStep (s : State) (k : Nat) (f : State → State) : State :=
  if ¬ s.inStep k then s else if s.overLimit then s.stepTimeout else f s

/-- Microseconds of the step in progress reported (R93). -/
def State.stepTime (s : State) : State :=
  s.setReg R.BOOT_STEP_US_US (min ((s.tick - s.boot.since) / 25) (2 ^ 32 - 1)) (s.reg R.BOOT_STATUS_STEP)

/-- The step in progress completes, and step `k` begins. -/
def State.nextStep (s : State) (k : Nat) : State :=
  let s := s.stepTime.setReg R.BOOT_STATUS_STEP k
  { s with boot.since := s.tick }

/-! ### AON, ISLAND -/

/-- AON: the boot record is read; one that stands in CONFIG_FAULT is cleared (R101 to R103), the verdict is not retained, and the
snapshot of the persistent log is taken (R602). -/
def execAonStep (dt : Nat) (s : State) : Host.Outcome State Fault Refusal :=
  .next ((s.elapse dt).runStep 0 fun s =>
    let r := s.storedRec
    let r := if r.fails = 6 then { r with fails := 0, badA := none, badB := none } else r
    let s := (s.setReg R.BOOT_STATUS_FAILS r.fails).setReg R.BOOT_STATUS_SLOT r.slot
    let s := (s.setReg R.BOOT_STATUS_FALLBACK (ofBool (r.fails != 0 && r.fallback))).setRegWord 0x00F000060004 r.failReg
    let s := (s.setReg R.BOOT_BAD_A_BAD (ofBool r.badA.isSome)).setReg R.BOOT_BAD_B_BAD (ofBool r.badB.isSome)
    let s := (s.setReg R.BOOT_TALLY_COLD (min (r.cold + 1) 65535)).setReg R.BOOT_TALLY_WARM r.warm
    ((s.writeBootRec s.bootRecord).plogSnapshot).nextStep 1)

/-- ISLAND: `bist` is the outcome of logic and memory BIST, `passed` the comparators that reported both forced mismatches: pairs 0 to 7,
and 8 for the island (R551).  SELECT follows once PMIC_PG is high (R654). -/
def execIslandStep (dt : Nat) (bist : Bool) (passed : List Nat) (s : State) : Host.Outcome State Fault Refusal :=
  .next ((s.elapse dt).runStep 1 fun s =>
    let s := s.setReg R.SAFE_ECLIPSE_TEST_PASSED (((List.range 9).filter fun i => passed.contains i).map fun i => 2 ^ i).sum
    if bist ∧ (List.range 9).all (fun i => passed.contains i) then
      let s := s.stepTime
      if s.flag R.PWR_PMIC_PG then s.beginSelect else { s with boot.pgSince := some s.tick }
    else s.attemptFail 0x0A)

/-! ### SELECT, VERIFY (R76, R93, R94, R100, R101, R637) -/

/-- Domains powered in order (R656). -/
def State.powerAll (s : State) (ds : List Nat) : State := ds.foldl (fun s d => s.powerOn d) s

/-- The slot is not marked bad for a generation. -/
def State.slotGood (s : State) (slot gen : Nat) : Bool :=
  let r := s.storedRec
  if slot = 0 then !(s.flag R.BOOT_BAD_A_BAD && r.badA == some gen) else !(s.flag R.BOOT_BAD_B_BAD && r.badB == some gen)

/-- IMAGE_GEN of a slot's header if the slot is eligible, and 0 otherwise (R100). -/
def State.eligibleGen (s : State) (slot : Nat) : Nat :=
  let h := s.slotBytes slot 256
  if hdrEligible h && s.slotGood slot (hdrGen h) then hdrGen h else 0

/-- SELECT of a cold start: `strobe` says that the flash answered within 1 µs. -/
def State.selectSlot (s : State) (strobe : Bool) : State :=
  if ¬ strobe then s.attemptFail 0x11 else
  let a := s.eligibleGen 0
  let b := s.eligibleGen 1
  let s := { s with boot.gens := (hdrGen (s.slotBytes 0 256), hdrGen (s.slotBytes 1 256)) }
  let s := (s.setReg R.BOOT_SLOT_A_GEN_GEN a).setReg R.BOOT_SLOT_B_GEN_GEN b
  let s := if s.reg R.BOOT_STATUS_FAILS = 0 ∧ ¬ (a = 0 ∧ b = 0) then s.setReg R.BOOT_STATUS_SLOT (if b ≤ a then 0 else 1) else s
  if (if s.reg R.BOOT_STATUS_SLOT = 0 then a else b) = 0 then s.attemptFail 0x01 else s.nextStep 3

/-- SELECT: a warm start asks for a retained verdict (R99) and goes on to DRAM, as VERIFY and SEAL do nothing in it. -/
def execSelectStep (dt : Nat) (strobe : Bool) (s : State) : Host.Outcome State Fault Refusal :=
  .next ((s.elapse dt).runStep 2 fun s =>
    let s := s.powerAll [10, 14]
    if ¬ s.warm then s.selectSlot strobe
    else if s.boot.verdict.isNone then s.attemptFail 0x13
    else (s.powerAll [1, 2, 3, 4]).nextStep 5)

/-- What acceptance of the image of a slot sets: the image in use, its registers, TOP.CAB_FN (R48) and the verdict (R94). -/
def State.accept (s : State) (slot : Nat) (m : Image) : State :=
  let s := { s with image := some m }
  let s := (s.setReg R.BOOT_GEN_IMAGE_GEN (hdrGen m.hdr)).setReg R.BOOT_SVN_IMAGE (field m.hdr 0x14 1)
  let s := s.setReg R.BOOT_SVN_KEY_SLOT (field m.hdr 0x15 1)
  let s := (cabinEntries (s.sec 0xD)).foldl (fun s e => s.setRegWord 0x00F000000018 (s.regWord 0x00F000000018 ||| 2 ^ cabinFn e)) s
  let v : Verdict := ⟨slot, hdrGen m.hdr, hdrHome m.hdr, hdrSize m.hdr, m.hdr, m.table, false⟩
  let s := { s with boot.verdict := some v }
  s.writeBootRec s.bootRecord

/-- VERIFY: a failure that is about no one section reports a section that the spec does not state. -/
def execVerifyStep (dt : Nat) (strobe : Bool) (s : State) : Host.Outcome State Fault Refusal :=
  .next ((s.elapse dt).runStep 3 fun s =>
    let s := s.powerAll [1, 2, 3, 4]
    let slot := s.reg R.BOOT_STATUS_SLOT
    if ¬ strobe then s.attemptFail 0x11
    else match s.judgeImage slot with
      | .ok m => (s.accept slot m).nextStep 4
      | .error (code, some i) => s.attemptFail code i
      | .error (code, none) => let r := s.freeBelow 64; r.2.attemptFail code r.1)

/-! ### SEAL (R104) -/

/-- SEAL: the sealed section, if the image has one, is handed to Tide. -/
def execSealStep (dt : Nat) (s : State) : Host.Outcome State Fault Refusal :=
  .next ((s.elapse dt).runStep 4 fun s =>
    (({ s with boot.sealBefore := some s.tide.next }).tideSeal (s.sec 8)).nextStep 5)

/-! ### DRAM (R84, R94, R356, R358) -/

/-- The verified copy at IMAGE_HOME: every section in plaintext; what stands in place of a tag is not stated. -/
def State.copyImage (s : State) (m : Image) (slot : Nat) : State :=
  let home := hdrHome m.hdr
  let s := s.clearMem home (home + hdrSize m.hdr)
  let s := s.setBytes home (s.slotBytes slot (hdrSize m.hdr))
  ((tableEntries m.table).zip m.secs).foldl (fun s x =>
    if entEnc x.1 then (s.setBytes (home + entOffset x.1) x.2.bytes).scramble (home + entOffset x.1 + entLength x.1) 16 else s) s

/-- The sections read from the copy at IMAGE_HOME, or the index of the first that is not as the verdict's table has it (R99). -/
def State.readCopy (s : State) (home : Nat) : Nat → List (List Byte) → Except Nat (List Section) × State
  | _, [] => (.ok [], s)
  | i, e :: l =>
    match s.readMem (home + entOffset e) (entLength e) with
    | (some _, s) => (.error i, s)
    | (none, s) =>
      let b := s.bytes (home + entOffset e) (entLength e)
      if sha384 b ≠ slice e 0x10 48 then (.error i, s) else
      match s.readCopy home (i + 1) l with
      | (.ok rest, s) => (.ok (⟨entType e, field e 2 2, b⟩ :: rest), s)
      | (.error j, s) => (.error j, s)

/-- DRAM of a cold start, once trained. -/
def State.initDram (s : State) : State :=
  let ecc := eccRanges (s.sec 5)
  let s := (s.setReg R.MEMC_STATUS_TRAINED 1).setReg R.MEMC_STATUS_ECC_ANY (ofBool !ecc.isEmpty)
  let s := ecc.foldl (fun s r => s.clearMem r.base (r.base + r.size)) s
  match s.image, s.boot.verdict with
  | some m, some v => { s.copyImage m v.slot with boot.verdict := some { v with trained := true } }
  | _, _ => s

/-- DRAM: `trained` is the outcome of training.  A warm start restores the saved training and judges the image copy. -/
def execDramStep (dt : Nat) (trained : Bool) (s : State) : Host.Outcome State Fault Refusal :=
  .next ((s.elapse dt).runStep 5 fun s =>
    let s := (s.powerOn 9).applyLoads 5
    if s.warm then
      match s.boot.verdict with
      | none => s.attemptFail 0x13
      | some v =>
        match (s.setReg R.MEMC_STATUS_TRAINED 1).readCopy v.home 0 (tableEntries v.table) with
        | (.error i, s) => s.attemptFail 0x08 i
        | (.ok secs, s) => ({ s with image := some ⟨v.hdr, v.table, secs⟩ }).nextStep 6
    else if trained then s.initDram.nextStep 6
    else s.attemptFail 0x0B)

/-! ### BIST, WEIGHTS (R84, R95, R99, R638) -/

/-- BIST: `failed` are the cores whose logic BIST fails. -/
def execBistStep (dt : Nat) (failed : List Nat) (s : State) : Host.Outcome State Fault Refusal :=
  .next ((s.elapse dt).runStep 6 fun s =>
    let bad := (List.range 16).filter fun n => failed.contains n
    let s := s.setReg R.BOOT_BIST_FAILED (bad.map fun n => 2 ^ n).sum
    if bad.any fun n => (s.corePart n).isSome then s.attemptFail 0x0C else s.nextStep 7)

/-- The weight entries of the image in use. -/
def State.weightList (s : State) : List (List Byte) :=
  match s.image with
  | some m => m.weights.map fun w => w.2
  | none => []

/-- A weight block's hash is as its entry has it. -/
def State.weightGood (s : State) (e : List Byte) : Bool :=
  sha384 (s.bytes (field e 0x18 8) (field e 0x10 8)) == slice e 0x20 48

/-- Weight blocks loaded from the model store, block `i` first; `fails` gives for a block how many of its reads fail in a row. -/
def State.loadWeights (s : State) (fails : List (Nat × Nat)) : Nat → List (List Byte) → State
  | _, [] => s.nextStep 8
  | i, e :: l =>
    let n := match fails.find? fun x => x.1 == i with
      | some x => x.2
      | none => 0
    let s := s.incReg R.NVM_UFS_RETRIES_UFS_RETRIES 0 0 (min n 3)
    if 4 ≤ n then s.attemptFail 0x0D else
    let len := field e 0x10 8
    let s := s.incReg R.NVM_UFS_BYTES_UFS_BYTES 0 0 len
    let dest := field e 0x18 8
    let s := s.clearMem dest (dest + len)
    let s := s.setBytes dest (cellBytes s.ufs (field e 0 1 * 2 ^ 80 + 4096 * field e 8 8) len)
    if s.weightGood e then s.loadWeights fails (i + 1) l else s.attemptFail 0x0E

/-- Weight blocks judged where they stand in DRAM. -/
def State.checkWeights (s : State) : List (List Byte) → State
  | [] => s.nextStep 8
  | e :: l =>
    match s.readMem (field e 0x18 8) (field e 0x10 8) with
    | (some _, s) => s.attemptFail 0x0E
    | (none, s) => if s.weightGood e then s.checkWeights l else s.attemptFail 0x0E

/-- WEIGHTS: a cold start loads every block, after UFS_RST_N has been released; a warm start judges the blocks in DRAM. -/
def execWeightsStep (dt : Nat) (fails : List (Nat × Nat)) (s : State) : Host.Outcome State Fault Refusal :=
  .next ((s.elapse dt).runStep 7 fun s =>
    if s.warm then s.checkWeights s.weightList
    else ({ s with boot.ufsOut := true }).loadWeights fails 0 s.weightList)

/-! ### LINKS (R93, R96, R656, R723) -/

/-- The image configures an interface domain; the link engine and intake control stand in the one of Ethernet and CAN. -/
def linkDomain (b : List Byte) (d : Nat) : Bool :=
  let pcie := bit (field (ifPcie b) 0 1) 0
  let links := bits (field (ifLink b) 0 1) 1 0 != 0
  if d = 11 then
    ((List.range 2).any fun n => bit (field (ifEth b n) 0 1) 0) || ((List.range 4).any fun k => bit (field (ifCan b k) 0 1) 0) ||
    pcie || links || ifScripts b != 0
  else if d = 12 then pcie
  else links

/-- The interface domains that the image configures and that have no power. -/
def State.linksDown (s : State) : List Nat := [11, 12, 13].filter fun d => linkDomain (s.sec 0xC) d && !s.powered d

/-- The INTERFACES section and the interfaces' register loads applied, with the domains powered first. -/
def State.applyLinks (s : State) : State :=
  let down := s.linksDown
  let s := (s.powerAll down).applyLoads 8
  let s := { s with ifaces.cfg := s.sec 0xC }
  let s := (List.range 2).foldl (fun s p => s.setReg R.ETH_STATUS_MODE (bits (field (s.eth p) 0 1) 2 1) p) s
  (List.range 2).foldl (fun s p =>
    if s.linkEn p then (if down.contains 13 then s.setReg R.LINK_STATE_STATE 0 p else s) else s.setReg R.LINK_STATE_STATE 5 p) s

/-- LINKS: the interfaces are brought up; the step ends once every required port has trained. -/
def execLinksStep (dt : Nat) (s : State) : Host.Outcome State Fault Refusal :=
  .next ((s.elapse dt).runStep 8 fun s =>
    let s := if s.ifaces.cfg ≠ s.sec 0xC ∨ s.linksDown ≠ [] then s.applyLinks else s
    if s.linksReady then s.nextStep 9 else s)

/-! ### ARM (R56, R58, R69, R704) -/

/-- The groups are armed, and ARM ends; a debug-hold start stays there (R704). -/
def State.arm (s : State) : State :=
  let s := s.stepTime.armGroups
  if s.dbg.holdStart then (s.setReg R.DBG_STATUS_HOLD 1).startRecord 0x04 0 0 else s

/-- The groups have not been armed in this start. -/
def State.unarmed (s : State) : Bool := s.reg R.TIME_STATUS_ARMED == 0

/-- ARM: the wait is over where Orbit time has been stepped, where there is nothing to wait for, and in a warm start. -/
def execArmStep (dt : Nat) (s : State) : Host.Outcome State Fault Refusal :=
  let s := s.elapse dt
  .next (if s.unarmed then
      s.runStep 0xA fun s =>
        if s.warm ∨ s.flag R.TIME_STATUS_STEPPED ∨ s.reg R.TIME_CFG_ACQ_WAIT = 0 then s.arm else s
    else s)

/-- TIME.CFG.ACQ_WAIT has passed: the groups are armed on Orbit's own count. -/
def execAcqWaitExpire (dt : Nat) (s : State) : Host.Outcome State Fault Refusal :=
  let s := s.elapse dt
  .next (if s.unarmed ∧ s.warm = false ∧ s.orbit.armAt + msTicks (100 * s.reg R.TIME_CFG_ACQ_WAIT) ≤ s.tick then s.runStep 0xA State.arm
    else s)

/-! ### The end of a start (R36, R91, R99, R101, R102, R116, R566, R639) -/

/-- The last-good interface record, to the copy that does not hold the valid record of higher SEQ (R639). -/
def State.writeLastGood (s : State) : State :=
  let b := s.ifaces.cfg
  let seq := match s.lastGood with
    | some g => field g 4 4
    | none => 0
  let held := match s.lastGood with
    | some g => if cellBytes s.fram 0x4100 1024 = g then 1 else 0
    | none => 0
  let body := leBytes 4 0x49474C4A ++ leBytes 4 (seq + 1) ++ leBytes 8 (s.reg R.BOOT_GEN_IMAGE_GEN) ++ slice b 64 288
  let rec_ := slice body 0 0x3FC
  { s with fram := setCellBytes s.fram (0x4100 + 1024 * held) (rec_ ++ leBytes 4 (crc32 rec_)) }

/-- The security version advanced: fuse bits blown up to the image's SVN (R91). -/
def State.advanceSvn (s : State) : State :=
  if bit (field s.header 0xC 4) 1 then
    let s := { s with fuses.svn := max s.fuses.svn (field s.header 0x14 1) }
    s.setReg R.BOOT_SVN_FUSED s.fuses.svn
  else s

/-- What DONE of a cold start and of a warm start leave in the ferroelectric RAM. -/
def State.recordDone (s : State) : State :=
  if s.warm then
    let s := s.writeBootRec s.bootRecord
    s.plog { code := 0x03, before := 0, after := 1, value := s.attemptUs / 1000 }
  else
    let s := s.setReg R.BOOT_STATUS_FAILS 0
    let s := (s.writeBootRec s.bootRecord).writeLastGood.advanceSvn
    s.plog { code := 0x06, before := 0, after := 1, value := s.reg R.BOOT_GEN_IMAGE_GEN, detail := s.reg R.BOOT_STATUS_SLOT }

/-- DONE: IN_SERVICE is entered, and then SAFE_FAULT_N rises.  EXTEST and a debug-hold start withhold it (R700, R704). -/
def execStartDone (dt : Nat) (s : State) : Host.Outcome State Fault Refusal :=
  let s := s.elapse dt
  .next (if s.inStep 0xA ∧ s.unarmed = false ∧ s.dbg.extest = false ∧ s.dbg.holdStart = false then
      let s := (s.setReg R.BOOT_STATUS_STEP 0xF).setSvc 1
      let s := { s.setReg R.SAFE_STATUS_LATCH 0 with hub.faultN := true, hub.pinBad := none, hub.hbBad := some s.tick
                                                     boot.phase := .idle, boot.sealBefore := none }
      s.recordDone.acuDone.startRecord 0x01 0 0
    else s)

/-- A step exceeds its limit. -/
def execStartStepTimeout (dt : Nat) (s : State) : Host.Outcome State Fault Refusal :=
  let s := s.elapse dt
  let k := s.reg R.BOOT_STATUS_STEP
  .next (if s.inStep k ∧ s.overLimit ∧ ¬ (k = 0xA ∧ s.unarmed = false) then s.stepTimeout else s)

/-- 100 ms have passed since a failed attempt: a cold start begins (R99, R101). -/
def execStartRetryDelayExpire (dt : Nat) (s : State) : Host.Outcome State Fault Refusal :=
  let s := s.elapse dt
  .next (if s.boot.phase = .retry ∧ s.boot.since + msTicks 100 ≤ s.tick then s.coldStart true else s)

/-- A warm start begins, from SAFE (R98): its first step is SELECT.  None begins after a fault of class OUT (R562). -/
def execWarmStart (dt : Nat) (s : State) : Host.Outcome State Fault Refusal :=
  let s := s.elapse dt
  .next (if s.svc = 2 ∧ s.boot.warmDue ∧ s.flag R.PWR_PMIC_PG ∧ s.hub.outFrom = none then
      let s := ((s.setSvc 0).setReg R.BOOT_STATUS_WARM 1).incReg R.BOOT_TALLY_WARM
      let s := (List.range 11).foldl (fun s k => s.setReg R.BOOT_STEP_US_US 0 k) s
      let s := s.setReg R.BOOT_STATUS_STEP 2
      { s with boot.phase := .step, boot.since := s.tick, boot.begun := s.tick, boot.warmDue := false, boot.pgSince := none
               dbg.holdStart := false }
    else s)

end Sys2Proof.Machine
end

