-- ==== Sys2Proof/Machine/Embed.lean ====
section
/-!
DEFINITION. The embedding engine (R373 to R395).
-/

namespace Sys2Proof.Machine

open Sys2Proof

/-! ### Tables (R373 to R377, Table 10.1) -/

/-- A table descriptor. -/
structure EmbTable where
  base : Nat
  rows : Nat
  int4 : Bool
  dim : Nat
  stride : Nat
  hotBase : Nat
  hotCount : Nat
  deriving DecidableEq, Repr

def embTableOf (d : List Byte) : EmbTable :=
  let w2 := field d 16 8
  ⟨bits (field d 0 8) 47 0, bits (field d 8 8) 39 0, bit (field d 8 8) 40, bits w2 14 0, bits w2 47 16,
   bits (field d 24 8) 47 0, field d 32 4⟩

/-- PB: payload bytes of a row. -/
def EmbTable.pb (t : EmbTable) : Nat := if t.int4 then t.dim / 2 else t.dim

/-- Address of row `i` in the table range, and in the hot copy. -/
def EmbTable.rowAddr (t : EmbTable) (i : Nat) : Nat := (t.base + i * t.stride) % 2 ^ 48
def EmbTable.hotAddr (t : EmbTable) (i : Nat) : Nat := (t.hotBase + i * t.stride) % 2 ^ 48

/-- Table `n` of partition `p` in the descriptor file (R375). -/
def State.embTable (s : State) (p n : Nat) : Option EmbTable := ((Sparse.get [] s.embFile p)[n]?).map embTableOf

/-- The FP32 values of a stored row (R377). -/
def EmbTable.values (t : EmbTable) (row : List Byte) : List Nat :=
  let scale := fp16.decode (field row t.pb 2)
  let bias := fp16.decode (field row (t.pb + 2) 2)
  let ty := if t.int4 then 2 else 0
  (unpack ty t.dim (row.take t.pb)).map fun q => toF32 (((toFl ty q).mul scale).add bias)

/-! ### Checks of the datapath (R386, R387, R394) -/

/-- A mismatch that a gather unit's checks find at an output row: the unit, and whether it is of the residue check. -/
def embSource : Nat := 0x60

/-- The command fails at output row `r` with every mismatch of that cycle raised and counted; the lowest unit is reported,
an address mismatch of a unit before its residue (R394). -/
def embMismatch (faults : List EmbFault) : Eff Unit := fun s =>
  let s := faults.foldl (fun s f =>
    let d := (if f.residue then 2 else 1) + 2 ^ 8 * (f.unit % 4) + 2 ^ 32 * f.row
    (s.incReg (if f.residue then R.EMB_RESIDUE_COUNT else R.EMB_ADDR_MISMATCH_COUNT)).raise embSource (f.unit % 4) d) s
  let best := faults.foldl (fun (b : Option EmbFault) f =>
    match b with
    | none => some f
    | some g => if 2 * (f.unit % 4) + ofBool f.residue < 2 * (g.unit % 4) + ofBool g.residue then some f else some g) none
  match best with
  | none => (.ok (), s)
  | some f =>
    (.error { status := 0x20, detail := (if f.residue then 2 else 1) + 2 ^ 8 * (f.unit % 4) + 2 ^ 32 * f.row }, s)

/-- What a failed check of output row `r` does, where the mismatches given lie on it: they arise in one cycle. -/
def embBad (faults : List EmbFault) (r : Nat) : Option (Eff Unit) :=
  if faults.any fun g => g.row == r then some (embMismatch faults) else none

/-! ### `emb.gather` (R378 to R383, Table 10.3) -/

structure GatherOp where
  table : Nat
  isize : Nat
  pool : Nat
  otype : Nat
  raw : Bool
  oob : Bool
  psw : Bool
  deriving DecidableEq, Repr

def gatherOp (w1 : Nat) : GatherOp :=
  ⟨bits w1 5 0, if bit w1 6 then 8 else 4, bits w1 9 8, bits w1 13 10, bit w1 14, bit w1 15, bit w1 16⟩

/-- Output rows: NIDX without pooling, else BAGS. -/
def gatherRows (c : Cmd) : Nat := if (gatherOp (c.word 1)).pool = 0 then bits (c.word 8) 31 0 else bits (c.word 7) 23 0

/-- Bytes of the aligned 64 B blocks that a range touches (R388). -/
def blockBytes (a n : Nat) : Nat := if n = 0 then 0 else 64 * ((a + n - 1) / 64 + 1 - a / 64)

/-- A stored row fetched whole, counted in blocks (R383, R389). -/
def Eff.embRow (p : Nat) (t : EmbTable) (i : Nat) : Eff (List Byte) := fun s =>
  let hot := decide (i < t.hotCount)
  let a := if hot then t.hotAddr i else t.rowAddr i
  let n := t.pb + 4
  let s := if hot then s.incReg R.EMB_HOT_READ_COUNT else if s.isDram a then s.incReg R.EMB_ROWS_READ_COUNT else s
  match (s.countRd p (a / 64 * 64) (blockBytes a n)).readMem a n with
  | (none, s) => (.ok (s.bytes a n), s)
  | (some w, s) => (.error { status := 0x1F, detail := w }, s)

/-- The stored row at an index position, or none for a zero row (R379, R382). -/
def gatherAt (c : Cmd) (o : GatherOp) (t : EmbTable) (pos : Nat) : Eff (Option (List Byte)) :=
  (Eff.load c.part (c.addr 2 + o.isize * pos) o.isize).bind fun i =>
  if t.rows ≤ i then
    if o.oob then (Eff.modify fun s => s.incReg R.EMB_OOB_COUNT).bind fun _ => Eff.pure none
    else Eff.fail 0x14 0
  else (Eff.embRow c.part t i).bind fun b => Eff.pure (some b)

/-- The FP32 values of a position. -/
def EmbTable.vals (t : EmbTable) (row : Option (List Byte)) : List Nat :=
  match row with
  | some b => t.values b
  | none => List.replicate t.dim 0

/-- The positions of a bag pooled in order: the running value of each element, from +0, and for MAX from the first row
(R380). -/
def gatherPool (c : Cmd) (o : GatherOp) (t : EmbTable) (first : Nat) : Nat → List Nat → Eff (List Nat)
  | 0, acc => Eff.pure acc
  | n + 1, acc =>
    let pos := first
    (gatherAt c o t pos).bind fun row =>
    (if o.psw then Eff.load c.part (c.addr 6 + 4 * pos) 4 else Eff.pure 0).bind fun w =>
    let v := t.vals row
    let acc :=
      if o.pool = 3 then (if acc.isEmpty then v.map (fun x => fmax x x) else (acc.zip v).map fun p => fmax p.1 p.2)
      else if o.psw then (acc.zip v).map fun p => ffma w p.2 p.1
      else (acc.zip v).map fun p => fadd p.1 p.2
    gatherPool c o t (first + 1) n acc

/-- The bytes of output row `r` of a gather; `from_` is the row at which the command, or its segment, began. -/
def gatherBytes (c : Cmd) (o : GatherOp) (t : EmbTable) (from_ r : Nat) : Eff (List Byte) :=
  (Eff.staging embedMem 0x100000).bind fun _ =>
  if o.pool = 0 then
    (gatherAt c o t r).bind fun row =>
    Eff.pure (if o.raw then row.getD (List.replicate (t.pb + 4) 0#8) else pack o.otype ((t.vals row).map (ofFp o.otype)))
  else
    let nidx := bits (c.word 8) 31 0
    let at_ := c.addr 3 + 4 * r
    (Eff.modify fun s => if r = from_ then s.countRd c.part at_ 4 else s).bind fun _ =>
    (Eff.reread at_ 4).bind fun a =>
    let a := leNat a
    (Eff.load c.part (at_ + 4) 4).bind fun b =>
    if nidx < a ∨ nidx < b ∨ b < a ∨ a + 4096 < b then Eff.fail 0x14 0 else
    (gatherPool c o t a (b - a) (if o.pool = 3 then [] else List.replicate t.dim 0)).bind fun acc =>
    let acc := if acc.isEmpty then List.replicate t.dim 0 else acc
    let acc := if o.pool = 2 ∧ a < b then acc.map fun x => fdiv x (fint (b - a : Nat)) else acc
    Eff.pure (pack o.otype (acc.map (ofFp o.otype)))

/-- Output row `r` of a gather. -/
def gatherRow (c : Cmd) (o : GatherOp) (t : EmbTable) (from_ : Nat) (bad : Option (Eff Unit)) (r : Nat) : Eff Unit :=
  Eff.checked bad (gatherBytes c o t from_ r) fun bs => Eff.write c.part (c.addr 4 + r * bits (c.word 5) 31 0) bs

/-- `emb.gather`. -/
def execEmbGather (dt id : Nat) (faults : List EmbFault) (s : State) : Host.Outcome State Fault Refusal :=
  .next ((s.elapse dt).runLong id 0x60 gatherRows (fun _ => 1024) fun c a b s =>
    let o := gatherOp (c.word 1)
    match s.embTable c.part o.table with
    | some t => runRows (gatherRow c o t a) (embBad faults) (gatherRows c) a (b - a) s
    | none => (0, { status := 0x14 }, s))

/-! ### `emb.put` (R384, R385, Table 10.4) -/

/-- The scale word and the codes of a row of FP32 values; nothing where BIAS or SCALE is not finite (R384). -/
def putRow (t : EmbTable) (x : List Nat) : Option (List Byte) :=
  let mn := x.foldl fmin (x.headD 0)
  let mx := x.foldl fmax (x.headD 0)
  let qm : Int := if t.int4 then 7 else 127
  let bias := fp16.round false (f32 (fdiv (fadd mx mn) (fint 2)))
  let scale := fp16.round false (f32 (fdiv (fsub mx mn) (fint (2 * qm))))
  let b := fp16.decode bias
  let sc := fp16.decode scale
  if x.all ffinite && b.isFin && sc.isFin then
    let zero := scale % 0x8000 = 0
    let q := x.map fun v => if zero then 0 else clampInt (-qm) qm (f32 (fdiv (fsub v (toF32 b)) (toF32 sc))).toInt
    let ty := if t.int4 then 2 else 0
    some (pack ty (q.map (ofI ty)) ++ leBytes 2 scale ++ leBytes 2 bias)
  else none

/-- A row write, checked before it is made (R385). -/
def putWrite (p a : Nat) (bs : List Byte) : Eff Unit :=
  (Eff.inBounds p a bs.length true).bind fun _ => Eff.write p a bs

/-- The index and the stored bytes of source row `r` of `emb.put`. -/
def putBytes (c : Cmd) (t : EmbTable) (r : Nat) : Eff (Nat × List Byte) :=
  let w1 := c.word 1
  let isize := if bit w1 6 then 8 else 4
  let ty := bits w1 11 8
  (Eff.load c.part (c.addr 2 + isize * r) isize).bind fun i =>
  if t.rows ≤ i then Eff.fail 0x14 0 else
  (Eff.read c.part (c.addr 3 + r * bits (c.word 4) 31 0) (typeBytes ty t.dim)).bind fun b =>
  match putRow t ((unpack ty t.dim b).map (toFp ty)) with
  | none => Eff.fail 0x14 0
  | some row => (Eff.staging embedMem 0x100000).bind fun _ => Eff.pure (i, row)

/-- Source row `r` of `emb.put` written. -/
def putAt (c : Cmd) (t : EmbTable) (bad : Option (Eff Unit)) (r : Nat) : Eff Unit :=
  Eff.checked bad (putBytes c t r) fun x =>
    (putWrite c.part (t.rowAddr x.1) x.2).bind fun _ =>
    if x.1 < t.hotCount then putWrite c.part (t.hotAddr x.1) x.2 else Eff.pure ()

/-- `emb.put`. -/
def execEmbPut (dt id : Nat) (faults : List EmbFault) (s : State) : Host.Outcome State Fault Refusal :=
  .next ((s.elapse dt).runLong id 0x61 (fun c => bits (c.word 5) 23 0) (fun _ => 2 ^ 24) fun c a b s =>
    match s.embTable c.part (bits (c.word 1) 5 0) with
    | some t => runRows (putAt c t) (embBad faults) b a (b - a) s
    | none => (0, { status := 0x14 }, s))

/-- What the fetch checks ask of an EMBED command. -/
def State.embInfo (s : State) (p op : Nat) (words : List Nat) : Option OpInfo :=
  let w := fun i => words.getD i 0
  let a := fun i => bits (w i) 47 0
  let t := s.embTable p (bits (w 1) 5 0)
  let dim := (t.map (·.dim)).getD 0
  let pb := (t.map (·.pb)).getD 0
  match op with
  | 0x60 =>
    let o := gatherOp (w 1)
    let pooled := o.pool != 0
    let nidx := bits (w 8) 31 0
    let bags := bits (w 7) 23 0
    let rows := if pooled then bags else nidx
    let len := if o.raw then pb + 4 else typeBytes o.otype dim
    let size := if o.raw then 4 else typeBits o.otype / 8
    let pitch := bits (w 5) 31 0
    some { slots := [2], ckpt := true
           masks := [0x1FF7F, mAddr, if pooled then mAddr else 0, mAddr, mLow, if o.psw then mAddr else 0,
                     if pooled then 0xFFFFFF else 0, mLow]
           limits := [(1, t.isSome), (1, if o.raw then o.otype == 0 && !pooled else decide (7 ≤ o.otype ∧ o.otype ≤ 9)),
                      (1, !o.psw || o.pool == 1 || o.pool == 2), (2, a 2 % o.isize == 0), (3, a 3 % 4 == 0),
                      (4, a 4 % size == 0), (5, pitch % size == 0 && decide (len ≤ pitch)), (6, a 6 % 4 == 0)]
           ranges := [(2, a 2, o.isize * nidx, false), (3, a 3, if pooled && bags != 0 then 4 * (bags + 1) else 0, false),
                      (6, a 6, if o.psw then 4 * nidx else 0, false), (4, a 4, rowSpan rows pitch len, true)] }
  | 0x61 =>
    let isize := if bit (w 1) 6 then 8 else 4
    let ty := bits (w 1) 11 8
    let n := bits (w 5) 23 0
    let len := typeBytes ty dim
    let pitch := bits (w 4) 31 0
    some { slots := [2], masks := [0xF7F, mAddr, mAddr, mLow, 0xFFFFFF]
           limits := [(1, t.isSome), (1, decide (7 ≤ ty ∧ ty ≤ 9)), (2, a 2 % isize == 0),
                      (3, a 3 % (typeBits ty / 8) == 0), (4, decide (len ≤ pitch))]
           ranges := [(2, a 2, isize * n, false), (3, a 3, rowSpan n pitch len, false)] }
  | _ => none

end Sys2Proof.Machine
end

