-- ==== Sys2Proof/Machine/Vision.lean ====
section
/-!
DEFINITION. The vision engine: CSI-2 frames, depth sets, lidar scans, items, buffers and holds, and the vision opcodes
(R220 to R229, R234 to R240, R249 to R251, R255 to R266).
-/

namespace Sys2Proof.Machine

open Sys2Proof

/-! ### Streams -/

def State.visStr (s : State) (n : Nat) : VisStream := Sparse.get {} s.vis.streams n
def State.setVisStr (s : State) (n : Nat) (x : VisStream) : State :=
  { s with vis.streams := Sparse.put {} s.vis.streams n x }

/-- The engine runs and receiver `n` is enabled. -/
def State.visOn (s : State) (port : Nat) : Bool :=
  s.flag R.VFE_STATUS_RUN && decide (port < 8) && bit (field (visPort (s.sec 6) port) 0 1) 0

/-- Streams of a receiver and virtual channel. -/
def State.visMatch (s : State) (port vc : Nat) : List (List Byte) :=
  (visStreamList (s.sec 6)).filter fun e => field e 1 1 == port && field e 2 1 == vc

/-- A header that D-PHY ECC corrected is counted (R223). -/
def State.visEcc (s : State) (port : Nat) (corrected : Bool) : State :=
  if corrected then s.incReg R.VFE_PORT_ECC_CORR port else s

/-! ### Buffers (R251) -/

/-- A source picks its next buffer that is not held, in turn; none where every buffer is held. -/
def State.visPick (s : State) (kind n : Nat) : Option Nat × State :=
  match s.visRing kind n with
  | none => (none, s)
  | some (_, _, _, nbuf, _) =>
    let x := s.visSource kind n
    match ((List.range nbuf).map fun i => (x.next + i) % nbuf).find? fun b => !x.held.contains b with
    | some b =>
      (some b, s.setVisSource kind n { x with next := (b + 1) % nbuf, items := x.items.filter fun i => i.1 != b
                                              work := x.work ++ [b] })
    | none => (none, s)

/-- The drop counter of a source. -/
def State.visDrop (s : State) (kind n : Nat) : State :=
  if kind ≤ 1 then s.incReg R.VFE_STR_DROP_COUNT n
  else if kind = 2 then s.incReg R.VFE_LID_DROP_COUNT n
  else s.incReg R.VFE_CH_DROP_COUNT n

/-- A buffer picked at the start of a frame, depth set or scan, or the drop counted. -/
def State.visStart (s : State) (kind n : Nat) : Option Nat × State :=
  match s.visPick kind n with
  | (some b, s) => (some b, s)
  | (none, s) => (none, s.visDrop kind n)

/-- Channels of a stream. -/
def State.visChansOf (s : State) (n : Nat) : List (List Byte) := (visChanList (s.sec 6)).filter fun c => field c 2 1 == n

/-- The buffers of every channel of a stream, by channel. -/
def State.visStarts (s : State) : List (List Byte) → List (Nat × Nat) × State
  | [] => ([], s)
  | c :: l =>
    let k := field c 0 1
    match s.visStart 4 k with
    | (b, s) =>
      let r := s.visStarts l
      (match b with | some b => (k, b) :: r.1 | none => r.1, r.2)

/-- The buffers of a frame or set given up. -/
def State.visGiveUp (s : State) (kind n : Nat) (f : VisFrame) : State :=
  let s := match f.record with
    | some b => s.visLose kind n b
    | none => s
  f.chans.foldl (fun s c => s.visLose 4 c.1 c.2) s

/-! ### Channels -/

/-- Gamma table `g` and the grid of a channel, as line memory holds them (R244, R253). -/
def State.chanGamma (s : State) (c : List Byte) : Option (List Byte) :=
  let g := field c 0x2F 1
  if g = 0xFF then none else some (s.bytes (visionMem + 0x3FE000 + 0x400 * g) 514)

def State.chanGrid (s : State) (c : List Byte) : GridMap :=
  let o := visGridAt (s.sec 6) (field c 0x0D 1)
  let b := s.sec 6
  let cols := field b o 2
  ⟨cols, field b (o + 4) 1, s.bytes (visionMem + field b (o + 8) 4) (8 * cols * field b (o + 2) 2)⟩

/-- CROP window in force. -/
def State.cropNow (s : State) (k : Nat) : Crop :=
  ⟨s.reg R.VFE_CH_CROP_XY_X k, s.reg R.VFE_CH_CROP_XY_Y k, s.reg R.VFE_CH_CROP_WH_W k, s.reg R.VFE_CH_CROP_WH_H k⟩

/-- A window put in force. -/
def State.setCropNow (s : State) (k : Nat) (c : Crop) : State :=
  (((s.setReg R.VFE_CH_CROP_XY_X c.x k).setReg R.VFE_CH_CROP_XY_Y c.y k).setReg R.VFE_CH_CROP_WH_W c.w k).setReg
    R.VFE_CH_CROP_WH_H c.h k

/-- Windows set since the last frame start of a stream take effect (R256). -/
def State.applyCrops (s : State) (n : Nat) : State :=
  (s.visChansOf n).foldl (fun s c =>
    let k := field c 0 1
    match s.vis.crops.find? fun x => x.1 == k with
    | some (_, [x, y, w, h]) =>
      let s := s.setCropNow k ⟨x, y, w, h⟩
      { s with vis.crops := s.vis.crops.filter fun x => x.1 != k }
    | _ => s) s

/-! ### Items -/

/-- Flags of an item: BAD, SHORT, LONG, WATCHDOG, SAT, INCOMPLETE. -/
def itemFlags (bad short long watchdog sat incomplete : Bool) : Nat :=
  ofBool bad + 2 * ofBool short + 4 * ofBool long + 8 * ofBool watchdog + 16 * ofBool sat + 32 * ofBool incomplete

/-- A frame's REF: the stamp of its first line group; not stated where no line came. -/
def State.frameRef (s : State) (f : VisFrame) : Nat × State :=
  match f.stamps.getLast? with
  | some t => (t, s)
  | none => s.freeBelow (2 ^ 64)

/-- The stamp table of a frame; entries of line groups that never came are not stated. -/
def State.stampTable (s : State) (groups : Nat) (f : VisFrame) : List Byte × State :=
  let l := f.stamps.reverse.take groups
  let k := s.freeCtr
  let rest := (List.range (groups - l.length)).map fun i => Config.freeNat (k + i)
  ((l ++ rest).flatMap (leBytes 8), { s with freeCtr := k + rest.length })

/-- The channel items of a frame or set: planes given, each channel's data formed. -/
def State.channelItems (s : State) (e : List Byte) (f : VisFrame) (bad flags ref : Nat) (planes : List Img) : State :=
  f.chans.foldl (fun s x =>
    match s.chanEntry x.1 with
    | none => s
    | some c =>
      let data := channelData c (strKind e == 2) (s.cropNow x.1) (s.chanGamma c) (s.chanGrid c) planes
      let i : VisItem := { kind := 4, source := x.1, buf := x.2, addr := s.visAddr 4 x.1 x.2, fn := f.fn, badLines := bad
                           flags := flags, fs := f.fs, ref := ref, quality := f.quality, w := field c 0x28 2, h := field c 0x2A 2
                           c := field c 0x33 1, dtype := field c 0x32 1, levels := field c 0x2D 1, body := data }
      { s with vis.items := s.vis.items ++ [i] }) s

/-- The items of a frame of a stream that is not ToF. -/
def State.frameItems (s : State) (n : Nat) (e : List Byte) (f : VisFrame) (bad flags : Nat) (rows : List (List Nat)) : State :=
  let (ref, s) := s.frameRef f
  let s := match f.record with
    | none => s
    | some b =>
      let (table, s) := s.stampTable (strGroups e) f
      let raw := bit (field e 0x0B 1) 0
      let gap := List.replicate (recordData e - 64 - table.length) 0#8
      let a := s.visAddr 0 n b
      let i : VisItem := { kind := 0, source := n, buf := b, addr := a, fn := f.fn, badLines := bad, flags := flags, fs := f.fs
                           ref := ref, quality := f.quality, stamps := a + 64, w := strW e, h := strH e
                           c := if raw then (if strKind e = 2 then 2 else 1) else 0, dtype := 2
                           body := if raw then table ++ gap ++ rows.flatMap (fun (r : List Nat) => r.flatMap (leBytes 2)) else table }
      { s with vis.items := s.vis.items ++ [i] }
  s.channelItems e f bad flags ref (streamPlanes e rows)

/-- The stored samples of phase `k` of a depth set. -/
def State.phaseRow (s : State) (e : List Byte) (k y : Nat) : List Nat :=
  let w := strW e
  chunk (s.bytes (field e 0x50 8 + 2 * w * (strH e * k + y)) (2 * w)) w
where
  /-- Two-byte samples of a byte string. -/
  chunk (bs : List Byte) : Nat → List Nat
    | 0 => []
    | n + 1 => leNat (bs.take 2) :: chunk (bs.drop 2) n

/-- Depth and amplitude from the stored phases and phase 3, row by row, and whether any sample saturates (R235, R236). -/
def State.depthRows (s : State) (e : List Byte) (rows : List (List Nat)) : List (List (Nat × Nat)) × Bool :=
  let l := (rows.zip (List.range (strH e))).map fun (r : List Nat × Nat) =>
    let a0 := (s.phaseRow e 0 r.2).toArray
    let a1 := (s.phaseRow e 1 r.2).toArray
    let a2 := (s.phaseRow e 2 r.2).toArray
    (r.1.zip (List.range (strW e))).map fun (x : Nat × Nat) =>
      tofPixel e (a0.getD x.2 0 : Nat) (a1.getD x.2 0 : Nat) (a2.getD x.2 0 : Nat) (x.1 : Nat)
  (l.map fun r => r.map fun p => (p.1, p.2.1), l.any fun r => r.any fun p => p.2.2)

/-- The items of a complete depth set, from the lines of its phase 3. -/
def State.depthItems (s : State) (n : Nat) (e : List Byte) (t : TofSet) (rows : List (List Nat)) : State :=
  let f := t.first
  let d := s.depthRows e rows
  let flags := itemFlags t.marked false false false d.2 false
  let s := match f.record with
    | none => s
    | some b =>
      let (table, s) := s.stampTable (strGroups e) f
      let gap := List.replicate (recordData e - 64 - table.length) 0#8
      let a := s.visAddr 1 n b
      let i : VisItem := { kind := 1, source := n, buf := b, addr := a, fn := f.fn, badLines := t.bad, flags := flags, fs := f.fs
                           ref := f.fs, quality := f.fsQuality, stamps := a + 64, w := strW e, h := strH e, c := 2, dtype := 2
                           body := table ++ gap ++ d.1.flatMap fun (r : List (Nat × Nat)) => r.flatMap fun (p : Nat × Nat) => leBytes 2 p.1 ++ leBytes 2 p.2 }
      { s with vis.items := s.vis.items ++ [i] }
  let plane := fun (sel : Nat × Nat → Nat) =>
    let a := (d.1.map fun (r : List (Nat × Nat)) => (r.map fun p => ((sel p : Nat) : Int)).toArray).toArray
    (⟨strW e, strH e, a⟩ : Img)
  let (ref, s) := s.frameRef f
  s.channelItems e f t.bad flags ref [plane (·.1), plane (·.2)]

/-! ### The end of a frame (R227, R228, R234) -/

/-- A depth set under construction discarded (R234). -/
def State.tofBreak (s : State) (n : Nat) : State :=
  let x := s.visStr n
  match x.set with
  | none => s
  | some t => ((s.setVisStr n { x with set := none }).visGiveUp 1 n t.first).incReg R.VFE_STR_TOF_BREAK_COUNT n

/-- Rows of a frame: its lines, and zeros for those missing. -/
def frameRows (e : List Byte) (f : VisFrame) : List (List Nat) :=
  f.lines.reverse ++ List.replicate (strH e - f.lines.length) (List.replicate (lineLen e) 0)

/-- A phase frame of a ToF stream closed. -/
def State.closePhase (s : State) (n : Nat) (e : List Byte) (f : VisFrame) (bad : Nat) (marked broken : Bool) : State :=
  let x := s.visStr n
  match x.set with
  | none => s
  | some t =>
    if broken then s.tofBreak n else
    let rows := frameRows e f
    let first := if t.phases = 0 then { f with lines := [], record := t.first.record, chans := t.first.chans } else t.first
    let t : TofSet := { phases := t.phases + 1, first := first, bad := t.bad + bad, marked := t.marked || marked }
    if t.phases < 4 then
      let s := s.setVisStr n { x with set := some t }
      (s.writeMem (field e 0x50 8 + 2 * strW e * strH e * (t.phases - 1)) (rows.flatMap fun (r : List Nat) => r.flatMap (leBytes 2))).2
    else (s.setVisStr n { x with set := none }).depthItems n e t rows

/-- The open frame of a stream closed: SHORT where it is so or where `short` says so; by the watchdog where `dog` says so. -/
def State.closeFrame (s : State) (n : Nat) (e : List Byte) (short dog : Bool) : State :=
  let x := s.visStr n
  match x.frame with
  | none => s
  | some f =>
    let missing := strH e - f.lines.length
    let short := short || decide (missing ≠ 0)
    let bad := f.bad + missing
    let marked := decide (field e 0x3C 2 < bad) || short || f.long || dog
    let s := (s.setVisStr n { x with frame := none }).incReg R.VFE_STR_FRAMES_COUNT n
    let s := if strKind e = 3 then s.closePhase n e f bad marked (short || f.long)
             else s.frameItems n e f bad (itemFlags marked short f.long dog false false) (frameRows e f)
    if marked then
      let s := s.incReg R.VFE_STR_BAD_COUNT n
      if bit (field e 0x0B 1) 1 then s.raise 0x68 n 0 else s
    else s

/-! ### CSI-2 events -/

/-- A frame start of a stream (R229, R234, R251, R259): `sub` ns into the reference tick. -/
def State.openFrame (s : State) (n : Nat) (e : List Byte) (fn sub : Nat) : State :=
  let s := (s.closeFrame n e true false).applyCrops n
  let q := s.quality
  let (fs, s) := s.stamp sub 20
  let s := s.setReg R.VFE_STR_LAST_FS_TIME fs n
  let tof := strKind e = 3
  let phase := (fn + 3) % 4
  let s :=
    if tof then
      let expect : Nat := match (s.visStr n).set with | some t => t.phases | none => 0
      if phase = expect then s else s.tofBreak n
    else s
  if tof ∧ phase ≠ 0 ∧ (s.visStr n).set.isNone then
    s.setVisStr n { s.visStr n with frame := some { fn := fn, fs := fs, fsQuality := q, quality := q } }
  else
    let picks := !decide tof || decide (phase = 0)
    let (rec_, s) := if picks then s.visStart (if tof then 1 else 0) n else (none, s)
    let (chans, s) := if picks then s.visStarts (s.visChansOf n) else ([], s)
    let f : VisFrame := { fn := fn, fs := fs, fsQuality := q, quality := q, record := rec_, chans := chans }
    let x := s.visStr n
    s.setVisStr n { frame := some f, armed := if picks then some s.now else x.armed
                    set := if tof ∧ phase = 0 then some { first := f } else x.set }

/-- A frame-start packet (R225, R229, R259). -/
def execCsi2FrameStart (dt port vc fn sub : Nat) (corrected : Bool) (s : State) : Host.Outcome State Fault Refusal :=
  let s := s.elapse dt
  .next (if s.visOn port then
      let s := s.visEcc port corrected
      match s.visMatch port vc with
      | [] => s.incReg R.VFE_PORT_DT_DROP_COUNT port
      | l => l.foldl (fun s e => (s.openFrame (field e 0 1) e fn sub).tmuxPulse 0x03 (field e 0 1)) s
    else s)

/-- A line received on an open frame: kept, cut or filled, or discarded beyond HEIGHT (R226, R227). -/
def State.frameLine (s : State) (n : Nat) (e : List Byte) (line : List Nat) (crcOk : Bool) (sub : Nat) : State :=
  let x := s.visStr n
  match x.frame with
  | none => s
  | some f =>
    let k := f.lines.length
    if strH e ≤ k then s.setVisStr n { x with frame := some { f with long := true } } else
    let starts := k % field e 5 1 = 0
    let q := if k = 0 then s.quality else f.quality
    let (t, s) := if starts then s.stamp sub 20 else (0, s)
    let bad := f.bad + ofBool (!crcOk) + ofBool (line.length != lineLen e)
    let (hit, s) := match Eff.staging visionMem 0x400000 s with
      | (.ok _, s) => (false, s)
      | (.error _, s) => (true, s)
    let c := s.freeCtr
    let l := if hit then (List.range (lineLen e)).map fun i => Config.freeNat (c + i) % 65536 else correctLine e k line
    let s := if hit then { s with freeCtr := c + l.length } else s
    s.setVisStr n { x with frame := some { f with lines := l :: f.lines, bad := bad, quality := q
                                                  stamps := if starts then t :: f.stamps else f.stamps } }

/-- A long packet: the line's samples in the order in which the packet carries them (R225, R226). -/
def execCsi2LinePacket (dt port vc dtype : Nat) (line : List Nat) (crcOk corrected : Bool) (sub : Nat) (s : State) :
    Host.Outcome State Fault Refusal :=
  let s := s.elapse dt
  .next (if s.visOn port then
      let s := s.visEcc port corrected
      match (s.visMatch port vc).filter fun e => field e 3 1 == dtype with
      | [] => s.incReg R.VFE_PORT_DT_DROP_COUNT port
      | l =>
        let s := if crcOk then s else s.incReg R.VFE_PORT_CRC_COUNT port
        l.foldl (fun s e => s.frameLine (field e 0 1) e line crcOk sub) s
    else s)

/-- A frame-end packet closes the frames of its number (R225, R227). -/
def execCsi2FrameEnd (dt port vc fn : Nat) (corrected : Bool) (s : State) : Host.Outcome State Fault Refusal :=
  let s := s.elapse dt
  .next (if s.visOn port then
      let s := s.visEcc port corrected
      match s.visMatch port vc with
      | [] => s.incReg R.VFE_PORT_DT_DROP_COUNT port
      | l => l.foldl (fun s e =>
          let n := field e 0 1
          if (s.visStr n).frame.any fun f => f.fn == fn then s.closeFrame n e false false else s) s
    else s)

/-- A packet discarded: one whose header cannot be corrected, or one that the receiver does not support (R223, R226). -/
def execCsi2PacketDiscard (dt port : Nat) (header : Bool) (s : State) : Host.Outcome State Fault Refusal :=
  let s := s.elapse dt
  .next (if s.visOn port then
      if header then s.incReg R.VFE_PORT_ECC_DROP port else s.incReg R.VFE_PORT_DT_DROP_COUNT port
    else s)

/-- A watchdog of R229 armed at `t` has expired. -/
def State.dogExpired (s : State) (t period tol : Nat) : Bool := decide (period * (256 + tol) ≤ (s.now - t) * 256)

/-- The watchdog of stream `n` expires (R229). -/
def execStreamWatchdogExpire (dt n : Nat) (s : State) : Host.Outcome State Fault Refusal :=
  let s := s.elapse dt
  .next (match s.streamEntry n, (s.visStr n).armed with
    | some e, some t =>
      if s.dogExpired t (field e 0x0C 4) (field e 0x0A 1) then
        let s := s.closeFrame n e true true
        let s := (s.setVisStr n { s.visStr n with armed := none }).incReg R.VFE_STR_LOST_COUNT n
        if bit (field e 0x0B 1) 1 then s.raise 0x69 n 0 else s
      else s
    | _, _ => s)

/-! ### Completion (R250, R251, Table 6.9) -/

/-- Words 1 to 7 and word 0 of an item's header. -/
def State.itemHeader (s : State) (i : VisItem) (seq : Nat) : List Nat × Nat :=
  ([i.fs, i.ref, i.fn % 2 ^ 16 + 2 ^ 16 * min i.badLines 65535 + 2 ^ 32 * min i.missing 65535 + 2 ^ 48 * i.flags, i.stamps,
    i.w + 2 ^ 16 * i.h + 2 ^ 32 * i.c + 2 ^ 40 * i.dtype + 2 ^ 48 * i.levels, s.now, 0],
   i.kind + 2 ^ 8 * i.source + 2 ^ 16 * i.quality + 2 ^ 32 * (seq % 2 ^ 32))

/-- The oldest finished item of a source: made visible, its word 0 last, counted and reported to Orbit. -/
def execVisionItemComplete (dt kind n : Nat) (s : State) : Host.Outcome State Fault Refusal :=
  let s := s.elapse dt
  .next (match s.vis.items.find? fun i => i.kind == kind && i.source == n with
    | none => s
    | some i =>
      let s := { s with vis.items := s.vis.items.erase i }
      let x := s.visSource kind n
      let h := s.itemHeader i x.seq
      let s := (s.writeMem (i.addr + 64) i.body).2
      let s := (s.writeMem i.addr (wordsBytes (h.2 :: h.1))).2
      let s := s.setVisSource kind n { x with seq := x.seq + 1, items := x.items ++ [(i.buf, x.seq % 2 ^ 32)]
                                              work := x.work.erase i.buf }
      let s := if kind = 4 then s.incReg R.VFE_CH_ITEMS_COUNT n else if kind = 2 then s.incReg R.VFE_LID_SCANS_COUNT n else s
      s.fgComplete kind n i.ref i.addr x.seq)

/-! ### Known-answer test (R249) -/

/-- Whether the arithmetic of a channel gives its KAT_CRC. -/
def State.katOk (s : State) (c : List Byte) : Bool :=
  let yuv := match s.streamEntry (field c 2 1) with
    | some e => strKind e == 2
    | none => false
  chanKat c yuv (s.chanGamma c) == field c 0x7C 4

/-- The periodic test of a SAFETY channel; `bad` says that the arithmetic failed in it. -/
def execVisionKat (dt k : Nat) (bad : Bool) (s : State) : Host.Outcome State Fault Refusal :=
  let s := s.elapse dt
  .next (match s.chanEntry k with
    | some c =>
      if s.flag R.VFE_STATUS_RUN ∧ bit (field c 3 1) 1 ∧ (bad ∨ s.katOk c = false) then
        (s.incReg R.VFE_CH_KAT_FAIL_COUNT k).raise 0x6A k 0
      else s
    | none => s)

/-! ### Lidar (R237 to R240) -/

def State.visLid (s : State) (i : Nat) : VisLidar := Sparse.get {} s.vis.lidars i
def State.setVisLid (s : State) (i : Nat) (x : VisLidar) : State :=
  { s with vis.lidars := Sparse.put {} s.vis.lidars i x }

/-- Cells of a range image. -/
def lidarCells (e : List Byte) : Nat := field e 4 2 * field e 6 2

/-- The open scan of an intake closed (R239). -/
def State.closeScan (s : State) (i : Nat) (e : List Byte) : State :=
  let x := s.visLid i
  match x.scan with
  | none => s
  | some sc =>
    let missing := lidarCells e - sc.cells.length
    let s := s.setVisLid i { x with scan := none }
    let s := match sc.buf with
      | none => s
      | some b =>
        let body := (List.range (lidarCells e)).flatMap fun k => leBytes 4 ((Sparse.get none sc.cells k).getD 0)
        let item : VisItem := { kind := 2, source := i, buf := b, addr := s.visAddr 2 i b, fn := sc.n, missing := missing
                                flags := itemFlags false false false false false (decide (missing ≠ 0)), fs := sc.stamp
                                ref := sc.stamp, quality := sc.quality, w := field e 6 2, h := field e 4 2, c := 2, dtype := 2
                                body := body }
        { s with vis.items := s.vis.items ++ [item] }
    if missing ≠ 0 ∧ bit (field e 0x21 1) 0 then s.raise 0x68 (0x10 + i) 0 else s

/-- A cell's range and intensity from a point record (R240). -/
def lidarPoint (e : List Byte) (rec_ : List Byte) : Nat :=
  let r := field rec_ (field e 0x0D 1) (field e 0x0E 1)
  let int := if field e 0x0F 1 = 0xFF then 0 else field rec_ (field e 0x0F 1) 2
  (if r = 0 then 0 else min 65535 ((r * field e 0x10 4 + 500) / 1000)) + 2 ^ 16 * int

/-- Points `j` upwards of a packet filed into cells, `n` of them: the cells, and whether one was filled already. -/
def lidarFill (e payload : List Byte) (index : Nat) : Nat → Nat → List (Nat × Option Nat) → Bool → List (Nat × Option Nat) × Bool
  | 0, _, cells, dup => (cells, dup)
  | n + 1, j, cells, dup =>
    let rec_ := slice payload (field e 8 2 + j * field e 0x0C 1) (field e 0x0C 1)
    match Sparse.get none cells (index + j) with
    | some _ => lidarFill e payload index n (j + 1) cells true
    | none => lidarFill e payload index n (j + 1) (Sparse.put none cells (index + j) (some (lidarPoint e rec_))) dup

/-- A landed packet parsed: its payload, stamp and quality byte (R238, R239). -/
def State.lidarPacket (s : State) (i : Nat) (e payload : List Byte) (stamp quality : Nat) : State :=
  let pts := field e 0x0A 2
  let index := field payload (field e 0x14 2) 4
  if payload.length < field e 8 2 + pts * field e 0x0C 1 ∨ lidarCells e < index + pts then
    s.incReg R.VFE_LID_PARSE_COUNT i
  else
    let sos := field e 0x16 2
    let opens := if sos = 0xFFFF then index == 0 else bit (field payload (sos / 8) 1) (sos % 8)
    let s :=
      if opens then
        let s := s.closeScan i e
        let (b, s) := s.visStart 2 i
        let x := s.visLid i
        s.setVisLid i { scan := some { stamp := stamp, quality := quality, n := x.scans, buf := b }, scans := x.scans + 1
                        armed := some s.now }
      else s
    let x := s.visLid i
    match x.scan with
    | none => s.incReg R.VFE_LID_LATE_COUNT i
    | some sc =>
      let r := lidarFill e payload index pts 0 sc.cells false
      let s := s.setVisLid i { x with scan := some { sc with cells := r.1 } }
      let s := if r.2 then s.incReg R.VFE_LID_DUP_COUNT i else s
      if lidarCells e ≤ r.1.length then s.closeScan i e else s

/-- The oldest landed packet of intake `i` is parsed and released (R237). -/
def execLidarPacketParse (dt i : Nat) (s : State) : Host.Outcome State Fault Refusal :=
  let s := s.elapse dt
  .next (match s.lidarEntry i with
    | none => s
    | some e =>
      let q := field e 2 2
      let h := s.slot q (s.rptr q)
      let len := field h 0 2
      let n := 1 + ceilDiv len 64
      if s.flag R.VFE_STATUS_RUN ∧ s.qState q = qActive ∧ n ≤ s.qCount q then
        let payload := ((List.range (n - 1)).flatMap fun k => s.slot q (s.ptrAdd q (s.rptr q) (k + 1))).take len
        (s.lidarPacket i e payload (field h 8 8) (field h 3 1)).release q n
      else s)

/-- SCAN_TIMEOUT has passed since the stamp of the open scan (R239). -/
def execScanTimeout (dt i : Nat) (s : State) : Host.Outcome State Fault Refusal :=
  let s := s.elapse dt
  .next (match s.lidarEntry i, (s.visLid i).scan with
    | some e, some sc => if sc.stamp + field e 0x18 4 ≤ s.now then s.closeScan i e else s
    | _, _ => s)

/-- The watchdog of intake `i` expires (R239). -/
def execLidarWatchdogExpire (dt i : Nat) (s : State) : Host.Outcome State Fault Refusal :=
  let s := s.elapse dt
  .next (match s.lidarEntry i, (s.visLid i).armed with
    | some e, some t =>
      if s.dogExpired t (field e 0x1C 4) (field e 0x20 1) then
        let s := (s.setVisLid i { s.visLid i with armed := none }).incReg R.VFE_LID_LOST_COUNT i
        if bit (field e 0x21 1) 0 then s.raise 0x69 (0x10 + i) 0 else s
      else s
    | _, _ => s)

/-! ### Vision opcodes (R255 to R258) -/

/-- `vfe.set_crop`. -/
def execVfeSetCrop (dt id : Nat) (s : State) : Host.Outcome State Fault Refusal :=
  .next ((s.elapse dt).runEngine id 0x50 fun c =>
    let k := bits (c.word 1) 4 0
    let w := c.word 2
    Eff.modify fun s => { s with vis.crops :=
      (k, [bits w 15 0, bits w 31 16, bits w 47 32, bits w 63 48]) :: s.vis.crops.filter fun x => x.1 != k })

/-- The result code of a hold or release, if RESULT is given. -/
def visResult (c : Cmd) (code : Nat) : Eff Unit :=
  if c.addr 3 = 0 then Eff.pure () else Eff.write c.part (c.addr 3) (leBytes 8 code)

/-- The held buffers of a source changed, with CH_HELD of a channel. -/
def State.setHeld (s : State) (kind n : Nat) (l : List Nat) : State :=
  let s := s.setVisSource kind n { s.visSource kind n with held := l }
  if kind = 4 then s.setReg R.VFE_CH_HELD_BUFS ((List.range 8).map fun b => if l.contains b then 2 ^ b else 0).sum n else s

/-- `vfe.hold`. -/
def execVfeHold (dt id : Nat) (s : State) : Host.Outcome State Fault Refusal :=
  .next ((s.elapse dt).runEngine id 0x51 fun c => Eff.get.bind fun s =>
    let kind := bits (c.word 1) 2 0
    let n := bits (c.word 1) 12 8
    let x := s.visSource kind n
    match x.items.find? fun i => i.2 == bits (c.word 2) 31 0 with
    | none => visResult c 1
    | some (b, _) =>
      if x.held.contains b then visResult c 2
      else (Eff.modify fun s => s.setHeld kind n (b :: x.held)).bind fun _ => visResult c 0)

/-- `vfe.release`. -/
def execVfeRelease (dt id : Nat) (s : State) : Host.Outcome State Fault Refusal :=
  .next ((s.elapse dt).runEngine id 0x52 fun c => Eff.get.bind fun s =>
    let kind := bits (c.word 1) 2 0
    let n := bits (c.word 1) 12 8
    let x := s.visSource kind n
    match x.items.find? fun i => i.2 == bits (c.word 2) 31 0 with
    | some (b, _) =>
      if x.held.contains b then
        (Eff.modify fun s => s.setHeld kind n (x.held.filter fun y => y != b)).bind fun _ => visResult c 0
      else visResult c 3
    | none => visResult c 3)

/-- The operands of `vfe.roi_resize`: source size, channels, type, mode, output size. -/
structure RoiOp where
  src : Nat
  w : Nat
  h : Nat
  c : Nat
  dtype : Nat
  mode : Nat
  ow : Nat
  oh : Nat
  fill : Nat
  deriving DecidableEq, Repr

def roiOp (w : Nat → Nat) : RoiOp :=
  ⟨bits (w 1) 47 0, bits (w 2) 15 0, bits (w 2) 31 16, bits (w 2) 37 32, bits (w 2) 41 40, bits (w 2) 43 42, bits (w 3) 15 0,
   bits (w 3) 31 16, bits (w 3) 63 32⟩

/-- A sample of a type of Table 6.7. -/
def visSample (dt v : Nat) : Int := let b := 8 * visBytes dt; if dt % 2 = 1 then signed b v else (v % 2 ^ b : Nat)

/-- A box resampled (R258): the window of SRC that it and its bilinear neighbours cover is read. -/
def roiBox (c : Cmd) (k : Nat) : Eff Unit :=
  let o := roiOp c.word
  let sz := visBytes o.dtype
  (Eff.read c.part (c.addr 4 + 16 * k) 16).bind fun b =>
  let w0 := field b 0 8
  let dest := field b 8 8
  let x := signed 16 w0
  let y := signed 16 (w0 / 2 ^ 16)
  let bw := bits w0 47 32
  let bh := bits w0 63 48
  let total := o.ow * o.oh * o.c * sz
  if dest / 2 ^ 48 ≠ 0 ∨ dest % 64 ≠ 0 then Eff.fail 0x14 0 else
  Eff.get.bind fun s =>
  if (s.bounds c.part dest total true).isSome then Eff.fail 0x18 dest else
  let fill := visSample o.dtype o.fill
  let mode := if o.mode = 2 ∧ (bw < o.ow ∨ bh < o.oh) then 1 else o.mode
  let edge : Int := if mode = 1 then 1 else 0
  let x0 := (max 0 (x - edge)).toNat
  let x1 := (min (o.w : Int) (x + bw + edge)).toNat
  let y0 := (max 0 (y - edge)).toNat
  let y1 := (min (o.h : Int) (y + bh + edge)).toNat
  let none_ := decide (bw = 0 ∨ bh = 0)
  (Eff.map (fun r => Eff.read c.part (o.src + ((y0 + r) * o.w + x0) * o.c * sz) ((x1 - x0) * o.c * sz))
    (List.range (if none_ ∨ x1 ≤ x0 then 0 else y1 - y0))).bind fun rows =>
  let out := (List.range o.c).map fun ch =>
    let a := (rows.map fun r => ((List.range (x1 - x0)).map fun i => visSample o.dtype (field r ((i * o.c + ch) * sz) sz)).toArray).toArray
    let m : Img := ⟨x1 - x0, rows.length, a⟩
    if none_ then Img.make o.ow o.oh fun _ _ => fill
    else m.resize fill mode (x - x0) (y - y0) bw bh o.ow o.oh
  Eff.write c.part dest ((List.range o.oh).flatMap fun (r : Nat) => (List.range o.ow).flatMap fun (q : Nat) =>
    out.flatMap fun m => leBytes sz (unsigned (8 * sz) (m.at_ 0 q r)))

/-- `vfe.roi_resize`. -/
def execVfeRoiResize (dt id : Nat) (s : State) : Host.Outcome State Fault Refusal :=
  .next ((s.elapse dt).runEngine id 0x53 fun c => Eff.each (roiBox c) (List.range (bits (c.word 5) 8 0)))

/-- A ratio of R245 lies within 1/16 to 4. -/
def ratioOk (out_ in_ : Nat) : Bool := decide (in_ ≤ 16 * out_ ∧ out_ ≤ 4 * in_)

/-- What the fetch checks ask of a VISION command. -/
def State.visInfo (s : State) (p op : Nat) (words : List Nat) : Option OpInfo :=
  let w := fun i => words.getD i 0
  match op with
  | 0x50 =>
    let ok := match s.chanEntry (bits (w 1) 4 0) with
      | none => false
      | some c =>
        let x : Crop := ⟨bits (w 2) 15 0, bits (w 2) 31 16, bits (w 2) 47 32, bits (w 2) 63 48⟩
        let (wr, hr) := chanSize c
        match s.streamEntry (field c 2 1) with
        | none => false
        | some e => field c 0x65 1 == p && bit (field c 3 1) 0 && decide (x.x + x.w ≤ strW e ∧ x.y + x.h ≤ strH e ∧
            x.w ≤ (chanCrop c).w ∧ x.h ≤ (chanCrop c).h) && ratioOk wr x.w && ratioOk hr x.h &&
            (field c 0x2C 1 != 2 || decide (wr ≤ x.w ∧ hr ≤ x.h))
    some { masks := [0x1F, mAll], limits := [(2, ok)] }
  | 0x51 | 0x52 =>
    let a := bits (w 3) 47 0
    let ok := match s.visRing (bits (w 1) 2 0) (bits (w 1) 12 8) with
      | some (q, _) => q == p
      | none => false
    some { masks := [0x1F07, mLow, mAddr], limits := [(1, ok), (3, a % 8 == 0)]
           ranges := [(3, a, if a = 0 then 0 else 8, true)] }
  | 0x53 =>
    let o := roiOp w
    let boxes := bits (w 4) 47 0
    let n := bits (w 5) 8 0
    some { slots := [2], masks := [mAddr, 0xF * 2 ^ 40 + 0x3F * 2 ^ 32 + mLow, mAll, mAddr, 0x1FF]
           limits := [(1, o.src % 64 == 0), (2, decide (1 ≤ o.w ∧ o.w ≤ 4096 ∧ 1 ≤ o.h ∧ o.h ≤ 4096 ∧ 1 ≤ o.c ∧ o.c ≤ 32 ∧ o.mode ≤ 2)),
                      (3, decide (1 ≤ o.ow ∧ o.ow ≤ 1024 ∧ 1 ≤ o.oh ∧ o.oh ≤ 1024)), (4, boxes % 16 == 0), (5, decide (n ≤ 256))]
           ranges := [(1, o.src, o.w * o.h * o.c * visBytes o.dtype, false), (4, boxes, 16 * n, false)] }
  | _ => none

end Sys2Proof.Machine
end

