-- ==== Sys2Proof/Machine/Bringup.lean ====
section
/-!
DEFINITION. The BRINGUP step: register loads and tables, placements, known-answer tests, script 0 and the initial lists (R84, R97, R129,
R143, R172, R181, R200, R216, R253, R375, R410, R426, R444, R471, R486, R552, R553, R636, R656, R657, R663).
-/

namespace Sys2Proof.Machine

open Sys2Proof

/-! ### Power and register loads -/

/-- The image configures a domain that BRINGUP powers: 5 vision, 6 acoustic, 7 token, 8 embedding and select. -/
def State.configures (s : State) (d : Nat) : Bool :=
  let engine (k : Nat) : Bool := (List.range 4).any fun p => bit (s.partEngines p) k
  let loads (w : Nat) : Bool := s.loads.any fun e => windowOf (field e 0 8) == w
  match d with
  | 5 => s.sec 6 != [] || engine 3
  | 6 => s.audio != [] || engine 7
  | 7 => s.sec 0xB != [] || engine 6 || loads 0x23
  | _ => engine 4 || engine 5 || loads 0x21 || loads 0x22

/-- Cores of no partition, and those that failed logic BIST, are switched off (R657). -/
def State.trimCores (s : State) : State :=
  (List.range 16).foldl (fun s n =>
    let held := (s.corePart n).isSome
    let s := s.setReg R.TC_STATUS_IN_PART (ofBool held) n
    if held && !bit (s.reg R.BOOT_BIST_FAILED) n then s else s.powerCore n false) s

/-- QUE, EVT, SEQ, PART and VFE at their reset values; the other register loads; the frequency ladder in effect (R663, R672). -/
def State.applyRegs (s : State) : State :=
  let s := (s.resetRegs 0x00F000080000 0x00F0000C0000).resetRegs 0x00F000200000 0x00F000210000
  let s := s.applyLoads 9
  let s := if s.warm then s else (List.range 4).foldl (fun s c => s.setLevel c 0) s
  { s with power.ladder := true }

/-! ### Queues, events, partitions -/

/-- One queue of the QUEUES section set IDLE with nothing in it (R129). -/
def State.initQueue (s : State) (e : List Byte) : State :=
  let q := field e 8 2
  let s := (s.setReg R.QUE_CFG_KIND (field e 0xB 1) q).setReg R.QUE_CFG_PART (field e 0xC 1) q
  let s := (s.setReg R.QUE_CFG_LOG2_SLOTS (field e 0xA 1) q).setReg R.QUE_CFG_PRODUCER (field e 0xD 1) q
  let s := (s.setReg R.QUE_CFG_THREAD (field e 0xF 1) q).setReg R.QUE_CFG_CQ (field e 0x10 2) q
  let s := (s.setReg R.QUE_PRIO_PRIORITY (field e 0xE 1) q).setQState q qIdle
  s.setQueueX q { base := field e 0 8, consumer := field e 0x12 1 }

/-- Every configured queue, and the events as the EVENTS section gives them (R143). -/
def State.initQueues (s : State) : State :=
  let s := (queueEntries (s.sec 3)).foldl (fun s e => s.initQueue e) { s with queues := [], events := [] }
  (eventEntries (s.sec 4)).foldl (fun s e =>
    let w := field e 0 8
    s.setEvent (eventIndex (bits w 13 12) (bits w 11 0) (bit w 14)) (bits w 63 32)) s

/-- A regulator with full buckets (R200). -/
def State.initRegulator (s : State) (i g c depth : Nat) : State :=
  { s with regulators := Sparse.put {} s.regulators i ⟨g, c, 1024 * depth, 1024 * depth, 1024 * depth, s.tick⟩ }

/-- One partition's registers, and its three regulators. -/
def State.initPart (s : State) (e : List Byte) : State :=
  let p := field e 0 1
  let s := (s.setReg R.PART_CFG_CORES (field e 2 2) p).setReg R.PART_CFG_PAIRS (field e 4 1) p
  let s := (s.setReg R.PART_CFG_CRIT (field e 1 1) p).setReg R.PART_CFG_ENABLED 1 p
  let s := (s.setReg R.PART_RD_EFF_G (field e 0x10 4) p).setReg R.PART_WR_EFF_G (field e 0x1C 4) p
  let s := (s.setReg R.PART_LNK_G_G (field e 0x28 4) p).setReg R.PART_DL_DL_TIME (field e 6 2) p
  (List.range 3).foldl (fun s k =>
    let o := 0x10 + 12 * k
    s.initRegulator (3 * p + k) (field e o 4) (field e (o + 4) 4) (field e (o + 8) 2)) s

/-- Partitions, the guarantees of the system, DELIV as it stands (R216), and the pairs' modes (R552, R553). -/
def State.initParts (s : State) : State :=
  let b := s.sec 2
  let s := (partEntries b).foldl (fun s e => s.initPart e) { s with regulators := [], deadlocks := [] }
  let s := (s.initRegulator 12 (field b 4 4) 0 (field b 0xC 2)).initRegulator 13 (field b 8 4) 0 (field b 0xC 2)
  let s := (s.setReg R.PART_SYS_RD_G_G (field b 4 4)).setReg R.PART_SYS_WR_G_G (field b 8 4)
  let sum := field b 4 4 + field b 8 4 + ((partEntries b).map fun e => field e 0x10 4 + field e 0x1C 4).sum
  let s := (s.setReg R.PART_BW_SUM_SUM sum).recomputeBw
  (List.range 8).foldl (fun s p => s.setReg R.SAFE_PAIR_STAT_SPLIT (ofBool (s.reg R.SAFE_PAIR_CFG_MODE p == 1)) p) s

/-! ### Engines and memories -/

/-- PLACE sections copied from IMAGE_HOME (R84): section `i` first. -/
def State.placeAll (s : State) (home : Nat) : Nat → List (List Byte) → State
  | _, [] => s
  | i, e :: l =>
    if entType e ≠ 9 then s.placeAll home (i + 1) l else
    let a := home + entOffset e
    let n := entLength e
    let r := s.readMem a n
    let s := (r.2.writeMem (field (r.2.bytes a 16) 0 8) (r.2.bytes (a + 16) (n - 16))).2
    s.placeAll home (i + 1) l

/-- The descriptor file from the partitions' arrays (R375). -/
def State.initEmb (s : State) : State :=
  (List.range 4).foldl (fun s p =>
    let a := s.embArray p
    let r := s.readMem a.1 (64 * a.2)
    { r.2 with embFile := Sparse.put [] r.2.embFile p (entries 64 (r.2.bytes a.1 (64 * a.2))) }) { s with embFile := [] }

/-- A load of R254 in thousands a second. -/
def thousands (f : Nat × Nat) : Nat := f.1 / (1000 * f.2)

/-- The vision engine begins anew (R263): gamma tables and grids in line memory, windows and loads; it runs. -/
def State.initVision (s : State) : State :=
  let b := s.sec 6
  let s := { s with vis := {} }
  if b = [] then s else
  let s := (List.range (visGammas b)).foldl (fun s g => s.setBytes (visionMem + 0x3FE000 + 0x400 * g) ((visGamma b g).take 514)) s
  let s := (List.range (visGrids b)).foldl (fun s g =>
    let o := visGridAt b g
    s.setBytes (visionMem + field b (o + 8) 4) (slice b (o + 16) (8 * field b o 2 * field b (o + 2) 2))) s
  let s := (visChanList b).foldl (fun s c => s.setCropNow (field c 0 1) (chanCrop c)) s
  let s := (s.setReg R.VFE_STR_LOAD_PXS (thousands (visStreamLoad b))).setReg R.VFE_CH_LOAD_CPS (thousands s.visChanLoad)
  s.setReg R.VFE_STATUS_RUN 1

/-- The known-answer tests: of SAFETY channels (R249), in which `kats` are those whose arithmetic fails, and of the random generator
(R410), whose outcome is `drbg`. -/
def State.knownAnswers (s : State) (kats : List Nat) (drbg : Bool) : State :=
  let s := (visChanList (s.sec 6)).foldl (fun s c =>
    let k := field c 0 1
    if bit (field c 3 1) 1 ∧ (kats.contains k ∨ s.katOk c = false) then
      ((s.incReg R.VFE_CH_KAT_FAIL_COUNT k).attemptFail 0x10).raise 0x6A k 0
    else s) s
  if s.powered 8 ∧ ¬ drbg then s.attemptFail 0x10 else s

/-- GPIO as the SIO entries have it, and script 0, of which `sio` says which op fails (R635, R636). -/
def State.initSio (s : State) (sio : Option (Nat × Bool)) : State :=
  let b := s.ifaces.cfg
  let s := { s with ifaces.gpioDir := field (ifGpio b) 0 4, ifaces.gpioOut := field (ifGpio b) 4 4 }
  if ifScripts b = 0 then s else
  let r := s.runOps sio (scriptOps b 0) 0 []
  if r.2.1.isSome then r.2.2.attemptFail 0x10 else r.2.2

/-! ### Initial lists (R181) -/

/-- One partition's initial list called at depth 1 on INIT_THREAD, with the partition's job grant. -/
def State.callInit (s : State) (e : List Byte) : State :=
  let a := field e 0x38 8
  let n := field e 0x40 4
  if a = 0 ∨ n = 0 then s else
  let p := field e 0 1
  let t := field e 5 1
  let id := s.nextId
  let c : Cmd := { id := id, queue := noQueue, thread := t, part := p, seqno := 0, depth := 0, offset := 0, root := id
                   words := [0x08, a, n], stage := .called, begun := true, start := s.tick }
  let j : Job := { cmd := id, start := s.tick, initial := true }
  let s := { s with cmds := s.cmds ++ [c], nextId := id + 1, jobs := s.jobs ++ [(p, j)] }
  (s.setReg R.PART_JOB_ACTIVE 1 p).setThread t { frames := [⟨id, a, n, 0⟩], boundary := s.tick }

/-- An initial list still runs. -/
def State.initialRuns (s : State) : Bool := s.jobs.any fun x => x.2.initial

/-! ### The step -/

/-- What BRINGUP applies before the known-answer tests. -/
def State.bringupTables (s : State) : State :=
  let s := s.powerAll ([5, 6, 7, 8].filter fun d => s.configures d)
  let s := s.applyRegs.trimCores.initQueues.initParts
  let s := { s with streams := [], slots := [], threads := [], cmds := [], held := [], jobs := [], ifaces.lidarSeq := [] }
  match s.boot.verdict with
  | some v => ((s.placeAll v.home 0 (tableEntries v.table)).initEmb.initVision).acuBringup
  | none => s

/-- Something more of BRINGUP, unless the attempt has failed. -/
def State.onward (s : State) (f : State → State) : State := if s.inStep 9 then f s else s

/-- The tables take effect, threads may pick, and the initial lists begin. -/
def State.beginLists (s : State) : State :=
  let s := { s with applied := true, queuesLost := false, running := true, grants := false }
  (partEntries (s.sec 2)).foldl (fun s e => s.callInit e) s

/-- Every initial list has completed: job grants are given, and ARM begins to wait. -/
def State.endBringup (s : State) : State :=
  let s := { s with grants := true, orbit.armAt := s.tick }
  s.nextStep 0xA

/-- BRINGUP: `kats` are vision channels whose known-answer test fails, `drbg` the outcome of the random generator's, `sio` the op of
script 0 that fails.  The step ends once no initial list runs. -/
def execBringupStep (dt : Nat) (kats : List Nat) (drbg : Bool) (sio : Option (Nat × Bool)) (s : State) :
    Host.Outcome State Fault Refusal :=
  .next ((s.elapse dt).runStep 9 fun s =>
    let s := if s.running then s
      else ((s.bringupTables.onward fun s => s.knownAnswers kats drbg).onward fun s => s.initSio sio).onward State.beginLists
    s.onward fun s => if s.initialRuns then s else s.endBringup)

end Sys2Proof.Machine
end

