-- ==== Sys2Proof/Machine/Vector.lean ====
section
/-!
DEFINITION. The vector unit's opcodes (R289 to R295, Tables 7.4 and 7.7).
-/

namespace Sys2Proof.Machine

open Sys2Proof

/-! ### Fields of Table 7.7 -/

structure VecOp where
  rows : Nat
  cols : Nat
  xt : Nat
  yt : Nat
  dt : Nat
  sub : Nat
  ymode : Nat
  imm0 : Nat
  imm1 : Nat
  deriving DecidableEq, Repr

def vecOp (w4 w5 : Nat) : VecOp :=
  ⟨bits w4 15 0, bits w4 31 16, bits w4 35 32, bits w4 39 36, bits w4 43 40, bits w4 49 44, bits w4 52 50, bits w5 31 0,
   bits w5 63 32⟩

def Cmd.vec (c : Cmd) : VecOp := vecOp (c.word 4) (c.word 5)

/-- A type of vector operands. -/
def vecType (t : Nat) : Bool := decide (t ≤ 9 ∧ t ≠ 2)

/-! ### Rows -/

/-- A row of a matrix operand: element codes. -/
def readRow (p core w t i n : Nat) : Eff (List Nat) :=
  (Eff.read p (opRow core w i) (typeBytes t n)).bind fun b => Eff.pure (unpack t n b)

/-- A vector operand. -/
def readVec (p core w t n : Nat) : Eff (List Nat) :=
  (Eff.read p (opAddr core w) (typeBytes t n)).bind fun b => Eff.pure (unpack t n b)

/-- The residue check of an output row fails, or a transform network's parity does. -/
def residueBad (faults : List TcFault) (core row : Nat) : Bool :=
  faults.any fun f => match f with
    | .residue c r => c == core && r == row
    | _ => false

/-- An output row checked, then written whole (R290). -/
def writeRow (faults : List TcFault) (p core row addr : Nat) (bs : List Byte) : Eff Unit :=
  if residueBad faults core row then
    (Eff.modify fun s => s.incReg R.TC_VEC_RESIDUE_COUNT core).bind fun _ => Eff.tcFail 0x30 0x02 core 0 row row
  else Eff.when row (Eff.write p addr bs)

/-! ### `tc.vop` (R291, Table 7.4) -/

/-- What an operation takes: FP32 class, INT32 class, y, IMM0, IMM1. -/
def vopKind (op : Nat) : Option (Bool × Bool × Bool × Bool × Bool) :=
  if op = 0 ∨ op = 7 ∨ op = 9 ∨ op = 0x0A then some (true, true, false, false, false)
  else if op = 1 ∨ op = 2 ∨ op = 3 ∨ op = 5 ∨ op = 6 then some (true, true, true, false, false)
  else if op = 4 then some (true, false, true, false, true)
  else if op = 8 then some (true, true, false, true, true)
  else if 0x0B ≤ op ∧ op ≤ 0x12 then some (true, false, false, false, false)
  else if op = 0x13 then some (false, true, false, true, false)
  else if op = 0x14 then some (false, true, false, true, true)
  else none

/-- An INT32 value, saturating. -/
def sat32 (x : Int) : Int := clampInt (-(2 ^ 31)) (2 ^ 31 - 1) x

/-- An operation in the FP32 class on codes. -/
def vopF (v : VecOp) (x y : Nat) : Nat :=
  match v.sub with
  | 0x01 => fadd x y
  | 0x02 => fsub x y
  | 0x03 => fmul x y
  | 0x04 => ffma x y v.imm1
  | 0x05 => fmax x y
  | 0x06 => fmin x y
  | 0x07 => fmax x 0
  | 0x08 => fmin (fmax x v.imm0) v.imm1
  | 0x09 => fabs x
  | 0x0A => fneg x
  | 0x0B => fexp x
  | 0x0C => flog x
  | 0x0D => frecip x
  | 0x0E => frsqrt x
  | 0x0F => fsigmoid x
  | 0x10 => ftanh x
  | 0x11 => fgelu x
  | 0x12 => fsilu x
  | _ => x

/-- An operation in the INT32 class.  The absolute value and the negation of −2^31 are not stated. -/
def vopI (v : VecOp) (x y : Int) : Int :=
  let i0 := signed 32 v.imm0
  let i1 := signed 32 v.imm1
  let open_ := fun (z : Int) => if z = 2 ^ 31 then signed 32 (fopen v.sub 0x80000000) else z
  match v.sub with
  | 0x01 => sat32 (x + y)
  | 0x02 => sat32 (x - y)
  | 0x03 => sat32 (x * y)
  | 0x05 => max x y
  | 0x06 => min x y
  | 0x07 => max x 0
  | 0x08 => min (max x i0) i1
  | 0x09 => open_ (x.natAbs : Int)
  | 0x0A => open_ (-x)
  | 0x13 => (x + (if v.imm0 = 0 then 0 else 2 ^ (v.imm0 - 1))) / 2 ^ v.imm0
  | 0x14 =>
    let qs := v.imm1 % 64
    (x * i0 + (if qs = 0 then 0 else 2 ^ (qs - 1))) / 2 ^ qs + signed 16 (v.imm1 / 2 ^ 16)
  | _ => x

/-- The class of an operation: FP32 if any operand or result type is floating. -/
def VecOp.fp (v : VecOp) (useY : Bool) : Bool := isFloat v.xt || isFloat v.dt || (useY && isFloat v.yt)

/-- One element of `tc.vop`: its code in DTYPE.  `y` is a code in YTYPE, or IMM0. -/
def VecOp.elem (v : VecOp) (x y : Nat) : Nat :=
  let useY := decide (2 ≤ v.ymode)
  if v.fp useY then
    if v.sub = 0 then ofFl v.dt (toFl v.xt x)
    else ofFp v.dt (vopF v (toFp v.xt x) (if useY then toFp v.yt y else v.imm0))
  else ofI v.dt (vopI v (toI v.xt x) (if useY then toI v.yt y else signed 32 v.imm0))

/-- `tc.vop` on one core. -/
def vopCore (c : Cmd) (faults : List TcFault) (core : Nat) : Eff Unit :=
  let v := c.vec
  let p := c.part
  if v.rows = 0 ∨ v.cols = 0 then Eff.pure () else
  (Eff.when 0 (if v.ymode = 3 then readVec p core (c.word 2) v.yt v.cols
    else if v.ymode = 4 then readVec p core (c.word 2) v.yt v.rows else Eff.pure [])).bind fun yv =>
  Eff.each (fun i =>
    (Eff.when i (readRow p core (c.word 1) v.xt i v.cols)).bind fun x =>
    (Eff.when i (if v.ymode = 2 then readRow p core (c.word 2) v.yt i v.cols
      else if v.ymode = 3 then Eff.pure yv
      else Eff.pure (List.replicate v.cols (yv.getD i 0)))).bind fun y =>
    writeRow faults p core i (opRow core (c.word 3) i) (pack v.dt ((x.zip y).map fun e => v.elem e.1 e.2)))
    (List.range v.rows)

/-- `tc.vop`. -/
def execTcVop (dt id : Nat) (faults : List TcFault) (s : State) : Host.Outcome State Fault Refusal :=
  .next ((s.elapse dt).runTensor id 0x24 fun c core => vopCore c faults core)

/-! ### Reductions (R292) -/

/-- The next 256 elements taken by the lanes. -/
def lanesStep {α : Type} (f : α → α → α) : List α → List α → List α
  | a :: as, b :: bs => f a b :: lanesStep f as bs
  | as, _ => as

/-- Every lane's elements in increasing order: lane l takes l, l + 256, …; a lane without an element takes no part. -/
def lanes {α : Type} (f : α → α → α) : Nat → List α → List α → List α
  | 0, acc, _ => acc
  | n + 1, acc, l => if l.isEmpty then acc else lanes f n (lanesStep f acc (l.take 256)) (l.drop 256)

/-- One level of the tree: lanes 2i and 2i + 1. -/
def pairUp {α : Type} (f : α → α → α) : List α → List α
  | a :: b :: l => f a b :: pairUp f l
  | l => l

/-- A row reduced: 256 lanes, then eight levels. -/
def reduce {α : Type} (f : α → α → α) (zero : α) (l : List α) : α :=
  ((List.range 8).foldl (fun l _ => pairUp f l) (lanes f l.length (l.take 256) (l.drop 256))).headD zero

/-- One row of `tc.vreduce`: its code in DTYPE. -/
def VecOp.reduceRow (v : VecOp) (row : List Nat) : Nat :=
  if v.fp false then
    let x := row.map (toFp v.xt)
    ofFp v.dt (match v.sub with
      | 0 => reduce fadd 0 x
      | 1 => reduce fmax 0 x
      | 2 => reduce fmin 0 x
      | 3 => reduce fadd 0 (x.map fun a => fmul a a)
      | _ => reduce fadd 0 (x.map fabs))
  else
    let x := row.map (toI v.xt)
    ofI v.dt (match v.sub with
      | 0 => reduce (fun a b => sat32 (a + b)) 0 x
      | 1 => reduce max 0 x
      | _ => reduce min 0 x)

/-- A command that turns each row of X into a row of D. -/
def rowsCore (c : Cmd) (faults : List TcFault) (core : Nat) (f : Nat → List Nat → Eff (List Nat)) : Eff Unit :=
  let v := c.vec
  if v.rows = 0 ∨ v.cols = 0 then Eff.pure () else
  Eff.each (fun i =>
    (Eff.when i (readRow c.part core (c.word 1) v.xt i v.cols)).bind fun x =>
    (Eff.when i (f i x)).bind fun d =>
    writeRow faults c.part core i (opRow core (c.word 3) i) (pack v.dt d)) (List.range v.rows)

/-- One core's part of `tc.vreduce`. -/
def reduceCore (c : Cmd) (faults : List TcFault) (core : Nat) : Eff Unit :=
  rowsCore c faults core fun _ x => Eff.pure [c.vec.reduceRow x]

/-- `tc.vreduce`. -/
def execTcVreduce (dt id : Nat) (faults : List TcFault) (s : State) : Host.Outcome State Fault Refusal :=
  .next ((s.elapse dt).runTensor id 0x25 fun c core => reduceCore c faults core)

/-! ### Softmax and normalisation (R293, R294) -/

def negInf : Nat := 0xFF800000

/-- One row of `tc.softmax`, in FP32: row index, inputs, mask row. -/
def VecOp.softmaxRow (v : VecOp) (i : Nat) (x mask : List Nat) : List Nat :=
  let causal := v.sub.testBit 0
  let y := x.map fun a => fmul a v.imm0
  let y := if causal then (y.zip (List.range y.length)).map fun p =>
      if (i : Int) + signed 32 v.imm1 < p.2 then negInf else p.1 else y
  let y := if v.sub.testBit 1 then (y.zip mask).map fun p => fadd p.1 p.2 else y
  let m := reduce fmax 0 y
  if y.any fun a => (f32 a).isNan then y.map fun _ => fp32.nan
  else if m = negInf then y.map fun _ => 0
  else
    let e := y.map fun a => fexp (fsub a m)
    let r := frecip (reduce fadd 0 e)
    e.map fun a => fmul a r

/-- One core's part of `tc.softmax`. -/
def softmaxCore (c : Cmd) (faults : List TcFault) (core : Nat) : Eff Unit :=
  let v := c.vec
  rowsCore c faults core fun i x =>
    (if v.sub.testBit 1 then readRow c.part core (c.word 2) v.yt i v.cols else Eff.pure []).bind fun mask =>
    Eff.pure ((v.softmaxRow i (x.map (toFp v.xt)) (mask.map (toFp v.yt))).map (ofFp v.dt))

/-- `tc.softmax`. -/
def execTcSoftmax (dt id : Nat) (faults : List TcFault) (s : State) : Host.Outcome State Fault Refusal :=
  .next ((s.elapse dt).runTensor id 0x26 fun c core => softmaxCore c faults core)

/-- One row of `tc.norm`, in FP32. -/
def VecOp.normRow (v : VecOp) (x gamma beta : List Nat) : List Nat :=
  let n := fint v.cols
  if v.sub.testBit 0 then
    let r := frsqrt (fadd (fdiv (reduce fadd 0 (x.map fun a => fmul a a)) n) v.imm0)
    (x.zip gamma).map fun p => fmul (fmul p.1 r) p.2
  else
    let mu := fdiv (reduce fadd 0 x) n
    let x := x.map fun a => fsub a mu
    let r := frsqrt (fadd (fdiv (reduce fadd 0 (x.map fun a => fmul a a)) n) v.imm0)
    (x.zip (gamma.zip beta)).map fun p => fadd (fmul (fmul p.1 r) p.2.1) p.2.2

/-- One core's part of `tc.norm`. -/
def normCore (c : Cmd) (faults : List TcFault) (core : Nat) : Eff Unit :=
  let v := c.vec
  let vec := fun (on : Bool) (w dflt : Nat) =>
    if on && v.rows != 0 then readVec c.part core w 9 v.cols else Eff.pure (List.replicate v.cols dflt)
  (Eff.when 0 (vec (v.sub.testBit 1) (c.word 2) (fint 1))).bind fun gamma =>
  (Eff.when 0 (vec (v.sub.testBit 2 && !v.sub.testBit 0) (c.word 7) 0)).bind fun beta =>
  rowsCore c faults core fun _ x => Eff.pure ((v.normRow (x.map (toFp v.xt)) gamma beta).map (ofFp v.dt))

/-- `tc.norm`. -/
def execTcNorm (dt id : Nat) (faults : List TcFault) (s : State) : Host.Outcome State Fault Refusal :=
  .next ((s.elapse dt).runTensor id 0x27 fun c core => normCore c faults core)

/-! ### `tc.transpose` (R295) -/

/-- Element (i, j) of X. -/
def readElem (p core w t i j : Nat) : Eff Nat :=
  let a := opRow core w i + j * typeBits t / 8
  (Eff.read p a (typeBytes t 1)).bind fun b =>
    Eff.pure (if t = 2 then (leNat b / 16 ^ (j % 2)) % 16 else leNat b)

/-- One core's part of `tc.transpose`: each row of the result is a column of the source. -/
def transposeCore (c : Cmd) (faults : List TcFault) (core : Nat) : Eff Unit :=
  let v := c.vec
  if v.rows = 0 ∨ v.cols = 0 then Eff.pure () else
  Eff.each (fun j =>
    (Eff.when j (Eff.map (fun i => readElem c.part core (c.word 1) v.xt i j) (List.range v.rows))).bind fun l =>
    writeRow faults c.part core j (opRow core (c.word 3) j) (pack v.xt l)) (List.range v.cols)

/-- `tc.transpose`: row j of D holds element j of every row of X. -/
def execTcTranspose (dt id : Nat) (faults : List TcFault) (s : State) : Host.Outcome State Fault Refusal :=
  .next ((s.elapse dt).runTensor id 0x23 fun c core => transposeCore c faults core)

/-! ### What the fetch checks ask (R291 to R297, Table 7.7) -/

/-- Alignment of an operand of a type: its element size, 1 B for INT4. -/
def typeAlign (t : Nat) : Nat := max 1 (typeBits t / 8)

/-- An FP32 value that is finite and greater than zero. -/
def positiveFinite (c : Nat) : Bool := ffinite c && decide (c < 2 ^ 31) && c % 2 ^ 31 != 0

/-- What the fetch checks ask of opcodes 0x23 to 0x27 and 0x2A of partition `p`. -/
def State.vecInfo (s : State) (p op : Nat) (words : List Nat) : Option OpInfo :=
  let w := fun i => words.getD i 0
  let v := vecOp (w 4) (w 5)
  let mask := bits (w 6) 15 0
  let cmask := (6, s.maskOk p mask)
  let live := v.rows != 0 && v.cols != 0
  let span := fun (r pitch len : Nat) => if live then rowSpan r pitch len else 0
  let lenX := typeBytes v.xt v.cols
  let sX := span v.rows (opPitch (w 1)) lenX
  let types := 0xFFF * 2 ^ 32
  let dims := 0xFFFFFFFF
  let xLim := (1, matLimit (w 1) (typeAlign v.xt) lenX)
  let m := fun (b : Bool) (x : Nat) => if b then x else 0
  match op with
  | 0x23 =>
    let lenD := typeBytes v.dt v.rows
    let sD := span v.cols (opPitch (w 3)) lenD
    some { masks := [mOp, 0, mOp, dims + types, 0, 0xFFFF]
           limits := [(4, v.xt == v.dt && decide (v.xt ≤ 9) && v.yt == 0), (4, v.xt != 2 || (v.rows % 2 == 0 && v.cols % 2 == 0)),
             xLim, (3, matLimit (w 3) (typeAlign v.dt) lenD), cmask, (3, !opOverlap (w 1) sX (w 3) sD)]
           ranges := opRanges mask [(1, w 1, sX, false), (3, w 3, sD, true)] }
  | 0x24 =>
    let useY := decide (2 ≤ v.ymode ∧ v.ymode ≤ 4)
    let k := (vopKind v.sub).getD (false, false, false, false, false)
    let (fpOk, intOk, takesY, i0, i1) := k
    let lenD := typeBytes v.dt v.cols
    let sD := span v.rows (opPitch (w 3)) lenD
    let lenY := typeBytes v.yt v.cols
    let sY := if !useY then 0 else if v.ymode = 2 then span v.rows (opPitch (w 2)) lenY
      else if live then typeBytes v.yt (if v.ymode = 3 then v.cols else v.rows) else 0
    let same := fun (a t : Nat) => opOffset a == opOffset (w 3) && opSpace a == opSpace (w 3) && opPitch a == opPitch (w 3) &&
      typeBits t == typeBits v.dt
    some { masks := [mOp, m useY mOp, mOp, dims + types + 0x3F * 2 ^ 44 + 7 * 2 ^ 50,
                     m (i0 || v.ymode == 1) mLow + m i1 (if v.sub = 0x14 then 0xFFFF003F00000000 else mHigh), 0xFFFF]
           limits := [(4, (vopKind v.sub).isSome && vecType v.xt && vecType v.dt && (if useY then vecType v.yt else v.yt == 0)),
             (4, if v.fp useY then fpOk else intOk), (4, if takesY then decide (1 ≤ v.ymode ∧ v.ymode ≤ 4) else v.ymode == 0),
             (5, v.sub != 0x13 || decide (v.imm0 ≤ 31)), xLim,
             (2, !useY || (if v.ymode = 2 then matLimit (w 2) (typeAlign v.yt) lenY else vecLimit (w 2) (typeAlign v.yt))),
             (3, matLimit (w 3) (typeAlign v.dt) lenD), cmask,
             (3, !opOverlap (w 1) sX (w 3) sD || same (w 1) v.xt), (3, !opOverlap (w 2) sY (w 3) sD || same (w 2) v.yt)]
           ranges := opRanges mask [(1, w 1, sX, false), (2, w 2, sY, false), (3, w 3, sD, true)] }
  | 0x25 =>
    let lenD := typeBytes v.dt 1
    let sD := span v.rows (opPitch (w 3)) lenD
    some { masks := [mOp, 0, mOp, dims + types + 0x3F * 2 ^ 44, 0, 0xFFFF]
           limits := [(4, vecType v.xt && vecType v.dt && v.yt == 0 && decide (v.sub ≤ 4)), (4, v.fp false || decide (v.sub ≤ 2)),
             xLim, (3, matLimit (w 3) (typeAlign v.dt) lenD), cmask, (3, !opOverlap (w 1) sX (w 3) sD)]
           ranges := opRanges mask [(1, w 1, sX, false), (3, w 3, sD, true)] }
  | 0x26 =>
    let useY := v.sub.testBit 1
    let lenD := typeBytes v.dt v.cols
    let sD := span v.rows (opPitch (w 3)) lenD
    let lenY := typeBytes v.yt v.cols
    let sY := if useY then span v.rows (opPitch (w 2)) lenY else 0
    some { masks := [mOp, m useY mOp, mOp, dims + types + 3 * 2 ^ 44, mAll, 0xFFFF]
           limits := [(4, isFloat v.xt && isFloat v.dt && (if useY then isFloat v.yt else v.yt == 0)), xLim,
             (2, !useY || matLimit (w 2) (typeAlign v.yt) lenY), (3, matLimit (w 3) (typeAlign v.dt) lenD), cmask,
             (3, !opOverlap (w 1) sX (w 3) sD), (3, !opOverlap (w 2) sY (w 3) sD)]
           ranges := opRanges mask [(1, w 1, sX, false), (2, w 2, sY, false), (3, w 3, sD, true)] }
  | 0x27 =>
    let useG := v.sub.testBit 1
    let useB := v.sub.testBit 2 && !v.sub.testBit 0
    let lenD := typeBytes v.dt v.cols
    let sD := span v.rows (opPitch (w 3)) lenD
    let sG := if useG && live then 4 * v.cols else 0
    let sB := if useB && live then 4 * v.cols else 0
    some { masks := [mOp, m useG mOp, mOp, dims + types + 7 * 2 ^ 44, mLow, 0xFFFF, m useB mOp]
           limits := [(4, isFloat v.xt && isFloat v.dt && v.yt == (if useG then 9 else 0)), (5, positiveFinite v.imm0), xLim,
             (2, !useG || vecLimit (w 2) 4), (3, matLimit (w 3) (typeAlign v.dt) lenD), (7, !useB || vecLimit (w 7) 4), cmask,
             (3, !opOverlap (w 1) sX (w 3) sD), (3, !opOverlap (w 2) sG (w 3) sD), (3, !opOverlap (w 7) sB (w 3) sD)]
           ranges := opRanges mask [(1, w 1, sX, false), (2, w 2, sG, false), (3, w 3, sD, true), (7, w 7, sB, false)] }
  | 0x2A =>
    some { masks := [0, 0, 0, 0x7F001FFFFF, 0, 0xFFFF], limits := [(4, v.rows != 0), cmask] }
  | _ => none

end Sys2Proof.Machine
end

