-- ==== Sys2Proof/Machine/Conv.lean ====
section
/-!
DEFINITION. Convolutions: implicit GEMM, Winograd, space-to-depth, and halo exchange (R307 to R331).
-/

namespace Sys2Proof.Machine

open Sys2Proof

/-! ### Fields of Table 8.2 -/

structure Geo where
  ih : Nat
  iw : Nat
  cin : Nat
  cout : Nat
  kh : Nat
  kw : Nat
  sh : Nat
  sw : Nat
  dh : Nat
  dw : Nat
  pt : Nat
  pb : Nat
  pl : Nat
  pr : Nat
  padv : Nat
  xcs : Nat
  ccs : Nat
  cut : Bool
  ihb : Nat
  ht : Nat
  hb : Nat
  tb : Nat
  mask : Nat
  ctl : MatCtl
  deriving DecidableEq, Repr

def geoOf (words : List Nat) : Geo :=
  let w := fun i => words.getD i 0
  { ih := bits (w 7) 12 0, iw := bits (w 7) 25 13, cin := bits (w 7) 41 26, cout := bits (w 7) 57 42
    kh := bits (w 9) 3 0 + 1, kw := bits (w 9) 7 4 + 1, sh := bits (w 9) 11 8, sw := bits (w 9) 15 12
    dh := bits (w 9) 19 16, dw := bits (w 9) 23 20
    pt := bits (w 9) 28 24, pb := bits (w 9) 33 29, pl := bits (w 9) 38 34, pr := bits (w 9) 43 39
    padv := bits (w 10) 15 0, xcs := bits (w 10) 31 16, ccs := bits (w 10) 47 32
    cut := bit (w 8) 48, ihb := bits (w 11) 12 0, ht := bits (w 11) 18 13, hb := bits (w 11) 24 19, tb := bits (w 11) 37 25
    mask := bits (w 8) 47 32, ctl := matCtl (w 8) }

/-- Element bytes of the activations and of the output. -/
def Geo.ea (g : Geo) : Nat := typeBits g.ctl.at_ / 8
def Geo.eo (g : Geo) : Nat := typeBits g.ctl.ot / 8

/-- A zero dimension makes the command a no-op (R310). -/
def Geo.live (g : Geo) : Bool := g.ih != 0 && g.iw != 0 && g.cin != 0 && g.cout != 0

/-- Numerators of OH and OW, below zero where the kernel does not fit (R310). -/
def Geo.numH (g : Geo) : Int := (g.ih + g.pt + g.pb : Nat) - ((g.dh * (g.kh - 1) + 1 : Nat) : Int)
def Geo.numW (g : Geo) : Int := (g.iw + g.pl + g.pr : Nat) - ((g.dw * (g.kw - 1) + 1 : Nat) : Int)
def Geo.oh (g : Geo) : Nat := g.numH.toNat / g.sh + 1
def Geo.ow (g : Geo) : Nat := g.numW.toNat / g.sw + 1

/-- Rank of a core among those selected (R323). -/
def rankOf (mask core : Nat) : Nat := ((maskCores mask).filter fun n => decide (n < core)).length

/-- First global output row of a core, and how many it computes. -/
def Geo.band (g : Geo) (core : Nat) : Nat × Nat :=
  if g.cut then
    let ohb := g.ihb / g.sh
    let r := rankOf g.mask core
    (r * ohb, min ((r + 1) * ohb) g.oh - r * ohb)
  else (0, g.oh)

/-- Address of global input row `y` in a core: rows are counted from the first that it owns. -/
def Geo.rowAddr (g : Geo) (core w : Nat) (y : Int) : Nat :=
  let y0 : Int := if g.cut then rankOf g.mask core * g.ihb else 0
  ((opAddr core w : Int) + (y - y0) * opPitch w).toNat

/-- Elements `lo` to `lo + n - 1` of input pixel (y, x), or PADV outside the image. -/
def Geo.pixel (g : Geo) (p core w : Nat) (y x : Int) (lo n : Nat) : Eff (List Nat) :=
  if 0 ≤ y ∧ y < g.ih ∧ 0 ≤ x ∧ x < g.iw then
    (Eff.read p (g.rowAddr core w y + x.toNat * g.xcs + lo * g.ea) (n * g.ea)).bind fun b => Eff.pure (unpack g.ctl.at_ n b)
  else Eff.pure (List.replicate n g.padv)

/-- Address of output pixel (oy, ox) of a core, oy counted within its output. -/
def Geo.outAddr (g : Geo) (core w oy ox : Nat) : Nat := opRow core w oy + ox * g.ccs

/-! ### `tc.conv` (R311 to R313) -/

/-- Activations `k` to `k + n - 1` of row `m`, tap by tap. -/
def Geo.feed (g : Geo) (p core w m k n : Nat) : Eff (List Nat) :=
  let oy := (g.band core).1 + m / g.ow
  let ox := m % g.ow
  let taps := (List.range ((k + n - 1) / g.cin + 1 - k / g.cin)).map fun i => k / g.cin + i
  (Eff.map (fun tap =>
    let lo := max k (tap * g.cin) - tap * g.cin
    let hi := min (k + n) ((tap + 1) * g.cin) - tap * g.cin
    let y : Int := ((oy * g.sh + tap / g.kw * g.dh : Nat) : Int) - g.pt
    let x : Int := ((ox * g.sw + tap % g.kw * g.dw : Nat) : Int) - g.pl
    g.pixel p core w y x lo (hi - lo)) taps).bind fun l => Eff.pure l.flatten

/-- The product of a `tc.conv` on a core. -/
def convJob (c : Cmd) (faults : List TcFault) (core : Nat) : MatJob :=
  let g := geoOf c.words
  { core := core, part := c.part, m := if g.live then (g.band core).2 * g.ow else 0, k := g.kh * g.kw * g.cin, n := g.cout
    ctl := g.ctl, wOp := c.word 2, bias := c.word 4, qparam := c.word 5, acc := c.word 6
    readA := g.feed c.part core (c.word 1)
    rowC := fun m => g.outAddr core (c.word 3) (m / g.ow) (m % g.ow)
    faults := faults }

/-- `tc.conv`. -/
def execTcConv (dt id : Nat) (faults : List TcFault) (s : State) : Host.Outcome State Fault Refusal :=
  .next ((s.elapse dt).runTensor id 0x30 fun c core => (convJob c faults core).run)

/-! ### Winograd (R314 to R320) -/

/-- A mode of Table 8.3: F2-INT 0, F2-FP8 1, F4-16 2. -/
def winoMode (at_ wt : Nat) : Option Nat :=
  if at_ ≤ 1 ∧ wt = 0 then some 0
  else if (at_ = 5 ∨ at_ = 6) ∧ (wt = 5 ∨ wt = 6) then some 1
  else if (at_ = 7 ∨ at_ = 8) ∧ wt = at_ then some 2
  else none

/-- Output tile t, transformed tile T, stored size e. -/
def winoTile (mode : Nat) : Nat × Nat × Nat := if mode = 2 then (4, 6, 4) else (2, 4, 2)

/-- The transformed format of a floating mode. -/
def winoFmt (mode : Nat) : FloatFmt := if mode = 1 then w13 else wf24

/-- Matrices of R315 as numerators over 24: Bᵀ, G and Aᵀ. -/
def winoB (mode : Nat) : List (List Int) :=
  if mode = 2 then
    [[4, 0, -5, 0, 1, 0], [0, -4, -4, 1, 1, 0], [0, 4, -4, -1, 1, 0], [0, -2, -1, 2, 1, 0], [0, 2, -1, -2, 1, 0],
     [0, 4, 0, -5, 0, 1]]
  else [[1, 0, -1, 0], [0, 1, 1, 0], [0, -1, 1, 0], [0, 1, 0, -1]]

def winoG (mode : Nat) : List (List Int) :=
  if mode = 2 then [[6, 0, 0], [-4, -4, -4], [-4, 4, -4], [1, 2, 4], [1, -2, 4], [0, 0, 24]]
  else [[24, 0, 0], [12, 12, 12], [12, -12, 12], [0, 0, 24]]

def winoA (mode : Nat) : List (List Int) :=
  if mode = 2 then [[1, 1, 1, 1, 1, 0], [0, 1, -1, 2, -2, 0], [0, 1, 1, 4, 4, 0], [0, 1, -1, 8, -8, 1]]
  else [[1, 1, 1, 0], [0, 1, -1, -1]]

/-- G′ = 2G of F2-INT. -/
def winoGInt : List (List Int) := [[2, 0, 0], [1, 1, 1], [1, -1, 1], [0, 0, 2]]

/-- A matrix applied to a vector of integers. -/
def applyI (m : List (List Int)) (x : List Int) : List Int := m.map fun r => ((r.zip x).map fun p => p.1 * p.2).sum

/-- A term of a transform: the coefficient n ÷ d times an FP32 value.  Where the coefficient is no sum of powers of two the
spec does not say how the product is rounded. -/
def winoTerm (d : Nat) (n : Int) (x : Nat) : Fl :=
  if d = 1 ∨ n % 3 = 0 then ((Fl.ofInt n).mul (f32 x)).div (.ofInt d)
  else
    let v := ((Fl.ofInt n).mul (f32 x)).div (.ofInt d)
    f32 (fnear (0x132 + n.natAbs) x v (2 * v.ulps))

/-- A matrix of coefficients over `d` applied to a vector in FP32, adding the terms in increasing index with a rounding each. -/
def applyF (d : Nat) (m : List (List Int)) (x : List Nat) : List Nat :=
  m.map fun r => ((r.zip x).filter fun p => p.1 != 0).foldl (fun acc p => toF32 ((f32 acc).add (winoTerm d p.1 p.2))) 0

/-- Columns of a list of rows of `n` elements. -/
def transposeRows {α : Type} (n : Nat) (rows : List (List α)) : List (List α) :=
  rows.foldr (fun r cs => (r.zip cs).map fun p => p.1 :: p.2) (List.replicate n [])

/-- A transform of a tile of integers: every row, then every column. -/
def tileI (m : List (List Int)) (tile : List (List Int)) : List (List Int) :=
  let a := tile.map (applyI m)
  let b := (transposeRows m.length a).map (applyI m)
  transposeRows m.length b

/-- The same in FP32, the coefficients over `d`. -/
def tileF (d : Nat) (m : List (List Int)) (tile : List (List Nat)) : List (List Nat) :=
  let a := tile.map (applyF d m)
  let b := (transposeRows m.length a).map (applyF d m)
  transposeRows m.length b

/-- A transformed value as stored: INT12 sign-extended, W13, WF24. -/
def winoStore (mode : Nat) (c : Nat) : Nat :=
  if mode = 1 then w13.round false (f32 c) else wf24.round false (f32 c) * 256

/-- A stored floating transformed value as FP32. -/
def winoLoad (mode raw : Nat) : Nat := if mode = 1 then toF32 (w13.decode raw) else raw

/-- Whether a stored value has only bits of its format. -/
def winoOk (mode raw : Nat) : Bool :=
  if mode = 0 then decide (-2048 ≤ signed 16 raw ∧ signed 16 raw ≤ 2047)
  else if mode = 1 then raw / 2 ^ 13 == 0 else raw % 256 == 0

/-- The transformed input of one channel of one tile, at its T² positions: stored values. -/
def winoInput (mode at_ : Nat) (tile : List (List Nat)) : List Nat :=
  if mode = 0 then ((tileI (winoB 0) (tile.map fun r => r.map (toI at_))).flatten).map (unsigned 16)
  else ((tileF 1 (winoB mode) (tile.map fun r => r.map (toFp at_))).flatten).map (winoStore mode)

/-- The transformed kernel of one channel pair (R317). -/
def winoKernel (mode wt : Nat) (g : List (List Nat)) : List Nat :=
  if mode = 0 then ((tileI winoGInt (g.map fun r => r.map (toI wt))).flatten).map (unsigned 16)
  else ((tileF 24 (winoG mode) (g.map fun r => r.map (toFp wt))).flatten).map (winoStore mode)

/-- The output tile of one column from M at its positions: INT32 codes, or FP32 codes. -/
def winoOutput (mode : Nat) (m : List Nat) : List (List Nat) :=
  let (_, t, _) := winoTile mode
  let rows := (List.range t).map fun i => (m.drop (t * i)).take t
  if mode = 0 then (tileI (winoA 0) (rows.map fun r => r.map (signed 32))).map fun r => r.map fun x => unsigned 32 (x / 4)
  else tileF 1 (winoA mode) rows

/-- One output of a pass in the transformed domain. -/
def winoDot (mode : Nat) (row col : List Nat) (x : Nat) : Nat :=
  if mode = 0 then unsigned 32 (signed 32 x + ((row.zip col).map fun p => signed 16 p.1 * signed 16 p.2).sum)
  else (row.zip col).foldl (fun acc p => fadd acc (fmul (winoLoad mode p.1) (winoLoad mode p.2))) x

/-- One row of a pass: outputs and verdict. -/
def winoRow (s : State) (j : MatJob) (mode pass tile : Nat) (a : List Nat) (rows cols : List (List Nat)) (inc : List Nat) :
    List Nat × RowVerdict :=
  let out := drained j.faults j.core pass tile ((cols.zip inc).map fun p => winoDot mode a p.1 p.2)
  let v :=
    if mode = 0 then checkI inc out (a.map (signed 16)) (rows.map fun r => (r.map (signed 16)).sum)
    else checkF (s.reg R.TC_CHK_TOL_FAC j.core j.ctl.tol) (s.reg R.TC_CHK_ABS_ABS j.core j.ctl.tol % 2 ^ 31) inc out
      (a.map (winoLoad mode)) (rows.map fun r => fsum (r.map (winoLoad mode)))
  (out, { v with pass := (stuck j.faults j.core).getD v.pass })

/-- Rows K-tile by K-tile of a list: 128 each. -/
def ktile (i : Nat) (l : List Nat) : List Nat := (l.drop (128 * i)).take 128

/-- The known-answer test of a core (R320), and parity failures. -/
def winoKat (faults : List TcFault) (core : Nat) : Eff Unit := fun s =>
  let s := s.incReg R.TC_KAT_RUNS_COUNT core
  if faults.any fun f => f == .kat core then
    Eff.tcFail 0x30 0x02 core 0 0 0 ((s.incReg R.TC_XFORM_KAT_FAIL core).incReg R.TC_VEC_RESIDUE_COUNT core)
  else (.ok (), s)

def parityCheck (faults : List TcFault) (core place at_ : Nat) : Eff Unit := fun s =>
  if faults.any fun f => f == .parity core place then
    Eff.tcFail 0x30 0x02 core 0 place at_ ((s.incReg R.TC_XFORM_PARITY core).incReg R.TC_VEC_RESIDUE_COUNT core)
  else (.ok (), s)

/-- M of a block for one N-tile: by position, by tile, the columns' sums; and by position which columns of U are finite.  `v`
gives V by tile and position over channels. -/
def winoProduct (j : MatJob) (mode t2 block t : Nat) (tiles : List Nat) (v : List (List (List Nat))) :
    Eff (List (List (List Nat) × List Bool)) :=
  let nt := ceilDiv j.n 128
  let kt := ceilDiv j.k 128
  let n0 := 128 * t
  let nn := min 128 (j.n - n0)
  let e := if mode = 2 then 4 else 2
  Eff.map (fun xi =>
    (List.range kt).foldl (fun (m : Eff (List (List Nat) × List Bool)) i =>
      m.bind fun sums =>
      let pass := ((block * nt + t) * t2 + xi) * kt + i
      let key := pass * 2 ^ 22
      let kn := min 128 (j.k - 128 * i)
      (Eff.when key (Eff.map (fun k =>
        (Eff.read j.part (opRow j.core j.wOp (xi * j.k + 128 * i + k) + n0 * e) (nn * e)).bind fun b =>
        let row := chunkBytes e nn b
        if row.all (winoOk mode) then Eff.pure row else Eff.fail 0x14 0) (List.range kn))).bind fun rows =>
      let cells := (rows.zip (List.range kn)).map fun r => cellRow j.faults j.core pass r.2 r.1
      let cols := columns nn cells
      let fin := ((columns nn rows).zip sums.2).map fun p => p.2 && (mode == 0 || p.1.all fun u => ffinite (winoLoad mode u))
      (Eff.map (fun x =>
        let (tile, vt, inc) := (x : Nat × List (List Nat) × List Nat)
        Eff.get.bind fun s =>
        let r := winoRow s j mode pass tile (ktile i (vt.getD xi [])) rows cols inc
        (j.check pass tile (key + 1 + tile) r.2).bind fun _ => Eff.pure r.1) (tiles.zip (v.zip sums.1))).bind fun m =>
      Eff.pure (m, fin))
      (Eff.pure (tiles.map fun _ => List.replicate nn 0, List.replicate nn true))) (List.range t2)

/-- Whether the transformed inputs of a tile are finite, as its inputs must then be (R318). -/
def winoFinite (mode : Nat) (v : List (List Nat)) : Bool := mode == 0 || v.all fun l => l.all fun x => ffinite (winoLoad mode x)

/-- One block of `tc.wconv` on a core (R319). -/
def winoBlock (c : Cmd) (g : Geo) (j : MatJob) (mode block : Nat) (tiles : List Nat) : Eff Unit :=
  let core := j.core
  let (t, tt, _) := winoTile mode
  let (oy0, ohl) := g.band core
  let across := ceilDiv g.ow t
  let at_ := block * ceilDiv g.cout 128 * tt * tt * ceilDiv g.cin 128 * 2 ^ 22
  (Eff.when at_ (Eff.map (fun n =>
    let y0 : Int := ((oy0 + n / across * t : Nat) : Int) - g.pt
    let x0 : Int := ((n % across * t : Nat) : Int) - g.pl
    (Eff.map (fun (r : Nat) => Eff.map (fun (q : Nat) => g.pixel c.part core (c.word 1) (y0 + r) (x0 + q) 0 g.cin)
      (List.range tt))
      (List.range tt)).bind fun d =>
    let chans := (List.range g.cin).map fun ch => winoInput mode g.ctl.at_ (d.map fun r => r.map fun px => px.getD ch 0)
    Eff.pure (transposeRows (tt * tt) chans)) tiles)).bind fun v =>
  (parityCheck j.faults core block at_).bind fun _ =>
  Eff.each (fun nt =>
    let n0 := 128 * nt
    let nn := min 128 (g.cout - n0)
    (Eff.when at_ (j.tileParams n0 nn)).bind fun q =>
    (winoProduct j mode (tt * tt) block nt tiles v).bind fun m =>
    Eff.each (fun x =>
      let (k, tile, vt) := (x : Nat × Nat × List (List Nat))
      let ms := m.map fun byTile => byTile.1.getD k []
      let finite := winoFinite mode vt
      let ys := (List.range nn).map fun n =>
        let col := ms.map fun l => l.getD n 0
        let y := winoOutput mode col
        if finite && m.all fun byTile => byTile.2.getD n true then y else y.map fun r => r.map fun _ => fp32.nan
      Eff.each (fun i =>
        let oy := tile / across * t + i
        Eff.each (fun l =>
          let ox := tile % across * t + l
          if ohl ≤ oy ∨ g.ow ≤ ox then Eff.pure () else
          let a := g.outAddr core (c.word 3) oy ox + n0 * g.eo
          (Eff.when at_ (if g.ctl.accIn = 2 then (Eff.read c.part a (4 * nn)).bind fun b => Eff.pure (chunkBytes 4 nn b)
            else if g.ctl.accIn = 1 then Eff.pure q.1 else Eff.pure (List.replicate nn 0))).bind fun inc =>
          let out := ((ys.zip inc).zip (if g.ctl.quant then q.2 else List.replicate nn 0)).map fun p =>
            let y := (p.1.1.getD i []).getD l 0
            let acc := if mode = 0 then unsigned 32 (signed 32 y + signed 32 p.1.2) else fadd y p.1.2
            j.output acc p.2
          Eff.when at_ (Eff.write c.part a (pack g.ctl.ot out))) (List.range t)) (List.range t))
      ((List.range tiles.length).zip (tiles.zip v))) (List.range (ceilDiv g.cout 128))

/-- Bytes that WS must hold (R319). -/
def Geo.wsBytes (g : Geo) (mode : Nat) : Nat := let (_, tt, e) := winoTile mode; g.tb * tt * tt * (g.cin * e + 512)

/-- `tc.wconv` on a core. -/
def wconvCore (c : Cmd) (faults : List TcFault) (core : Nat) : Eff Unit :=
  let g := geoOf c.words
  let mode := (winoMode g.ctl.at_ g.ctl.wt).getD 0
  let (t, _, _) := winoTile mode
  let n := ceilDiv (g.band core).2 t * ceilDiv g.ow t
  if ¬ g.live then Eff.pure () else
  let j : MatJob := { convJob c faults core with k := g.cin }
  (winoKat faults core).bind fun _ =>
  (Eff.scramble (opAddr core (c.word 6)) (g.wsBytes mode)).bind fun _ =>
  Eff.each (fun b => winoBlock c g j mode b ((List.range (min g.tb (n - b * g.tb))).map fun i => b * g.tb + i))
    (List.range (ceilDiv n g.tb))

/-- `tc.wconv`. -/
def execTcWconv (dt id : Nat) (faults : List TcFault) (s : State) : Host.Outcome State Fault Refusal :=
  .next ((s.elapse dt).runTensor id 0x31 fun c core => wconvCore c faults core)

/-- Mode that a WTYPE selects for `tc.wxform` (R321). -/
def xformMode (wt : Nat) : Option Nat :=
  if wt = 0 then some 0 else if wt = 5 ∨ wt = 6 then some 1 else if wt = 7 ∨ wt = 8 then some 2 else none

/-- One core's part of `tc.wxform`. -/
def wxformCore (c : Cmd) (faults : List TcFault) (core : Nat) : Eff Unit :=
  let cin := bits (c.word 4) 15 0
  let cout := bits (c.word 4) 31 16
  let wt := bits (c.word 4) 35 32
  let mode := (xformMode wt).getD 0
  let (_, tt, e) := winoTile mode
  if cin = 0 ∨ cout = 0 then Eff.pure () else
  (winoKat faults core).bind fun _ =>
  (Eff.map (fun ch =>
    (Eff.map (fun tap => readRow c.part core (c.word 1) wt (tap * cin + ch) cout) (List.range 9)).bind fun g =>
    Eff.pure ((List.range cout).map fun n =>
      winoKernel mode wt ((List.range 3).map fun r => (List.range 3).map fun q => (g.getD (3 * r + q) []).getD n 0)))
    (List.range cin)).bind fun u =>
  Eff.each (fun row =>
    let xi := row / cin
    let vals := (u.getD (row % cin) []).map fun k => k.getD xi 0
    (parityCheck faults core row row).bind fun _ =>
    writeRow faults c.part core row (opRow core (c.word 3) row) (vals.flatMap (leBytes e)))
    (List.range (tt * tt * cin))

/-- `tc.wxform`: channel by channel, U at every position. -/
def execTcWxform (dt id : Nat) (faults : List TcFault) (s : State) : Host.Outcome State Fault Refusal :=
  .next ((s.elapse dt).runTensor id 0x32 fun c core => wxformCore c faults core)

/-! ### Space-to-depth and depth-to-space (R322) -/

structure Fold where
  h : Nat
  w : Nat
  c : Nat
  b : Nat
  type : Nat
  padv : Nat
  xcs : Nat
  dcs : Nat
  deriving DecidableEq, Repr

def foldOf (w4 w5 : Nat) : Fold :=
  ⟨bits w4 12 0, bits w4 25 13, bits w4 41 26, 2 ^ bits w4 43 42, bits w4 47 44, bits w5 15 0, bits w5 31 16, bits w5 47 32⟩

def Fold.e (f : Fold) : Nat := typeBits f.type / 8
def Fold.live (f : Fold) : Bool := f.h != 0 && f.w != 0 && f.c != 0

/-- Size of D: rows, columns, channels. -/
def Fold.out (f : Fold) (s2d : Bool) : Nat × Nat × Nat :=
  if s2d then (ceilDiv f.h f.b, ceilDiv f.w f.b, f.b * f.b * f.c) else (f.h * f.b, f.w * f.b, f.c / (f.b * f.b))

/-- Bytes of one pixel of D. -/
def Fold.pixel (f : Fold) (s2d : Bool) (p core x y xx : Nat) : Eff (List Byte) :=
  let at_ := fun (r q : Nat) => opRow core x r + q * f.xcs
  if s2d then
    (Eff.map (fun k =>
      let r := f.b * y + k / f.b
      let q := f.b * xx + k % f.b
      if r < f.h ∧ q < f.w then Eff.read p (at_ r q) (f.c * f.e)
      else Eff.pure ((List.replicate f.c (leBytes f.e f.padv)).flatten)) (List.range (f.b * f.b))).bind fun l =>
    Eff.pure l.flatten
  else
    let n := f.c / (f.b * f.b)
    Eff.read p (at_ (y / f.b) (xx / f.b) + (y % f.b * f.b + xx % f.b) * n * f.e) (n * f.e)

/-- `tc.s2d` or `tc.d2s` on a core, row of D by row of D. -/
def foldCore (s2d : Bool) (c : Cmd) (faults : List TcFault) (core : Nat) : Eff Unit :=
  let f := foldOf (c.word 4) (c.word 5)
  let (dh, dw, _) := f.out s2d
  if ¬ f.live then Eff.pure () else
  Eff.each (fun y =>
    (Eff.when y (Eff.map (fun x => f.pixel s2d c.part core (c.word 1) y x) (List.range dw))).bind fun row =>
    if residueBad faults core y then writeRow faults c.part core y 0 []
    else Eff.when y (Eff.each (fun x => Eff.write c.part (opRow core (c.word 3) y + x.1 * f.dcs) x.2)
      ((List.range dw).zip row))) (List.range dh)

/-- `tc.s2d`. -/
def execTcS2d (dt id : Nat) (faults : List TcFault) (s : State) : Host.Outcome State Fault Refusal :=
  .next ((s.elapse dt).runTensor id 0x33 fun c core => foldCore true c faults core)

/-- `tc.d2s`. -/
def execTcD2s (dt id : Nat) (faults : List TcFault) (s : State) : Host.Outcome State Fault Refusal :=
  .next ((s.elapse dt).runTensor id 0x34 fun c core => foldCore false c faults core)

/-! ### `tc.halo` (R325) -/

structure Halo where
  ih : Nat
  ihb : Nat
  ht : Nat
  hb : Nat
  rb : Nat
  mask : Nat
  deriving DecidableEq, Repr

def haloOf (w4 w5 w6 : Nat) : Halo :=
  ⟨bits w4 12 0, bits w4 25 13, bits w4 31 26, bits w4 37 32, bits w5 23 0, bits w6 15 0⟩

def Halo.live (h : Halo) : Bool := h.ih != 0 && h.ihb != 0 && h.rb != 0

/-- Global rows `a` to `b - 1`. -/
def rowsFrom (a b : Nat) : List Nat := (List.range (b - a)).map fun i => a + i

/-- Rows that the core of rank `r` receives from above and from below. -/
def Halo.above (h : Halo) (r : Nat) : List Nat := if r = 0 then [] else rowsFrom (r * h.ihb - h.ht) (r * h.ihb)
def Halo.below (h : Halo) (r n : Nat) : List Nat :=
  if r + 1 < n then rowsFrom ((r + 1) * h.ihb) (min ((r + 1) * h.ihb + h.hb) h.ih) else []

/-- Address of global row `g` in the core of rank `r`. -/
def Halo.row (h : Halo) (core w r g : Nat) : Nat := ((opAddr core w : Int) + ((g : Int) - (r * h.ihb : Nat)) * opPitch w).toNat

/-- One core's part of `tc.halo`: the rows above its own, and then the rows below. -/
def haloCore (c : Cmd) (core : Nat) : Eff Unit :=
  let h := haloOf (c.word 4) (c.word 5) (c.word 6)
  let cores := maskCores h.mask
  let r := rankOf h.mask core
  let take := fun (from_ : Nat) (g : Nat) =>
    (Eff.read c.part (h.row (cores.getD from_ 0) (c.word 1) from_ g) h.rb).bind fun b =>
    (Eff.write c.part (h.row core (c.word 1) r g) b).bind fun _ =>
    Eff.modify fun s => s.incReg R.TC_HALO_BYTES_BYTES core 0 h.rb
  if ¬ h.live then Eff.pure () else
  (Eff.each (take (r - 1)) (h.above r)).bind fun _ => Eff.each (take (r + 1)) (h.below r cores.length)

/-- `tc.halo`: every core takes its rows from its neighbours. -/
def execTcHalo (dt id : Nat) (s : State) : Host.Outcome State Fault Refusal :=
  .next ((s.elapse dt).runTensor id 0x35 haloCore)

/-! ### What the fetch checks ask -/

/-- A feature map's limits (R308): its operand word, pixel stride, alignment, pixel bytes and width. -/
def mapLimit (w cs align px width : Nat) : Bool :=
  decide (opOffset w % align = 0 ∧ opPitch w % align = 0 ∧ opPitch w ≤ 8388608 ∧ cs % align = 0 ∧ px ≤ cs ∧
    width * cs ≤ opPitch w)

/-- Bytes from the first to the last of a map of `h` rows. -/
def mapSpan (w cs px h width : Nat) : Nat := if h = 0 ∨ width = 0 ∨ px = 0 then 0 else (h - 1) * opPitch w + (width - 1) * cs + px

/-- First and last + 1 of the global input rows that a core reads. -/
def Geo.inRows (g : Geo) (core : Nat) : Nat × Nat :=
  if g.cut then
    let (y0, n) := g.band core
    if n = 0 then (0, 0) else
    (y0 * g.sh - g.pt, min g.ih ((((y0 + n - 1) * g.sh + g.dh * (g.kh - 1) + 1 : Nat) : Int) - g.pt).toNat)
  else (0, g.ih)

/-- What the fetch checks ask of `tc.conv` and `tc.wconv` of partition `p` (Table 8.2, R308 to R324). -/
def State.convInfo (s : State) (p : Nat) (wino : Bool) (words : List Nat) : OpInfo :=
  let w := fun i => words.getD i 0
  let g := geoOf words
  let m := g.ctl
  let mode := (winoMode m.at_ m.wt).getD 0
  let (_, tt, e) := winoTile mode
  let cores := maskCores g.mask
  let n := cores.length
  let k := g.kh * g.kw * g.cin
  let useAcc := decide (128 < k)
  let useBias := m.accIn == 1
  let fits := decide (0 ≤ g.numH ∧ 0 ≤ g.numW)
  let live := g.live && fits && decide (1 ≤ g.sh ∧ 1 ≤ g.sw)
  let lenW := if wino then g.cout * e else typeBytes m.wt g.cout
  let rowsW := if wino then tt * tt * g.cin else k
  let sW := if live then rowSpan rowsW (opPitch (w 2)) lenW else 0
  let sB := if useBias && live then 4 * g.cout else 0
  let sQ := if m.quant && live then 8 * g.cout else 0
  let accOf := fun (core : Nat) =>
    if ¬ live then 0 else if wino then g.wsBytes mode
    else if useAcc then rowSpan ((g.band core).2 * g.ow) (opPitch (w 6)) (4 * tileWidth m.wt) else 0
  let outOf := fun (core : Nat) => if live then mapSpan (w 3) g.ccs (g.cout * g.eo) (g.band core).2 g.ow else 0
  let inOf := fun (core : Nat) =>
    let r := g.inRows core
    if ¬ live ∨ r.2 ≤ r.1 then (0, 0)
    else (g.rowAddr core (w 1) r.1, mapSpan (w 1) g.xcs (g.cin * g.ea) (r.2 - r.1) g.iw)
  let apart := cores.all fun core =>
    let x := inOf core
    let c := (opAddr core (w 3), outOf core)
    let acc := (opAddr core (w 6), accOf core)
    let rest := [x, (opAddr core (w 2), sW), (opAddr core (w 4), sB), (opAddr core (w 5), sQ)]
    !((acc :: rest).any fun o => overlaps c.1 c.2 o.1 o.2) && !(rest.any fun o => overlaps acc.1 acc.2 o.1 o.2)
  let kernel := if wino then g.kh == 3 && g.kw == 3 && g.sh == 1 && g.sw == 1 && g.dh == 1 && g.dw == 1
    else decide (1 ≤ g.sh ∧ g.sh ≤ 8 ∧ 1 ≤ g.sw ∧ g.sw ≤ 8 ∧ 1 ≤ g.dh ∧ g.dh ≤ 8 ∧ 1 ≤ g.dw ∧ g.dw ≤ 8)
  let cutOk :=
    if ¬ g.cut then g.ihb == 0 && g.ht == 0 && g.hb == 0
    else g.ihb != 0 && !opSpace (w 1) && !opSpace (w 3) && g.ihb % g.sh == 0 &&
      (n == 0 || decide (¬ (g.ih ≤ (n - 1) * g.ihb) ∧ ¬ (n * g.ihb < g.ih))) &&
      decide (g.pt ≤ g.ht ∧ ((g.dh * (g.kh - 1) + 1 : Nat) : Int) - g.pt - g.sh ≤ g.hb)
  let typesOk := m.ok && (if wino then (winoMode m.at_ m.wt).isSome && (mode != 0 || decide (g.cin ≤ 1024)) else true)
  let wsFits := decide (opOffset (w 6) + g.wsBytes mode ≤ (if opSpace (w 6) then 0x800000 else 0x600000))
  { slots := [2]
    masks := [mOp, mOp, mOp, if useBias then mOp else 0, if m.quant then mOp else 0, if wino || useAcc then mOp else 0,
              2 ^ 58 - 1, 0x0001FFFF0003FFFF, 2 ^ 44 - 1, 2 ^ 48 - 1, 2 ^ 38 - 1]
    limits := [(8, typesOk), (9, kernel), (7, wino || decide (k ≤ 65535)), (7, !g.live || fits),
      (10, g.ea != 1 || decide (g.padv < 256)), (1, mapLimit (w 1) g.xcs 16 (g.cin * g.ea) g.iw),
      (3, mapLimit (w 3) g.ccs 16 (g.cout * g.eo) (if fits then g.ow else 0)), (2, matLimit (w 2) 16 lenW),
      (4, !useBias || vecLimit (w 4) 16), (5, !m.quant || vecLimit (w 5) 16),
      (6, if wino then vecLimit (w 6) 16 && wsFits else !useAcc || matLimit (w 6) 16 (4 * tileWidth m.wt)),
      (11, if wino then decide (1 ≤ g.tb ∧ g.tb ≤ 4096) else g.tb == 0), (8, s.maskOk p g.mask), (11, cutOk), (3, apart)]
    ranges :=
      (cores.map fun n => let x := inOf n; (1, x.1, x.2, false)) ++ opRanges g.mask [(2, w 2, sW, false)] ++
      (cores.map fun n => (3, opAddr n (w 3), outOf n, true)) ++
      opRanges g.mask [(4, w 4, sB, false), (5, w 5, sQ, false)] ++
      (cores.flatMap fun n => [(6, opAddr n (w 6), accOf n, true), (6, opAddr n (w 6), accOf n, false)]) ++
      (if m.accIn = 2 then cores.map fun n => (3, opAddr n (w 3), outOf n, false) else []) }

/-- What the fetch checks ask of opcodes 0x32 to 0x35 (Table 8.4). -/
def State.foldInfo (s : State) (p op : Nat) (words : List Nat) : Option OpInfo :=
  let w := fun i => words.getD i 0
  let mask := bits (w 6) 15 0
  let cmask := (6, s.maskOk p mask)
  if op = 0x32 then
    let cin := bits (w 4) 15 0
    let cout := bits (w 4) 31 16
    let wt := bits (w 4) 35 32
    let mode := (xformMode wt).getD 0
    let (_, tt, e) := winoTile mode
    let live := cin != 0 && cout != 0
    let sW := if live then rowSpan (9 * cin) (opPitch (w 1)) (typeBytes wt cout) else 0
    let sU := if live then rowSpan (tt * tt * cin) (opPitch (w 3)) (cout * e) else 0
    some { masks := [mOp, 0, mOp, 2 ^ 36 - 1, 0, 0xFFFF]
           limits := [(4, (xformMode wt).isSome && (mode != 0 || decide (cin ≤ 1024))),
             (1, matLimit (w 1) (typeAlign wt) (typeBytes wt cout)), (3, matLimit (w 3) e (cout * e)), cmask,
             (3, !opOverlap (w 1) sW (w 3) sU)]
           ranges := opRanges mask [(1, w 1, sW, false), (3, w 3, sU, true)] }
  else if op = 0x33 ∨ op = 0x34 then
    let s2d := op == 0x33
    let f := foldOf (w 4) (w 5)
    let (dh, dw, dc) := f.out s2d
    let sX := if f.live then mapSpan (w 1) f.xcs (f.c * f.e) f.h f.w else 0
    let sD := if f.live then mapSpan (w 3) f.dcs (dc * f.e) dh dw else 0
    some { masks := [mOp, 0, mOp, 2 ^ 48 - 1, if s2d then 2 ^ 48 - 1 else 0xFFFFFFFF0000, 0xFFFF]
           limits := [(4, vecType f.type && decide (2 ≤ f.b)), (4, s2d || f.c % (f.b * f.b) == 0),
             (5, f.e != 1 || decide (f.padv < 256)), (1, mapLimit (w 1) f.xcs f.e (f.c * f.e) f.w),
             (3, mapLimit (w 3) f.dcs f.e (dc * f.e) dw), cmask, (3, !opOverlap (w 1) sX (w 3) sD)]
           ranges := opRanges mask [(1, w 1, sX, false), (3, w 3, sD, true)] }
  else if op = 0x35 then
    let h := haloOf (w 4) (w 5) (w 6)
    let cores := maskCores mask
    let n := cores.length
    let range := fun (core r : Nat) (rows : List Nat) (write : Bool) =>
      match rows with
      | [] => []
      | g :: _ => [(1, h.row core (w 1) r g, (rows.length - 1) * opPitch (w 1) + h.rb, write)]
    some { masks := [mOp, 0, 0, 2 ^ 38 - 1, 2 ^ 24 - 1, 0xFFFF]
           limits := [(5, decide (h.rb ≤ 8388608)), (1, matLimit (w 1) 1 h.rb && !opSpace (w 1)), cmask,
             (4, !h.live || n == 0 || decide (¬ (h.ih ≤ (n - 1) * h.ihb) ∧ ¬ (n * h.ihb < h.ih)))]
           ranges := if ¬ h.live then [] else cores.flatMap fun core =>
             let r := rankOf mask core
             range core r (h.above r) true ++ range core r (h.below r n) true ++
             (if r + 1 < n then range core r (h.above (r + 1)) false else []) ++
             (if r = 0 then [] else range core r (h.below (r - 1) n) false) }
  else none

/-- What the fetch checks ask of a TENSOR command. -/
def State.tensorInfo (s : State) (p op : Nat) (words : List Nat) : Option OpInfo :=
  if op = 0x21 then some (s.mmaInfo p words)
  else if op = 0x30 then some (s.convInfo p false words)
  else if op = 0x31 then some (s.convInfo p true words)
  else if 0x32 ≤ op ∧ op ≤ 0x35 then s.foldInfo p op words
  else s.vecInfo p op words

end Sys2Proof.Machine
end

