-- ==== Sys2Proof/Machine/Select.lean ====
section
/-!
DEFINITION. The select engine: largest elements, orderings, samples and random streams (R396 to R410, R414 to R423).
-/

namespace Sys2Proof.Machine

open Sys2Proof

/-! ### Rows (R397, Table 11.2) -/

structure SelOp where
  type : Nat
  down : Bool
  k : Nat
  nseg : Nat
  rows : Nat
  dest : Nat
  pitch : Nat
  ibase : Nat
  /-- (address, elements) of the segments in use. -/
  segs : List (Nat × Nat)
  deriving DecidableEq, Repr

def selOp (w : Nat → Nat) : SelOp :=
  let nseg := bits (w 1) 28 26
  { type := bits (w 1) 3 0, down := bit (w 1) 4, k := bits (w 1) 25 5, nseg := nseg, rows := bits (w 2) 15 0
    dest := bits (w 2) 63 16, pitch := bits (w 3) 39 0, ibase := bits (w 3) 63 40
    segs := (List.range nseg).map fun i =>
      (bits (w (5 + i)) 47 0, if i % 2 = 0 then bits (w (11 + i / 2)) 31 0 else bits (w (11 + i / 2)) 63 32) }

def Cmd.sel (c : Cmd) : SelOp := selOp c.word

/-- N: the row's elements. -/
def SelOp.n (o : SelOp) : Nat := (o.segs.map (·.2)).sum

/-- VALUE of an element: FP32, or INT32 (R398). -/
def SelOp.value (o : SelOp) (raw : Nat) : Nat := if isFloat o.type then toFp o.type raw else unsigned 32 (toI o.type raw)

/-- A value's place in the order of R399, as an integer: NaN below −∞, the two zeros equal. -/
def SelOp.key (o : SelOp) (v : Nat) : Int :=
  if isFloat o.type then
    if (f32 v).isNan then -(2 ^ 40)
    else if v.testBit 31 then -((v % 2 ^ 31 : Nat) : Int) else v
  else signed 32 v

/-- An element as the engine ranks it: its key, its rank among equal keys, its VALUE and its INDEX. -/
structure SelElem where
  key : Int
  tie : Nat
  value : Nat
  index : Nat
  deriving DecidableEq, Repr

/-- `a` comes before `b`, or neither comes first. -/
def SelOp.before (o : SelOp) (a b : SelElem) : Bool :=
  if a.key = b.key then decide (a.tie < b.tie ∨ (a.tie = b.tie ∧ a.index ≤ b.index))
  else if o.down then decide (a.key < b.key) else decide (b.key < a.key)

def SelOp.sort (o : SelOp) (l : List SelElem) : List SelElem := sortBy o.before l

/-- Elements as ranked, from index `i`; their ranks among equals are free (R400). -/
def SelOp.elems (o : SelOp) (free : Nat → Nat) : Nat → List Nat → List SelElem
  | _, [] => []
  | i, v :: l => ⟨o.key v, free i, v, o.ibase + i⟩ :: o.elems free (i + 1) l

/-- The VALUEs of row `r`, read segment by segment. -/
def SelOp.readRow (o : SelOp) (p r : Nat) : Eff (List Nat) :=
  (Eff.map (fun (x : Nat × Nat) =>
    (Eff.read p (x.1 + r * o.pitch) (typeBytes o.type x.2)).bind fun b => Eff.pure ((unpack o.type x.2 b).map o.value)) o.segs).bind
  fun l =>
    let vals := l.flatten
    (Eff.modify fun s =>
      let s := s.incReg R.SEL_ELEMENTS_COUNT 0 0 vals.length
      if isFloat o.type && vals.any fun v => (f32 v).isNan then s.incReg R.SEL_NAN_ROWS_COUNT else s).bind fun _ =>
    (Eff.staging selectMem 0x200000).bind fun _ => Eff.pure vals

/-- Free ranks for a row of `n` elements. -/
def Eff.ties (n : Nat) : Eff (Nat → Nat) := fun s =>
  let k := s.freeCtr
  (.ok (fun i => Config.freeNat (k + i)), { s with freeCtr := k + n })

/-- Records of 8 bytes: VALUE and INDEX. -/
def selRecords (l : List SelElem) : List Byte := l.flatMap fun e => leBytes 4 e.value ++ leBytes 4 e.index

/-! ### Checks (R414, R422, Table 11.6) -/

/-- A SELECT command ends with an ENGINE_ERROR of a cause at a row. -/
def selError {α : Type} (cause row : Nat) : Eff α := Eff.fail 0x20 (cause + 2 ^ 32 * row)

/-- A check of the engine's work fails. -/
def selCheckFail (row : Nat) : Eff Unit := fun s =>
  let d := 1 + 2 ^ 32 * row
  (.error { status := 0x20, detail := d }, (s.incReg R.SEL_CHECK_FAIL_COUNT).raise 0x61 0 d)

/-- The row whose check fails, if one does. -/
def selBad (bad : Option Nat) (r : Nat) : Option (Eff Unit) := if bad = some r then some (selCheckFail r) else none

/-! ### `sel.argmax`, `sel.topk`, `sel.sort` (R401 to R403) -/

/-- The first `k` elements of row `r`, sorted in one pass. -/
def selFirst (c : Cmd) (k r : Nat) : Eff (List Byte) :=
  let o := c.sel
  (o.readRow c.part r).bind fun vals =>
  (Eff.ties vals.length).bind fun free =>
  Eff.pure (selRecords ((o.sort (o.elems free 0 vals)).take k))

/-- A one-pass row written. -/
def selRow (c : Cmd) (k : Nat) (bad : Option (Eff Unit)) (r : Nat) : Eff Unit :=
  Eff.checked bad (selFirst c k r) fun bs => Eff.write c.part (c.sel.dest + 8 * k * r) bs

/-- `sel.argmax`. -/
def execSelArgmax (dt id : Nat) (bad : Option Nat) (s : State) : Host.Outcome State Fault Refusal :=
  .next ((s.elapse dt).runLong id 0x68 (fun c => if c.sel.n = 0 then 0 else c.sel.rows) (fun _ => 0x10000) fun c a b s =>
    runRows (selRow c 1) (selBad bad) b a (b - a) s)

/-- Passes of a row. -/
def selPasses (n k : Nat) : Nat := if 1024 < k ∧ 65536 < n then 2 else 1

/-- Elements cut into runs. -/
def selRuns : Nat → List SelElem → List (List SelElem)
  | 0, _ => []
  | n + 1, l => l.take 65536 :: selRuns n (l.drop 65536)

/-- Pass 0 of a long row: sorted runs to the workspace. -/
def selPass0 (c : Cmd) (bad : Option (Eff Unit)) (r : Nat) : Eff Unit :=
  let o := c.sel
  Eff.checked bad
    ((o.readRow c.part r).bind fun vals => (Eff.ties vals.length).bind fun free =>
      Eff.pure (((selRuns (ceilDiv vals.length 65536) (o.elems free 0 vals)).map o.sort).flatten))
    fun l => Eff.write c.part (c.addr 4) (selRecords l)

/-- The element at a global index of a row, read back for the check. -/
def SelOp.readBack (o : SelOp) (s : State) (r i : Nat) : Option Nat :=
  (o.segs.foldl (fun (x : Nat × Option Nat) g =>
    (x.1 + g.2, if x.1 ≤ i ∧ i < x.1 + g.2 then
        some (o.value (s.load (g.1 + r * o.pitch + typeBytes o.type (i - x.1)) (typeBytes o.type 1)))
      else x.2)) (0, none)).2

/-- Pass 1 of a long row: the runs of the workspace merged, each record checked against its element. -/
def selPass1 (c : Cmd) (k : Nat) (bad : Option (Eff Unit)) (r : Nat) : Eff Unit :=
  let o := c.sel
  let ws := c.addr 4
  Eff.checked bad
    ((Eff.read c.part ws (8 * o.n)).bind fun b => (Eff.ties o.n).bind fun free =>
      let recs := ((chunkBytes 8 o.n b).zip (List.range o.n)).map fun x =>
        (⟨o.key (x.1 % 2 ^ 32), free x.2, x.1 % 2 ^ 32, x.1 / 2 ^ 32⟩ : SelElem)
      Eff.pure ((o.sort recs).take k))
    fun l => Eff.get.bind fun s =>
      if l.all fun e => decide (o.ibase ≤ e.index) && o.readBack s r (e.index - o.ibase) == some e.value then
        (Eff.write c.part (o.dest + 8 * k * r) (selRecords l)).bind fun _ => Eff.modify fun s => s.scramble ws (8 * o.n)
      else selCheckFail r

/-- Row `r` in all its passes. -/
def selLong (c : Cmd) (k : Nat) (bad : Option (Eff Unit)) (r : Nat) : Eff Unit :=
  if selPasses c.sel.n k = 1 then selRow c k bad r
  else (selPass0 c none r).bind fun _ => selPass1 c k bad r

/-- Pass `x` of the command. -/
def selPass (c : Cmd) (k : Nat) (bad : Option (Eff Unit)) (x : Nat) : Eff Unit :=
  if selPasses c.sel.n k = 1 then selRow c k bad x
  else if x % 2 = 0 then selPass0 c bad (x / 2) else selPass1 c k bad (x / 2)

/-- `sel.topk` and `sel.sort` of `k` elements: by rows, or checkpointed by passes (R403). -/
def State.runSort (s : State) (id op : Nat) (k : Cmd → Nat) (bad : Option Nat) : State :=
  let per := fun (c : Cmd) => if hdrCheckpoint (c.word 0) then selPasses c.sel.n (k c) else 1
  s.runLong id op (fun c => if k c = 0 then 0 else c.sel.rows * per c)
    (fun c => if hdrCheckpoint (c.word 0) then 1 else 0x20000) fun c a b s =>
    let p := per c
    if hdrCheckpoint (c.word 0) then
      runRows (selPass c (k c)) (fun x => selBad (bad.map fun r => p * r + p - 1) x) (c.sel.rows * p) a (b - a) s
    else runRows (selLong c (k c)) (selBad bad) b a (b - a) s

/-- `sel.topk`. -/
def execSelTopk (dt id : Nat) (bad : Option Nat) (s : State) : Host.Outcome State Fault Refusal :=
  .next ((s.elapse dt).runSort id 0x69 (fun c => c.sel.k) bad)

/-- `sel.sort`. -/
def execSelSort (dt id : Nat) (bad : Option Nat) (s : State) : Host.Outcome State Fault Refusal :=
  .next ((s.elapse dt).runSort id 0x6B (fun c => c.sel.n) bad)

/-! ### Random streams (R407 to R410, Table 11.5) -/

/-- Whether partition `p` has stream `n` (R408). -/
def State.ownStream (s : State) (p n : Nat) : Bool :=
  decide (s.reg R.SEL_STREAM_RANGE_FIRST p ≤ n ∧ n < s.reg R.SEL_STREAM_RANGE_FIRST p + s.reg R.SEL_STREAM_RANGE_COUNT p)

def State.stream (s : State) (n : Nat) : Option Stream := Sparse.get none s.streams n

/-- A stream set, with its bit of SEL.STREAM_VALID. -/
def State.setStream (s : State) (n : Nat) (x : Option Stream) : State :=
  ({ s with streams := Sparse.put none s.streams n x }).setBit R.SEL_STREAM_VALID_BITS (n % 32) x.isSome (n / 32)

/-- One draw from stream `n` at a row: u, as an FP32 code. -/
def selDraw (n row : Nat) : Eff Nat := fun s =>
  match s.stream n with
  | none => selError 0x02 row s
  | some d =>
    if 2 ^ 48 - 1 ≤ d.count then selError 0x03 row s else
    let (b, d) := drbgGenerate d
    (.ok (toF32 (.fin false (beNat (b.take 3)) (-24))), (s.setStream n (some d)).incReg R.SEL_DRAWS_COUNT)

/-- The 64-byte context of a stream. -/
def streamBytes (x : Option Stream) : List Byte :=
  let b := match x with
    | some d => slice d.key 0 32 ++ slice d.v 0 16 ++ leBytes 6 d.count ++ [1#8, 0#8]
    | none => List.replicate 56 0#8
  b ++ leBytes 4 (crc32 b) ++ List.replicate 4 0#8

/-- A `sel.stream` of one action. -/
def State.runStream (s : State) (id action : Nat) (f : Cmd → Nat → Eff Unit) : State :=
  match s.engine id 0x6C with
  | some c =>
    if bits (c.word 1) 10 8 = action then
      s.runEngine id 0x6C fun c => (Eff.staging selectMem 0x200000).bind fun _ => f c (bits (c.word 1) 6 0)
    else s
  | none => s

/-- `sel.stream` SEED. -/
def execStreamSeed (dt id : Nat) (s : State) : Host.Outcome State Fault Refusal :=
  .next ((s.elapse dt).runStream id 0 fun c n =>
    (Eff.read c.part (c.addr 2) 48).bind fun b => Eff.modify fun s => s.setStream n (some (drbgInstantiate b)))

/-- `sel.stream` SAVE. -/
def execStreamSave (dt id : Nat) (s : State) : Host.Outcome State Fault Refusal :=
  .next ((s.elapse dt).runStream id 1 fun c n =>
    Eff.get.bind fun s => Eff.write c.part (c.addr 2) (streamBytes (s.stream n)))

/-- `sel.stream` LOAD. -/
def execStreamLoad (dt id : Nat) (s : State) : Host.Outcome State Fault Refusal :=
  .next ((s.elapse dt).runStream id 2 fun c n =>
    (Eff.read c.part (c.addr 2) 64).bind fun b =>
    if field b 56 4 ≠ crc32 (b.take 56) ∨ field b 60 4 ≠ 0 ∨ field b 55 1 ≠ 0 ∨ 1 < field b 54 1 then Eff.fail 0x14 0
    else Eff.modify fun s => s.setStream n
      (if field b 54 1 = 1 then some ⟨b.take 32, slice b 32 16, field b 48 6⟩ else none))

/-- `sel.stream` CLEAR. -/
def execStreamClear (dt id : Nat) (s : State) : Host.Outcome State Fault Refusal :=
  .next ((s.elapse dt).runStream id 3 fun _ n => Eff.modify fun s => s.setStream n none)

/-! ### `sel.sample` (R404 to R406) -/

/-- Table 11.4. -/
def sampleResult (index set : Nat) (empty nan greedy : Bool) : Nat :=
  index % 2 ^ 32 + 2 ^ 32 * min set 65535 + 2 ^ 48 * ofBool empty + 2 ^ 49 * ofBool nan + 2 ^ 50 * ofBool greedy

/-- Candidates in index order, with their values. -/
def selCandidates (o : SelOp) (k : Nat) (l : List SelElem) : List SelElem :=
  sortBy (fun a b => decide (a.index ≤ b.index)) ((o.sort l).take k)

/-- Weight of each candidate (step 3), m being the largest value. -/
def selWeight (tinv m v : Nat) : Nat :=
  if m = 0x7F800000 then (if v = m then fint 1 else 0) else fexp (fmul (fsub v m) tinv)

/-- The keys taken in decreasing order until the running mass reaches `goal`: the last key taken, if it is reached. -/
def selCut (ws : List (SelElem × Nat)) (goal : Nat) : Nat → List Int → Option Int
  | _, [] => none
  | mass, k :: ks =>
    let mass := (ws.filter fun x => x.1.key == k).foldl (fun m x => fadd m x.2) mass
    if (f32 goal).le (f32 mass) then some k else selCut ws goal mass ks

/-- The walk of step 5: the first element whose running sum is above t. -/
def selWalk (t : Nat) : Nat → List (SelElem × Nat) → Option SelElem
  | _, [] => none
  | c, x :: l =>
    let c := fadd c x.2
    if (f32 c).le (f32 t) then selWalk t c l else some x.1

/-- The result of a row, given its parameter entry (R405). -/
def selSampleRow (o : SelOp) (w0 w1 row : Nat) (vals : List Nat) : Eff Nat :=
  let tinv := bits w0 31 0
  let k := bits w0 42 32
  let p := bits w1 31 0
  let all := o.elems (fun _ => 0) 0 vals
  let l := all.filter fun e => !(f32 e.value).isNan
  let nan := decide (l.length < all.length)
  let greedy := decide (tinv = 0)
  let k' := min (if k ≠ 0 then k else if p ≠ fint 1 then 1024 else all.length) all.length
  let cand := selCandidates o k' l
  let top := (o.sort l).head?
  match top with
  | none => (Eff.modify fun s => s.incReg R.SEL_EMPTY_ROWS_COUNT).bind fun _ =>
      Eff.pure (sampleResult 0xFFFFFFFF (ofBool greedy) true nan greedy)
  | some best =>
    if best.value = 0xFF800000 then
      (Eff.modify fun s => s.incReg R.SEL_EMPTY_ROWS_COUNT).bind fun _ =>
      Eff.pure (sampleResult 0xFFFFFFFF (ofBool greedy) true nan greedy)
    else if greedy then Eff.pure (sampleResult best.index 1 false nan true)
    else
      let ws := cand.map fun e => (e, selWeight tinv best.value e.value)
      let set :=
        if p = fint 1 then ws else
        let goal := fmul p (fsum (ws.map (·.2)))
        let keys := ((o.sort l).map (·.key)).eraseDups.filter fun x => cand.any fun e => e.key == x
        match selCut ws goal 0 keys with
        | some x => ws.filter fun y => decide (x ≤ y.1.key)
        | none => ws
      (selDraw (bits w0 54 48) row).bind fun u =>
      let t := fmul u (fsum (set.map (·.2)))
      let pos := set.filter fun x => (f32 x.2).le (f32 0) == false
      let pick := match selWalk t 0 set with
        | some e => e.index
        | none => ((pos.getLast?).map (·.1.index)).getD 0xFFFFFFFF
      Eff.pure (sampleResult pick pos.length false nan false)

/-- A parameter entry within Table 11.3. -/
def selEntryOk (w0 w1 : Nat) : Bool :=
  let tinv := bits w0 31 0
  let p := bits w1 31 0
  decide (tinv < 0x7F800000 ∧ bits w0 42 32 ≤ 1024 ∧ bits w0 47 43 = 0 ∧ bits w0 63 55 = 0 ∧ 0 < p ∧ p ≤ 0x3F800000 ∧
    w1 / 2 ^ 32 = 0)

/-- The result bytes of row `r` of `sel.sample`. -/
def sampleBytes (c : Cmd) (r : Nat) : Eff (List Byte) :=
  let o := c.sel
  (Eff.read c.part (c.addr 4 + 16 * r) 16).bind fun b => Eff.get.bind fun s =>
  let w0 := field b 0 8
  let w1 := field b 8 8
  if selEntryOk w0 w1 = false ∨ s.ownStream c.part (bits w0 54 48) = false then Eff.fail 0x14 0 else
  (o.readRow c.part r).bind fun vals => (selSampleRow o w0 w1 r vals).bind fun x => Eff.pure (leBytes 8 x)

/-- A row of `sel.sample` written. -/
def sampleRow (c : Cmd) (bad : Option (Eff Unit)) (r : Nat) : Eff Unit :=
  Eff.checked bad (sampleBytes c r) fun bs => Eff.write c.part (c.sel.dest + 8 * r) bs

/-- `sel.sample`. -/
def execSelSample (dt id : Nat) (bad : Option Nat) (s : State) : Host.Outcome State Fault Refusal :=
  .next ((s.elapse dt).runLong id 0x6A (fun c => if c.sel.n = 0 then 0 else c.sel.rows) (fun _ => 0x10000) fun c a b s =>
    runRows (sampleRow c) (selBad bad) b a (b - a) s)

/-! ### Fetch checks -/

/-- Element types of a row operand. -/
def selType (t : Nat) (sample : Bool) : Bool := if sample then decide (7 ≤ t ∧ t ≤ 9) else [0, 1, 3, 4, 7, 8, 9].contains t

/-- A range wholly in DRAM. -/
def State.inDram (s : State) (a n : Nat) : Bool := decide (n = 0 ∨ a + n ≤ s.dramSize)

/-- What the fetch checks ask of a SELECT command but for `sel.xmerge`. -/
def State.selInfo (s : State) (p op : Nat) (words : List Nat) : Option OpInfo :=
  let w := fun i => words.getD i 0
  let a := fun i => bits (w i) 47 0
  if op = 0x6C then
    let act := bits (w 1) 10 8
    let n := if act = 0 then 48 else if act = 3 then 0 else 64
    some { masks := [0x77F, if act = 3 then 0 else mAddr]
           limits := [(1, decide (act ≤ 3) && s.ownStream p (bits (w 1) 6 0)), (2, a 2 % 8 == 0 && s.inDram (a 2) n)]
           ranges := [(2, a 2, n, act == 1)] }
  else if 0x68 ≤ op ∧ op ≤ 0x6B then
    let o := selOp w
    let sample := op == 0x6A
    let n := o.n
    let k := if op = 0x68 then 1 else if op = 0x69 then o.k else n
    let ws := decide (op = 0x69 ∨ op = 0x6B) && selPasses n k == 2
    let size := typeBytes o.type 1
    let w4 := if sample then 16 * o.rows else if ws then 8 * n else 0
    let lenAt := fun i => if i % 2 = 0 then bits (w (11 + i / 2)) 31 0 else bits (w (11 + i / 2)) 63 32
    let out := 8 * o.rows * (if sample then 1 else if n = 0 then 0 else k)
    let seg := o.segs.map fun g => (g.1, rowSpan (if k = 0 then 0 else o.rows) o.pitch (g.2 * size))
    let segW := seg.zip ((List.range 6).map (· + 5))
    some { slots := [2], ckpt := op == 0x69 || op == 0x6B
           masks := [0x1FFFFFFF, mAll, mAll, if w4 = 0 && !sample then 0 else mAddr] ++
             ((List.range 6).map fun i => if i < o.nseg then mAddr else 0) ++
             ((List.range 3).map fun i => (if 2 * i < o.nseg then mLow else 0) + (if 2 * i + 1 < o.nseg then mHigh else 0))
           limits := [(1, selType o.type sample), (1, !(sample && o.down)), (1, if op = 0x69 then decide (o.k ≤ n) else o.k == 0),
                      (1, decide (1 ≤ o.nseg ∧ o.nseg ≤ 6)), (2, o.dest % 8 == 0 && s.inDram o.dest out),
                      (3, o.pitch % size == 0), (4, a 4 % (if sample then 16 else 64) == 0 && s.inDram (a 4) w4)] ++
             (segW.map fun g => (g.2, g.1.1 % size == 0 && s.inDram g.1.1 g.1.2)) ++
             ((List.range o.nseg).map fun i => (11 + i / 2, decide (lenAt i ≤ 1048576))) ++ [(11, decide (n ≤ 1048576))]
           ranges := (segW.map fun g => (g.2, g.1.1, g.1.2, false)) ++
             [(2, o.dest, out, true), (4, a 4, w4, false)] ++ (if ws then [(4, a 4, w4, true)] else []) }
  else none

end Sys2Proof.Machine
end

