-- ==== Sys2Proof/Machine/Merge.lean ====
section
/-!
DEFINITION. `sel.xmerge` (R411 to R414, R418 to R421).
-/

namespace Sys2Proof.Machine

open Sys2Proof

/-! ### Lists of records -/

/-- A command's COLL_ID, K, DIR and G (R411). -/
def Cmd.coll (c : Cmd) : Nat := bits (c.word 3) 63 32
def Cmd.mergeK (c : Cmd) : Nat := bits (c.word 3) 10 0
def Cmd.mergeDir (c : Cmd) : Nat := bits (c.word 3) 12 12
def Cmd.mergeG (c : Cmd) : Nat := bits (c.word 3) 18 16

/-- Keys as FP32 or as INT32 values, with a direction. -/
def mergeOp (float : Bool) (dir : Nat) : SelOp :=
  { type := if float then 9 else 4, down := dir == 1, k := 0, nseg := 0, rows := 0, dest := 0, pitch := 0, ibase := 0, segs := [] }

/-- Records are in order under R399. -/
def inOrder (o : SelOp) : List Nat → Bool
  | a :: b :: l =>
    let x := o.key (bits a 31 0)
    let y := o.key (bits b 31 0)
    (if o.down then decide (x ≤ y) else decide (y ≤ x)) && inOrder o (b :: l)
  | _ => true

/-- The records of a complete list, in place. -/
def XList.records (x : XList) : List Nat := (List.range x.k).map fun i =>
  match x.recs.find? fun r => decide (r.1 ≤ i ∧ i < r.1 + r.2.length) with
  | some r => r.2.getD (i - r.1) 0
  | none => 0

/-- Whether lists are merged as FP32: where both orders fit, a free function of the lists. -/
def mergeAsFloat (dir : Nat) (ls : List (List Nat)) : Bool :=
  let f := ls.all (inOrder (mergeOp true dir))
  let i := ls.all (inOrder (mergeOp false dir))
  if f && i then Config.mergeFloat ls.flatten else f || !i

/-- The first `k` records of the union of lists taken in rank order (R412). -/
def mergeLists (k dir : Nat) (ls : List (List Nat)) : List Byte :=
  let o := mergeOp (mergeAsFloat dir ls) dir
  let l := ls.flatten
  let es := ((List.range l.length).zip l).map fun x : Nat × Nat =>
    ({ key := o.key (bits x.2 31 0), tie := Config.mergeTie l x.1, value := bits x.2 31 0, index := bits x.2 63 32 } : SelElem)
  selRecords ((o.sort es).take k)

/-! ### The command -/

/-- The executing `sel.xmerge` of a COLL_ID, if any. -/
def State.merging (s : State) (coll : Nat) : Option Cmd :=
  s.cmds.find? fun c => c.op == 0x6D && c.stage == .waiting && c.coll == coll

/-- A list of another rank agrees with the command. -/
def Cmd.fits (c : Cmd) (x : XList) : Bool := x.k == c.mergeK && x.dir == c.mergeDir && x.g == c.mergeG

/-- The command fails, and the lists that had come for it are gone. -/
def State.mergeFail (s : State) (c : Cmd) (cause : Nat) : State :=
  ({ s with ifaces.matched := [] }).finish c.id { status := 0x20, detail := cause }

/-- Once a list from every other rank has arrived, the union's first records are written; `bad` says that a check of the work
fails (R414). -/
def State.mergeIfComplete (s : State) (c : Cmd) (bad : Bool) : State :=
  let others := (List.range c.mergeG).filter fun r => r != s.linkRank
  if ¬ others.all fun r => s.ifaces.matched.any fun x => x.rank == r then s else
  let own := bytesWords (s.bytes (c.addr 1) (8 * c.mergeK)) c.mergeK
  let ls := (List.range c.mergeG).map fun r =>
    if r = s.linkRank then own else ((s.ifaces.matched.find? fun x => x.rank == r).map XList.records).getD []
  let s := { s with ifaces.matched := [] }
  match Eff.checked (if bad then some (selCheckFail 0) else none) (Eff.staging selectMem 0x200000)
      (fun _ => Eff.write c.part (c.addr 2) (mergeLists c.mergeK c.mergeDir ls)) s with
  | (.ok _, s) => (s.incReg R.SEL_XM_DONE_COUNT).finish c.id {}
  | (.error d, s) => s.finish c.id d

/-- A list matched to the command that executes (R413). -/
def State.matchList (s : State) (c : Cmd) (x : XList) (bad : Bool) : State :=
  if s.ifaces.matched.any fun y => y.rank == x.rank then s.incReg R.SEL_XM_DROP_COUNT
  else if ¬ c.fits x then s.mergeFail c 5
  else ({ s with ifaces.matched := s.ifaces.matched ++ [x] }).mergeIfComplete c bad

/-- The frames of LOCAL for another rank. -/
def mergeFrames (c : Cmd) (src dst : Nat) (recs : List Nat) : List (List Byte) :=
  let n := ceilDiv recs.length 32
  (List.range n).map fun i =>
    let part := (recs.drop (32 * i)).take 32
    linkFrame 3 src dst 0 (ofBool (i + 1 == n)) c.coll
      (c.mergeK + 2 ^ 12 * c.mergeDir + 2 ^ 13 * c.mergeG + 2 ^ 16 * (32 * i)) (wordsBytes part)

/-- LOCAL sent to every other member. -/
def State.sendLocal (s : State) (c : Cmd) (recs : List Nat) : State :=
  let others := (List.range c.mergeG).filter fun r => r != s.linkRank
  (others.flatMap fun r => mergeFrames c s.linkRank r recs).foldl
    (fun s f => (s.grantBytes (3 * c.part + 2) (frameLen f)).linkSend f) s

/-- `sel.xmerge`: LOCAL is checked and sent; what is held for its COLL_ID is matched at once. -/
def execSelXmerge (dt id : Nat) (bad : Bool) (s : State) : Host.Outcome State Fault Refusal :=
  let s := s.elapse dt
  .next (match s.engine id 0x6D with
    | none => s
    | some c =>
      match Eff.read c.part (c.addr 1) (8 * c.mergeK) (s.beginWork c) with
      | (.error d, s) => s.finish id d
      | (.ok b, s) =>
        let recs := bytesWords b c.mergeK
        if ¬ (inOrder (mergeOp true c.mergeDir) recs || inOrder (mergeOp false c.mergeDir) recs) then s.finish id { status := 0x14 }
        else
          let c := { c with stage := .waiting, begun := true, limit := some (s.tick + usTicks (bits (c.word 4) 19 0)) }
          let s := (s.setCmd c).sendLocal c recs
          let mine := s.ifaces.held.filter fun x => x.coll == c.coll
          let s := { s with ifaces := { s.ifaces with held := s.ifaces.held.filter (fun x => x.coll != c.coll), matched := [] } }
          mine.foldl (fun s x =>
            match s.merging c.coll with
            | some c => s.matchList c x bad
            | none => s) s)

/-- The oldest complete list is judged: matched, held, or dropped; one that comes as the TIMEOUT expires is too late (R413, R418,
R419). -/
def execXmergeListReceived (dt : Nat) (bad : Bool) (s : State) : Host.Outcome State Fault Refusal :=
  let s := s.elapse dt
  .next (match s.ifaces.ready with
    | [] => s
    | x :: l =>
      let s := { s with ifaces.ready := l }
      match (s.merging x.coll).filter fun c => c.limit.any fun t => decide (s.tick < t) with
      | some c => s.matchList c x bad
      | none =>
        let colls := (s.ifaces.held.map fun y : XList => y.coll).eraseDups
        if (s.ifaces.held.any fun y => y.coll == x.coll && y.rank == x.rank) ∨ (8 ≤ colls.length ∧ ¬ colls.contains x.coll) then
          s.incReg R.SEL_XM_DROP_COUNT
        else { s with ifaces.held := s.ifaces.held ++ [{ x with since := s.tick }] })

/-- TIMEOUT has passed before every list has arrived. -/
def execXmergeTimeout (dt id : Nat) (s : State) : Host.Outcome State Fault Refusal :=
  let s := s.elapse dt
  .next (match s.cmd? id with
    | some c =>
      if c.op = 0x6D ∧ c.stage = .waiting ∧ c.limit.any (fun t => decide (t ≤ s.tick)) then
        ((s.incReg R.SEL_XM_TIMEOUT_COUNT).supersedeReplay 3 c.coll (c.addr 1)).mergeFail c 4
      else s
    | none => s)

/-- A list has been held for 1 s without a local command. -/
def execXmergeHoldExpire (dt : Nat) (s : State) : Host.Outcome State Fault Refusal :=
  let s := s.elapse dt
  .next (match s.ifaces.held with
    | x :: l => if x.since + msTicks 1000 ≤ s.tick then ({ s with ifaces.held := l }).incReg R.SEL_XM_DROP_COUNT else s
    | [] => s)

/-- What the fetch checks ask of `sel.xmerge`. -/
def State.mergeInfo (s : State) (p : Nat) (words : List Nat) : OpInfo :=
  let w := fun i => words.getD i 0
  let a := fun i => bits (w i) 47 0
  let k := bits (w 3) 10 0
  let g := bits (w 3) 18 16
  { masks := [mAddr, mAddr, 0x7FF + 0x1000 + 0x70000 + mHigh, 0xFFFFF]
    limits := [(1, s.inDram (a 1) (8 * k)), (2, a 2 % 8 == 0 && s.inDram (a 2) (8 * k)),
               (3, decide (1 ≤ k ∧ k ≤ 1024 ∧ 2 ≤ g ∧ g ≤ 4 ∧ g = s.linkG) && (s.partEngines p).testBit 8),
               (4, decide (1 ≤ bits (w 4) 19 0 ∧ bits (w 4) 19 0 ≤ 1000000))]
    ranges := [(1, a 1, 8 * k, false), (2, a 2, 8 * k, true)] }

end Sys2Proof.Machine
end

