-- ==== Sys2Proof/Machine/Pick.lean ====
section
/-!
DEFINITION. Fetch, fetch checks and picks (R131 to R137, R139, R153, R159, R175 to R178).
-/

namespace Sys2Proof.Machine

open Sys2Proof

/-! ### Fetch checks over every opcode (Table 4.7) -/

/-- What the fetch checks ask of an opcode; nothing for an undefined one. -/
def State.opInfo (s : State) (p op : Nat) (words : List Nat) : Option OpInfo :=
  match opcodeClass op with
  | some 0 => s.seqInfo p op words
  | some 1 => copyInfo op words
  | some 2 => s.tensorInfo p op words
  | some 3 => s.visInfo p op words
  | some 4 => s.embInfo p op words
  | some 5 => if op = 0x6D then some (s.mergeInfo p words) else s.selInfo p op words
  | some 6 => s.tokInfo p op words
  | some 7 => s.acuInfo p op words
  | some 8 => s.linkInfo p op words
  | some 9 => s.mtrInfo op words
  | _ => none

/-- The first check of Table 4.7 that a command fails. -/
def State.fetchCheck (s : State) (f : FetchAt) (words : List Nat) : Option FetchFail :=
  match s.opInfo f.part (hdrOp (words.getD 0 0)) words with
  | none => some ⟨0x10, 0, 0⟩
  | some o => s.fetchBody f words o

/-- A command fetched from slots of memory: its words, or the address of a word that cannot be read.  The bytes count for the
partition. -/
def State.fetchSlots (s : State) (p : Nat) : List Nat → Except Nat (List Nat) × State
  | [] => (.ok [], s)
  | a :: l =>
    match (s.countRd p a 64).readMem a 64 with
    | (some w, s) => (.error w, s)
    | (none, s) =>
      let r := s.fetchSlots p l
      match r.1 with
      | .ok ws => (.ok (bytesWords (s.bytes a 64) 8 ++ ws), r.2)
      | .error w => (.error w, r.2)

/-- A fetched command judged: its words, and its failure. -/
def State.fetch (s : State) (f : FetchAt) (slots : List Nat) : List Nat × Option FetchFail × State :=
  match s.fetchSlots f.part slots with
  | (.error w, s) => ([s.load (slots.getD 0 0) 8], some ⟨0x1F, 0, w⟩, s)
  | (.ok ws, s) => (ws, s.fetchCheck f ws, s)

/-! ### Taking a command -/

/-- A new command, with its identity. -/
def State.addCmd (s : State) (c : Cmd) : Cmd × State :=
  let c := { c with id := s.nextId }
  (c, { s with cmds := s.cmds ++ [c], nextId := s.nextId + 1 })

/-- A command that fails a fetch check: it completes with the failure. -/
def State.failFetch (s : State) (c : Cmd) (e : FetchFail) : State :=
  let c := { c with stage := .done, status := e.status, detail := e.detail }
  (s.setCmd c).complete c (e.word / 8)

/-- A picked command goes to its fence stage, or on to be executed. -/
def State.startCmd (s : State) (c : Cmd) : State :=
  let s := s.setThread c.thread { s.thread c.thread with cur := some c.id, boundary := s.tick }
  if hdrFence (c.word 0) && !s.fenceClear c then s else s.enterExec c

/-- The header wait consumed (R135). -/
def State.consumeWait (s : State) (p h : Nat) : State :=
  if hdrWaitEn h then
    let e := eventIndex p (hdrWaitEvt h) false
    s.setEvent e (s.event e - 1)
  else s

/-- Whether a command's header wait is satisfied. -/
def State.waitOk (s : State) (p h : Nat) : Bool :=
  !hdrWaitEn h || decide (1 ≤ s.event (eventIndex p (hdrWaitEvt h) false))

/-- Slot addresses of a command of a ring. -/
def State.ringSlots (s : State) (q ptr n : Nat) : List Nat := (List.range n).map fun i => s.slotAddr q (s.ptrAdd q ptr i)

/-- A command taken out of a command queue: a queue command with its SEQNO, the ring behind it. -/
def State.takeRing (s : State) (t q ptr slots seqno : Nat) (again : Bool) (words : List Nat) : Cmd × State :=
  let x := s.queueX q
  let x := { x with aborted := x.aborted.filter fun n => n != seqno }
  let s := if again then s.setFetch q { x with redo := x.redo.tail }
    else (s.setFetch q { x with fetch := s.ptrAdd q ptr slots }).setReg R.QUE_SEQNO_NEXT (seqno + 1) q
  let r := s.addCmd { id := 0, queue := q, thread := t, part := s.qPart q, seqno := seqno, depth := 0, offset := ptr, root := 0
                      words := words, stage := .fence, start := s.tick }
  let c := { r.1 with root := r.1.id }
  (c, r.2.setCmd c)

/-! ### Picks (R135, R176) -/

/-- Whether thread `t` is at a command boundary at which it may pick. -/
def State.mayPick (s : State) (t : Nat) : Bool :=
  s.running && s.present t && !s.flag R.SAFE_PAIR_STAT_MISMATCH (t / 8) && !s.flag R.SAFE_PAIR_STAT_PAUSING (t / 8) &&
  (s.thread t).cur.isNone && decide (s.outstanding t < 16)

/-- Queue `a` comes before queue `b` or is it: higher PRIORITY, then the lower number. -/
def State.queueBefore (s : State) (a b : Nat) : Bool :=
  let x := s.reg R.QUE_PRIO_PRIORITY a
  let y := s.reg R.QUE_PRIO_PRIORITY b
  decide (y < x ∨ (x = y ∧ a ≤ b))

/-- The command queues of a thread, highest priority first. -/
def State.byPriority (s : State) (t : Nat) : List Nat := sortBy s.queueBefore (s.threadQueues t)

/-- Whether a job queue's command may have the grant: job grants are given, and none is held. -/
def State.grantFree (s : State) (p : Nat) : Bool := s.grants && (s.job? p).isNone

/-- What a thread finds at the head of a queue: nothing to take; a command aborted before its pick, or one that fails a check; or
one that it can pick. -/
inductive Head where
  | none
  | aborted
  | failing
  | ready
  deriving DecidableEq, Repr

/-- The head of queue `q` judged; `grant` says that a command of a job queue would get the grant. -/
def State.headOf (s : State) (q : Nat) (grant : Bool) : Head :=
  if s.qState q ≠ qActive ∨ s.cqStalled (s.cqOf q) then .none else
  match s.nextOf q with
  | Option.none => .none
  | some (ptr, slots, seqno, _) =>
    let p := s.qPart q
    let job := (s.jobBudget p q).isSome
    if (s.queueX q).aborted.contains seqno then .aborted
    else if job && !s.grantFree p then .none
    else
      let r := s.fetch { part := p, inJob := job, depth := 0, left := 16 } (s.ringSlots q ptr slots)
      if r.2.1.isSome then .failing
      else if job && !grant then .none
      else if s.waitOk p (r.1.getD 0 0) then .ready else .none

/-- The first queue of thread `t` with something to take. -/
def State.choice (s : State) (t : Nat) (grant : Nat → Bool) : Option Nat :=
  (s.byPriority t).find? fun q => s.headOf q (grant q) != .none

/-- The job queue of partition `p` to which the threads that pick in this cycle give the grant (R176). -/
def State.grantWinner (s : State) (p : Nat) (ts : List Nat) : Option Nat :=
  let wanted := (ts.filterMap fun t =>
    if s.mayPick t && (s.thread t).frames.isEmpty && s.threadPart t == some p then
      match s.choice t (fun _ => true) with
      | some q => if (s.jobBudget p q).isSome && s.headOf q true == .ready then some q else none
      | none => none
    else none)
  (sortBy s.queueBefore wanted).head?

/-- Thread `t` takes the head of queue `q`. -/
def State.pickRing (s : State) (t q : Nat) : State :=
  match s.nextOf q with
  | none => s
  | some (ptr, slots, seqno, again) =>
    let p := s.qPart q
    let job := (s.jobBudget p q).isSome
    let at_ : FetchAt := { part := p, inJob := job, depth := 0, left := 16 }
    if (s.queueX q).aborted.contains seqno then
      let h := s.load (s.slotAddr q ptr) 8
      let r := s.takeRing t q ptr slots seqno again [h]
      let c := { r.1 with stage := .done, aborted := true }
      (r.2.setCmd c).complete c
    else
      let f := s.fetch at_ (s.ringSlots q ptr slots)
      let r := f.2.2.takeRing t q ptr slots seqno again f.1
      match f.2.1 with
      | some e =>
        let s := r.2.failFetch r.1 e
        if job then s.answerJob q seqno e.status else s
      | none =>
        let s := r.2.consumeWait p (f.1.getD 0 0)
        (if job then s.jobGrant r.1 else s).startCmd r.1

/-- Whether a command of a list belongs to the job that holds the grant (R177, R181). -/
def State.inJob (s : State) (c : Cmd) : Bool := (s.job? c.part).any fun j => j.cmd == c.root

/-- Thread `t` takes the next command of its called list. -/
def State.pickList (s : State) (t : Nat) (f : Frame) (l : List Frame) : State :=
  match s.cmd? f.call with
  | none => s
  | some call =>
    if f.slots ≤ f.pos then s else
    let a := f.addr + 64 * f.pos
    let h := s.load a 8
    let left := f.slots - f.pos
    let n := min (hdrSlots h) left
    let r := s.fetch { part := call.part, inJob := s.inJob call, depth := l.length + 1, left := left }
      ((List.range n).map fun i => a + 64 * i)
    let take := fun (s : State) =>
      let s := s.setThread t { s.thread t with frames := { f with pos := f.pos + hdrSlots h } :: l }
      s.addCmd { id := 0, queue := call.queue, thread := t, part := call.part, seqno := call.seqno, depth := l.length + 1
                 offset := f.pos, root := call.root, call := some f.call, words := r.1, stage := .fence, mute := call.mute || call.aborted
                 start := s.tick }
    match r.2.1 with
    | some e => let x := take r.2.2; x.2.failFetch x.1 e
    | none =>
      if s.waitOk call.part h then
        let x := take r.2.2
        (x.2.consumeWait call.part h).startCmd x.1
      else s

/-- Thread `t` at its command boundary; `win` are the job queues that have the grants of this cycle. -/
def State.pickOne (s : State) (win : List Nat) (t : Nat) : State :=
  if ¬ s.mayPick t then s else
  match (s.thread t).frames with
  | f :: l => s.pickList t f l
  | [] =>
    match s.choice t (fun q => win.contains q) with
    | some q => s.pickRing t q
    | none => s

/-- The threads `ts` are at a command boundary in one cycle, and pick. -/
def execCommandPick (dt : Nat) (ts : List Nat) (s : State) : Host.Outcome State Fault Refusal :=
  let s := s.elapse dt
  let ts := (ts.filter fun t => decide (t < 64)).eraseDups
  let win := (List.range 4).filterMap fun p => if s.grantFree p then s.grantWinner p ts else none
  .next (ts.foldl (fun s t => s.pickOne win t) s)

end Sys2Proof.Machine
end

