-- ==== Sys2Proof/Machine/Dispatch.lean ====
section
/-!
DEFINITION. The dispatch: one arm per command, each a direct call of its meaning.
-/

namespace Sys2Proof.Machine

/-- What command `i` does in state `s` to everything but the queue of commands. -/
def exec (i : Instr) (s : State) : Host.Outcome State Fault Refusal :=
  match i with
  | .powerOnResetRelease dt main bak => Sys2Proof.Machine.execPowerOnResetRelease dt main bak s
  | .powerOnResetEntry dt => Sys2Proof.Machine.execPowerOnResetEntry dt s
  | .porstNRelease dt low => Sys2Proof.Machine.execPorstNRelease dt low s
  | .porstNAssert dt => Sys2Proof.Machine.execPorstNAssert dt s
  | .aonStep dt => Sys2Proof.Machine.execAonStep dt s
  | .islandStep dt bist passed => Sys2Proof.Machine.execIslandStep dt bist passed s
  | .selectStep dt strobe => Sys2Proof.Machine.execSelectStep dt strobe s
  | .verifyStep dt strobe => Sys2Proof.Machine.execVerifyStep dt strobe s
  | .sealStep dt => Sys2Proof.Machine.execSealStep dt s
  | .dramStep dt trained => Sys2Proof.Machine.execDramStep dt trained s
  | .bistStep dt failed => Sys2Proof.Machine.execBistStep dt failed s
  | .weightsStep dt fails => Sys2Proof.Machine.execWeightsStep dt fails s
  | .linksStep dt => Sys2Proof.Machine.execLinksStep dt s
  | .bringupStep dt kats drbg sio => Sys2Proof.Machine.execBringupStep dt kats drbg sio s
  | .armStep dt => Sys2Proof.Machine.execArmStep dt s
  | .acqWaitExpire dt => Sys2Proof.Machine.execAcqWaitExpire dt s
  | .startDone dt => Sys2Proof.Machine.execStartDone dt s
  | .startStepTimeout dt => Sys2Proof.Machine.execStartStepTimeout dt s
  | .startRetryDelayExpire dt => Sys2Proof.Machine.execStartRetryDelayExpire dt s
  | .warmStart dt => Sys2Proof.Machine.execWarmStart dt s
  | .pmicPgFall dt kept => Sys2Proof.Machine.execPmicPgFall dt kept s
  | .pmicPgRise dt => Sys2Proof.Machine.execPmicPgRise dt s
  | .orbitRateCheck dt progress => Sys2Proof.Machine.execOrbitRateCheck dt progress s
  | .syncReceived dt msgs => Sys2Proof.Machine.execSyncReceived dt msgs s
  | .syncReceiptTimeout dt => Sys2Proof.Machine.execSyncReceiptTimeout dt s
  | .holdLimitExpire dt => Sys2Proof.Machine.execHoldLimitExpire dt s
  | .fgFramePending dt g => Sys2Proof.Machine.execFgFramePending dt g s
  | .fgDeadline dt g => Sys2Proof.Machine.execFgDeadline dt g s
  | .fgDescriptorEmit dt g => Sys2Proof.Machine.execFgDescriptorEmit dt g s
  | .commandPick dt ts => Sys2Proof.Machine.execCommandPick dt ts s
  | .commandComplete dt cmd => Sys2Proof.Machine.execCommandComplete dt cmd s
  | .checkpoint dt cmd => Sys2Proof.Machine.execCheckpoint dt cmd s
  | .cqRecordRelease dt cq => Sys2Proof.Machine.execCqRecordRelease dt cq s
  | .seqNop dt cmd => Sys2Proof.Machine.execSeqNop dt cmd s
  | .seqSignal dt cmd => Sys2Proof.Machine.execSeqSignal dt cmd s
  | .seqWait dt cmd => Sys2Proof.Machine.execSeqWait dt cmd s
  | .seqWaitTimeout dt cmd => Sys2Proof.Machine.execSeqWaitTimeout dt cmd s
  | .seqSetEvent dt cmd => Sys2Proof.Machine.execSeqSetEvent dt cmd s
  | .seqTimer dt cmd => Sys2Proof.Machine.execSeqTimer dt cmd s
  | .seqTimerExpire dt cmd => Sys2Proof.Machine.execSeqTimerExpire dt cmd s
  | .seqRegWrite dt cmd => Sys2Proof.Machine.execSeqRegWrite dt cmd s
  | .seqRegRead dt cmd => Sys2Proof.Machine.execSeqRegRead dt cmd s
  | .seqMemWrite dt cmd => Sys2Proof.Machine.execSeqMemWrite dt cmd s
  | .seqCall dt cmd => Sys2Proof.Machine.execSeqCall dt cmd s
  | .seqBranch dt cmd => Sys2Proof.Machine.execSeqBranch dt cmd s
  | .seqLoopSet dt cmd => Sys2Proof.Machine.execSeqLoopSet dt cmd s
  | .seqLoop dt cmd => Sys2Proof.Machine.execSeqLoop dt cmd s
  | .seqDoorbell dt cmd => Sys2Proof.Machine.execSeqDoorbell dt cmd s
  | .queueStop dt cmd => Sys2Proof.Machine.execQueueStop dt cmd s
  | .queueStart dt cmd => Sys2Proof.Machine.execQueueStart dt cmd s
  | .queueStartSkip dt cmd => Sys2Proof.Machine.execQueueStartSkip dt cmd s
  | .queueFlush dt cmd => Sys2Proof.Machine.execQueueFlush dt cmd s
  | .queueFlushDiscard dt cmd => Sys2Proof.Machine.execQueueFlushDiscard dt cmd s
  | .queueRelease dt cmd => Sys2Proof.Machine.execQueueRelease dt cmd s
  | .seqAbort dt cmd => Sys2Proof.Machine.execSeqAbort dt cmd s
  | .seqNotify dt cmd => Sys2Proof.Machine.execSeqNotify dt cmd s
  | .jobWatchdogExpire dt p => Sys2Proof.Machine.execJobWatchdogExpire dt p s
  | .deadlockDetect dt p => Sys2Proof.Machine.execDeadlockDetect dt p s
  | .threadWatchdogExpire dt t => Sys2Proof.Machine.execThreadWatchdogExpire dt t s
  | .engineHeartbeatLoss dt cls inst last => Sys2Proof.Machine.execEngineHeartbeatLoss dt cls inst last s
  | .networkTimeout dt cls inst addr work => Sys2Proof.Machine.execNetworkTimeout dt cls inst addr work s
  | .lateResponse dt => Sys2Proof.Machine.execLateResponse dt s
  | .statusRead dt => Sys2Proof.Machine.execStatusRead dt s
  | .logRead dt => Sys2Proof.Machine.execLogRead dt s
  | .meterRead dt => Sys2Proof.Machine.execMeterRead dt s
  | .submit dt => Sys2Proof.Machine.execSubmit dt s
  | .abort dt => Sys2Proof.Machine.execAbort dt s
  | .responseItem dt q => Sys2Proof.Machine.execResponseItem dt q s
  | .refreshReportRead dt rates => Sys2Proof.Machine.execRefreshReportRead dt rates s
  | .csi2FrameStart dt port vc fn sub corrected => Sys2Proof.Machine.execCsi2FrameStart dt port vc fn sub corrected s
  | .csi2LinePacket dt port vc dtype line crcOk corrected sub => Sys2Proof.Machine.execCsi2LinePacket dt port vc dtype line crcOk corrected sub s
  | .csi2FrameEnd dt port vc fn corrected => Sys2Proof.Machine.execCsi2FrameEnd dt port vc fn corrected s
  | .csi2PacketDiscard dt port header => Sys2Proof.Machine.execCsi2PacketDiscard dt port header s
  | .streamWatchdogExpire dt n => Sys2Proof.Machine.execStreamWatchdogExpire dt n s
  | .visionItemComplete dt kind n => Sys2Proof.Machine.execVisionItemComplete dt kind n s
  | .visionKat dt chan bad => Sys2Proof.Machine.execVisionKat dt chan bad s
  | .lidarPacketParse dt lid => Sys2Proof.Machine.execLidarPacketParse dt lid s
  | .scanTimeout dt lid => Sys2Proof.Machine.execScanTimeout dt lid s
  | .lidarWatchdogExpire dt lid => Sys2Proof.Machine.execLidarWatchdogExpire dt lid s
  | .vfeSetCrop dt cmd => Sys2Proof.Machine.execVfeSetCrop dt cmd s
  | .vfeHold dt cmd => Sys2Proof.Machine.execVfeHold dt cmd s
  | .vfeRelease dt cmd => Sys2Proof.Machine.execVfeRelease dt cmd s
  | .vfeRoiResize dt cmd => Sys2Proof.Machine.execVfeRoiResize dt cmd s
  | .tcMma dt cmd faults => Sys2Proof.Machine.execTcMma dt cmd faults s
  | .tcTranspose dt cmd faults => Sys2Proof.Machine.execTcTranspose dt cmd faults s
  | .tcVop dt cmd faults => Sys2Proof.Machine.execTcVop dt cmd faults s
  | .tcVreduce dt cmd faults => Sys2Proof.Machine.execTcVreduce dt cmd faults s
  | .tcSoftmax dt cmd faults => Sys2Proof.Machine.execTcSoftmax dt cmd faults s
  | .tcNorm dt cmd faults => Sys2Proof.Machine.execTcNorm dt cmd faults s
  | .tcSelftest dt cmd faults => Sys2Proof.Machine.execTcSelftest dt cmd faults s
  | .tcConv dt cmd faults => Sys2Proof.Machine.execTcConv dt cmd faults s
  | .tcWconv dt cmd faults => Sys2Proof.Machine.execTcWconv dt cmd faults s
  | .tcWxform dt cmd faults => Sys2Proof.Machine.execTcWxform dt cmd faults s
  | .tcS2d dt cmd faults => Sys2Proof.Machine.execTcS2d dt cmd faults s
  | .tcD2s dt cmd faults => Sys2Proof.Machine.execTcD2s dt cmd faults s
  | .tcHalo dt cmd => Sys2Proof.Machine.execTcHalo dt cmd s
  | .scrubWindow dt ram b => Sys2Proof.Machine.execScrubWindow dt ram b s
  | .scrubForced dt ram => Sys2Proof.Machine.execScrubForced dt ram s
  | .patrolRead dt n => Sys2Proof.Machine.execPatrolRead dt n s
  | .linkEccReissue dt addr good work => Sys2Proof.Machine.execLinkEccReissue dt addr good work s
  | .copyLinear dt cmd => Sys2Proof.Machine.execCopyLinear dt cmd s
  | .copyStrided dt cmd => Sys2Proof.Machine.execCopyStrided dt cmd s
  | .copyTranspose dt cmd => Sys2Proof.Machine.execCopyTranspose dt cmd s
  | .copyFill dt cmd => Sys2Proof.Machine.execCopyFill dt cmd s
  | .embGather dt cmd faults => Sys2Proof.Machine.execEmbGather dt cmd faults s
  | .embPut dt cmd faults => Sys2Proof.Machine.execEmbPut dt cmd faults s
  | .selArgmax dt cmd bad => Sys2Proof.Machine.execSelArgmax dt cmd bad s
  | .selTopk dt cmd bad => Sys2Proof.Machine.execSelTopk dt cmd bad s
  | .selSample dt cmd bad => Sys2Proof.Machine.execSelSample dt cmd bad s
  | .selSort dt cmd bad => Sys2Proof.Machine.execSelSort dt cmd bad s
  | .streamSeed dt cmd => Sys2Proof.Machine.execStreamSeed dt cmd s
  | .streamSave dt cmd => Sys2Proof.Machine.execStreamSave dt cmd s
  | .streamLoad dt cmd => Sys2Proof.Machine.execStreamLoad dt cmd s
  | .streamClear dt cmd => Sys2Proof.Machine.execStreamClear dt cmd s
  | .selXmerge dt cmd bad => Sys2Proof.Machine.execSelXmerge dt cmd bad s
  | .xmergeListReceived dt bad => Sys2Proof.Machine.execXmergeListReceived dt bad s
  | .xmergeTimeout dt cmd => Sys2Proof.Machine.execXmergeTimeout dt cmd s
  | .xmergeHoldExpire dt => Sys2Proof.Machine.execXmergeHoldExpire dt s
  | .tokEncode dt cmd => Sys2Proof.Machine.execTokEncode dt cmd s
  | .tokDecode dt cmd => Sys2Proof.Machine.execTokDecode dt cmd s
  | .slotOpen dt cmd => Sys2Proof.Machine.execSlotOpen dt cmd s
  | .slotClose dt cmd => Sys2Proof.Machine.execSlotClose dt cmd s
  | .tokList dt cmd => Sys2Proof.Machine.execTokList dt cmd s
  | .tokMask dt cmd => Sys2Proof.Machine.execTokMask dt cmd s
  | .tokStep dt cmd => Sys2Proof.Machine.execTokStep dt cmd s
  | .sampleFrame dt inputs padA padB residue deadline readback => Sys2Proof.Machine.execSampleFrame dt inputs padA padB residue deadline readback s
  | .audioBlockEnd dt => Sys2Proof.Machine.execAudioBlockEnd dt s
  | .portLockLoss dt n => Sys2Proof.Machine.execPortLockLoss dt n s
  | .portRelock dt n => Sys2Proof.Machine.execPortRelock dt n s
  | .priorityMuteOnset dt b => Sys2Proof.Machine.execPriorityMuteOnset dt b s
  | .muteRelease dt => Sys2Proof.Machine.execMuteRelease dt s
  | .muteDiscrepancy dt => Sys2Proof.Machine.execMuteDiscrepancy dt s
  | .rateSwitch dt n => Sys2Proof.Machine.execRateSwitch dt n s
  | .slaveRateSettle dt n => Sys2Proof.Machine.execSlaveRateSettle dt n s
  | .hopComplete dt cap => Sys2Proof.Machine.execHopComplete dt cap s
  | .acuPlay dt cmd => Sys2Proof.Machine.execAcuPlay dt cmd s
  | .acuHold dt cmd => Sys2Proof.Machine.execAcuHold dt cmd s
  | .acuRelease dt cmd => Sys2Proof.Machine.execAcuRelease dt cmd s
  | .acuDuck dt cmd => Sys2Proof.Machine.execAcuDuck dt cmd s
  | .ancResume dt cmd => Sys2Proof.Machine.execAncResume dt cmd s
  | .ancHold dt cmd => Sys2Proof.Machine.execAncHold dt cmd s
  | .ancStop dt cmd => Sys2Proof.Machine.execAncStop dt cmd s
  | .acuRate dt cmd => Sys2Proof.Machine.execAcuRate dt cmd s
  | .meterSample dt xs => Sys2Proof.Machine.execMeterSample dt xs s
  | .cycleClose dt frac mhz ph => Sys2Proof.Machine.execCycleClose dt frac mhz ph s
  | .latch dt => Sys2Proof.Machine.execLatch dt s
  | .tideCommitComplete dt => Sys2Proof.Machine.execTideCommitComplete dt s
  | .mainsLockChange dt gained frac mhz ph => Sys2Proof.Machine.execMainsLockChange dt gained frac mhz ph s
  | .harmonicWindow dt harm derived => Sys2Proof.Machine.execHarmonicWindow dt harm derived s
  | .mclkFault dt on => Sys2Proof.Machine.execMclkFault dt on s
  | .channelFault dt c on => Sys2Proof.Machine.execChannelFault dt c on s
  | .overload dt c on => Sys2Proof.Machine.execOverload dt c on s
  | .pulseInputAccept dt k => Sys2Proof.Machine.execPulseInputAccept dt k s
  | .pulseOutputTimer dt j => Sys2Proof.Machine.execPulseOutputTimer dt j s
  | .mtrSnap dt cmd => Sys2Proof.Machine.execMtrSnap dt cmd s
  | .aonInputFail dt bak => Sys2Proof.Machine.execAonInputFail dt bak s
  | .aonInputValid dt bak => Sys2Proof.Machine.execAonInputValid dt bak s
  | .aonBackToMain dt => Sys2Proof.Machine.execAonBackToMain dt s
  | .railMonitorFault dt r on => Sys2Proof.Machine.execRailMonitorFault dt r on s
  | .domainPowerGoodTimeout dt d => Sys2Proof.Machine.execDomainPowerGoodTimeout dt d s
  | .clockMonitorWindow dt c count => Sys2Proof.Machine.execClockMonitorWindow dt c count s
  | .thermalReading dt readings => Sys2Proof.Machine.execThermalReading dt readings s
  | .lockstepMismatch dt pair => Sys2Proof.Machine.execLockstepMismatch dt pair s
  | .splitHandoverBegin dt => Sys2Proof.Machine.execSplitHandoverBegin dt s
  | .splitHandoverComplete dt mismatch => Sys2Proof.Machine.execSplitHandoverComplete dt mismatch s
  | .splitTimeout dt => Sys2Proof.Machine.execSplitTimeout dt s
  | .islandWatchdogExpire dt => Sys2Proof.Machine.execIslandWatchdogExpire dt s
  | .oscCrossCheck dt count => Sys2Proof.Machine.execOscCrossCheck dt count s
  | .faultRecordWrite dt => Sys2Proof.Machine.execFaultRecordWrite dt s
  | .islandRestart dt passed => Sys2Proof.Machine.execIslandRestart dt passed s
  | .computeResetAssert dt => Sys2Proof.Machine.execComputeResetAssert dt s
  | .computeResetRelease dt => Sys2Proof.Machine.execComputeResetRelease dt s
  | .islandSupervisionCycle dt reports => Sys2Proof.Machine.execIslandSupervisionCycle dt reports s
  | .pinReadbackSample dt faultPad hbPad => Sys2Proof.Machine.execPinReadbackSample dt faultPad hbPad s
  | .plogCountRead dt => Sys2Proof.Machine.execPlogCountRead dt s
  | .counterLowWordRead dt addr => Sys2Proof.Machine.execCounterLowWordRead dt addr s
  | .registerWrite dt addr value mask => Sys2Proof.Machine.execRegisterWrite dt addr value mask s
  | .ethFrameReceive dt p sub frame => Sys2Proof.Machine.execEthFrameReceive dt p sub frame s
  | .reassemblyTimeout dt p => Sys2Proof.Machine.execReassemblyTimeout dt p s
  | .responseSend dt iface => Sys2Proof.Machine.execResponseSend dt iface s
  | .canFrameReceive dt k id ide fd data => Sys2Proof.Machine.execCanFrameReceive dt k id ide fd data s
  | .canGapTimeout dt k => Sys2Proof.Machine.execCanGapTimeout dt k s
  | .reqDoorbell dt v data => Sys2Proof.Machine.execReqDoorbell dt v data s
  | .rspRptrWrite dt v => Sys2Proof.Machine.execRspRptrWrite dt v s
  | .intClear dt same => Sys2Proof.Machine.execIntClear dt same s
  | .pciePerstN dt level => Sys2Proof.Machine.execPciePerstN dt level s
  | .linkTrainingAttempt dt p st hello => Sys2Proof.Machine.execLinkTrainingAttempt dt p st hello s
  | .linkFrameReceive dt p frame => Sys2Proof.Machine.execLinkFrameReceive dt p frame s
  | .linkAckTimeout dt p => Sys2Proof.Machine.execLinkAckTimeout dt p s
  | .linkPut dt cmd => Sys2Proof.Machine.execLinkPut dt cmd s
  | .linkPutTimeout dt cmd => Sys2Proof.Machine.execLinkPutTimeout dt cmd s
  | .linkSio dt cmd fail reads => Sys2Proof.Machine.execLinkSio dt cmd fail reads s
  | .idcode dt => Sys2Proof.Machine.execIdcode dt s
  | .samplePreload dt pins shift => Sys2Proof.Machine.execSamplePreload dt pins shift s
  | .extest dt shift => Sys2Proof.Machine.execExtest dt shift s
  | .bypass dt code => Sys2Proof.Machine.execBypass dt code s
  | .dbgAuthCapture dt => Sys2Proof.Machine.execDbgAuthCapture dt s
  | .dbgAuthResponse dt resp => Sys2Proof.Machine.execDbgAuthResponse dt resp s
  | .dbgAcc dt addr data op => Sys2Proof.Machine.execDbgAcc dt addr data op s
  | .fuse dt f data verified => Sys2Proof.Machine.execFuse dt f data verified s
  | .trstNAssert dt low => Sys2Proof.Machine.execTrstNAssert dt low s
  | .dbgReturnWrite dt => Sys2Proof.Machine.execDbgReturnWrite dt s
  | .framDataRead dt => Sys2Proof.Machine.execFramDataRead dt s
  | .tmuxSelWrite dt n v => Sys2Proof.Machine.execTmuxSelWrite dt n v s
  | .portFirstLock dt n => Sys2Proof.Machine.execPortFirstLock dt n s
  | .pmicPgReturnWaitExpire dt => Sys2Proof.Machine.execPmicPgReturnWaitExpire dt s
  | .pulseInputEdge dt k level sub => Sys2Proof.Machine.execPulseInputEdge dt k level sub s
  | .ethLinkChange dt p up => Sys2Proof.Machine.execEthLinkChange dt p up s
  | .pcieLinkChange dt up gen width => Sys2Proof.Machine.execPcieLinkChange dt up gen width s
  | .canBusOff dt k state => Sys2Proof.Machine.execCanBusOff dt k state s
  | .pllLossOfLock dt p lost => Sys2Proof.Machine.execPllLossOfLock dt p lost s
  | .undefinedRequestType dt => Sys2Proof.Machine.execUndefinedRequestType dt s

end Sys2Proof.Machine
end

