-- ==== Sys2Proof/Safety.lean ====
section
/-!
DEFINITION. The terms in which claims are stated: canonical stores, what two states have in common, how a command stands, and
what fuses may become.
-/

namespace Sys2Proof.Machine

open Sys2Proof

/-- Every sparse store is in canonical form: keys strictly rising, and no entry that says what an unlisted key reads as. -/
def State.Canonical (s : State) : Prop :=
  Sparse.wf 0#32 s.regs = true ∧ Sparse.wf 0#8 s.mem = true ∧ Sparse.wf Health.good s.health = true ∧
  Sparse.wf 0#8 s.fram = true ∧ Sparse.wf 0#8 s.flash = true ∧ Sparse.wf 0#8 s.ufs = true ∧ Sparse.wf 0#32 s.events = true

/-- Every byte of memory reads in `t` as it does in `s`. -/
def SameMemory (s t : State) : Prop := ∀ a, t.byte a = s.byte a

/-- Every byte of memory outside `n` bytes from `a` reads in `t` as it does in `s`. -/
def SameMemoryBut (a n : Nat) (s t : State) : Prop := ∀ x, (x < a ∨ a + n ≤ x) → t.byte x = s.byte x

/-- Every register word reads in `t` as it does in `s`, but for the words of the listed fields, each with its two indices. -/
def SameRegistersBut (l : List (RegRow × Nat × Nat)) (s t : State) : Prop :=
  ∀ a, (∀ x ∈ l, a < x.1.at x.2.1 x.2.2 ∨ x.1.at x.2.1 x.2.2 + 4 * x.1.words ≤ a) → t.regWord a = s.regWord a

/-- Command `id` is executed: its completion is due, with a status, a DETAIL and units of work done. -/
def State.Executed (s : State) (id status detail units : Nat) : Prop :=
  ∃ c, s.cmd? id = some c ∧ c.stage = .done ∧ c.status = status ∧ c.detail = detail ∧ c.units = units

/-- Every command but `id` stands in `t` as it does in `s`. -/
def SameCommandsBut (id : Nat) (s t : State) : Prop := ∀ k, k ≠ id → t.cmd? k = s.cmd? k

/-- The fuses `y` are fuses `x` with nothing taken back: a programmed key hash, key or revocation stays, the security version does
not fall, the lifecycle does not go back, and the die's identifier is the same. -/
def Fuses.Advance (x y : Fuses) : Prop :=
  (∀ k ∈ x.keyHash, k ∈ y.keyHash) ∧ (∀ k ∈ x.revoked, k ∈ y.revoked) ∧ x.svn ≤ y.svn ∧
  (∀ k, x.imageKey = some k → y.imageKey = some k) ∧ (x.imageKeyOff = true → y.imageKeyOff = true) ∧
  (∀ k, x.debugKey = some k → y.debugKey = some k) ∧ x.lifecycle ≤ y.lifecycle ∧ y.dieId = x.dieId

end Sys2Proof.Machine

namespace Sys2Proof

/-- The commands that can change a fuse: those that begin a cold start (a lifecycle change takes effect at the next cold
start, R696), DONE (security versions, R91), and the debug port's accesses and fuse writes (R695, R696). -/
def Instr.blowsFuses : Instr → Bool
  | .powerOnResetRelease _ _ _ => true
  | .powerOnResetEntry _ => true
  | .porstNRelease _ _ => true
  | .startRetryDelayExpire _ => true
  | .pmicPgReturnWaitExpire _ => true
  | .startDone _ => true
  | .dbgAcc _ _ _ _ => true
  | .fuse _ _ _ _ => true
  | .dbgReturnWrite _ => true
  | _ => false

end Sys2Proof
end

