-- ==== Sys2Proof/WellFormed.lean ====
section
/-!
DEFINITION. Which commands name something that exists: the elapsed time and the ranges of the operands.
-/

namespace Sys2Proof

/-- The core a fault is of, one of sixteen, and the bit of a 32-bit word that it flips. -/
def TcFault.wf : TcFault → Bool
  | .weight core _ _ _ bit => decide (core < 16 ∧ bit < 32)
  | .drain core _ _ _ bit => decide (core < 16 ∧ bit < 32)
  | .checker core _ => decide (core < 16)
  | .feed core _ _ => decide (core < 16)
  | .residue core _ => decide (core < 16)
  | .parity core _ => decide (core < 16)
  | .kat core => decide (core < 16)

/-- Bytes of the value programmed into a fuse field (Table 20.2). -/
def FuseField.bytes : FuseField → Nat
  | .keyHash _ => 48
  | .revoke _ => 0
  | .svn => 4
  | .imageKey => 32
  | .debugKeyHash => 48
  | .lifecycle => 0

/-- The reference ticks since the previous command. -/
def Instr.dt : Instr → Nat
  | .powerOnResetRelease dt _ _ | .powerOnResetEntry dt | .porstNRelease dt _ | .porstNAssert dt | .aonStep dt
  | .islandStep dt _ _ | .selectStep dt _ | .verifyStep dt _ | .sealStep dt | .dramStep dt _ | .bistStep dt _
  | .weightsStep dt _ | .linksStep dt | .bringupStep dt _ _ _ | .armStep dt | .acqWaitExpire dt | .startDone dt
  | .startStepTimeout dt | .startRetryDelayExpire dt | .warmStart dt | .pmicPgFall dt _ | .pmicPgRise dt
  | .orbitRateCheck dt _ | .syncReceived dt _ | .syncReceiptTimeout dt | .holdLimitExpire dt | .fgFramePending dt _
  | .fgDeadline dt _ | .fgDescriptorEmit dt _ | .commandPick dt _ | .commandComplete dt _ | .checkpoint dt _
  | .cqRecordRelease dt _ | .seqNop dt _ | .seqSignal dt _ | .seqWait dt _ | .seqWaitTimeout dt _ | .seqSetEvent dt _
  | .seqTimer dt _ | .seqTimerExpire dt _ | .seqRegWrite dt _ | .seqRegRead dt _ | .seqMemWrite dt _ | .seqCall dt _
  | .seqBranch dt _ | .seqLoopSet dt _ | .seqLoop dt _ | .seqDoorbell dt _ | .queueStop dt _ | .queueStart dt _
  | .queueStartSkip dt _ | .queueFlush dt _ | .queueFlushDiscard dt _ | .queueRelease dt _ | .seqAbort dt _
  | .seqNotify dt _ | .jobWatchdogExpire dt _ | .deadlockDetect dt _ | .threadWatchdogExpire dt _
  | .engineHeartbeatLoss dt _ _ _ | .networkTimeout dt _ _ _ _ | .lateResponse dt | .statusRead dt | .logRead dt
  | .meterRead dt | .submit dt | .abort dt | .responseItem dt _ | .refreshReportRead dt _
  | .csi2FrameStart dt _ _ _ _ _ | .csi2LinePacket dt _ _ _ _ _ _ _ | .csi2FrameEnd dt _ _ _ _
  | .csi2PacketDiscard dt _ _ | .streamWatchdogExpire dt _ | .visionItemComplete dt _ _ | .visionKat dt _ _
  | .lidarPacketParse dt _ | .scanTimeout dt _ | .lidarWatchdogExpire dt _ | .vfeSetCrop dt _ | .vfeHold dt _
  | .vfeRelease dt _ | .vfeRoiResize dt _ | .tcMma dt _ _ | .tcTranspose dt _ _ | .tcVop dt _ _ | .tcVreduce dt _ _
  | .tcSoftmax dt _ _ | .tcNorm dt _ _ | .tcSelftest dt _ _ | .tcConv dt _ _ | .tcWconv dt _ _ | .tcWxform dt _ _
  | .tcS2d dt _ _ | .tcD2s dt _ _ | .tcHalo dt _ | .scrubWindow dt _ _ | .scrubForced dt _ | .patrolRead dt _
  | .linkEccReissue dt _ _ _ | .copyLinear dt _ | .copyStrided dt _ | .copyTranspose dt _ | .copyFill dt _
  | .embGather dt _ _ | .embPut dt _ _ | .selArgmax dt _ _ | .selTopk dt _ _ | .selSample dt _ _ | .selSort dt _ _
  | .streamSeed dt _ | .streamSave dt _ | .streamLoad dt _ | .streamClear dt _ | .selXmerge dt _ _
  | .xmergeListReceived dt _ | .xmergeTimeout dt _ | .xmergeHoldExpire dt | .tokEncode dt _ | .tokDecode dt _
  | .slotOpen dt _ | .slotClose dt _ | .tokList dt _ | .tokMask dt _ | .tokStep dt _ | .sampleFrame dt _ _ _ _ _ _
  | .audioBlockEnd dt | .portLockLoss dt _ | .portRelock dt _ | .priorityMuteOnset dt _ | .muteRelease dt
  | .muteDiscrepancy dt | .rateSwitch dt _ | .slaveRateSettle dt _ | .hopComplete dt _ | .acuPlay dt _
  | .acuHold dt _ | .acuRelease dt _ | .acuDuck dt _ | .ancResume dt _ | .ancHold dt _ | .ancStop dt _
  | .acuRate dt _ | .meterSample dt _ | .cycleClose dt _ _ _ | .latch dt | .tideCommitComplete dt
  | .mainsLockChange dt _ _ _ _ | .harmonicWindow dt _ _ | .mclkFault dt _ | .channelFault dt _ _ | .overload dt _ _
  | .pulseInputAccept dt _ | .pulseOutputTimer dt _ | .mtrSnap dt _ | .aonInputFail dt _ | .aonInputValid dt _
  | .aonBackToMain dt | .railMonitorFault dt _ _ | .domainPowerGoodTimeout dt _ | .clockMonitorWindow dt _ _
  | .thermalReading dt _ | .lockstepMismatch dt _ | .splitHandoverBegin dt | .splitHandoverComplete dt _
  | .splitTimeout dt | .islandWatchdogExpire dt | .oscCrossCheck dt _ | .faultRecordWrite dt | .islandRestart dt _
  | .computeResetAssert dt | .computeResetRelease dt | .islandSupervisionCycle dt _ | .pinReadbackSample dt _ _
  | .plogCountRead dt | .counterLowWordRead dt _ | .registerWrite dt _ _ _ | .ethFrameReceive dt _ _ _
  | .reassemblyTimeout dt _ | .responseSend dt _ | .canFrameReceive dt _ _ _ _ _ | .canGapTimeout dt _
  | .reqDoorbell dt _ _ | .rspRptrWrite dt _ | .intClear dt _ | .pciePerstN dt _ | .linkTrainingAttempt dt _ _ _
  | .linkFrameReceive dt _ _ | .linkAckTimeout dt _ | .linkPut dt _ | .linkPutTimeout dt _ | .linkSio dt _ _ _
  | .idcode dt | .samplePreload dt _ _ | .extest dt _ | .bypass dt _ | .dbgAuthCapture dt | .dbgAuthResponse dt _
  | .dbgAcc dt _ _ _ | .fuse dt _ _ _ | .trstNAssert dt _ | .dbgReturnWrite dt | .framDataRead dt
  | .tmuxSelWrite dt _ _ | .portFirstLock dt _ | .pmicPgReturnWaitExpire dt | .pulseInputEdge dt _ _ _
  | .ethLinkChange dt _ _ | .pcieLinkChange dt _ _ _ | .canBusOff dt _ _ | .pllLossOfLock dt _ _
  | .undefinedRequestType dt => dt

/-- The same command after another time. -/
def Instr.after (ticks : Nat) : Instr → Instr
  | .powerOnResetRelease _ main bak => .powerOnResetRelease ticks main bak
  | .powerOnResetEntry _ => .powerOnResetEntry ticks
  | .porstNRelease _ low => .porstNRelease ticks low
  | .porstNAssert _ => .porstNAssert ticks
  | .aonStep _ => .aonStep ticks
  | .islandStep _ bist passed => .islandStep ticks bist passed
  | .selectStep _ strobe => .selectStep ticks strobe
  | .verifyStep _ strobe => .verifyStep ticks strobe
  | .sealStep _ => .sealStep ticks
  | .dramStep _ trained => .dramStep ticks trained
  | .bistStep _ failed => .bistStep ticks failed
  | .weightsStep _ fails => .weightsStep ticks fails
  | .linksStep _ => .linksStep ticks
  | .bringupStep _ kats drbg sio => .bringupStep ticks kats drbg sio
  | .armStep _ => .armStep ticks
  | .acqWaitExpire _ => .acqWaitExpire ticks
  | .startDone _ => .startDone ticks
  | .startStepTimeout _ => .startStepTimeout ticks
  | .startRetryDelayExpire _ => .startRetryDelayExpire ticks
  | .warmStart _ => .warmStart ticks
  | .pmicPgFall _ kept => .pmicPgFall ticks kept
  | .pmicPgRise _ => .pmicPgRise ticks
  | .orbitRateCheck _ progress => .orbitRateCheck ticks progress
  | .syncReceived _ msgs => .syncReceived ticks msgs
  | .syncReceiptTimeout _ => .syncReceiptTimeout ticks
  | .holdLimitExpire _ => .holdLimitExpire ticks
  | .fgFramePending _ g => .fgFramePending ticks g
  | .fgDeadline _ g => .fgDeadline ticks g
  | .fgDescriptorEmit _ g => .fgDescriptorEmit ticks g
  | .commandPick _ ts => .commandPick ticks ts
  | .commandComplete _ cmd => .commandComplete ticks cmd
  | .checkpoint _ cmd => .checkpoint ticks cmd
  | .cqRecordRelease _ cq => .cqRecordRelease ticks cq
  | .seqNop _ cmd => .seqNop ticks cmd
  | .seqSignal _ cmd => .seqSignal ticks cmd
  | .seqWait _ cmd => .seqWait ticks cmd
  | .seqWaitTimeout _ cmd => .seqWaitTimeout ticks cmd
  | .seqSetEvent _ cmd => .seqSetEvent ticks cmd
  | .seqTimer _ cmd => .seqTimer ticks cmd
  | .seqTimerExpire _ cmd => .seqTimerExpire ticks cmd
  | .seqRegWrite _ cmd => .seqRegWrite ticks cmd
  | .seqRegRead _ cmd => .seqRegRead ticks cmd
  | .seqMemWrite _ cmd => .seqMemWrite ticks cmd
  | .seqCall _ cmd => .seqCall ticks cmd
  | .seqBranch _ cmd => .seqBranch ticks cmd
  | .seqLoopSet _ cmd => .seqLoopSet ticks cmd
  | .seqLoop _ cmd => .seqLoop ticks cmd
  | .seqDoorbell _ cmd => .seqDoorbell ticks cmd
  | .queueStop _ cmd => .queueStop ticks cmd
  | .queueStart _ cmd => .queueStart ticks cmd
  | .queueStartSkip _ cmd => .queueStartSkip ticks cmd
  | .queueFlush _ cmd => .queueFlush ticks cmd
  | .queueFlushDiscard _ cmd => .queueFlushDiscard ticks cmd
  | .queueRelease _ cmd => .queueRelease ticks cmd
  | .seqAbort _ cmd => .seqAbort ticks cmd
  | .seqNotify _ cmd => .seqNotify ticks cmd
  | .jobWatchdogExpire _ p => .jobWatchdogExpire ticks p
  | .deadlockDetect _ p => .deadlockDetect ticks p
  | .threadWatchdogExpire _ t => .threadWatchdogExpire ticks t
  | .engineHeartbeatLoss _ cls inst last => .engineHeartbeatLoss ticks cls inst last
  | .networkTimeout _ cls inst addr work => .networkTimeout ticks cls inst addr work
  | .lateResponse _ => .lateResponse ticks
  | .statusRead _ => .statusRead ticks
  | .logRead _ => .logRead ticks
  | .meterRead _ => .meterRead ticks
  | .submit _ => .submit ticks
  | .abort _ => .abort ticks
  | .responseItem _ q => .responseItem ticks q
  | .refreshReportRead _ rates => .refreshReportRead ticks rates
  | .csi2FrameStart _ port vc fn sub corrected => .csi2FrameStart ticks port vc fn sub corrected
  | .csi2LinePacket _ port vc dtype line crcOk corrected sub => .csi2LinePacket ticks port vc dtype line crcOk corrected sub
  | .csi2FrameEnd _ port vc fn corrected => .csi2FrameEnd ticks port vc fn corrected
  | .csi2PacketDiscard _ port header => .csi2PacketDiscard ticks port header
  | .streamWatchdogExpire _ n => .streamWatchdogExpire ticks n
  | .visionItemComplete _ kind n => .visionItemComplete ticks kind n
  | .visionKat _ chan bad => .visionKat ticks chan bad
  | .lidarPacketParse _ lid => .lidarPacketParse ticks lid
  | .scanTimeout _ lid => .scanTimeout ticks lid
  | .lidarWatchdogExpire _ lid => .lidarWatchdogExpire ticks lid
  | .vfeSetCrop _ cmd => .vfeSetCrop ticks cmd
  | .vfeHold _ cmd => .vfeHold ticks cmd
  | .vfeRelease _ cmd => .vfeRelease ticks cmd
  | .vfeRoiResize _ cmd => .vfeRoiResize ticks cmd
  | .tcMma _ cmd faults => .tcMma ticks cmd faults
  | .tcTranspose _ cmd faults => .tcTranspose ticks cmd faults
  | .tcVop _ cmd faults => .tcVop ticks cmd faults
  | .tcVreduce _ cmd faults => .tcVreduce ticks cmd faults
  | .tcSoftmax _ cmd faults => .tcSoftmax ticks cmd faults
  | .tcNorm _ cmd faults => .tcNorm ticks cmd faults
  | .tcSelftest _ cmd faults => .tcSelftest ticks cmd faults
  | .tcConv _ cmd faults => .tcConv ticks cmd faults
  | .tcWconv _ cmd faults => .tcWconv ticks cmd faults
  | .tcWxform _ cmd faults => .tcWxform ticks cmd faults
  | .tcS2d _ cmd faults => .tcS2d ticks cmd faults
  | .tcD2s _ cmd faults => .tcD2s ticks cmd faults
  | .tcHalo _ cmd => .tcHalo ticks cmd
  | .scrubWindow _ ram b => .scrubWindow ticks ram b
  | .scrubForced _ ram => .scrubForced ticks ram
  | .patrolRead _ n => .patrolRead ticks n
  | .linkEccReissue _ addr good work => .linkEccReissue ticks addr good work
  | .copyLinear _ cmd => .copyLinear ticks cmd
  | .copyStrided _ cmd => .copyStrided ticks cmd
  | .copyTranspose _ cmd => .copyTranspose ticks cmd
  | .copyFill _ cmd => .copyFill ticks cmd
  | .embGather _ cmd faults => .embGather ticks cmd faults
  | .embPut _ cmd faults => .embPut ticks cmd faults
  | .selArgmax _ cmd bad => .selArgmax ticks cmd bad
  | .selTopk _ cmd bad => .selTopk ticks cmd bad
  | .selSample _ cmd bad => .selSample ticks cmd bad
  | .selSort _ cmd bad => .selSort ticks cmd bad
  | .streamSeed _ cmd => .streamSeed ticks cmd
  | .streamSave _ cmd => .streamSave ticks cmd
  | .streamLoad _ cmd => .streamLoad ticks cmd
  | .streamClear _ cmd => .streamClear ticks cmd
  | .selXmerge _ cmd bad => .selXmerge ticks cmd bad
  | .xmergeListReceived _ bad => .xmergeListReceived ticks bad
  | .xmergeTimeout _ cmd => .xmergeTimeout ticks cmd
  | .xmergeHoldExpire _ => .xmergeHoldExpire ticks
  | .tokEncode _ cmd => .tokEncode ticks cmd
  | .tokDecode _ cmd => .tokDecode ticks cmd
  | .slotOpen _ cmd => .slotOpen ticks cmd
  | .slotClose _ cmd => .slotClose ticks cmd
  | .tokList _ cmd => .tokList ticks cmd
  | .tokMask _ cmd => .tokMask ticks cmd
  | .tokStep _ cmd => .tokStep ticks cmd
  | .sampleFrame _ inputs padA padB residue deadline readback => .sampleFrame ticks inputs padA padB residue deadline readback
  | .audioBlockEnd _ => .audioBlockEnd ticks
  | .portLockLoss _ n => .portLockLoss ticks n
  | .portRelock _ n => .portRelock ticks n
  | .priorityMuteOnset _ b => .priorityMuteOnset ticks b
  | .muteRelease _ => .muteRelease ticks
  | .muteDiscrepancy _ => .muteDiscrepancy ticks
  | .rateSwitch _ n => .rateSwitch ticks n
  | .slaveRateSettle _ n => .slaveRateSettle ticks n
  | .hopComplete _ cap => .hopComplete ticks cap
  | .acuPlay _ cmd => .acuPlay ticks cmd
  | .acuHold _ cmd => .acuHold ticks cmd
  | .acuRelease _ cmd => .acuRelease ticks cmd
  | .acuDuck _ cmd => .acuDuck ticks cmd
  | .ancResume _ cmd => .ancResume ticks cmd
  | .ancHold _ cmd => .ancHold ticks cmd
  | .ancStop _ cmd => .ancStop ticks cmd
  | .acuRate _ cmd => .acuRate ticks cmd
  | .meterSample _ xs => .meterSample ticks xs
  | .cycleClose _ frac mhz ph => .cycleClose ticks frac mhz ph
  | .latch _ => .latch ticks
  | .tideCommitComplete _ => .tideCommitComplete ticks
  | .mainsLockChange _ gained frac mhz ph => .mainsLockChange ticks gained frac mhz ph
  | .harmonicWindow _ harm derived => .harmonicWindow ticks harm derived
  | .mclkFault _ on => .mclkFault ticks on
  | .channelFault _ c on => .channelFault ticks c on
  | .overload _ c on => .overload ticks c on
  | .pulseInputAccept _ k => .pulseInputAccept ticks k
  | .pulseOutputTimer _ j => .pulseOutputTimer ticks j
  | .mtrSnap _ cmd => .mtrSnap ticks cmd
  | .aonInputFail _ bak => .aonInputFail ticks bak
  | .aonInputValid _ bak => .aonInputValid ticks bak
  | .aonBackToMain _ => .aonBackToMain ticks
  | .railMonitorFault _ r on => .railMonitorFault ticks r on
  | .domainPowerGoodTimeout _ d => .domainPowerGoodTimeout ticks d
  | .clockMonitorWindow _ c count => .clockMonitorWindow ticks c count
  | .thermalReading _ readings => .thermalReading ticks readings
  | .lockstepMismatch _ pair => .lockstepMismatch ticks pair
  | .splitHandoverBegin _ => .splitHandoverBegin ticks
  | .splitHandoverComplete _ mismatch => .splitHandoverComplete ticks mismatch
  | .splitTimeout _ => .splitTimeout ticks
  | .islandWatchdogExpire _ => .islandWatchdogExpire ticks
  | .oscCrossCheck _ count => .oscCrossCheck ticks count
  | .faultRecordWrite _ => .faultRecordWrite ticks
  | .islandRestart _ passed => .islandRestart ticks passed
  | .computeResetAssert _ => .computeResetAssert ticks
  | .computeResetRelease _ => .computeResetRelease ticks
  | .islandSupervisionCycle _ reports => .islandSupervisionCycle ticks reports
  | .pinReadbackSample _ faultPad hbPad => .pinReadbackSample ticks faultPad hbPad
  | .plogCountRead _ => .plogCountRead ticks
  | .counterLowWordRead _ addr => .counterLowWordRead ticks addr
  | .registerWrite _ addr value mask => .registerWrite ticks addr value mask
  | .ethFrameReceive _ p sub frame => .ethFrameReceive ticks p sub frame
  | .reassemblyTimeout _ p => .reassemblyTimeout ticks p
  | .responseSend _ iface => .responseSend ticks iface
  | .canFrameReceive _ k id ide fd data => .canFrameReceive ticks k id ide fd data
  | .canGapTimeout _ k => .canGapTimeout ticks k
  | .reqDoorbell _ v data => .reqDoorbell ticks v data
  | .rspRptrWrite _ v => .rspRptrWrite ticks v
  | .intClear _ same => .intClear ticks same
  | .pciePerstN _ level => .pciePerstN ticks level
  | .linkTrainingAttempt _ p st hello => .linkTrainingAttempt ticks p st hello
  | .linkFrameReceive _ p frame => .linkFrameReceive ticks p frame
  | .linkAckTimeout _ p => .linkAckTimeout ticks p
  | .linkPut _ cmd => .linkPut ticks cmd
  | .linkPutTimeout _ cmd => .linkPutTimeout ticks cmd
  | .linkSio _ cmd fail reads => .linkSio ticks cmd fail reads
  | .idcode _ => .idcode ticks
  | .samplePreload _ pins shift => .samplePreload ticks pins shift
  | .extest _ shift => .extest ticks shift
  | .bypass _ code => .bypass ticks code
  | .dbgAuthCapture _ => .dbgAuthCapture ticks
  | .dbgAuthResponse _ resp => .dbgAuthResponse ticks resp
  | .dbgAcc _ addr data op => .dbgAcc ticks addr data op
  | .fuse _ f data verified => .fuse ticks f data verified
  | .trstNAssert _ low => .trstNAssert ticks low
  | .dbgReturnWrite _ => .dbgReturnWrite ticks
  | .framDataRead _ => .framDataRead ticks
  | .tmuxSelWrite _ n v => .tmuxSelWrite ticks n v
  | .portFirstLock _ n => .portFirstLock ticks n
  | .pmicPgReturnWaitExpire _ => .pmicPgReturnWaitExpire ticks
  | .pulseInputEdge _ k level sub => .pulseInputEdge ticks k level sub
  | .ethLinkChange _ p up => .ethLinkChange ticks p up
  | .pcieLinkChange _ up gen width => .pcieLinkChange ticks up gen width
  | .canBusOff _ k state => .canBusOff ticks k state
  | .pllLossOfLock _ p lost => .pllLossOfLock ticks p lost
  | .undefinedRequestType _ => .undefinedRequestType ticks

/-- Every operand is in the range of what it names: a unit that exists, an address of the address space, a word of its width.
A command outside it has no sender: its meaning lets time pass. -/
def Instr.wf : Instr → Bool
  | .islandStep _ _ passed => passed.all (· < 9)
  | .bistStep _ failed => failed.all (· < 16)
  | .syncReceived _ msgs => msgs.all fun m => decide (m.port < 2)
  | .fgFramePending _ g => decide (g < 32)
  | .fgDeadline _ g => decide (g < 32)
  | .fgDescriptorEmit _ g => decide (g < 32)
  | .commandPick _ ts => ts.all (· < 64)
  | .cqRecordRelease _ cq => decide (cq < 512)
  | .jobWatchdogExpire _ p => decide (p < 4)
  | .deadlockDetect _ p => decide (p < 4)
  | .threadWatchdogExpire _ t => decide (t < 64)
  | .engineHeartbeatLoss _ cls _ _ => decide (1 ≤ cls ∧ cls ≤ 9)
  | .networkTimeout _ _ _ addr _ => decide (addr < 2 ^ 48)
  | .responseItem _ q => decide (q < 512)
  | .refreshReportRead _ rates => decide (rates.length = 32) && rates.all (· < 4)
  | .csi2FrameStart _ port vc fn _ _ => decide (port < 8 ∧ vc < 16 ∧ fn < 2 ^ 16)
  | .csi2LinePacket _ port vc dtype _ _ _ _ => decide (port < 8 ∧ vc < 16 ∧ dtype < 64)
  | .csi2FrameEnd _ port vc fn _ => decide (port < 8 ∧ vc < 16 ∧ fn < 2 ^ 16)
  | .csi2PacketDiscard _ port _ => decide (port < 8)
  | .streamWatchdogExpire _ n => decide (n < 16)
  | .visionItemComplete _ kind _ => decide (kind ≤ 4)
  | .visionKat _ chan _ => decide (chan < 32)
  | .lidarPacketParse _ lid => decide (lid < 4)
  | .scanTimeout _ lid => decide (lid < 4)
  | .lidarWatchdogExpire _ lid => decide (lid < 4)
  | .tcMma _ _ faults => faults.all TcFault.wf
  | .tcTranspose _ _ faults => faults.all TcFault.wf
  | .tcVop _ _ faults => faults.all TcFault.wf
  | .tcVreduce _ _ faults => faults.all TcFault.wf
  | .tcSoftmax _ _ faults => faults.all TcFault.wf
  | .tcNorm _ _ faults => faults.all TcFault.wf
  | .tcSelftest _ _ faults => faults.all TcFault.wf
  | .tcConv _ _ faults => faults.all TcFault.wf
  | .tcWconv _ _ faults => faults.all TcFault.wf
  | .tcWxform _ _ faults => faults.all TcFault.wf
  | .tcS2d _ _ faults => faults.all TcFault.wf
  | .tcD2s _ _ faults => faults.all TcFault.wf
  | .scrubWindow _ ram _ => decide (ram < 18 ∨ (0x100 ≤ ram ∧ ram < 0x110))
  | .scrubForced _ ram => decide (ram < 18 ∨ (0x100 ≤ ram ∧ ram < 0x110))
  | .patrolRead _ n => decide (0 < n)
  | .linkEccReissue _ addr _ _ => decide (addr < 2 ^ 48)
  | .embGather _ _ faults => faults.all fun f => decide (f.unit < 4)
  | .embPut _ _ faults => faults.all fun f => decide (f.unit < 4)
  | .sampleFrame _ _ _ _ _ _ readback => readback.all (· < 6)
  | .portLockLoss _ n => decide (n < 6)
  | .portRelock _ n => decide (n < 6)
  | .rateSwitch _ n => decide (n < 6)
  | .slaveRateSettle _ n => decide (n < 6)
  | .hopComplete _ cap => decide (cap < 4)
  | .channelFault _ c _ => decide (c < 10)
  | .overload _ c _ => decide (c < 10)
  | .pulseInputAccept _ k => decide (k < 4)
  | .pulseOutputTimer _ j => decide (j < 2)
  | .railMonitorFault _ r _ => decide (r < 6)
  | .domainPowerGoodTimeout _ d => decide (1 ≤ d ∧ d ≤ 14)
  | .clockMonitorWindow _ c _ => decide (1 ≤ c ∧ c < 26)
  | .thermalReading _ readings => decide (readings.length = 10)
  | .lockstepMismatch _ pair => decide (pair < 9)
  | .counterLowWordRead _ addr => decide (addr < 2 ^ 48 ∧ addr % 4 = 0)
  | .registerWrite _ addr value mask => decide (addr < 2 ^ 48 ∧ addr % 4 = 0 ∧ value < 2 ^ 32 ∧ mask < 2 ^ 32)
  | .ethFrameReceive _ p _ _ => decide (p < 2)
  | .reassemblyTimeout _ p => decide (p < 2)
  | .responseSend _ iface => decide (iface < 7)
  | .canFrameReceive _ k id _ _ data => decide (k < 4 ∧ id < 2 ^ 29 ∧ data.length ≤ 64)
  | .canGapTimeout _ k => decide (k < 4)
  | .reqDoorbell _ v _ => decide (v < 2 ^ 32)
  | .rspRptrWrite _ v => decide (v < 2 ^ 32)
  | .linkTrainingAttempt _ p _ _ => decide (p < 2)
  | .linkFrameReceive _ p _ => decide (p < 2)
  | .linkAckTimeout _ p => decide (p < 2)
  | .bypass _ code => decide (code < 32)
  | .dbgAcc _ addr data op => decide (addr < 2 ^ 48 ∧ data < 2 ^ 32 ∧ op < 4)
  | .fuse _ f data _ => decide (data.length = f.bytes)
  | .tmuxSelWrite _ n v => decide (n < 16 ∧ v < 2 ^ 32)
  | .portFirstLock _ n => decide (n < 6)
  | .pulseInputEdge _ k _ _ => decide (k < 4)
  | .ethLinkChange _ p _ => decide (p < 2)
  | .canBusOff _ k state => decide (k < 4 ∧ state ≤ 2)
  | .pllLossOfLock _ p _ => decide (p < 11)
  | .powerOnResetRelease _ _ _ | .powerOnResetEntry _ | .porstNRelease _ _ | .porstNAssert _ | .aonStep _
  | .selectStep _ _ | .verifyStep _ _ | .sealStep _ | .dramStep _ _ | .weightsStep _ _ | .linksStep _
  | .bringupStep _ _ _ _ | .armStep _ | .acqWaitExpire _ | .startDone _ | .startStepTimeout _
  | .startRetryDelayExpire _ | .warmStart _ | .pmicPgFall _ _ | .pmicPgRise _ | .orbitRateCheck _ _
  | .syncReceiptTimeout _ | .holdLimitExpire _ | .commandComplete _ _ | .checkpoint _ _ | .seqNop _ _
  | .seqSignal _ _ | .seqWait _ _ | .seqWaitTimeout _ _ | .seqSetEvent _ _ | .seqTimer _ _ | .seqTimerExpire _ _
  | .seqRegWrite _ _ | .seqRegRead _ _ | .seqMemWrite _ _ | .seqCall _ _ | .seqBranch _ _ | .seqLoopSet _ _
  | .seqLoop _ _ | .seqDoorbell _ _ | .queueStop _ _ | .queueStart _ _ | .queueStartSkip _ _ | .queueFlush _ _
  | .queueFlushDiscard _ _ | .queueRelease _ _ | .seqAbort _ _ | .seqNotify _ _ | .lateResponse _ | .statusRead _
  | .logRead _ | .meterRead _ | .submit _ | .abort _ | .vfeSetCrop _ _ | .vfeHold _ _ | .vfeRelease _ _
  | .vfeRoiResize _ _ | .tcHalo _ _ | .copyLinear _ _ | .copyStrided _ _ | .copyTranspose _ _ | .copyFill _ _
  | .selArgmax _ _ _ | .selTopk _ _ _ | .selSample _ _ _ | .selSort _ _ _ | .streamSeed _ _ | .streamSave _ _
  | .streamLoad _ _ | .streamClear _ _ | .selXmerge _ _ _ | .xmergeListReceived _ _ | .xmergeTimeout _ _
  | .xmergeHoldExpire _ | .tokEncode _ _ | .tokDecode _ _ | .slotOpen _ _ | .slotClose _ _ | .tokList _ _
  | .tokMask _ _ | .tokStep _ _ | .audioBlockEnd _ | .priorityMuteOnset _ _ | .muteRelease _ | .muteDiscrepancy _
  | .acuPlay _ _ | .acuHold _ _ | .acuRelease _ _ | .acuDuck _ _ | .ancResume _ _ | .ancHold _ _ | .ancStop _ _
  | .acuRate _ _ | .meterSample _ _ | .cycleClose _ _ _ _ | .latch _ | .tideCommitComplete _
  | .mainsLockChange _ _ _ _ _ | .harmonicWindow _ _ _ | .mclkFault _ _ | .mtrSnap _ _ | .aonInputFail _ _
  | .aonInputValid _ _ | .aonBackToMain _ | .splitHandoverBegin _ | .splitHandoverComplete _ _ | .splitTimeout _
  | .islandWatchdogExpire _ | .oscCrossCheck _ _ | .faultRecordWrite _ | .islandRestart _ _ | .computeResetAssert _
  | .computeResetRelease _ | .islandSupervisionCycle _ _ | .pinReadbackSample _ _ _ | .plogCountRead _
  | .intClear _ _ | .pciePerstN _ _ | .linkPut _ _ | .linkPutTimeout _ _ | .linkSio _ _ _ _ | .idcode _
  | .samplePreload _ _ _ | .extest _ _ | .dbgAuthCapture _ | .dbgAuthResponse _ _ | .trstNAssert _ _
  | .dbgReturnWrite _ | .framDataRead _ | .pmicPgReturnWaitExpire _ | .pcieLinkChange _ _ _ _
  | .undefinedRequestType _ => true

end Sys2Proof
end

