-- ==== Sys2Proof/Certificates/Slice0/Obligations.lean ====
section
/-!
DEFINITION. The statements for the provers: what commands and the whole machine do, as the rules of spec/ give it.  Each names a
reading of the log only where its docstring says so; "completes" always means that exec answers a next state.
-/

open Sys2Proof Sys2Proof.Machine

/-! ### The machine as a whole -/

/-- A step takes the command at the front of the queue and is `exec` of it on the state with the queue's rest. -/
def Obligations.StepRunsTheFrontCommand : Prop :=
  ∀ (c : Instr) (rest : List Instr) (s : State), s.pending = c :: rest → step s = exec c { s with pending := rest }

/-- Power-on reset: no start has begun, the service state is STARTING, the identification registers hold their constants, the fault
configuration has the reaction of its source's class, nothing is applied, and every store is canonical. -/
def Obligations.ResetState : Prop :=
  State.reset.pending = [] ∧ State.reset.boot.phase = .por ∧ State.reset.svc = 0 ∧
  State.reset.reg R.TOP_ID_PART = 0x0480 ∧ State.reset.reg R.TOP_ID_VENDOR = 0x7C3E ∧
  State.reset.reg R.SAFE_FAULT_CFG_REACT 0x00 = 2 ∧ State.reset.reg R.SAFE_FAULT_CFG_REACT 0x1A = 1 ∧
  State.reset.reg R.SAFE_FAULT_CFG_REACT 0x51 = 0 ∧ State.reset.applied = false ∧ State.reset.cmds = [] ∧
  State.reset.hub.faultN = false ∧ State.reset.Canonical

/-- Every command of the block answers a next state in every state, and takes exactly the reference ticks it carries. -/
def Obligations.EveryCommandCompletes : Prop :=
  ∀ (c : Instr) (s : State), ∃ t, exec c s = .next t ∧ t.tick = s.tick + c.dt

/-- No command touches the queue of waiting commands: a step leaves what waited behind the first, in order. -/
def Obligations.CommandsRunInOrder : Prop :=
  ∀ (c : Instr) (rest : List Instr) (s t : State), s.pending = c :: rest → step s = .next t → t.pending = rest

/-- No command changes the UFS model store or the boot flash: the device only reads them. -/
def Obligations.ModelStoreNeverWritten : Prop :=
  ∀ (c : Instr) (s t : State), exec c s = .next t → t.ufs = s.ufs ∧ t.flash = s.flash

/-- Every step keeps registers, events and every memory in canonical form. -/
def Obligations.StepKeepsCanonical : Prop :=
  ∀ s t : State, s.Canonical → step s = .next t → t.Canonical

/-- A step enters IN_SERVICE and CONFIG_FAULT only from STARTING, and SAFE only from IN_SERVICE; OUT_OF_SERVICE is left only for
STARTING. -/
def Obligations.ServiceStateMoves : Prop :=
  ∀ s t : State, s.Canonical → step s = .next t →
    (t.svc = 1 → s.svc = 1 ∨ s.svc = 0) ∧ (t.svc = 2 → s.svc = 2 ∨ s.svc = 1) ∧ (t.svc = 4 → s.svc = 4 ∨ s.svc = 0) ∧
    (s.svc = 3 → t.svc = 3 ∨ t.svc = 0)

/-- Only a command that begins a cold start, DONE, and the debug port's writes change a fuse; and fuses only advance: no step takes back
a key hash, a key, a revocation or a security version, or moves the lifecycle back. -/
def Obligations.FusesOnlyAdvance : Prop :=
  (∀ (c : Instr) (s t : State), c.blowsFuses = false → exec c s = .next t → t.fuses = s.fuses) ∧
  (∀ s t : State, s.fuses.lifecycle ≤ 3 → step s = .next t → s.fuses.Advance t.fuses ∧ t.fuses.lifecycle ≤ 3)

/-! ### Supplies from outside and the start sequence (18, 03) -/

/-- The always-on domain leaves power-on reset with a valid input and a cold start begins at step AON; it re-enters power-on reset with
the fuses and the stores kept; PORST_N abandons a start, and its release after 1 µs begins a cold start. -/
def Obligations.AlwaysOnResetRows : Prop :=
  ∀ (s e : State) (dt : Nat), s.Canonical → e = s.elapse dt →
    (∀ main bak : Bool, e.boot.phase = .por → (main || bak) = true → e.power.porstN = true →
      ∃ t, exec (.powerOnResetRelease dt main bak) s = .next t ∧ t.boot.phase = .step ∧ t.svc = 0 ∧
        t.reg R.BOOT_STATUS_STEP = 0 ∧ t.flag R.PWR_AON_MAIN_VALID = main ∧ t.flag R.PWR_AON_BAK_VALID = bak ∧
        t.flag R.PWR_AON_ON_BAK = !main ∧ t.now = 0 ∧ t.fram = s.fram ∧ t.flash = s.flash ∧ t.ufs = s.ufs) ∧
    (e.boot.phase ≠ .por →
      ∃ t, exec (.powerOnResetEntry dt) s = .next t ∧ t.boot.phase = .por ∧ t.svc = 0 ∧ t.tide = {} ∧ t.cmds = [] ∧
        t.hub.faultN = false ∧ t.reg R.PWR_PMIC_PG = s.reg R.PWR_PMIC_PG ∧ s.fuses.keyHash = t.fuses.keyHash ∧
        t.flash = s.flash ∧ t.ufs = s.ufs) ∧
    (∀ low, 1000 ≤ low → e.boot.phase ≠ .por →
      ∃ t, exec (.porstNRelease dt low) s = .next t ∧ t.boot.phase = .step ∧ t.svc = 0 ∧ t.reg R.BOOT_STATUS_STEP = 0 ∧
        t.power.porstN = true ∧ t.now = 0 ∧ t.fram = s.fram ∧ t.flash = s.flash ∧ t.ufs = s.ufs) ∧
    (e.svc = 0 → e.boot.phase ≠ .por →
      ∃ t, exec (.porstNAssert dt) s = .next t ∧ t.boot.phase = .porst ∧ t.power.porstN = false ∧ t.cmds = [] ∧
        t.running = false ∧ t.groups = [])

/-- A step of a start that passes in its turn and within its limit is followed by the next step of Table 3.7; SEAL hands on to DRAM, and
a warm start goes from SELECT to DRAM. -/
def Obligations.StartStepsPassInOrder : Prop :=
  ∀ (s e : State) (dt : Nat), s.Canonical → e = s.elapse dt → e.overLimit = false →
    (e.inStep 0 = true → ∃ t, exec (.aonStep dt) s = .next t ∧ t.reg R.BOOT_STATUS_STEP = 1 ∧ t.boot.since = t.tick ∧
      t.svc = 0 ∧ SameMemory s t) ∧
    (∀ passed : List Nat, e.inStep 1 = true → ((List.range 9).all fun i => passed.contains i) = true → e.flag R.PWR_PMIC_PG = true →
      ∃ t, exec (.islandStep dt true passed) s = .next t ∧ t.reg R.BOOT_STATUS_STEP = 2 ∧ t.reg R.SAFE_ECLIPSE_TEST_PASSED = 511 ∧
        t.svc = 0 ∧ SameMemory s t) ∧
    (∀ m, e.inStep 3 = true → ((e.powerAll [1, 2, 3, 4]).judgeImage ((e.powerAll [1, 2, 3, 4]).reg R.BOOT_STATUS_SLOT)) = .ok m →
      ∃ t, exec (.verifyStep dt true) s = .next t ∧ t.reg R.BOOT_STATUS_STEP = 4 ∧ t.image = some m ∧ t.boot.verdict.isSome = true) ∧
    (e.inStep 4 = true → ∃ t, exec (.sealStep dt) s = .next t ∧ t.reg R.BOOT_STATUS_STEP = 5 ∧ t.boot.sealBefore = some s.tide.next) ∧
    (e.inStep 6 = true → ∃ t, exec (.bistStep dt []) s = .next t ∧ t.reg R.BOOT_STATUS_STEP = 7 ∧ t.reg R.BOOT_BIST_FAILED = 0 ∧
      SameMemory s t) ∧
    (e.inStep 7 = true → e.warm = false → e.weightList = [] →
      ∃ t, exec (.weightsStep dt []) s = .next t ∧ t.reg R.BOOT_STATUS_STEP = 8 ∧ t.boot.ufsOut = true ∧ SameMemory s t) ∧
    (e.inStep 8 = true → e.ifaces.cfg = e.sec 0xC → e.linksDown = [] → e.linksReady = true →
      ∃ t, exec (.linksStep dt) s = .next t ∧ t.reg R.BOOT_STATUS_STEP = 9 ∧ SameMemory s t)

/-- SELECT takes the slot with the greater eligible generation, slot A on equality, when no attempt has failed since the last service;
DRAM hands on to BIST with TRAINED set; BRINGUP hands on to ARM once its initial lists have ended. -/
def Obligations.SelectDramAndBringupPass : Prop :=
  ∀ (s e : State) (dt : Nat), s.Canonical → e = s.elapse dt → e.overLimit = false →
    (∀ u, u = e.powerAll [10, 14] → e.inStep 2 = true → u.warm = false → u.reg R.BOOT_STATUS_FAILS = 0 →
      ¬ (u.eligibleGen 0 = 0 ∧ u.eligibleGen 1 = 0) →
      ∃ t, exec (.selectStep dt true) s = .next t ∧ t.reg R.BOOT_STATUS_STEP = 3 ∧
        t.reg R.BOOT_STATUS_SLOT = (if u.eligibleGen 1 ≤ u.eligibleGen 0 then 0 else 1) ∧
        t.boot.gens = (hdrGen (u.slotBytes 0 256), hdrGen (u.slotBytes 1 256))) ∧
    (∀ u, u = (e.powerOn 9).applyLoads 5 → u.Canonical → e.inStep 5 = true → u.warm = false →
      ∃ t, exec (.dramStep dt true) s = .next t ∧ t.reg R.BOOT_STATUS_STEP = 6 ∧ t.reg R.MEMC_STATUS_TRAINED = 1 ∧
        t.boot.since = t.tick) ∧
    (∀ kats drbg sio, e.inStep 9 = true → e.running = true → e.initialRuns = false →
      ∃ t, exec (.bringupStep dt kats drbg sio) s = .next t ∧ t.reg R.BOOT_STATUS_STEP = 0xA ∧ t.grants = true ∧
        t.orbit.armAt = t.tick ∧ t.boot.since = t.tick ∧ SameMemory s t)

/-- ARM arms the fusion groups at once where Orbit time has been stepped or there is nothing to wait for, and after ACQ_WAIT at the
latest; DONE then enters IN_SERVICE, raises SAFE_FAULT_N and, on a cold start, sets FAILS to 0. -/
def Obligations.ArmAndDone : Prop :=
  ∀ (s e : State) (dt : Nat), s.Canonical → e = s.elapse dt →
    (e.inStep 0xA = true → e.overLimit = false → e.unarmed = true → e.dbg.holdStart = false →
      (e.flag R.TIME_STATUS_STEPPED = true ∨ e.reg R.TIME_CFG_ACQ_WAIT = 0) →
      ∃ t, exec (.armStep dt) s = .next t ∧ t.flag R.TIME_STATUS_ARMED = true ∧ t.boot.armedOnce = true ∧
        t.reg R.BOOT_STATUS_STEP = 0xA ∧ SameMemory s t) ∧
    (e.inStep 0xA = true → e.overLimit = false → e.unarmed = true → e.dbg.holdStart = false → e.warm = false →
      e.orbit.armAt + msTicks (100 * e.reg R.TIME_CFG_ACQ_WAIT) ≤ e.tick →
      ∃ t, exec (.acqWaitExpire dt) s = .next t ∧ t.flag R.TIME_STATUS_ARMED = true ∧ t.boot.armedOnce = true ∧ SameMemory s t) ∧
    (e.inStep 0xA = true → e.unarmed = false → e.dbg.extest = false → e.dbg.holdStart = false →
      ∃ t, exec (.startDone dt) s = .next t ∧ t.svc = 1 ∧ t.hub.faultN = true ∧ t.boot.phase = .idle ∧
        t.reg R.BOOT_STATUS_STEP = 0xF ∧ t.reg R.SAFE_STATUS_LATCH = 0 ∧
        (e.warm = false → t.reg R.BOOT_STATUS_FAILS = 0))

/-- A step over its limit fails the attempt, which waits 100 ms; when they have passed a cold start begins at step AON. A warm start
begins from SAFE at step SELECT and is counted; PMIC_PG going high lets a waiting SELECT proceed, makes a pending warm start due, or
starts the 100 ms wait after an abandoned attempt; a fall of PMIC_PG takes every switched domain's power. -/
def Obligations.RetriesAndWarmStarts : Prop :=
  (∀ (s e : State) (dt : Nat), s.Canonical → e = s.elapse dt →
     (∀ k, e.inStep k = true → e.overLimit = true → k ≠ 0xA → k ≠ 8 → e.warm = true →
       ∃ t, exec (.startStepTimeout dt) s = .next t ∧ t.boot.phase = .retry ∧ t.boot.since = t.tick ∧
         t.reg R.BOOT_FAIL_CODE = 0x11 ∧ t.reg R.BOOT_FAIL_STEP = k ∧ t.svc = 0 ∧ t.running = false) ∧
     (e.boot.phase = .retry → e.boot.since + msTicks 100 ≤ e.tick →
       ∃ t, exec (.startRetryDelayExpire dt) s = .next t ∧ t.boot.phase = .step ∧ t.svc = 0 ∧
         t.reg R.BOOT_STATUS_STEP = 0 ∧ t.now = 0 ∧ t.fram = s.fram ∧ t.flash = s.flash ∧ t.ufs = s.ufs) ∧
     (e.boot.phase = .pgBack → e.boot.since + msTicks 100 ≤ e.tick →
       ∃ t, exec (.pmicPgReturnWaitExpire dt) s = .next t ∧ t.boot.phase = .step ∧ t.svc = 0 ∧
         t.reg R.BOOT_STATUS_STEP = 0 ∧ t.now = 0 ∧ t.fram = s.fram ∧ t.flash = s.flash ∧ t.ufs = s.ufs)) ∧
  (∀ (s e : State) (dt : Nat), s.Canonical → e = s.elapse dt →
     (e.svc = 2 → e.boot.warmDue = true → e.flag R.PWR_PMIC_PG = true → e.hub.outFrom = none →
       ∃ t, exec (.warmStart dt) s = .next t ∧ t.svc = 0 ∧ t.boot.phase = .step ∧ t.reg R.BOOT_STATUS_STEP = 2 ∧
         t.warm = true ∧ t.reg R.BOOT_TALLY_WARM = min (s.reg R.BOOT_TALLY_WARM + 1) 65535 ∧ t.boot.warmDue = false ∧
         SameMemory s t) ∧
     (e.flag R.PWR_PMIC_PG = false → e.boot.phase ≠ .pgLost →
       (∀ w, e.boot.pgSince = some w → e.boot.phase = .step →
         ∃ t, exec (.pmicPgRise dt) s = .next t ∧ t.flag R.PWR_PMIC_PG = true ∧ t.reg R.BOOT_STATUS_STEP = 2 ∧
           t.boot.pgSince = none ∧ t.boot.since = t.tick ∧ SameMemory s t) ∧
       (e.boot.pgSince = none → e.boot.warmOnPg = true →
         ∃ t, exec (.pmicPgRise dt) s = .next t ∧ t.flag R.PWR_PMIC_PG = true ∧ t.boot.warmDue = true ∧ t.boot.warmOnPg = false ∧
           SameMemory s t)) ∧
     (e.flag R.PWR_PMIC_PG = false → e.boot.phase = .pgLost →
       ∃ t, exec (.pmicPgRise dt) s = .next t ∧ t.boot.phase = .pgBack ∧ t.boot.since = t.tick ∧ SameMemory s t) ∧
     (∀ kept, e.flag R.PWR_PMIC_PG = true → e.boot.phase ≠ .por →
       ∃ t, exec (.pmicPgFall dt kept) s = .next t ∧ t.queuesLost = true ∧ t.running = false ∧ t.cmds = []))

/-- A failed input in use gives way to the other valid one, or raises the supply-loss warning; a valid input ends the warning and is
taken; VAON_MAIN valid for 100 ms is taken back from VAON_BAK. -/
def Obligations.AlwaysOnInputs : Prop :=
  ∀ (s e : State) (dt : Nat), s.Canonical → e = s.elapse dt → e.boot.phase ≠ .por →
    (∀ bak, e.aonValid bak = true → e.flag R.PWR_AON_ON_BAK = !bak →
      ∃ t, exec (.aonInputFail dt bak) s = .next t ∧ t.aonValid bak = false ∧ t.aonValid (!bak) = e.aonValid (!bak) ∧
        t.flag R.PWR_AON_ON_BAK = !bak ∧ SameMemory s t) ∧
    (e.aonValid true = true → e.aonValid false = false → e.flag R.PWR_AON_ON_BAK = true → e.tideRun = false →
      ∃ t, exec (.aonInputFail dt true) s = .next t ∧ t.aonValid true = false ∧ t.flag R.PWR_AON_WARN = true ∧
        t.reg R.PWR_WARNINGS_COUNT = min (s.reg R.PWR_WARNINGS_COUNT + 1) (2 ^ R.PWR_WARNINGS_COUNT.width - 1)) ∧
    (∀ bak, e.aonValid bak = false → e.flag R.PWR_AON_WARN = true → e.flag R.PWR_AON_ON_BAK = bak →
      ∃ t, exec (.aonInputValid dt bak) s = .next t ∧ t.aonValid bak = true ∧ t.flag R.PWR_AON_WARN = false ∧ SameMemory s t) ∧
    (∀ m, e.power.mainSince = some m → e.flag R.PWR_AON_ON_BAK = true → m + msTicks 100 ≤ e.tick → e.tideRun = false →
      ∃ u : State, exec (.aonBackToMain dt) s = .next (u.raise 0x84 1 0) ∧ u.flag R.PWR_AON_ON_BAK = false ∧
        u.reg R.PWR_AON_SWITCHES_COUNT = min (s.reg R.PWR_AON_SWITCHES_COUNT + 1) (2 ^ R.PWR_AON_SWITCHES_COUNT.width - 1))

/-! ### Monitors (02, 15, 18) -/

/-- The repeated judgements raise their source in the first window that finds the condition, and record its end in a window that finds
it absent, where nothing else changes: Orbit's rate, the island oscillator, a rail. -/
def Obligations.RepeatedJudgements : Prop :=
  ∀ (s e : State) (dt : Nat), e = s.elapse dt → e.boot.phase ≠ .por →
    (∀ p, 970000 ≤ p → p ≤ 1030000 → ∃ t, exec (.orbitRateCheck dt p) s = .next t ∧ t.inExcursion 0x04 0 = false ∧
      t = { e with hub.excursions := t.hub.excursions }) ∧
    (∀ p, (p < 970000 ∨ 1030000 < p) → e.inExcursion 0x04 0 = false →
      ∃ u : State, exec (.orbitRateCheck dt p) s = .next (u.raise 0x04 0 0) ∧ u.inExcursion 0x04 0 = true ∧
        u = { e with hub.excursions := u.hub.excursions }) ∧
    (∀ n, 950000 ≤ n → n ≤ 1050000 → ∃ t, exec (.oscCrossCheck dt n) s = .next t ∧ t.inExcursion 0x03 0 = false ∧
      t = { e with hub.excursions := t.hub.excursions }) ∧
    (∀ n, (n < 950000 ∨ 1050000 < n) → e.inExcursion 0x03 0 = false →
      ∃ u : State, exec (.oscCrossCheck dt n) s = .next (u.raise 0x03 0 0) ∧ u.inExcursion 0x03 0 = true ∧
        u = { e with hub.excursions := u.hub.excursions }) ∧
    (∀ n, e.inExcursion 0x03 0 = true → (n < 950000 ∨ 1050000 < n) → exec (.oscCrossCheck dt n) s = .next e)

/-- A rail out of its window sets its bit, and once a domain has been powered raises SUPPLY_MONITOR; a domain without power-good after
200 µs of the step that powers it raises SUPPLY_MONITOR with INSTANCE 0x10 + domain. Two windows in a row off by more than 2 % are a
clock fault of the domain, one is not; a PLL that loses lock shows in CLK.PLL_LOCK and is a fault of every domain it clocks. -/
def Obligations.SupplyAndClockMonitors : Prop :=
  (∀ (s e : State) (dt : Nat), s.Canonical → e = s.elapse dt → e.boot.phase ≠ .por →
     (∀ r, r < 6 → ∃ t, exec (.railMonitorFault dt r false) s = .next t ∧ (t.reg R.PWR_RAILS_OUT).testBit r = false ∧
       t.inExcursion 0x81 r = false ∧ SameMemory s t ∧ SameRegistersBut [(R.PWR_RAILS_OUT, 0, 0)] s t) ∧
     (∀ r, r < 6 → e.flag R.PWR_PMIC_PG = true → e.power.armed = true → e.inExcursion 0x81 r = false →
       ∃ u : State, exec (.railMonitorFault dt r true) s = .next (u.raise 0x81 r 0) ∧ (u.reg R.PWR_RAILS_OUT).testBit r = true ∧
         SameMemory s u ∧ SameRegistersBut [(R.PWR_RAILS_OUT, 0, 0)] s u) ∧
     (∀ d, 1 ≤ d → d ≤ 14 → e.boot.phase = .step → e.boot.pgSince = none → e.reg R.BOOT_STATUS_STEP = powerStep d →
       e.powered d = false → e.boot.since + usTicks 200 ≤ e.tick →
       exec (.domainPowerGoodTimeout dt d) s = .next ({ e with power.armed := true }.raise 0x81 (0x10 + d) 0))) ∧
  (∀ (s e : State) (dt c : Nat), s.Canonical → e = s.elapse dt → e.boot.phase ≠ .por → e.clockOn c = true → 7 ≤ c →
     (∀ n, 49 * e.clockKhz c ≤ 5000 * n → 5000 * n ≤ 51 * e.clockKhz c → e.power.pllLost.contains (clockPll c) = false →
       Sparse.wf 0 e.power.badWindows = true →
       ∃ t, exec (.clockMonitorWindow dt c n) s = .next t ∧ (t.reg R.CLK_CLK_FAULT_DOMAIN).testBit (c - 1) = false ∧
         t.inExcursion 0x82 c = false ∧ SameMemory s t ∧ SameRegistersBut [(R.CLK_CLK_FAULT_DOMAIN, 0, 0)] s t) ∧
     (∀ n, (5000 * n < 49 * e.clockKhz c ∨ 51 * e.clockKhz c < 5000 * n) → 1 ≤ e.badWindowsOf c → e.inExcursion 0x82 c = false →
       ∃ u : State, exec (.clockMonitorWindow dt c n) s = .next (u.raise 0x82 c 0) ∧
         (u.reg R.CLK_CLK_FAULT_DOMAIN).testBit (c - 1) = true ∧ SameMemory s u) ∧
     (∀ p, (List.range 26).filter (fun k => e.clockOn k && clockPll k == p) = [c] → e.inExcursion 0x82 c = false →
       ∃ u : State, exec (.pllLossOfLock dt p true) s = .next (u.raise 0x82 c 0) ∧ u.power.pllLost.contains p = true ∧
         (u.reg R.CLK_CLK_FAULT_DOMAIN).testBit (c - 1) = true ∧ (p < 8 → (u.reg R.CLK_PLL_LOCK_LOCKED).testBit p = false)))

/-- A cluster's sensor: unpowered it reads 0; a reading is stored with the greatest so far, and moves the cluster one step down its
ladder at T_THROT; a second reading in a row at T_TRIP raises THERMAL_TRIP. -/
def Obligations.SensorReadings : Prop :=
  ∀ (s e : State) (dt : Nat) (x : Int), s.Canonical → e = s.elapse dt → e.boot.phase ≠ .por → -(2 ^ 15) ≤ x → x < 2 ^ 15 →
    (e.sensorOn 0 = false →
      ∃ t, exec (.thermalReading dt [x]) s = .next t ∧ t.reg R.PWR_TEMP_T 0 = 0 ∧ t = { e with regs := t.regs } ∧
        SameRegistersBut [(R.PWR_TEMP_T, 0, 0)] s t) ∧
    (e.sensorOn 0 = true → e.power.ladder = false → x < 4 * (e.reg R.CLK_THERM_CFG_T_TRIP : Int) - 20 →
      ∃ t, exec (.thermalReading dt [x]) s = .next t ∧ signed 16 (t.reg R.PWR_TEMP_T 0) = x ∧
        (e.power.seen.contains 0 = true → signed 16 (t.reg R.PWR_TEMP_MAX 0) = max x (signed 16 (e.reg R.PWR_TEMP_MAX 0))) ∧
        t.inExcursion 0x83 0 = false ∧ SameMemory s t ∧ SameRegistersBut [(R.PWR_TEMP_T, 0, 0), (R.PWR_TEMP_MAX, 0, 0)] s t) ∧
    (e.sensorOn 0 = true → e.power.ladder = true → 4 * (e.reg R.CLK_THERM_CFG_T_THROT : Int) ≤ x →
      x < 4 * (e.reg R.CLK_THERM_CFG_T_TRIP : Int) → e.reg R.CLK_TC_FREQ_LEVEL 0 + 1 < (ladder (e.reg R.CLK_TC_MAX_MHZ 0)).length →
      e.stepsApart 0 (msTicks 1) = true →
      ∃ t, exec (.thermalReading dt [x]) s = .next t ∧ t.reg R.CLK_TC_FREQ_LEVEL 0 = e.reg R.CLK_TC_FREQ_LEVEL 0 + 1 ∧
        t.reg R.CLK_TC_FREQ_MHZ 0 = (ladder (e.reg R.CLK_TC_MAX_MHZ 0)).getD (e.reg R.CLK_TC_FREQ_LEVEL 0 + 1) 825 ∧
        signed 16 (t.reg R.PWR_TEMP_T 0) = x ∧ SameMemory s t) ∧
    (e.sensorOn 0 = true → 4 * (e.reg R.CLK_THERM_CFG_T_TRIP : Int) ≤ x → 1 ≤ Sparse.get 0 e.power.hot 0 → e.inExcursion 0x83 0 = false →
      ∃ u : State, exec (.thermalReading dt [x]) s = .next (u.raise 0x83 0 0) ∧ u.inExcursion 0x83 0 = true ∧
        signed 16 (u.reg R.PWR_TEMP_T 0) = x ∧ SameMemory s u)

/-! ### Orbit and fusion groups (02) -/

/-- The first Sync steps Orbit time to the grandmaster's and makes the port active; a lost Sync switches to the other port that hears
the same grandmaster, or begins HOLDOVER, which ends in FREE_RUN after HOLD_LIMIT seconds. -/
def Obligations.OrbitDiscipline : Prop :=
  ∀ (s e : State) (dt : Nat), s.Canonical → e = s.elapse dt → e.boot.phase ≠ .por →
    (∀ m : SyncMsg, e.syncEnabled m.port = true → e.reg R.TIME_STATUS_STATE ≠ 1 → e.reg R.TIME_STATUS_STATE ≠ 2 →
      e.flag R.TIME_STATUS_STEPPED = false → e.boot.armedOnce = false →
      ∃ t, exec (.syncReceived dt [m]) s = .next t ∧ t.now = m.time % 2 ^ 64 ∧ t.flag R.TIME_STATUS_STEPPED = true ∧
        t.reg R.TIME_STATUS_STATE = 1 ∧ t.reg R.TIME_STATUS_PORT = m.port ∧ t.reg R.TIME_GM_ID_ID = m.gm % 2 ^ 64 ∧
        (signed 32 (t.reg R.TIME_RATE_CORR)).natAbs ≤ 250000 ∧ SameMemory s t) ∧
    (∀ a, a = e.reg R.TIME_STATUS_PORT → (e.reg R.TIME_STATUS_STATE = 1 ∨ e.reg R.TIME_STATUS_STATE = 2) → e.syncFresh a = false →
      e.syncEnabled (1 - a) = true → e.syncFresh (1 - a) = true → (e.syncPort (1 - a)).gm = (e.syncPort a).gm →
      ∃ t, exec (.syncReceiptTimeout dt) s = .next t ∧ t.reg R.TIME_STATUS_PORT = 1 - a ∧
        t.reg R.TIME_STATUS_STATE = e.reg R.TIME_STATUS_STATE ∧
        t.reg R.TIME_TALLY_PORT_SWITCH = min (e.reg R.TIME_TALLY_PORT_SWITCH + 1) 65535 ∧ t = { e with regs := t.regs }) ∧
    (∀ a, a = e.reg R.TIME_STATUS_PORT → (e.reg R.TIME_STATUS_STATE = 1 ∨ e.reg R.TIME_STATUS_STATE = 2) → e.syncFresh a = false →
      e.syncFresh (1 - a) = false →
      ∃ t, exec (.syncReceiptTimeout dt) s = .next t ∧ t.reg R.TIME_STATUS_STATE = 3 ∧
        t.reg R.TIME_RATE_CORR = unsigned 32 e.orbit.heldRate ∧ t.orbit.holdAt = e.tick ∧
        t = { e with regs := t.regs, orbit := t.orbit }) ∧
    (e.reg R.TIME_STATUS_STATE = 3 → e.orbit.holdAt + e.reg R.TIME_CFG_HOLD_LIMIT * 25000000 ≤ e.tick →
      ∃ t, exec (.holdLimitExpire dt) s = .next t ∧ t.reg R.TIME_STATUS_STATE = 4 ∧ t = { e with regs := t.regs, orbit := t.orbit })

/-- A frame of an armed group becomes pending half a window before its nominal instant, and ready at its deadline; nothing but the group
and its counter changes. A ready frame with every member present is emitted: its descriptor of three slots is committed, the group's
event is added to and the next frame becomes the oldest; without room it is discarded and counted as an overrun. -/
def Obligations.FusionGroups : Prop :=
  (∀ (s e : State) (dt g : Nat), s.Canonical → e = s.elapse dt → g < 32 → e.fgOn g = true →
     (∀ n, (e.group g).next = some n → 2 * n ≤ 2 * e.now + e.fgWindow g →
       ∃ t, exec (.fgFramePending dt g) s = .next t ∧ (t.group g).next = some (n + e.fgPeriod g) ∧
         (t.group g).frames.map (·.t) = (e.group g).frames.map (·.t) ++ [n] ∧ (t.group g).kept = [] ∧
         t = { e with regs := t.regs, groups := t.groups } ∧ SameRegistersBut [(R.TIME_FG_SUPERSEDED_COUNT, g, 0)] s t) ∧
     (∀ f, ((e.group g).frames.find? fun f => f.ready.isNone) = some f → f.t + e.reg R.TIME_FG_DEADLINE_D g ≤ e.now →
       ∃ t, exec (.fgDeadline dt g) s = .next t ∧ (t.group g).frames.map (·.t) = (e.group g).frames.map (·.t) ∧
         (∀ x ∈ (t.group g).frames, x.t = f.t → x.ready = some false) ∧ t = { e with groups := t.groups })) ∧
  (∀ (s e : State) (dt g q ev : Nat) (f : FgFrame) (rest : List FgFrame), s.Canonical → e = s.elapse dt → g < 32 → e.fgOn g = true →
     (e.group g).frames = f :: rest → f.ready.isSome = true → (∀ m ∈ e.fgMembers g, (f.items.any fun x => x.1 == m) = true) →
     q = e.reg R.TIME_FG_CFG_QUEUE g →
     ev = eventIndex (e.reg R.TIME_FG_CFG_PART g) (e.reg R.TIME_FG_CFG_EVENT g) (e.flag R.TIME_FG_CFG_GLOBAL g) →
     (3 ≤ e.qFree q → e.doorbellCause q (e.ptrAdd q (e.wptr q) 3) (e.gen q) = 0 → e.event ev + 1 < 2 ^ 32 → e.waiters ev = [] →
       ∃ t, exec (.fgDescriptorEmit dt g) s = .next t ∧ (t.group g).frames = rest ∧ (t.group g).seq = (e.group g).seq + 1 ∧
         (t.group g).overrun = false ∧ t.event ev = e.event ev + 1 ∧
         t.reg R.TIME_FG_EMITTED_COUNT g = min (e.reg R.TIME_FG_EMITTED_COUNT g + 1) (2 ^ R.TIME_FG_EMITTED_COUNT.width - 1)) ∧
     (e.qState q = qActive → e.qFree q < 3 →
       ∃ t, exec (.fgDescriptorEmit dt g) s = .next t ∧ (t.group g).frames = rest ∧ (t.group g).seq = (e.group g).seq + 1 ∧
         (t.group g).overrun = true ∧ SameMemory s t ∧
         t.reg R.TIME_FG_OVERRUN_COUNT g = min (e.reg R.TIME_FG_OVERRUN_COUNT g + 1) (2 ^ R.TIME_FG_OVERRUN_COUNT.width - 1)))

/-! ### Queues, doorbells and commands (00, 04) -/

/-- A read of the lowest word of a 64-bit or 96-bit counter takes a snapshot of the whole counter; its higher words return the snapshot,
whatever happens to the counter, until a read of its lowest word takes another. -/
def Obligations.CounterSnapshots : Prop :=
  ∀ (s t : State) (a b base n k : Nat), Sparse.wf none s.snaps = true → wideAt a = some (base, n, 0) → wideAt b = some (base, n, k) →
    k ≠ 0 → a ≠ R.RST_PLOG_COUNT_NEXT.at 0 0 → a ≠ R.DBG_FRAM_DATA_DATA.at 0 0 → b ≠ R.RST_PLOG_COUNT_NEXT.at 0 0 →
    b ≠ R.DBG_FRAM_DATA_DATA.at 0 0 →
    (s.readReg a).1 = s.wordValue a ∧
    (Sparse.get none t.snaps base = Sparse.get none (s.readReg a).2.snaps base →
      t.readReg b = (bits (s.wordsValue base n) (32 * k + 31) (32 * k), t))

/-- A doorbell of a queue is accepted exactly where the queue is ACTIVE, IDLE or STOPPED, its WPTR is below 2S, its GEN is the queue's
and both pointer differences fit; it then sets WPTR, and one equal to WPTR is a no-op.  Any other leaves the queue and is counted in
QUE.REJECT. -/
def Obligations.DoorbellRule : Prop :=
  ∀ (s t : State) (q w g cause : Nat), Sparse.wf 0#32 s.regs = true → q < 512 → s.qState q ≤ 4 → s.reg R.QUE_CFG_LOG2_SLOTS q ≤ 16 →
    s.doorbell q w g = (cause, t) →
    (cause = 0 ↔ ((s.qState q = qActive ∨ s.qState q = qIdle ∨ s.qState q = qStopped) ∧ w < 2 * s.qSize q ∧ g = s.gen q ∧
      (w + 2 * s.qSize q - s.rptr q) % (2 * s.qSize q) ≤ s.qSize q ∧
      (w + 2 * s.qSize q - s.wptr q) % (2 * s.qSize q) ≤ s.qFree q)) ∧
    (cause = 0 → t.wptr q = w ∧ t.rptr q = s.rptr q ∧ t.gen q = s.gen q ∧ t = { s with regs := t.regs } ∧
      SameRegistersBut [(R.QUE_WPTR_WPTR, q, 0), (R.QUE_STATE_STATE, q, 0)] s t) ∧
    (cause = 0 → w = s.wptr q → (s.qState q = qIdle → s.qCount q = 0) → ∀ a, t.regWord a = s.regWord a) ∧
    (cause ≠ 0 → t.wptr q = s.wptr q ∧ t.rptr q = s.rptr q ∧ t.gen q = s.gen q ∧ t.qState q = s.qState q ∧
      t = { s with regs := t.regs } ∧ SameRegistersBut [(R.QUE_REJECT_RANGE, q, 0), (R.QUE_REJECT_GEN, q, 0)] s t ∧
      (cause = 0x33 → t.reg R.QUE_REJECT_RANGE q = min (s.reg R.QUE_REJECT_RANGE q + 1) (2 ^ R.QUE_REJECT_RANGE.width - 1)) ∧
      (cause ≠ 0x33 → t.reg R.QUE_REJECT_GEN q = min (s.reg R.QUE_REJECT_GEN q + 1) (2 ^ R.QUE_REJECT_GEN.width - 1)) ∧
      (cause = 0x31 ∨ cause = 0x32 ∨ cause = 0x33)) ∧
    (s.qState q ≠ qFenced → 2 * s.qSize q ≤ w → cause = 0x33)

/-- A doorbell that makes the queue hold exactly S slots is accepted; the next that advances WPTR is rejected with DOORBELL_RANGE until
the consumer releases space, and then one that commits a slot is accepted. -/
def Obligations.FullRing : Prop :=
  ∀ (s t : State) (q w n : Nat), Sparse.wf 0#32 s.regs = true → q < 512 → s.reg R.QUE_CFG_LOG2_SLOTS q ≤ 16 →
    (s.qState q = qActive ∨ s.qState q = qIdle ∨ s.qState q = qStopped) → s.wptr q < 2 * s.qSize q → s.rptr q < 2 * s.qSize q →
    s.qCount q ≤ s.qSize q → w < 2 * s.qSize q → s.ptrDiff q w (s.rptr q) = s.qSize q → t = (s.doorbell q w (s.gen q)).2 →
    (s.doorbell q w (s.gen q)).1 = 0 ∧ t.qCount q = s.qSize q ∧
    (∀ x, x < 2 * s.qSize q → x ≠ w → (t.doorbell q x (t.gen q)).1 = 0x33) ∧
    (1 ≤ n → n ≤ s.qSize q → ((t.release q n).doorbell q (t.ptrAdd q w 1) (t.gen q)).1 = 0)

/-- A thread at a command boundary picks the first queue that has something for it: a command of a queue that is no job queue, whose
fetch finds nothing wrong and whose wait is satisfied, is taken with its words and SEQNO, which advances. -/
def Obligations.ThreadsPick : Prop :=
  ∀ (s e : State) (dt t q ptr slots seqno : Nat) (f : List Nat × Option FetchFail × State), s.Canonical → e = s.elapse dt → t < 64 →
    e.mayPick t = true → (e.thread t).frames = [] →
    e.choice t (fun q => ((List.range 4).filterMap fun p => if e.grantFree p then e.grantWinner p [t] else none).contains q) = some q →
    e.nextOf q = some (ptr, slots, seqno, false) → e.jobBudget (e.qPart q) q = none → (e.queueX q).aborted.contains seqno = false →
    f = e.fetch { part := e.qPart q, inJob := false, depth := 0, left := 16 } (e.ringSlots q ptr slots) →
    f.2.1 = none → f.2.2 = { e with regs := f.2.2.regs, regulators := f.2.2.regulators } →
    (∀ c ∈ e.cmds, c.id < e.nextId) → Sparse.wf ({} : QueueX) e.queues = true →
    ∃ (u : State) (c : Cmd), exec (.commandPick dt [t]) s = .next u ∧ u.cmd? e.nextId = some c ∧ c.queue = q ∧ c.thread = t ∧
      c.words = f.1 ∧ c.seqno = seqno ∧ c.depth = 0 ∧ (c.stage = .fence ∨ c.stage = .exec) ∧ u.nextId = e.nextId + 1 ∧
      (u.queueX q).fetch = f.2.2.ptrAdd q ptr slots ∧ (∀ k ∈ e.cmds, u.cmd? k.id = some k) ∧ SameMemory s u

/-- An executed command that asks for no record completes without one: it is gone, and its signal, if it has one, adds 1 to its event.
At a checkpoint a command's progress word takes its units done and the command goes on; a held record is committed to its completion
queue in the slot at WPTR once there is room. -/
def Obligations.CompletionAndCheckpoints : Prop :=
  (∀ (s e : State) (dt id : Nat) (c : Cmd), s.Canonical → e = s.elapse dt → e.cmd? id = some c → c.stage = .done → c.aborted = false →
     c.status = 0 → hdrNotify (c.word 0) = false → hdrCheckpoint (c.word 0) = false → e.held = [] → e.jobs = [] → c.mute = false →
     (hdrSignalEn (c.word 0) = false →
       ∃ t, exec (.commandComplete dt id) s = .next t ∧ t.cmd? id = none ∧ t.held = [] ∧ SameMemory s t ∧ (∀ k, t.event k = e.event k)) ∧
     (∀ ev, hdrSignalEn (c.word 0) = true → ev = eventIndex c.part (hdrSignalEvt (c.word 0)) false → e.event ev + 1 < 2 ^ 32 →
       e.waiters ev = [] →
       ∃ t, exec (.commandComplete dt id) s = .next t ∧ t.cmd? id = none ∧ t.event ev = e.event ev + 1 ∧
         (∀ k, k ≠ ev → t.event k = e.event k) ∧ SameMemory s t)) ∧
  (∀ (s e : State) (dt : Nat), s.Canonical → e = s.elapse dt →
     (∀ (id : Nat) (c : Cmd), e.cmd? id = some c → c.stage = .waiting → hdrCheckpoint (c.word 0) = true → c.begun = true →
       c.aborted = false → c.stopping = false → e.qState c.queue ≠ qFenced → hdrNotify (c.word 0) = false →
       e.badWords c.progress 8 = [] → e.wrote = none →
       ∃ t, exec (.checkpoint dt id) s = .next t ∧ t.cmd? id = some { c with stage := .exec } ∧ SameCommandsBut id e t ∧
         t.load c.progress 8 = (c.units % 2 ^ 48 + 2 ^ 48 * c.op) % 2 ^ 64 ∧ SameMemoryBut c.progress 8 s t) ∧
     (∀ (cq : Nat) (r : HeldRec), e.running = true → e.held = [r] → r.cq = cq → cq ≠ 0 → r.finish = none →
       e.earlierOpen r.queue r.seqno = false → e.cqFull cq = false → e.doorbellCause cq (e.ptrAdd cq (e.wptr cq) 1) (e.gen cq) = 0 →
       ∃ t, exec (.cqRecordRelease dt cq) s = .next t ∧ t.held = [] ∧
         t.bytes (e.slotAddr cq (e.wptr cq)) 64 = slice (wordsBytes r.words) 0 64 ∧
         SameMemoryBut (e.slotAddr cq (e.wptr cq)) 64 s t))

/-- `seq.nop` does nothing; `seq.signal` adds its four counts to its four events; `seq.set_event` sets its event and releases a wait
that it satisfies; a `seq.wait` already satisfied ends, consuming its threshold if asked, and another waits until its time-out ends
it with WAIT_TIMEOUT; a `seq.timer` in the past ends, and another waits until its time. -/
def Obligations.SignalsWaitsAndTimers : Prop :=
  ∀ (s e : State) (dt id : Nat) (c : Cmd), s.Canonical → e = s.elapse dt → e.wrote = none → c.aborted = false →
    (e.executing id 0x00 = some c →
      ∃ t, exec (.seqNop dt id) s = .next t ∧ t.Executed id 0 0 0 ∧ SameCommandsBut id e t ∧ t = { e with cmds := t.cmds }) ∧
    (∀ adds : Nat → Nat, (∀ k, adds k = ([1, 2, 3, 4].map fun i =>
        if eventIndex c.part (bits (c.word i) 11 0) (bit (c.word i) 12) = k then bits (c.word i) 63 32 else 0).sum) →
      e.executing id 0x01 = some c → (∀ k, e.event k + adds k < 2 ^ 32) → (∀ k, e.waiters k = []) →
      ∃ t, exec (.seqSignal dt id) s = .next t ∧ t.Executed id 0 0 0 ∧ SameCommandsBut id e t ∧ (∀ k, t.event k = e.event k + adds k) ∧
        t = { e with cmds := t.cmds, events := t.events }) ∧
    (∀ ev, ev = eventIndex c.part (bits (c.word 1) 11 0) (bit (c.word 1) 12) → e.executing id 0x03 = some c →
      (e.waiters ev = [] →
        ∃ t, exec (.seqSetEvent dt id) s = .next t ∧ t.Executed id 0 0 0 ∧ SameCommandsBut id e t ∧
          t.event ev = bits (c.word 1) 63 32 ∧ (∀ k, k ≠ ev → t.event k = e.event k) ∧ t = { e with cmds := t.cmds, events := t.events }) ∧
      (∀ w : Cmd, e.waiters ev = [w] → e.cmd? w.id = some w → bit (w.word 1) 13 = false →
        bits (w.word 1) 63 32 ≤ bits (c.word 1) 63 32 →
        ∃ t, exec (.seqSetEvent dt id) s = .next t ∧ t.Executed id 0 0 0 ∧ t.event ev = bits (c.word 1) 63 32 ∧
          t.cmd? w.id = some { w with stage := .done, status := 0 } ∧ SameMemory s t)) ∧
    (∀ thr, thr = bits (c.word 1) 63 32 → e.executing id 0x02 = some c →
      (thr ≤ e.event c.waitOn →
        ∃ t, exec (.seqWait dt id) s = .next t ∧ t.Executed id 0 0 0 ∧ SameCommandsBut id e t ∧
          t.event c.waitOn = (if bit (c.word 1) 13 then e.event c.waitOn - thr else e.event c.waitOn) ∧
          (∀ k, k ≠ c.waitOn → t.event k = e.event k) ∧ t = { e with cmds := t.cmds, events := t.events }) ∧
      (e.event c.waitOn < thr →
        ∃ t, exec (.seqWait dt id) s = .next t ∧ SameCommandsBut id e t ∧ t = { e with cmds := t.cmds } ∧
          t.cmd? id = some { c with
            stage := .waitEvent, start := e.tick
            limit := (if bits (c.word 2) 31 0 = 0 then none else some (e.tick + usTicks (bits (c.word 2) 31 0))) })) ∧
    (∀ l, e.cmd? id = some c → c.stage = .waitEvent → c.limit = some l → l ≤ e.tick →
      ∃ t, exec (.seqWaitTimeout dt id) s = .next t ∧ t.Executed id 0x1C 0 0 ∧ SameCommandsBut id e t ∧ t = { e with cmds := t.cmds }) ∧
    (∀ at_, at_ = (if bit (c.word 1) 0 then c.word 2 else e.now + c.word 2) → e.executing id 0x04 = some c →
      (at_ ≤ e.now →
        ∃ t, exec (.seqTimer dt id) s = .next t ∧ t.Executed id 0 0 0 ∧ SameCommandsBut id e t ∧ t = { e with cmds := t.cmds }) ∧
      (e.now < at_ →
        ∃ t, exec (.seqTimer dt id) s = .next t ∧ t.cmd? id = some { c with stage := .waitTimer, limit := some at_ } ∧
          SameCommandsBut id e t ∧ t = { e with cmds := t.cmds })) ∧
    (∀ l, e.cmd? id = some c → c.stage = .waitTimer → c.limit = some l → l ≤ e.now →
      ∃ t, exec (.seqTimerExpire dt id) s = .next t ∧ t.Executed id 0 0 0 ∧ SameCommandsBut id e t ∧ t = { e with cmds := t.cmds })

/-- `seq.reg_write` merges its value under its mask, or ends with REG_DENIED; `seq.reg_read` stores a register word, `seq.mem_write` its
data words, `seq.loop_set` sets a loop counter of its thread, and `seq.doorbell` sets a queue's WPTR. -/
def Obligations.RegistersMemoryAndDoorbells : Prop :=
  ∀ (s e : State) (dt id a : Nat) (c : Cmd), s.Canonical → e = s.elapse dt → e.wrote = none → c.aborted = false →
    a = bits (c.word 1) 47 0 →
    (∀ m, m = bits (c.word 2) 63 32 → e.executing id 0x05 = some c →
      (mapped a = true → e.permits c.part (a - regSpace) = true → m &&& accessMask a .rw = m →
        (R.DBG_TMUX_SEL_SIG.index a).isNone = true → a ≠ R.DBG_FRAM_SEL_OFFSET.at 0 0 →
        ∃ t, exec (.seqRegWrite dt id) s = .next t ∧ t.Executed id 0 0 0 ∧ SameCommandsBut id e t ∧
          t.regWord a = mergeBits (e.regWord a) (bits (c.word 2) 31 0) m ∧ (∀ x, x ≠ a → t.regWord x = e.regWord x) ∧
          t = { e with cmds := t.cmds, regs := t.regs }) ∧
      (¬ (mapped a = true ∧ e.permits c.part (a - regSpace) = true ∧ m &&& accessMask a .rw = m) →
        ∃ t, exec (.seqRegWrite dt id) s = .next t ∧ t.Executed id 0x1B 0 0 ∧ SameCommandsBut id e t ∧ t = { e with cmds := t.cmds })) ∧
    (∀ d, d = bits (c.word 2) 47 0 → e.executing id 0x06 = some c → mapped a = true → closedWindow a = false → e.badWords d 4 = [] →
      ∃ t, exec (.seqRegRead dt id) s = .next t ∧ t.Executed id 0 0 0 ∧ SameCommandsBut id e t ∧
        t.bytes d 4 = leBytes 4 (e.readReg a).1 ∧ SameMemoryBut d 4 s t) ∧
    (∀ n, n = bits (c.word 2) 6 0 → e.executing id 0x07 = some c → e.badWords a (8 * n) = [] →
      ∃ t, exec (.seqMemWrite dt id) s = .next t ∧ t.Executed id 0 0 0 ∧ SameCommandsBut id e t ∧
        (∀ i, i < n → t.load (a + 8 * i) 8 = c.word (3 + i) % 2 ^ 64) ∧ SameMemoryBut a (8 * n) s t ∧ (∀ k, t.event k = e.event k)) ∧
    (∀ k, k = bits (c.word 1) 1 0 → c.thread < 64 → e.executing id 0x0A = some c →
      ∃ t, exec (.seqLoopSet dt id) s = .next t ∧ t.Executed id 0 0 0 ∧ SameCommandsBut id e t ∧
        t.reg R.SEQ_LOOP_COUNT c.thread k = bits (c.word 1) 63 32 ∧ SameRegistersBut [(R.SEQ_LOOP_COUNT, c.thread, k)] s t ∧
        t = { e with cmds := t.cmds, regs := t.regs }) ∧
    (∀ q w, q = bits (c.word 1) 8 0 → w = bits (c.word 1) 32 16 → e.executing id 0x0C = some c → bits (c.word 2) 47 0 = 0 →
      (e.doorbellCause q w (bits (c.word 1) 47 40) = 0 →
        ∃ t, exec (.seqDoorbell dt id) s = .next t ∧ t.Executed id 0 0 0 ∧ SameCommandsBut id e t ∧ t.wptr q = w ∧
          t = { e with cmds := t.cmds, regs := t.regs } ∧ SameRegistersBut [(R.QUE_WPTR_WPTR, q, 0), (R.QUE_STATE_STATE, q, 0)] s t) ∧
      (e.doorbellCause q w (bits (c.word 1) 47 40) ≠ 0 →
        ∃ t, exec (.seqDoorbell dt id) s = .next t ∧ t.Executed id 7 0 0 ∧ t.wptr q = e.wptr q ∧ SameMemory s t))

/-- `seq.call` puts its list on its thread, ends CALL_DEPTH at depth 4, and an empty list at once; a branch or a loop that is taken sets
the position in its list and one that is not goes on, a target outside the list ends CONTROL_FLOW and changes nothing, and a loop
counts down. -/
def Obligations.CallsBranchesAndLoops : Prop :=
  ∀ (s e : State) (dt id : Nat) (c : Cmd), s.Canonical → e = s.elapse dt → e.wrote = none → c.aborted = false →
    (e.executing id 0x08 = some c →
      (c.depth = 4 → ∃ t, exec (.seqCall dt id) s = .next t ∧ t.Executed id 0x1D 0 0 ∧ SameCommandsBut id e t ∧
        t = { e with cmds := t.cmds }) ∧
      (c.depth ≠ 4 → c.word 2 = 0 → ∃ t, exec (.seqCall dt id) s = .next t ∧ t.Executed id 0 0 0 ∧ SameCommandsBut id e t ∧
        t = { e with cmds := t.cmds }) ∧
      (c.depth ≠ 4 → c.word 2 ≠ 0 →
        ∃ t, exec (.seqCall dt id) s = .next t ∧ t.cmd? id = some { c with stage := .called, begun := true } ∧ SameCommandsBut id e t ∧
          (t.thread c.thread).cur = none ∧
          (t.thread c.thread).frames = ⟨id, bits (c.word 1) 47 0, c.word 2, 0⟩ :: (e.thread c.thread).frames ∧
          t = { e with cmds := t.cmds, threads := t.threads })) ∧
    (∀ (f : Frame) (l : List Frame) (n : Nat), (e.thread c.thread).frames = f :: l → c.depth ≠ 0 → n < f.slots →
      (c.offset : Int) + signed 32 (bits (c.word 1) 63 32) = n →
      (e.executing id 0x09 = some c → bits (c.word 1) 2 0 = 0 →
        ∃ t, exec (.seqBranch dt id) s = .next t ∧ t.Executed id 0 0 0 ∧ SameCommandsBut id e t ∧
          (t.thread c.thread).frames = { f with pos := n } :: l ∧ t = { e with cmds := t.cmds, threads := t.threads }) ∧
      (e.executing id 0x0B = some c → c.thread < 64 → 2 ≤ e.reg R.SEQ_LOOP_COUNT c.thread (bits (c.word 1) 1 0) →
        ∃ t, exec (.seqLoop dt id) s = .next t ∧ t.Executed id 0 0 0 ∧ (t.thread c.thread).frames = { f with pos := n } :: l ∧
          t.reg R.SEQ_LOOP_COUNT c.thread (bits (c.word 1) 1 0) = e.reg R.SEQ_LOOP_COUNT c.thread (bits (c.word 1) 1 0) - 1 ∧
          SameRegistersBut [(R.SEQ_LOOP_COUNT, c.thread, bits (c.word 1) 1 0)] s t ∧ SameMemory s t)) ∧
    (∀ v k, v = e.event (eventIndex c.part (bits (c.word 1) 27 16) (bit (c.word 1) 3)) → e.executing id 0x09 = some c →
      e.jumpTarget c (bits (c.word 1) 63 32) = some k →
      ((bits (c.word 1) 2 0 = 1 ∧ v < c.word 3) ∨ (bits (c.word 1) 2 0 = 2 ∧ c.word 3 ≤ v)) →
      ∃ t, exec (.seqBranch dt id) s = .next t ∧ t.Executed id 0 0 0 ∧ SameCommandsBut id e t ∧ t = { e with cmds := t.cmds }) ∧
    (∀ n k, n = e.reg R.SEQ_LOOP_COUNT c.thread (bits (c.word 1) 1 0) → e.executing id 0x0B = some c → c.thread < 64 →
      e.jumpTarget c (bits (c.word 1) 63 32) = some k → n ≤ 1 →
      ∃ t, exec (.seqLoop dt id) s = .next t ∧ t.Executed id 0 0 0 ∧ SameCommandsBut id e t ∧
        t.reg R.SEQ_LOOP_COUNT c.thread (bits (c.word 1) 1 0) = 0 ∧ t = { e with cmds := t.cmds, regs := t.regs }) ∧
    ((c.depth = 0 ∨ (c.offset : Int) + signed 32 (bits (c.word 1) 63 32) < 0 ∨
        (e.thread c.thread).frames.head?.all (fun f => decide ((f.slots : Int) ≤ (c.offset : Int) + signed 32 (bits (c.word 1) 63 32)))) →
      (e.executing id 0x09 = some c →
        ∃ t, exec (.seqBranch dt id) s = .next t ∧ t.Executed id 0x1E 0 0 ∧ SameCommandsBut id e t ∧ t = { e with cmds := t.cmds }) ∧
      (e.executing id 0x0B = some c →
        ∃ t, exec (.seqLoop dt id) s = .next t ∧ t.Executed id 0x1E 0 0 ∧ SameCommandsBut id e t ∧ t = { e with cmds := t.cmds }))

/-- The actions of `seq.queue_ctl` on its target: STOP, START, START_SKIP, FLUSH, FLUSH_DISCARD of a data queue, and RELEASE. -/
def Obligations.QueueControl : Prop :=
  ∀ (s e : State) (dt id q : Nat) (c : Cmd), s.Canonical → e = s.elapse dt → e.wrote = none → c.aborted = false →
    e.executing id 0x0D = some c → q = bits (c.word 1) 8 0 →
    (bits (c.word 1) 18 16 = 0 → (e.qState q = qIdle ∨ e.qState q = qActive) →
      ∃ t, exec (.queueStop dt id) s = .next t ∧ t.Executed id 0 0 0 ∧ t.qState q = qStopped ∧ t.wptr q = e.wptr q ∧ t.rptr q = e.rptr q ∧
        SameMemory s t ∧ SameRegistersBut [(R.QUE_STATE_STATE, q, 0)] s t) ∧
    (bits (c.word 1) 18 16 = 1 → e.qState q = qStopped → e.qCount q ≠ 0 → Sparse.wf ({} : QueueX) e.queues = true →
      ∃ t, exec (.queueStart dt id) s = .next t ∧ t.Executed id 0 0 0 ∧ t.qState q = qActive ∧ (t.queueX q).failed = false ∧
        SameMemory s t ∧ SameRegistersBut [(R.QUE_STATE_STATE, q, 0)] s t) ∧
    (bits (c.word 1) 18 16 = 2 → e.qState q = qStopped → Sparse.wf ({} : QueueX) e.queues = true →
      ∃ t, exec (.queueStartSkip dt id) s = .next t ∧ t.Executed id 0 0 0 ∧ (t.queueX q).redo = (e.queueX q).redo.tail ∧
        (t.qState q = qActive ∨ t.qState q = qIdle) ∧ SameMemory s t ∧
        SameRegistersBut [(R.QUE_STATE_STATE, q, 0), (R.QUE_RPTR_RPTR, q, 0)] s t) ∧
    (bits (c.word 1) 18 16 = 3 →
      ∃ t, exec (.queueFlush dt id) s = .next t ∧ t.Executed id 0 0 0 ∧ t.gen q = (e.gen q + 1) % 256 ∧ t.wptr q = e.wptr q ∧
        t.rptr q = e.rptr q ∧ SameMemory s t ∧ SameRegistersBut [(R.QUE_STATE_STATE, q, 0)] s t) ∧
    (bits (c.word 1) 18 16 = 4 → e.reg R.QUE_CFG_KIND q ≠ 0 → e.windows = [] → e.wptr q < 2 * e.qSize q →
      ∃ t, exec (.queueFlushDiscard dt id) s = .next t ∧ t.Executed id 0 0 0 ∧ t.gen q = (e.gen q + 1) % 256 ∧ t.rptr q = e.wptr q ∧
        t.qCount q = 0 ∧ SameMemory s t) ∧
    (bits (c.word 1) 18 16 = 5 → bits (c.word 1) 63 32 ≤ e.qCount q → e.reg R.QUE_CFG_LOG2_SLOTS q ≤ 16 →
      ∃ t, exec (.queueRelease dt id) s = .next t ∧ t.Executed id 0 0 0 ∧ t.rptr q = e.ptrAdd q (e.rptr q) (bits (c.word 1) 63 32) ∧
        t.wptr q = e.wptr q ∧ SameMemory s t ∧ SameRegistersBut [(R.QUE_STATE_STATE, q, 0), (R.QUE_RPTR_RPTR, q, 0)] s t) ∧
    (bits (c.word 1) 18 16 = 5 → e.qCount q < bits (c.word 1) 63 32 →
      ∃ t, exec (.queueRelease dt id) s = .next t ∧ t.Executed id 0x14 0 0 ∧ SameCommandsBut id e t ∧ t = { e with cmds := t.cmds })

/-- `seq.abort` of a command that was never issued or has completed gives its outcome as DETAIL and changes nothing else; `seq.notify`
waits while its record stands in its completion queue's order. -/
def Obligations.AbortAndNotify : Prop :=
  ∀ (s e : State) (dt id : Nat) (c : Cmd), s.Canonical → e = s.elapse dt → e.wrote = none → c.aborted = false →
    (∀ q n, q = bits (c.word 1) 8 0 → n = c.word 2 → e.executing id 0x0E = some c → bits (c.word 3) 47 0 = 0 →
      (e.cmds.any fun x => x.queue == q && x.depth == 0 && x.seqno == n) = false → (e.queueX q).aborted.contains n = false →
      ((e.queueX q).redo.any fun r => r.seqno == n) = false →
      (n < e.reg R.QUE_SEQNO_NEXT q →
        ∃ t, exec (.seqAbort dt id) s = .next t ∧ t.Executed id 0 2 0 ∧ SameCommandsBut id e t ∧ t = { e with cmds := t.cmds }) ∧
      (e.reg R.QUE_SEQNO_NEXT q + (e.untaken q).length ≤ n →
        ∃ t, exec (.seqAbort dt id) s = .next t ∧ t.Executed id 0 3 0 ∧ SameCommandsBut id e t ∧ t = { e with cmds := t.cmds }) ∧
      (e.reg R.QUE_SEQNO_NEXT q ≤ n → n < e.reg R.QUE_SEQNO_NEXT q + (e.untaken q).length → e.windows = [] →
        ∃ t, exec (.seqAbort dt id) s = .next t ∧ t.Executed id 0 1 0 ∧ (t.queueX q).aborted = n :: (e.queueX q).aborted ∧
          SameMemory s t)) ∧
    (∀ cq, cq = bits (c.word 1) 8 0 → e.executing id 0x0F = some c → e.held = [] → cq ≠ 0 → e.cqFull cq = true →
      ∃ t, exec (.seqNotify dt id) s = .next t ∧ t.cmd? id = some { c with stage := .waiting, begun := true } ∧ t.held.length = 1 ∧
        SameMemory s t ∧ (∀ k, t.event k = e.event k)) ∧
    (∀ cq, cq = bits (c.word 1) 8 0 → e.executing id 0x0F = some c → e.held = [] → cq ≠ 0 → e.cqFull cq = false → c.queue ≠ cq →
      e.doorbellCause cq (e.ptrAdd cq (e.wptr cq) 1) (e.gen cq) = 0 → e.earlierOpen c.queue c.seqno = false →
      ∃ t, exec (.seqNotify dt id) s = .next t ∧ t.cmd? id = some { c with stage := .done, begun := true } ∧ t.held = [] ∧
        (∀ i, i < 6 → t.load (e.slotAddr cq (e.wptr cq) + 16 + 8 * i) 8 = c.word (2 + i) % 2 ^ 64) ∧
        SameMemoryBut (e.slotAddr cq (e.wptr cq)) 64 s t)

/-! ### Safety, hangs and recovery (05, 15, 16) -/

/-- A comparator's mismatch raises its source, and a pair shows MISMATCH; a split hand-over consumes one of SPLIT_EVT and pauses the
pair, splits it when its threads pause and agree, and fails when they do not pause within 100 µs. -/
def Obligations.PairsAndHandover : Prop :=
  ∀ (s e : State) (dt : Nat), s.Canonical → e = s.elapse dt →
    (e.boot.phase ≠ .por → exec (.lockstepMismatch dt 8) s = .next (e.raise 0x00 0 0)) ∧
    (∀ p, p < 8 → e.boot.phase ≠ .por → e.inLockstep p = true →
      ∃ u : State, exec (.lockstepMismatch dt p) s = .next (u.raise (0x10 + p) p 0) ∧ u.flag R.SAFE_PAIR_STAT_MISMATCH p = true ∧
        u = { e with regs := u.regs } ∧ SameRegistersBut [(R.SAFE_PAIR_STAT_MISMATCH, p, 0)] s u) ∧
    (∀ p ev, e.splitNext = some (p, ev) → e.running = true → e.grants = true → e.hub.handover = none →
      ∃ t, exec (.splitHandoverBegin dt) s = .next t ∧ t.event ev = e.event ev - 1 ∧ (∀ k, k ≠ ev → t.event k = e.event k) ∧
        t.flag R.SAFE_PAIR_STAT_PAUSING p = true ∧ t.hub.handover = some ⟨p, e.tick⟩ ∧ SameMemory s t ∧
        SameRegistersBut [(R.SAFE_PAIR_STAT_PAUSING, p, 0)] s t) ∧
    (∀ h : Handover, e.hub.handover = some h → h.pair < 8 → ((List.range 4).all fun k => e.paused (8 * h.pair + k)) = true →
      ∃ u : State, exec (.splitHandoverComplete dt false) s = .next (u.raise 0x18 h.pair 0) ∧
        u.flag R.SAFE_PAIR_STAT_SPLIT h.pair = true ∧ u.flag R.SAFE_PAIR_STAT_PAUSING h.pair = false ∧
        u.reg R.SAFE_SPLIT_TIME_TIME h.pair = e.now ∧ u.hub.handover = none ∧ SameMemory s u) ∧
    (∀ h : Handover, e.hub.handover = some h → h.since + usTicks 100 ≤ e.tick →
      ((List.range 4).all fun k => e.paused (8 * h.pair + k)) = false →
      exec (.splitTimeout dt) s = .next (({ e with hub.handover := none }).raise 0x19 h.pair 0))

/-- The island: an unserviced window watchdog raises ISLAND_WATCHDOG; a supervision cycle in its window with every report in agreement
toggles the heartbeat and nothing else; a sample of pads that agree is shown and clears what was being timed. -/
def Obligations.IslandSupervision : Prop :=
  ∀ (s e : State) (dt : Nat), s.Canonical → e = s.elapse dt → e.boot.phase ≠ .por →
    (e.hub.served + usTicks 600 < e.tick →
      exec (.islandWatchdogExpire dt) s = .next (({ e with hub.served := e.tick }).raise 0x01 0 0)) ∧
    (e.hub.islandDead = false → e.hub.outFrom = none → e.hub.served + usTicks 400 ≤ e.tick → e.tick ≤ e.hub.served + usTicks 600 →
      e.svc = 1 → e.hub.faultN = true → e.dangerLatched = false →
      exec (.islandSupervisionCycle dt []) s = .next { e with hub.served := e.tick, hub.heartbeat := !e.hub.heartbeat }) ∧
    (e.svc ≠ 1 →
      ∃ t, exec (.pinReadbackSample dt e.hub.faultN e.hub.heartbeat) s = .next t ∧ t.flag R.SAFE_STATUS_FAULT_PIN = e.hub.faultN ∧
        t.flag R.SAFE_STATUS_HB_PIN = e.hub.heartbeat ∧ t.hub.pinBad = none ∧ t.hub.hbBad = none ∧ t.inExcursion 0x05 0 = false ∧
        t.inExcursion 0x05 1 = false ∧ t = { e with regs := t.regs, hub := t.hub } ∧
        SameRegistersBut [(R.SAFE_STATUS_FAULT_PIN, 0, 0)] s t)

/-- The island writes the oldest fault latch's record and clears the latch; its restart after a class-OUT fault that passes its
self-test ends with every record written, one that fails leaves it dead; the compute reset is asserted when due, and released after
100 µs. -/
def Obligations.FaultRecordsAndComputeReset : Prop :=
  ∀ (s e : State) (dt : Nat), s.Canonical → e = s.elapse dt →
    (∀ (l : Latch) (rest : List Latch), e.hub.latches = l :: rest → e.hub.islandDead = false → e.hub.outFrom = none →
      e.netReset = false → e.hub.reset ≠ .undecided →
      ∃ t, exec (.faultRecordWrite dt) s = .next t ∧ t.hub.latches = (l :: rest).filter (fun x => x.src != l.src) ∧
        t.hub.recSeq = e.hub.recSeq + 1 ∧ t.svc = e.svc ∧ t.cmds = e.cmds) ∧
    (∀ before, e.hub.outFrom = some before → exec (.islandRestart dt false) s = .next { e with hub.islandDead := true }) ∧
    (∀ before, e.hub.outFrom = some before → (before = 3 ∨ before = 4) →
      ∃ t, exec (.islandRestart dt true) s = .next t ∧ t.hub.outFrom = none ∧ t.hub.served = e.tick ∧ t.hub.latches = [] ∧
        t.flag R.SAFE_STATUS_ISLAND_RESTARTED = true) ∧
    (e.hub.reset = .due → e.hub.islandDead = false → e.hub.outFrom = none →
      ∃ t, exec (.computeResetAssert dt) s = .next t ∧ t.hub.reset = .asserted e.tick ∧ t.flag R.RST_STATUS_ASSERTED = true ∧
        t.queuesLost = true ∧ t.running = false ∧ t.cmds = [] ∧ t.threads = []) ∧
    (∀ at_, e.hub.reset = .asserted at_ → at_ + usTicks 100 ≤ e.tick → e.hub.islandDead = false → e.hub.outFrom = none →
      e.ifaces.waiting = [] → e.ifaces.bell = none →
      ∃ t, exec (.computeResetRelease dt) s = .next t ∧ t.hub.reset = .none ∧ t.flag R.RST_STATUS_ASSERTED = false ∧
        t.boot.warmDue = e.flag R.PWR_PMIC_PG ∧ t.boot.warmOnPg = !e.flag R.PWR_PMIC_PG)

/-- A raise counts its source; a latch not yet set is set, and a configured reaction of 0 does no more. From IN_SERVICE a source of
class D takes the device to SAFE at once: SAFE_FAULT_N low, every thread and engine stopped, nothing in flight. -/
def Obligations.FaultHub : Prop :=
  ∀ (u : State) (src inst detail : Nat), Sparse.wf 0#32 u.regs = true → src < 256 →
    (u.latched src = true → u.raise src inst detail = u.incReg R.SAFE_FAULT_COUNT_COUNT src) ∧
    (u.latched src = false → u.reg R.SAFE_FAULT_CFG_REACT src = 0 →
      (u.raise src inst detail).latched src = true ∧ (u.raise src inst detail).svc = u.svc ∧ (u.raise src inst detail).cmds = u.cmds ∧
        SameMemory u (u.raise src inst detail)) ∧
    (u.latched src = false → u.svc = 1 → u.reg R.SAFE_FAULT_CFG_REACT src = 1 →
      (u.raise src inst detail).svc = 2 ∧ (u.raise src inst detail).hub.faultN = false ∧ (u.raise src inst detail).cmds = [] ∧
        (u.raise src inst detail).threads = [] ∧ (u.raise src inst detail).running = false)

/-- A job, a partition's deadlock and a thread that outlive their limits are recorded and raise their source once; a unit without
heartbeats and a network request without an answer are recorded and raise theirs; a late answer is counted. -/
def Obligations.Watchdogs : Prop :=
  ∀ (s e : State) (dt : Nat), s.Canonical → e = s.elapse dt →
    (∀ p (j : Job), e.job? p = some j → j.initial = false → j.fired = false →
      usTicks (e.reg R.PART_JOB_BUDGET_US p) < e.tick - j.start →
      ∃ u : State, exec (.jobWatchdogExpire dt p) s = .next (u.raise 0x1C p 0) ∧ u.job? p = some { j with fired := true } ∧
        u.cmds = e.cmds ∧ u.svc = e.svc) ∧
    (∀ p at_, p < 4 → (Sparse.get ({} : Deadlock) e.deadlocks p).fired = false → e.quiet p = true →
      (Sparse.get ({} : Deadlock) e.deadlocks p).since = some at_ → at_ + usTicks (e.reg R.PART_DL_DL_TIME p) ≤ e.tick →
      ∃ u : State, exec (.deadlockDetect dt p) s = .next (u.raise 0x1D p 0) ∧
        (Sparse.get ({} : Deadlock) u.deadlocks p).fired = true ∧ u.cmds = e.cmds) ∧
    (∀ t, t < 64 → e.threadState t = 1 → (e.thread t).boundary + usTicks (e.reg R.RST_WD_CFG_THREAD_US) ≤ e.tick →
      ∃ u : State, exec (.threadWatchdogExpire dt t) s = .next (u.raise 0x1E t 0) ∧ u.cmds = e.cmds) ∧
    (∀ cls i last, e.boot.phase ≠ .por → e.beats cls i = true →
      exec (.engineHeartbeatLoss dt cls i last) s = .next ((e.q2 (0x11 + 2 ^ 8 * cls + 2 ^ 16 * i) last 0 0).raise 0x1F cls i)) ∧
    (∀ cls i addr work, e.boot.phase ≠ .por → e.netReset = false → e.hub.reissue = [] →
      exec (.networkTimeout dt cls i addr work) s =
        .next (((e.q2 (0x12 + 2 ^ 8 * cls + 2 ^ 16 * i) addr (e.reg R.RST_WD_CFG_NET_US) 0).raise 0x58 (cls % 16 + 16 * (i % 32))
          addr).netLoss work)) ∧
    (∃ t, exec (.lateResponse dt) s = .next t ∧
      t.reg R.RST_LATE_RESP_COUNT = min (e.reg R.RST_LATE_RESP_COUNT + 1) (2 ^ R.RST_LATE_RESP_COUNT.width - 1) ∧
      t = { e with regs := t.regs } ∧ SameRegistersBut [(R.RST_LATE_RESP_COUNT, 0, 0)] s t)

/-! ### Requests and answers (05) -/

/-- The status reads that pass their checks are answered: registers read in address order, or REG_DENIED; the most recent records of a
log; a snapshot of Tide, which goes over no meter queue where none is configured; a request of an undefined type is malformed. -/
def Obligations.StatusReadsAnswered : Prop :=
  ∀ (s e u : State) (dt : Nat) (r : Request), s.Canonical → e = s.elapse dt → e.intakeTake = some (r, u) →
    (∀ a n, a = bits (r.word 2) 47 0 → n = bits (r.word 3) 6 0 → r.type = 1 → u.judgeFirst r = 0 → u.judgeRights r = 0 →
      (((List.range n).any fun i => !mapped (a + 4 * i) || closedWindow (a + 4 * i)) = true →
        exec (.statusRead dt) s = .next ((u.incReg R.PART_INTAKE_ACCEPT_COUNT).reply r 0x12)) ∧
      (((List.range n).any fun i => !mapped (a + 4 * i) || closedWindow (a + 4 * i)) = false →
        ∀ v, v = (u.incReg R.PART_INTAKE_ACCEPT_COUNT).readRegs a n →
        exec (.statusRead dt) s = .next (v.2.reply r 0 0 (v.1.flatMap (leBytes 4))))) ∧
    (∀ l, r.type = 2 → u.judgeFirst r = 0 → u.judgeRights r = 0 → l = u.logRecords (bits (r.word 2) 1 0) →
      exec (.logRead dt) s =
        .next ((u.incReg R.PART_INTAKE_ACCEPT_COUNT).reply r 0 0 (l.drop (l.length - bits (r.word 3) 6 0)).flatten)) ∧
    (∀ x, r.type = 3 → u.judgeFirst r = 0 → u.judgeRights r = 0 → u.selectorOk (r.word 2) = true → x = u.snapshot (r.word 2) →
      u.passedBy (4 + u.tide.port) = true →
      exec (.meterRead dt) s = .next ((({ x.2 with tide.port := (x.2.tide.port + 1) % 4 } : State).incReg
        R.PART_INTAKE_ACCEPT_COUNT).reply r 0 0 x.1)) ∧
    (r.type = 3 → u.judgeFirst r = 0 → u.judgeRights r = 0 → u.selectorOk (r.word 2) = false →
      exec (.meterRead dt) s = .next (u.refuse r 0x0F)) ∧
    ((r.type = 0 ∨ 5 < r.type) →
      exec (.undefinedRequestType dt) s = .next (u.refuse r (if u.judgeFirst r ≠ 0 then u.judgeFirst r else 0x0F))) ∧
    (u.judgeFirst r ≠ 0 →
      (r.type = 1 → exec (.statusRead dt) s = .next (u.refuse r (u.judgeFirst r))) ∧
      (r.type = 2 → exec (.logRead dt) s = .next (u.refuse r (u.judgeFirst r))) ∧
      (r.type = 3 → exec (.meterRead dt) s = .next (u.refuse r (u.judgeFirst r))) ∧
      (r.type = 4 → exec (.submit dt) s = .next (u.refuse r (u.judgeFirst r))) ∧
      (r.type = 5 → exec (.abort dt) s = .next (u.refuse r (u.judgeFirst r))))

/-- A SUBMIT to a route that takes no jobs opens a window entry and commits its item to the route's queue; one without room is answered
BUSY, and a repeated identifier is answered as a duplicate; an ABORT of an unknown identifier is closed NOT_FOUND; a response item
matched to an open entry closes it and is released, and another is counted as an orphan. -/
def Obligations.RequestsAndResponses : Prop :=
  ∀ (s e u : State) (dt : Nat) (r : Request), s.Canonical → e = s.elapse dt →
    (∀ i ent q, e.intakeTake = some (r, u) → r.type = 4 → u.judgeFirst r = 0 → i = ((u.client r.clientId).map (·.1)).getD 0 →
      u.entry? i r.reqId = none → u.judgeRights r = 0 → u.route r.routeNo = some ent → q = field ent 4 2 → q < 512 →
      ((u.windowBusy i || decide (field ent 0x1C 2 ≤ u.openOn r.routeNo) || u.lacksRoom q (1 + ceilDiv r.len 64) ||
        (field ent 2 1 == 1 && u.lacksRoom (field ent 8 2) 1)) = true → exec (.submit dt) s = .next (u.refuse r 0x10)) ∧
      ((u.windowBusy i || decide (field ent 0x1C 2 ≤ u.openOn r.routeNo) || u.lacksRoom q (1 + ceilDiv r.len 64)) = false →
        field ent 2 1 ≠ 1 → u.reg R.QUE_CFG_LOG2_SLOTS q ≤ 16 →
        u.doorbellCause q (u.ptrAdd q (u.wptr q) r.item.length) (u.gen q) = 0 →
        ∃ t, exec (.submit dt) s = .next t ∧ t.wptr q = u.ptrAdd q (u.wptr q) r.item.length ∧
          t.window i = (if 1024 ≤ (u.window i).length then (u.window i).drop 1 else u.window i) ++
            [{ reqId := r.reqId, route := r.routeNo, iface := r.iface, word0 := r.word 0, isAbort := false, seqno := none
               itemQ := q, itemPtr := u.wptr q }] ∧ t.cmds = e.cmds)) ∧
    (∀ i x, e.intakeTake = some (r, u) → r.type = 4 → u.judgeFirst r = 0 → i = ((u.client r.clientId).map (·.1)).getD 0 →
      u.entry? i r.reqId = some x →
      exec (.submit dt) s = .next ((u.incReg R.PART_INTAKE_DUP_COUNT).reply r (x.closed.getD 0x08) 1)) ∧
    (∀ i x, e.intakeTake = some (r, u) → r.type = 5 → u.judgeFirst r = 0 → u.judgeRights r = 0 →
      i = ((u.client r.clientId).map (·.1)).getD 0 → u.entry? i r.reqId = none → u.entry? i (bits (r.word 2) 31 0) = none →
      u.windowBusy i = false →
      x = ({ reqId := r.reqId, route := 0, iface := r.iface, word0 := r.word 0, isAbort := true, itemQ := 0
             itemPtr := u.wptr 0 } : WinEntry) →
      exec (.abort dt) s = .next (((u.incReg R.PART_INTAKE_ACCEPT_COUNT).openEntry i x).closeEntry i x 0x03 0)) ∧
    (∀ q n h route, e.applied = true → e.netReset = false → e.qState q = qActive → q < 512 → e.reg R.QUE_CFG_LOG2_SLOTS q ≤ 16 →
      e.itemSlots q = some n → e.routeOfRes q = some route → h = e.slot q (e.rptr q) →
      (e.client (bits (field h 0 8) 31 16) = none →
        ∃ t, exec (.responseItem dt q) s = .next t ∧ t.rptr q = e.ptrAdd q (e.rptr q) n ∧ SameMemory s t ∧
          t.reg R.PART_INTAKE_ORPHAN_COUNT = min (e.reg R.PART_INTAKE_ORPHAN_COUNT + 1) (2 ^ R.PART_INTAKE_ORPHAN_COUNT.width - 1)) ∧
      (∀ i c x, e.client (bits (field h 0 8) 31 16) = some (i, c) →
        ((e.window i).find? fun y => y.reqId == bits (field h 0 8) 63 32 && y.closed.isNone && y.route == route) = some x →
        responseStatus (field h 12 1) = true →
        ∃ t, exec (.responseItem dt q) s = .next t ∧
          t.window i = updateFirst (fun y => y.reqId == bits (field h 0 8) 63 32 && y.closed.isNone)
            (fun y => { y with closed := some (field h 12 1) }) (e.window i)))

/-! ### Vision and range intake (06) -/

/-- A frame of a running stream that is no depth stream: its start opens it, each line in order is kept with its errors counted, its end
closes a good one without an error; a packet that cannot be used is counted. -/
def Obligations.CameraFrames : Prop :=
  ∀ (s e : State) (dt port vc n : Nat) (ent : List Byte), s.Canonical → e = s.elapse dt → e.visOn port = true →
    e.visMatch port vc = [ent] → n = field ent 0 1 → n < 16 → strKind ent ≠ 3 → e.health = [] →
    Sparse.wf ({} : VisStream) e.vis.streams = true →
    (∀ fn sub, (e.visStr n).frame = none →
      ∃ (t : State) (f : VisFrame), exec (.csi2FrameStart dt port vc fn sub false) s = .next t ∧ (t.visStr n).frame = some f ∧
        f.fn = fn ∧ f.lines = [] ∧ f.bad = 0 ∧ (t.visStr n).armed = some e.now ∧ SameMemory s t ∧ t.svc = e.svc) ∧
    (∀ (f : VisFrame) line crcOk sub, (e.visStr n).frame = some f → f.lines.length < strH ent → line.length = lineLen ent →
      ∃ (t : State) (g : VisFrame), exec (.csi2LinePacket dt port vc (field ent 3 1) line crcOk false sub) s = .next t ∧
        (t.visStr n).frame = some g ∧ g.lines = correctLine ent f.lines.length line :: f.lines ∧
        g.bad = f.bad + (if crcOk then 0 else 1) ∧ g.fn = f.fn ∧ g.record = f.record ∧ g.chans = f.chans ∧ SameMemory s t ∧
        SameRegistersBut [(R.VFE_PORT_CRC_COUNT, port, 0)] s t) ∧
    (∀ (f : VisFrame), (e.visStr n).frame = some f → f.lines.length = strH ent → f.bad ≤ field ent 0x3C 2 → f.long = false →
      ∃ t, exec (.csi2FrameEnd dt port vc f.fn false) s = .next t ∧ (t.visStr n).frame = none ∧
        t.reg R.VFE_STR_FRAMES_COUNT n = min (e.reg R.VFE_STR_FRAMES_COUNT n + 1) (2 ^ R.VFE_STR_FRAMES_COUNT.width - 1) ∧
        SameRegistersBut [(R.VFE_STR_FRAMES_COUNT, n, 0)] s t ∧ SameMemory s t) ∧
    exec (.csi2PacketDiscard dt port true) s = .next (e.incReg R.VFE_PORT_ECC_DROP port) ∧
    exec (.csi2PacketDiscard dt port false) s = .next (e.incReg R.VFE_PORT_DT_DROP_COUNT port)

/-- A finished item is written whole, with its header's word 0 naming kind, source, quality and sequence; a stream that stays silent is
counted lost and raises STREAM_LOST where its entry asks; a failed known-answer test of a SAFETY channel raises VISION_KAT. A lidar
packet at the front of its queue is parsed and its slots released; a scan is closed by its time-out; a silent intake is counted
lost. -/
def Obligations.ItemsAndLidar : Prop :=
  (∀ (s e : State) (dt : Nat), s.Canonical → e = s.elapse dt →
     (∀ kind n (i : VisItem), (e.vis.items.find? fun i => i.kind == kind && i.source == n) = some i → e.health = [] →
       (∀ g, g < 32 → e.fgOn g = false) →
       ∃ t, exec (.visionItemComplete dt kind n) s = .next t ∧ t.bytes (i.addr + 64) i.body.length = i.body ∧
         t.load i.addr 8 = (i.kind + 2 ^ 8 * i.source + 2 ^ 16 * i.quality + 2 ^ 32 * ((e.visSource kind n).seq % 2 ^ 32)) % 2 ^ 64 ∧
         t.vis.items = e.vis.items.erase i ∧ SameMemoryBut i.addr (64 + i.body.length) s t) ∧
     (∀ n ent armed, e.streamEntry n = some ent → (e.visStr n).armed = some armed →
       e.dogExpired armed (field ent 0x0C 4) (field ent 0x0A 1) = true → (e.visStr n).frame = none →
       (bit (field ent 0x0B 1) 1 = false → exec (.streamWatchdogExpire dt n) s =
         .next ((e.setVisStr n { e.visStr n with armed := none }).incReg R.VFE_STR_LOST_COUNT n)) ∧
       (bit (field ent 0x0B 1) 1 = true → exec (.streamWatchdogExpire dt n) s =
         .next (((e.setVisStr n { e.visStr n with armed := none }).incReg R.VFE_STR_LOST_COUNT n).raise 0x69 n 0))) ∧
     (∀ k c bad, e.chanEntry k = some c → e.flag R.VFE_STATUS_RUN = true → bit (field c 3 1) 1 = true →
       (bad = true ∨ e.katOk c = false) →
       exec (.visionKat dt k bad) s = .next ((e.incReg R.VFE_CH_KAT_FAIL_COUNT k).raise 0x6A k 0)) ∧
     (∀ k c, e.chanEntry k = some c → e.katOk c = true → exec (.visionKat dt k false) s = .next e)) ∧
  (∀ (s e : State) (dt i : Nat) (ent : List Byte), s.Canonical → e = s.elapse dt → e.lidarEntry i = some ent →
     (∀ q h len n, q = field ent 2 2 → h = e.slot q (e.rptr q) → len = field h 0 2 → n = 1 + ceilDiv len 64 →
       e.flag R.VFE_STATUS_RUN = true → e.qState q = qActive → n ≤ e.qCount q →
       exec (.lidarPacketParse dt i) s = .next ((e.lidarPacket i ent
         (((List.range (n - 1)).flatMap fun k => e.slot q (e.ptrAdd q (e.rptr q) (k + 1))).take len) (field h 8 8) (field h 3 1)).release q n)) ∧
     (∀ sc : VisScan, (e.visLid i).scan = some sc → sc.stamp + field ent 0x18 4 ≤ e.now → sc.buf = none →
       (sc.cells.length < lidarCells ent → bit (field ent 0x21 1) 0 = false) →
       exec (.scanTimeout dt i) s = .next (e.setVisLid i { e.visLid i with scan := none })) ∧
     (∀ armed, (e.visLid i).armed = some armed → e.dogExpired armed (field ent 0x1C 4) (field ent 0x20 1) = true →
       bit (field ent 0x21 1) 0 = false →
       exec (.lidarWatchdogExpire dt i) s =
         .next ((e.setVisLid i { e.visLid i with armed := none }).incReg R.VFE_LID_LOST_COUNT i)))

/-- `vfe.set_crop` keeps a window for the channel's next frame start; `vfe.hold` and `vfe.release` of a held-able item change the
source's held buffers and answer 0; `vfe.roi_resize` is its boxes in order. -/
def Obligations.VisionCommands : Prop :=
  ∀ (s e : State) (dt id : Nat) (c : Cmd), s.Canonical → e = s.elapse dt → e.wrote = none → c.aborted = false →
    (e.engine id 0x50 = some c →
      ∃ t, exec (.vfeSetCrop dt id) s = .next t ∧ t.Executed id 0 0 0 ∧ SameCommandsBut id e t ∧
        t.vis.crops = (bits (c.word 1) 4 0, [bits (c.word 2) 15 0, bits (c.word 2) 31 16, bits (c.word 2) 47 32, bits (c.word 2) 63 48]) ::
          e.vis.crops.filter (fun x => x.1 != bits (c.word 1) 4 0) ∧
        t = { e with cmds := t.cmds, vis.crops := t.vis.crops }) ∧
    (∀ b seq x, e.engine id 0x51 = some c → x = e.visSource (bits (c.word 1) 2 0) (bits (c.word 1) 12 8) →
      (x.items.find? fun i => i.2 == bits (c.word 2) 31 0) = some (b, seq) → x.held.contains b = false → e.badWords (c.addr 3) 8 = [] →
      c.addr 3 ≠ 0 →
      ∃ t, exec (.vfeHold dt id) s = .next t ∧ t.Executed id 0 0 0 ∧ SameCommandsBut id e t ∧
        (t.visSource (bits (c.word 1) 2 0) (bits (c.word 1) 12 8)).held = b :: x.held ∧ t.load (c.addr 3) 8 = 0 ∧
        SameMemoryBut (c.addr 3) 8 s t) ∧
    (∀ b seq x, e.engine id 0x52 = some c → x = e.visSource (bits (c.word 1) 2 0) (bits (c.word 1) 12 8) →
      (x.items.find? fun i => i.2 == bits (c.word 2) 31 0) = some (b, seq) → x.held.contains b = true → e.badWords (c.addr 3) 8 = [] →
      c.addr 3 ≠ 0 →
      ∃ t, exec (.vfeRelease dt id) s = .next t ∧ t.Executed id 0 0 0 ∧ SameCommandsBut id e t ∧
        (t.visSource (bits (c.word 1) 2 0) (bits (c.word 1) 12 8)).held = x.held.filter (fun y => y != b) ∧ t.load (c.addr 3) 8 = 0 ∧
        SameMemoryBut (c.addr 3) 8 s t) ∧
    (∀ (u : State) (d : Cmd), e.engine id 0x53 = some c → Eff.each (roiBox c) (List.range (bits (c.word 5) 8 0)) e = (.ok (), u) →
      u.cmd? id = some d → u.wrote = none →
      ∃ t, exec (.vfeRoiResize dt id) s = .next t ∧ t.Executed id 0 0 0 ∧ SameCommandsBut id u t ∧ t = { u with cmds := t.cmds })

/-! ### Tensor commands (07, 08) -/

/-- A TENSOR command runs its core's part on every core of its CMASK, in order; where every part ends well it is executed with status 0,
and nothing beside what the parts did changes: matrix, vector and reduction commands, convolution commands and `tc.halo`. -/
def Obligations.TensorCommands : Prop :=
  (∀ (s e u : State) (dt id : Nat) (c d : Cmd) (faults : List TcFault), e = s.elapse dt → e.wrote = none → c.aborted = false →
     u.cmd? id = some d → u.wrote = none →
     (e.engine id 0x21 = some c → e.runCores (fun n => (mmaJob c faults n).run) (maskCores c.coreMask) = ({}, u) →
       ∃ t, exec (.tcMma dt id faults) s = .next t ∧ t.Executed id 0 0 0 ∧ SameCommandsBut id u t ∧ t = { u with cmds := t.cmds }) ∧
     (e.engine id 0x23 = some c → e.runCores (transposeCore c faults) (maskCores c.coreMask) = ({}, u) →
       ∃ t, exec (.tcTranspose dt id faults) s = .next t ∧ t.Executed id 0 0 0 ∧ SameCommandsBut id u t ∧
         t = { u with cmds := t.cmds }) ∧
     (e.engine id 0x24 = some c → e.runCores (vopCore c faults) (maskCores c.coreMask) = ({}, u) →
       ∃ t, exec (.tcVop dt id faults) s = .next t ∧ t.Executed id 0 0 0 ∧ SameCommandsBut id u t ∧ t = { u with cmds := t.cmds }) ∧
     (e.engine id 0x25 = some c → e.runCores (reduceCore c faults) (maskCores c.coreMask) = ({}, u) →
       ∃ t, exec (.tcVreduce dt id faults) s = .next t ∧ t.Executed id 0 0 0 ∧ SameCommandsBut id u t ∧ t = { u with cmds := t.cmds }) ∧
     (e.engine id 0x26 = some c → e.runCores (softmaxCore c faults) (maskCores c.coreMask) = ({}, u) →
       ∃ t, exec (.tcSoftmax dt id faults) s = .next t ∧ t.Executed id 0 0 0 ∧ SameCommandsBut id u t ∧ t = { u with cmds := t.cmds }) ∧
     (e.engine id 0x27 = some c → e.runCores (normCore c faults) (maskCores c.coreMask) = ({}, u) →
       ∃ t, exec (.tcNorm dt id faults) s = .next t ∧ t.Executed id 0 0 0 ∧ SameCommandsBut id u t ∧ t = { u with cmds := t.cmds }) ∧
     (e.engine id 0x2A = some c → e.runCores (selftestCore c faults) (maskCores c.coreMask) = ({}, u) →
       ∃ t, exec (.tcSelftest dt id faults) s = .next t ∧ t.Executed id 0 0 0 ∧ SameCommandsBut id u t ∧ t = { u with cmds := t.cmds })) ∧
  (∀ (s e u : State) (dt id : Nat) (c d : Cmd) (faults : List TcFault), e = s.elapse dt → e.wrote = none → c.aborted = false →
     u.cmd? id = some d → u.wrote = none →
     (e.engine id 0x30 = some c → e.runCores (fun n => (convJob c faults n).run) (maskCores c.coreMask) = ({}, u) →
       ∃ t, exec (.tcConv dt id faults) s = .next t ∧ t.Executed id 0 0 0 ∧ SameCommandsBut id u t ∧ t = { u with cmds := t.cmds }) ∧
     (e.engine id 0x31 = some c → e.runCores (wconvCore c faults) (maskCores c.coreMask) = ({}, u) →
       ∃ t, exec (.tcWconv dt id faults) s = .next t ∧ t.Executed id 0 0 0 ∧ SameCommandsBut id u t ∧ t = { u with cmds := t.cmds }) ∧
     (e.engine id 0x32 = some c → e.runCores (wxformCore c faults) (maskCores c.coreMask) = ({}, u) →
       ∃ t, exec (.tcWxform dt id faults) s = .next t ∧ t.Executed id 0 0 0 ∧ SameCommandsBut id u t ∧ t = { u with cmds := t.cmds }) ∧
     (e.engine id 0x33 = some c → e.runCores (foldCore true c faults) (maskCores c.coreMask) = ({}, u) →
       ∃ t, exec (.tcS2d dt id faults) s = .next t ∧ t.Executed id 0 0 0 ∧ SameCommandsBut id u t ∧ t = { u with cmds := t.cmds }) ∧
     (e.engine id 0x34 = some c → e.runCores (foldCore false c faults) (maskCores c.coreMask) = ({}, u) →
       ∃ t, exec (.tcD2s dt id faults) s = .next t ∧ t.Executed id 0 0 0 ∧ SameCommandsBut id u t ∧ t = { u with cmds := t.cmds }) ∧
     (e.engine id 0x35 = some c → e.runCores (haloCore c) (maskCores c.coreMask) = ({}, u) →
       ∃ t, exec (.tcHalo dt id) s = .next t ∧ t.Executed id 0 0 0 ∧ SameCommandsBut id u t ∧ t = { u with cmds := t.cmds }))

/-- The array's integer arithmetic: a pass adds its products to the incoming partial sum modulo 2^32, and an output in an integer type
is the value held to that type's range. -/
def Obligations.IntegerPasses : Prop :=
  (∀ (ty wt x : Nat) (row col : List Nat), isFloat ty = false →
    ((dotAcc ty wt row col x : Nat) : Int) % 2 ^ 32 = ((x : Int) + ((row.zip col).map fun p => toI ty p.1 * toI wt p.2).sum) % 2 ^ 32) ∧
  (∀ (ty : Nat) (x : Int), ty ≤ 4 → toI ty (ofI ty x) = clampInt (typeRange ty).1 (typeRange ty).2 x) ∧
  (∀ (ty x : Nat), ty ≤ 4 → x < 2 ^ typeBits ty → (typeRange ty).1 ≤ toI ty x ∧ toI ty x ≤ (typeRange ty).2)

/-! ### Memory (09) -/

/-- A row of a scrubber's window is checked and its place advances; a pass that has not ended in 200 ms is forced, and its fault raised;
the patrol walks on, counting a pass at the end; a link error is reissued twice and then fails; a refresh report is shown. -/
def Obligations.MemoryUpkeep : Prop :=
  ∀ (s e : State) (dt : Nat), s.Canonical → e = s.elapse dt →
    (∀ i b dom base size row banks rows, sramAt i = some (dom, base, size) → sramRows i = (row, banks, rows) → e.scrubs i = true →
      b < banks → Sparse.get 0 (e.scrub i).rows b + 1 < rows → Sparse.wf 0 (e.scrub i).rows = true → e.health = [] →
      exec (.scrubWindow dt i b) s =
        .next (e.setScrub i { e.scrub i with rows := Sparse.put 0 (e.scrub i).rows b (Sparse.get 0 (e.scrub i).rows b + 1) })) ∧
    (∀ i, i < 18 → e.scrubs i = true → (e.scrub i).forced = false → (e.scrub i).began + msTicks 200 ≤ e.tick →
      exec (.scrubForced dt i) s =
        .next (((e.setScrub i { e.scrub i with forced := true }).incReg R.MEMC_SRAM_SCRUB_FORCED i).raise 0x52 i 0)) ∧
    (∀ n, e.dramUp = true → 0 < e.patrolSize → e.reg R.MEMC_CFG_PATROL ≠ 0 → e.health = [] →
      (e.patrolAt + 8 * n < e.patrolSize → exec (.patrolRead dt n) s = .next { e with patrolAt := e.patrolAt + 8 * n }) ∧
      (e.patrolSize ≤ e.patrolAt + 8 * n →
        exec (.patrolRead dt n) s = .next { e.incReg R.MEMC_PATROL_PASSES_COUNT with patrolAt := 0 })) ∧
    (∀ addr work, e.dramUp = true → e.isDram addr = true → e.hub.reissue = [] →
      exec (.linkEccReissue dt addr true work) s = .next (e.incReg R.MEMC_LINK_RETRY_COUNT) ∧
      exec (.linkEccReissue dt addr false work) s =
        .next (({ e with hub.reissue := [(addr, 1)] } : State).incReg R.MEMC_LINK_RETRY_COUNT)) ∧
    (∀ addr, e.dramUp = true → e.isDram addr = true → e.hub.reissue = [(addr, 2)] →
      exec (.linkEccReissue dt addr false .island) s =
        .next ((({ e with hub.reissue := [] } : State).incReg R.MEMC_LINK_FAIL_COUNT).raise 0x54 (dramChannel addr) addr)) ∧
    (∀ r, e.dramUp = true → r < 3 → e.reg R.MEMC_STATUS_RATE = r →
      ∃ t, exec (.refreshReportRead dt (List.replicate 32 r)) s = .next t ∧ (∀ ch, ch < 32 → t.reg R.MEMC_CH_RATE_RATE ch = r) ∧
        t.reg R.MEMC_STATUS_RATE = r ∧ t.inExcursion 0x55 0 = false ∧ SameMemory s t)

/-- A read that meets a correctable word corrects and counts it; one that meets an uncorrectable word poisons it, and ends with its
address; a write of a whole word makes it good. -/
def Obligations.WordErrors : Prop :=
  ∀ (s : State) (a n w : Nat), s.Canonical →
    (s.badWords a n = [] → s.readMem a n = (none, s)) ∧
    (s.badWords a n = [(w, .correctable)] →
      (s.readMem a n).1 = none ∧ Sparse.get Health.good (s.readMem a n).2.health w = .good) ∧
    (s.badWords a n = [(w, .uncorrectable)] →
      s.readMem a n = (some w, s.foundBad w) ∧
      (sramIndex w = none → s.latched 0x53 = true →
        Sparse.get Health.good (s.foundBad w).health w = .poisoned ∧ (s.foundBad w).reg R.MEMC_LAST_UE_ADDR_ADDR = w % 2 ^ 64 ∧
        SameMemory s (s.foundBad w))) ∧
    (∀ h bs, s.badWords a bs.length = [(w, h)] → a ≤ w → w + s.wordSize w ≤ a + bs.length →
      (s.writeMem a bs).1 = none ∧ Sparse.get Health.good (s.writeMem a bs).2.health w = .good ∧
        (s.writeMem a bs).2.bytes a bs.length = bs)

/-- `copy.linear` copies its bytes and `copy.fill` repeats its eight-byte pattern: the whole destination and nothing else, the command
done with its byte count. `copy.strided` moves every row of every plane, and `copy.transpose` every element to its transposed place,
where source and destination rows lie apart. -/
def Obligations.Copies : Prop :=
  (∀ (s e : State) (dt id n : Nat) (c : Cmd), s.Canonical → e = s.elapse dt → e.wrote = none → c.aborted = false → c.begun = false →
     hdrCheckpoint (c.word 0) = false → e.health = [] → n = c.word 3 →
     (e.engine id 0x40 = some c →
       ∃ t, exec (.copyLinear dt id) s = .next t ∧ t.Executed id 0 0 n ∧ SameCommandsBut id e t ∧
         t.bytes (c.addr 2) n = e.bytes (c.addr 1) n ∧ SameMemoryBut (c.addr 2) n s t ∧ (∀ k, t.event k = e.event k)) ∧
     (e.engine id 0x43 = some c →
       ∃ t, exec (.copyFill dt id) s = .next t ∧ t.Executed id 0 0 n ∧ SameCommandsBut id e t ∧
         (∀ i, i < n → t.byte (c.addr 2 + i) = (leBytes 8 (c.word 1)).getD (i % 8) 0#8) ∧ SameMemoryBut (c.addr 2) n s t ∧
         (∀ k, t.event k = e.event k))) ∧
  (∀ (s e : State) (dt id : Nat) (c : Cmd), s.Canonical → e = s.elapse dt → e.wrote = none → c.aborted = false → c.begun = false →
     hdrCheckpoint (c.word 0) = false → e.health = [] →
     (∀ (src dst : Nat → Nat → Nat) (len rows planes : Nat), len = c.word 3 → rows = bits (c.word 4) 23 0 → planes = bits (c.word 4) 47 24 →
       (∀ q i, src q i = c.addr 1 + q * c.word 7 + i * c.word 5) → (∀ q i, dst q i = c.addr 2 + q * c.word 8 + i * c.word 6) →
       (∀ q i q' i', q < planes → i < rows → q' < planes → i' < rows →
         (src q i + len ≤ dst q' i' ∨ dst q' i' + len ≤ src q i) ∧ ((q, i) = (q', i') ∨ dst q i + len ≤ dst q' i' ∨ dst q' i' + len ≤ dst q i)) →
       e.engine id 0x41 = some c →
       ∃ t, exec (.copyStrided dt id) s = .next t ∧ t.Executed id 0 0 (stridedTotal c) ∧ SameCommandsBut id e t ∧
         (∀ q i k, q < planes → i < rows → k < len → t.byte (dst q i + k) = e.byte (src q i + k)) ∧
         (∀ a, (∀ q i, q < planes → i < rows → a < dst q i ∨ dst q i + len ≤ a) → t.byte a = e.byte a)) ∧
     (∀ (src dst : Nat → Nat → Nat) (rows cols sz : Nat), transDims (c.word 3) = (rows, cols, sz) →
       (∀ i j, src i j = c.addr 1 + i * c.word 4 + j * sz) → (∀ j i, dst j i = c.addr 2 + j * c.word 5 + i * sz) →
       (∀ i j i' j', i < rows → j < cols → i' < rows → j' < cols →
         (src i j + sz ≤ dst j' i' ∨ dst j' i' + sz ≤ src i j) ∧ ((i, j) = (i', j') ∨ dst j i + sz ≤ dst j' i' ∨ dst j' i' + sz ≤ dst j i)) →
       e.engine id 0x42 = some c →
       ∃ t, exec (.copyTranspose dt id) s = .next t ∧ t.Executed id 0 0 (rows * cols * sz) ∧ SameCommandsBut id e t ∧
         (∀ i j k, i < rows → j < cols → k < sz → t.byte (dst j i + k) = e.byte (src i j + k)) ∧
         (∀ a, (∀ i j, i < rows → j < cols → a < dst j i ∨ dst j i + sz ≤ a) → t.byte a = e.byte a)))

/-! ### Embedding, select, merge (10, 11) -/

/-- A gather, a put, and the commands of the select engine without CHECKPOINT run their output rows in order; where every row ends well
the command is executed with status 0 and the rows as its units, and nothing beside what the rows did changes. -/
def Obligations.RowCommands : Prop :=
  ∀ (s e u : State) (dt id n : Nat) (c d : Cmd), e = s.elapse dt → e.wrote = none → c.aborted = false → c.begun = false →
    hdrCheckpoint (c.word 0) = false → u.cmd? id = some d → u.wrote = none →
    (∀ faults o t, o = gatherOp (c.word 1) → e.engine id 0x60 = some c → e.embTable c.part o.table = some t → n = gatherRows c →
      runRows (gatherRow c o t 0) (embBad faults) n 0 n e = (n, {}, u) →
      ∃ t, exec (.embGather dt id faults) s = .next t ∧ t.Executed id 0 0 n ∧ SameCommandsBut id u t ∧ t = { u with cmds := t.cmds }) ∧
    (∀ faults t, e.engine id 0x61 = some c → e.embTable c.part (bits (c.word 1) 5 0) = some t → n = bits (c.word 5) 23 0 →
      runRows (putAt c t) (embBad faults) n 0 n e = (n, {}, u) →
      ∃ t, exec (.embPut dt id faults) s = .next t ∧ t.Executed id 0 0 n ∧ SameCommandsBut id u t ∧ t = { u with cmds := t.cmds }) ∧
    (∀ bad, n = c.sel.rows → c.sel.n ≠ 0 → e.engine id 0x68 = some c → runRows (selRow c 1) (selBad bad) n 0 n e = (n, {}, u) →
      ∃ t, exec (.selArgmax dt id bad) s = .next t ∧ t.Executed id 0 0 n ∧ SameCommandsBut id u t ∧ t = { u with cmds := t.cmds }) ∧
    (∀ bad, n = c.sel.rows → c.sel.k ≠ 0 → e.engine id 0x69 = some c → runRows (selLong c c.sel.k) (selBad bad) n 0 n e = (n, {}, u) →
      ∃ t, exec (.selTopk dt id bad) s = .next t ∧ t.Executed id 0 0 n ∧ SameCommandsBut id u t ∧ t = { u with cmds := t.cmds }) ∧
    (∀ bad, n = c.sel.rows → c.sel.n ≠ 0 → e.engine id 0x6A = some c → runRows (sampleRow c) (selBad bad) n 0 n e = (n, {}, u) →
      ∃ t, exec (.selSample dt id bad) s = .next t ∧ t.Executed id 0 0 n ∧ SameCommandsBut id u t ∧ t = { u with cmds := t.cmds }) ∧
    (∀ bad, n = c.sel.rows → c.sel.n ≠ 0 → e.engine id 0x6B = some c → runRows (selLong c c.sel.n) (selBad bad) n 0 n e = (n, {}, u) →
      ∃ t, exec (.selSort dt id bad) s = .next t ∧ t.Executed id 0 0 n ∧ SameCommandsBut id u t ∧ t = { u with cmds := t.cmds })

/-- The actions of `sel.stream`: SEED instantiates a stream from 48 bytes, SAVE writes its 64-byte context, LOAD takes a good context
back and ends INVALID_OPERAND on one whose CRC does not match, CLEAR empties it. -/
def Obligations.RandomStreams : Prop :=
  ∀ (s e : State) (dt id n : Nat) (c : Cmd), s.Canonical → Sparse.wf (none : Option Stream) e.streams = true → e = s.elapse dt →
    e.wrote = none → c.aborted = false → e.engine id 0x6C = some c → n = bits (c.word 1) 6 0 → e.health = [] →
    (bits (c.word 1) 10 8 = 0 →
      ∃ t, exec (.streamSeed dt id) s = .next t ∧ t.Executed id 0 0 0 ∧ SameCommandsBut id e t ∧
        t.stream n = some (drbgInstantiate (e.bytes (c.addr 2) 48)) ∧ (∀ k, k ≠ n → t.stream k = e.stream k) ∧ SameMemory s t) ∧
    (bits (c.word 1) 10 8 = 1 →
      ∃ t, exec (.streamSave dt id) s = .next t ∧ t.Executed id 0 0 0 ∧ SameCommandsBut id e t ∧ t.streams = e.streams ∧
        t.bytes (c.addr 2) (streamBytes (e.stream n)).length = streamBytes (e.stream n) ∧
        SameMemoryBut (c.addr 2) (streamBytes (e.stream n)).length s t) ∧
    (∀ b, b = e.bytes (c.addr 2) 64 → bits (c.word 1) 10 8 = 2 →
      (field b 56 4 = crc32 (b.take 56) → field b 60 4 = 0 → field b 55 1 = 0 → field b 54 1 = 1 →
        ∃ t, exec (.streamLoad dt id) s = .next t ∧ t.Executed id 0 0 0 ∧ SameCommandsBut id e t ∧
          t.stream n = some ⟨b.take 32, slice b 32 16, field b 48 6⟩ ∧ SameMemory s t) ∧
      (field b 56 4 ≠ crc32 (b.take 56) →
        ∃ t, exec (.streamLoad dt id) s = .next t ∧ t.Executed id 0x14 0 0 ∧ t.streams = e.streams ∧ SameMemory s t)) ∧
    (bits (c.word 1) 10 8 = 3 →
      ∃ t, exec (.streamClear dt id) s = .next t ∧ t.Executed id 0 0 0 ∧ SameCommandsBut id e t ∧ t.stream n = none ∧
        (∀ k, k ≠ n → t.stream k = e.stream k) ∧ SameMemory s t)

/-- `sel.xmerge` sends its list and waits for the others; a received list without its command is held, with the tick; the command times
out with cause 4, and a list held for a second is dropped and counted. -/
def Obligations.ListMerge : Prop :=
  ∀ (s e : State) (dt : Nat), s.Canonical → e = s.elapse dt →
    (∀ id bad (c : Cmd), e.engine id 0x6D = some c → c.aborted = false → e.wrote = none → e.health = [] → e.ifaces.held = [] →
      (inOrder (mergeOp true c.mergeDir) (bytesWords (e.bytes (c.addr 1) (8 * c.mergeK)) c.mergeK) ||
        inOrder (mergeOp false c.mergeDir) (bytesWords (e.bytes (c.addr 1) (8 * c.mergeK)) c.mergeK)) = true →
      ∃ t, exec (.selXmerge dt id bad) s = .next t ∧
        t.cmd? id = some { c with stage := .waiting, begun := true, limit := some (e.tick + usTicks (bits (c.word 4) 19 0)) } ∧
        SameCommandsBut id e t ∧ SameMemory s t) ∧
    (∀ bad (x : XList) l, e.ifaces.ready = x :: l → e.merging x.coll = none →
      (e.ifaces.held.any fun y => y.coll == x.coll && y.rank == x.rank) = false → e.ifaces.held.length < 8 →
      exec (.xmergeListReceived dt bad) s =
        .next { e with ifaces := { e.ifaces with ready := l, held := e.ifaces.held ++ [{ x with since := e.tick }] } }) ∧
    (∀ bad (x : XList) l, e.ifaces.ready = x :: l → e.merging x.coll = none →
      (e.ifaces.held.any fun y => y.coll == x.coll && y.rank == x.rank) = true →
      exec (.xmergeListReceived dt bad) s = .next (({ e with ifaces.ready := l } : State).incReg R.SEL_XM_DROP_COUNT)) ∧
    (∀ id (c : Cmd) lim, e.cmd? id = some c → c.op = 0x6D → c.stage = .waiting → c.limit = some lim → lim ≤ e.tick →
      exec (.xmergeTimeout dt id) s =
        .next (((e.incReg R.SEL_XM_TIMEOUT_COUNT).supersedeReplay 3 c.coll (c.addr 1)).mergeFail c 4)) ∧
    (∀ (x : XList) l, e.ifaces.held = x :: l → x.since + msTicks 1000 ≤ e.tick →
      exec (.xmergeHoldExpire dt) s = .next (({ e with ifaces.held := l } : State).incReg R.SEL_XM_DROP_COUNT))

/-! ### Comet (12) -/

/-- The tokenizer's commands and the slot unit's mask and step run their work on the state; where it ends well the command is executed
with status 0 and nothing beside the work changes. -/
def Obligations.TokenCommands : Prop :=
  ∀ (s e u : State) (dt id : Nat) (c d : Cmd), e = s.elapse dt → e.wrote = none → c.aborted = false → u.cmd? id = some d →
    u.wrote = none →
    (∀ v, e.engine id 0x70 = some c → e.vocab (bits (c.word 1) 2 0) = some v → encodeText c v e = (.ok (), u) →
      ∃ t, exec (.tokEncode dt id) s = .next t ∧ t.Executed id 0 0 0 ∧ SameCommandsBut id u t ∧ t = { u with cmds := t.cmds }) ∧
    (∀ v, e.engine id 0x71 = some c → e.vocab (bits (c.word 1) 2 0) = some v → decodeText c v e = (.ok (), u) →
      ∃ t, exec (.tokDecode dt id) s = .next t ∧ t.Executed id 0 0 0 ∧ SameCommandsBut id u t ∧ t = { u with cmds := t.cmds }) ∧
    (e.engine id 0x74 = some c → maskRows c e = (.ok (), u) →
      ∃ t, exec (.tokMask dt id) s = .next t ∧ t.Executed id 0 0 0 ∧ SameCommandsBut id u t ∧ t = { u with cmds := t.cmds }) ∧
    (e.engine id 0x75 = some c → stepSlots c e = (.ok (), u) →
      ∃ t, exec (.tokStep dt id) s = .next t ∧ t.Executed id 0 0 0 ∧ SameCommandsBut id u t ∧ t = { u with cmds := t.cmds }) ∧
    (∀ e', e.engine id 0x70 = some c → (∃ v w, e.vocab (bits (c.word 1) 2 0) = some v ∧ encodeText c v e = (.error e', w) ∧
        w.cmd? id = some d ∧ w.wrote = none) →
      ∃ t, exec (.tokEncode dt id) s = .next t ∧ t.Executed id e'.status e'.detail 0)

/-- `tok.slot` OPEN gives a free slot its command's settings and the next epoch, CLOSE of a finished sequence frees it, and each answers
0 where RESULT is asked; OPEN of an active slot answers 1 and changes no slot; `tok.list` writes the live slots of its partition
with their epochs. -/
def Obligations.TextSlots : Prop :=
  ∀ (s e : State) (dt id : Nat) (c : Cmd), s.Canonical → e = s.elapse dt → e.wrote = none → c.aborted = false →
    Sparse.wf ({} : Slot) e.slots = true → e.health = [] →
    (∀ n w, n = bits (c.word 1) 6 0 → w = c.word 1 → e.engine id 0x72 = some c → bits w 10 8 = 0 → c.addr 4 ≠ 0 →
      ((e.slotOf n).active = false →
        ∃ t, exec (.slotOpen dt id) s = .next t ∧ t.Executed id 0 0 0 ∧ SameCommandsBut id e t ∧ t.load (c.addr 4) 8 = 0 ∧
          t.slotOf n = { active := true, vocab := bits w 14 12, grammar := bits w 22 16, state := bits w 47 32, maxNew := bits w 63 48
                         emitSpecial := bit w 15, out := c.addr 2, outSize := bits (c.word 3) 31 0
                         epoch := ((e.slotOf n).epoch + 1) % 65536 } ∧
          (∀ k, k ≠ n → t.slotOf k = e.slotOf k) ∧ SameMemoryBut (c.addr 4) 8 s t) ∧
      ((e.slotOf n).active = true →
        ∃ t, exec (.slotOpen dt id) s = .next t ∧ t.Executed id 0 0 0 ∧ t.load (c.addr 4) 8 = 1 ∧ t.slots = e.slots ∧
          SameMemoryBut (c.addr 4) 8 s t)) ∧
    (∀ n, n = bits (c.word 1) 6 0 → e.engine id 0x72 = some c → bits (c.word 1) 10 8 = 1 → c.addr 4 ≠ 0 → (e.slotOf n).active = true →
      (e.slotOf n).finished = true →
      ∃ t, exec (.slotClose dt id) s = .next t ∧ t.Executed id 0 0 0 ∧ SameCommandsBut id e t ∧ t.load (c.addr 4) 8 = 0 ∧
        t.slotOf n = { e.slotOf n with active := false } ∧ (∀ k, k ≠ n → t.slotOf k = e.slotOf k) ∧
        SameMemoryBut (c.addr 4) 8 s t) ∧
    (∀ l, l = (List.range 128).filter (fun n => e.ownSlot c.part n && (e.slotOf n).live) → e.engine id 0x73 = some c → c.addr 2 = 0 →
      ∃ t, exec (.tokList dt id) s = .next t ∧ t.Executed id 0 0 0 ∧ SameCommandsBut id e t ∧
        t.bytes (c.addr 1) (4 * l.length) = l.flatMap (fun n => leBytes 4 (n + 2 ^ 16 * (e.slotOf n).epoch)) ∧
        SameMemoryBut (c.addr 1) (4 * l.length) s t ∧ t.slots = e.slots)

/-! ### Acoustic engine (13) -/

/-- While the sample path runs every sample frame is numbered; a block's end is judged once; a mute pad's onset mutes, counts the mute
and stops the anti-noise with cause 1, and the release of both ends it; pads that differ for the configured time raise MUTE_DISC. -/
def Obligations.SamplePathAndMutes : Prop :=
  ∀ (s e : State) (dt : Nat), s.Canonical → e = s.elapse dt →
    (∀ inputs padA padB residue deadline readback, e.flag R.ACU_STATUS_SP_RUN = true →
      ∃ t, exec (.sampleFrame dt inputs padA padB residue deadline readback) s = .next t ∧ t.acu.frame = e.acu.frame + 1) ∧
    (∀ inputs padA padB residue deadline readback, e.flag R.ACU_STATUS_SP_RUN = false →
      exec (.sampleFrame dt inputs padA padB residue deadline readback) s = .next e) ∧
    (∀ k, e.acu.block = some k → audSpks e.audio = 0 →
      exec (.audioBlockEnd dt) s = .next (({ e with acu.block := none } : State).judgeClamps k)) ∧
    (∀ b : Bool, e.flag R.ACU_STATUS_SP_RUN = true → e.flag R.ACU_MUTE_MUTED = false →
      ∃ t, exec (.priorityMuteOnset dt b) s = .next t ∧ t.flag R.ACU_MUTE_MUTED = true ∧
        t.flag (if b then R.ACU_MUTE_B else R.ACU_MUTE_A) = true ∧ (t.reg R.ACU_STATUS_ANC_CAUSE).testBit 1 = true ∧
        t.reg R.ACU_MUTES_COUNT = min (e.reg R.ACU_MUTES_COUNT + 1) (2 ^ R.ACU_MUTES_COUNT.width - 1) ∧
        t.acu.mute = e.acu.mute.slope 0 40 ∧ SameMemory s t) ∧
    (e.flag R.ACU_STATUS_SP_RUN = true → e.flag R.ACU_MUTE_MUTED = true →
      ∃ t, exec (.muteRelease dt) s = .next t ∧ t.flag R.ACU_MUTE_MUTED = false ∧ t.flag R.ACU_MUTE_A = false ∧
        t.flag R.ACU_MUTE_B = false ∧ (t.reg R.ACU_STATUS_ANC_CAUSE).testBit 1 = false ∧ t.acu.mute = e.acu.mute.slope 32768 480 ∧
        SameMemory s t) ∧
    (∀ at_, e.acu.disc = some at_ → e.flag R.ACU_MUTE_DISC = false → at_ + msTicks (field e.audio 0xE 2) ≤ e.tick →
      ∃ u : State, exec (.muteDiscrepancy dt) s = .next (u.raise 0x75 0 0) ∧ u.flag R.ACU_MUTE_DISC = true ∧ u = { e with regs := u.regs })

/-- A port that loses its clock is faulty at once, stopping the sample path where it is its clock, and relocks after 100 ms; the clock
source's first lock starts the sample path; a rate change takes effect when the port has ramped down, and a faulty slave whose clock
has settled at the other rate shows it. -/
def Obligations.AudioPorts : Prop :=
  ∀ (s e : State) (dt n : Nat), s.Canonical → e = s.elapse dt → e.portUp n = true →
    (e.flag R.ACU_PORT_STAT_FAULT n = false →
      ∃ u : State, exec (.portLockLoss dt n) s = .next (u.raise 0x70 n 0) ∧ u.flag R.ACU_PORT_STAT_FAULT n = true ∧
        u.flag R.ACU_PORT_STAT_LOCKED n = false ∧
        u.flag R.ACU_STATUS_SP_RUN = (if field e.audio 0 1 = n + 1 then false else e.flag R.ACU_STATUS_SP_RUN) ∧ SameMemory s u) ∧
    (e.flag R.ACU_PORT_STAT_FAULT n = true → (e.acuPort n).since + msTicks 100 ≤ e.tick →
      ∃ t, exec (.portRelock dt n) s = .next t ∧ t.flag R.ACU_PORT_STAT_FAULT n = false ∧ t.flag R.ACU_PORT_STAT_LOCKED n = true ∧
        (field e.audio 0 1 = n + 1 → t.flag R.ACU_STATUS_SP_RUN = true) ∧ SameMemory s t) ∧
    (field e.audio 0 1 = n + 1 → e.flag R.ACU_PORT_STAT_LOCKED n = false →
      ∃ t, exec (.portFirstLock dt n) s = .next t ∧ t.flag R.ACU_PORT_STAT_LOCKED n = true ∧ t.flag R.ACU_STATUS_SP_RUN = true ∧
        SameMemory s t) ∧
    (∀ sel : Bool, (e.acuPort n).change = some sel → (e.acuPort n).ramp.g = 0 → e.flag R.ACU_PORT_STAT_FAULT n = false →
      ∃ t, exec (.rateSwitch dt n) s = .next t ∧ t.flag R.ACU_PORT_STAT_ALT n = sel ∧
        t.reg R.ACU_RATE_CHANGES_COUNT = min (e.reg R.ACU_RATE_CHANGES_COUNT + 1) (2 ^ R.ACU_RATE_CHANGES_COUNT.width - 1) ∧
        SameMemory s t ∧ SameRegistersBut [(R.ACU_PORT_STAT_ALT, n, 0), (R.ACU_RATE_CHANGES_COUNT, 0, 0)] s t) ∧
    (portMaster (audPort e.audio n) = false → portAlt (audPort e.audio n) ≠ 3 → e.flag R.ACU_PORT_STAT_FAULT n = true →
      ∃ t, exec (.slaveRateSettle dt n) s = .next t ∧ t.flag R.ACU_PORT_STAT_ALT n = !e.flag R.ACU_PORT_STAT_ALT n ∧
        t.flag R.ACU_PORT_STAT_CHANGING n = false ∧ SameMemory s t ∧ SameRegistersBut [(R.ACU_PORT_STAT_ALT, n, 0)] s t)

/-- `acu.hold` and `acu.release` of a capture's item, `acu.duck`, `acu.rate` of an idle port, and `acu.play`, which places every
channel's samples; a complete hop is written with its header and is the capture's newest item. `acu.anc`: HOLD sets cause 3 and STOP
cause 2, RESUME without restoring clears the causes a program may clear. -/
def Obligations.AcousticCommands : Prop :=
  (∀ (s e : State) (dt id : Nat) (c : Cmd), s.Canonical → e = s.elapse dt → e.wrote = none → c.aborted = false → e.health = [] →
     (∀ n b seq, n = bits (c.word 1) 1 0 → e.engine id 0x81 = some c →
       ((e.capture n).items.find? fun i => i.2 == bits (c.word 2) 31 0) = some (b, seq) → (e.capture n).held.contains b = false →
       c.addr 3 ≠ 0 →
       ∃ t, exec (.acuHold dt id) s = .next t ∧ t.Executed id 0 0 0 ∧ SameCommandsBut id e t ∧ (t.capture n).held = b :: (e.capture n).held ∧
         t.load (c.addr 3) 8 = 0 ∧ SameMemoryBut (c.addr 3) 8 s t) ∧
     (∀ n b seq, n = bits (c.word 1) 1 0 → e.engine id 0x82 = some c →
       ((e.capture n).items.find? fun i => i.2 == bits (c.word 2) 31 0) = some (b, seq) → (e.capture n).held.contains b = true →
       c.addr 3 ≠ 0 →
       ∃ t, exec (.acuRelease dt id) s = .next t ∧ t.Executed id 0 0 0 ∧ SameCommandsBut id e t ∧
         (t.capture n).held = (e.capture n).held.filter (fun y => y != b) ∧ t.load (c.addr 3) 8 = 0 ∧
         SameMemoryBut (c.addr 3) 8 s t) ∧
     (e.engine id 0x83 = some c →
       ∃ t, exec (.acuDuck dt id) s = .next t ∧ t.Executed id 0 0 0 ∧ SameCommandsBut id e t ∧
         t.acu.duck = e.acu.duck.toward (bits (c.word 1) 15 0) (48 * bits (c.word 1) 31 16) ∧ SameMemory s t) ∧
     (∀ n sel, n = bits (c.word 1) 2 0 → n < 6 → sel = bit (c.word 1) 8 → e.engine id 0x85 = some c → c.addr 2 ≠ 0 →
       e.flag R.ACU_PORT_STAT_CHANGING n = false → e.flag R.ACU_PORT_STAT_FAULT n = false →
       (e.flag R.ACU_PORT_STAT_ALT n ≠ sel →
         ∃ t, exec (.acuRate dt id) s = .next t ∧ t.Executed id 0 0 0 ∧ (t.acuPort n).change = some sel ∧
           (t.acuPort n).ramp = (e.acuPort n).ramp.slope 0 480 ∧ t.flag R.ACU_PORT_STAT_CHANGING n = true ∧ t.load (c.addr 2) 8 = 0 ∧
           SameMemoryBut (c.addr 2) 8 s t) ∧
       (e.flag R.ACU_PORT_STAT_ALT n = sel →
         ∃ t, exec (.acuRate dt id) s = .next t ∧ t.Executed id 0 0 0 ∧ t.acu = e.acu ∧ t.load (c.addr 2) 8 = 1 ∧
           SameMemoryBut (c.addr 2) 8 s t)) ∧
     (∀ (x : State) first n ty frames chans d b, first = bits (c.word 1) 2 0 → n = bits (c.word 1) 7 4 → ty = bits (c.word 1) 11 8 →
       frames = bits (c.word 3) 15 0 → chans = (List.range n).map (first + ·) →
       x = e.countRd c.part (c.addr 2) (frames * n * playSize ty) → d = x.playFrames (c.word 4) →
       b = x.bytes (c.addr 2) (frames * n * playSize ty) → e.engine id 0x80 = some c → frames ≠ 0 → c.addr 5 = 0 →
       (chans.any fun p => decide (4 ≤ (Sparse.get ({} : PlayChan) x.acu.plays p).hops.length)) = false →
       ∃ t, exec (.acuPlay dt id) s = .next t ∧ t = ((List.range n).foldl (fun s i =>
           s.playPlace (first + i) d ((List.range frames).map fun f => playValue ty (field b ((f * n + i) * playSize ty) (playSize ty)))) x).finish id {}) ∧
     (∀ cap ent h l b x, cap < 4 → x = e.capture cap → e.capEntry cap = some ent → x.ready = h :: l → h.buf = some b →
       field ent 2 2 = 0 → (∀ g, g < 32 → e.fgOn g = false) →
       ∃ t, exec (.hopComplete dt cap) s = .next t ∧ (t.capture cap).seq = x.seq + 1 ∧ (t.capture cap).ready = l ∧
         (t.capture cap).items = x.items ++ [(b, x.seq % 2 ^ 32)] ∧
         t.load (capAddr ent b) 8 = (3 + 2 ^ 8 * cap + 2 ^ 16 * h.quality + 2 ^ 32 * (x.seq % 2 ^ 32)) % 2 ^ 64 ∧
         t.load (capAddr ent b + 8) 8 = h.first % 2 ^ 64 ∧
         t.reg R.ACU_CAP_HOPS_COUNT cap = min (e.reg R.ACU_CAP_HOPS_COUNT cap + 1) (2 ^ R.ACU_CAP_HOPS_COUNT.width - 1))) ∧
  (∀ (s e : State) (dt id : Nat) (c : Cmd), s.Canonical → e = s.elapse dt → e.wrote = none → c.aborted = false → c.addr 2 = 0 →
     e.engine id 0x84 = some c →
     (bits (c.word 1) 1 0 = 0 → bit (c.word 1) 4 = false → e.reg R.ACU_STATUS_ANC_CAUSE &&& 0x60 = 0 →
       ∃ t, exec (.ancResume dt id) s = .next t ∧ t.Executed id 0 0 0 ∧ SameCommandsBut id e t ∧
         t.reg R.ACU_STATUS_ANC_CAUSE = e.reg R.ACU_STATUS_ANC_CAUSE &&& 0x83 ∧ SameMemory s t) ∧
     (bits (c.word 1) 1 0 = 1 →
       ∃ t, exec (.ancHold dt id) s = .next t ∧ t.Executed id 0 0 0 ∧ SameCommandsBut id e t ∧
         t.reg R.ACU_STATUS_ANC_CAUSE = e.reg R.ACU_STATUS_ANC_CAUSE ||| 8 ∧ SameMemory s t) ∧
     (bits (c.word 1) 1 0 = 2 →
       ∃ t, exec (.ancStop dt id) s = .next t ∧ t.Executed id 0 0 0 ∧ SameCommandsBut id e t ∧
         t.reg R.ACU_STATUS_ANC_CAUSE = e.reg R.ACU_STATUS_ANC_CAUSE ||| 4 ∧ SameMemory s t))

/-! ### Tide metering (14) -/

/-- While Tide runs: a sample adds its whole weight to the running cycle and changes no register of energy; a line cycle closes at its
crossing with the tracked frequency, its remainder beginning the next; lock gained shows the frequency; a harmonic window without a
change of lock is published. -/
def Obligations.TideMeasures : Prop :=
  ∀ (s e : State) (dt : Nat), s.Canonical → e = s.elapse dt → e.tideRun = true →
    (∀ xs, ∃ t, exec (.meterSample dt xs) s = .next t ∧ t.tide.cycle.w = e.tide.cycle.w + tideSample ∧
      t.tide.energy.w = e.tide.energy.w + tideSample ∧ t.tide.e = e.tide.e ∧ SameMemory s t) ∧
    (∀ frac mhz ph, e.flag R.MTR_STATUS_MAINS_LOCK = true → 44500 ≤ mhz → mhz ≤ 66500 → tideSample < e.tide.cycle.w + frac →
      ∃ t, exec (.cycleClose dt frac mhz ph) s = .next t ∧ t.reg R.MTR_FREQ_MHZ = mhz ∧ t.tide.window = e.tide.window + 1 ∧
        t.tide.cycle.w = tideSample - min frac tideSample ∧ SameMemory s t) ∧
    (∀ frac mhz ph, tideWiring e.tide.body ≠ 0 → e.flag R.MTR_STATUS_MAINS_LOCK = false → 45000 ≤ mhz → mhz ≤ 66000 →
      ∃ t, exec (.mainsLockChange dt true frac mhz ph) s = .next t ∧ t.flag R.MTR_STATUS_MAINS_LOCK = true ∧
        t.reg R.MTR_FREQ_MHZ = mhz ∧ t.tide.windowBad = true ∧ SameMemory s t) ∧
    (∀ frac mhz ph, tideWiring e.tide.body ≠ 0 → e.flag R.MTR_STATUS_MAINS_LOCK = true →
      ∃ t, exec (.mainsLockChange dt false frac mhz ph) s = .next t ∧ t.flag R.MTR_STATUS_MAINS_LOCK = false ∧
        t.reg R.MTR_FREQ_MHZ = 0 ∧ t.tide.windowBad = true ∧ SameMemory s t) ∧
    (∀ harm derived, (if tide60 e.tide.body then 12 else 10) ≤ e.tide.window → e.tide.windowBad = false →
      exec (.harmonicWindow dt harm derived) s =
        .next { e with tide.window := e.tide.window - (if tide60 e.tide.body then 12 else 10)
                       tide.harm := harm.filter fun x => tideAc e.tide.body x.1
                       tide.derived := derived.take (tidePhases e.tide.body) })

/-- A latch due is published with the next sequence number and committed; a commit under way is complete when its copy is whole in the
ferroelectric RAM; `mtr.snap` writes a snapshot, a header of zeros while Tide does not run. -/
def Obligations.TideLatchesAndSnapshots : Prop :=
  ∀ (s e : State) (dt : Nat), s.Canonical → e = s.elapse dt →
    (∀ d : TideLatch, e.tide.due = some d → e.tide.next = none →
      ∃ t, exec (.latch dt) s = .next t ∧ t.tide.due = none ∧
        t.reg R.MTR_LATCH_SEQ_COUNT = (e.reg R.MTR_LATCH_SEQ_COUNT + 1) % 2 ^ 64 ∧
        t.tide.latched = { d with seq := (e.reg R.MTR_LATCH_SEQ_COUNT + 1) % 2 ^ 64 } ∧
        t.tide.commits.length = e.tide.commits.length + 1 ∧ SameMemory s t) ∧
    (∀ (k : TideCommit) l copy seq at_ b, e.tide.commits = k :: l → k.begun = some (copy, seq, at_) → k.kind ≠ 1 →
      b = leBytes 4 0x45444954 ++ leBytes 2 1 ++ leBytes 1 k.kind ++ leBytes 1 0 ++ leBytes 8 seq ++ k.body →
      ∃ t, exec (.tideCommitComplete dt) s = .next t ∧ cellBytes t.fram (0x200 * copy) (b.length + 4) = b ++ leBytes 4 (crc32 b) ∧
        t.tide.commits.length = l.length ∧
        t.reg R.MTR_COMMITS_COUNT = min (e.reg R.MTR_COMMITS_COUNT + 1) (2 ^ R.MTR_COMMITS_COUNT.width - 1) ∧ SameMemory s t) ∧
    (∀ id (c : Cmd) b, e.engine id 0x90 = some c → e.wrote = none → c.aborted = false → e.health = [] →
      b = (if e.tideRun then slice (e.snapshot (c.word 1)).1 0 (snapLength (bits (c.word 1) 3 0)) else List.replicate 32 0#8) →
      ∃ t, exec (.mtrSnap dt id) s = .next t ∧ t.Executed id 0 0 0 ∧ SameCommandsBut id e t ∧ t.bytes (c.addr 2) b.length = b ∧
        SameMemoryBut (c.addr 2) b.length s t ∧ t.tide = e.tide)

/-- The meter's clock and channel faults show in MTR.STATUS while they last, an overload begins its condition; an edge of a pulse input
is stamped, a level stable for its time is taken and counted when active; a pulse of an output is released after its width. -/
def Obligations.TideInputs : Prop :=
  ∀ (s e : State) (dt : Nat), s.Canonical → e = s.elapse dt → Sparse.wf ({} : TideIn) e.tide.ins = true →
    (∀ on, e.tideRun = true → ∃ t, exec (.mclkFault dt on) s = .next t ∧ t.flag R.MTR_STATUS_MCLK_FAULT = on ∧ SameMemory s t) ∧
    (∀ ch on, e.tideRun = true → ch < 10 → tideKind e.tide.body ch ≠ 0 →
      ∃ t, exec (.channelFault dt ch on) s = .next t ∧ (t.reg R.MTR_STATUS_CH_FAULT).testBit ch = on ∧ SameMemory s t) ∧
    (∀ ch, e.tideRun = true → ch < 10 → tideKind e.tide.body ch ≠ 0 →
      ∃ t, exec (.overload dt ch true) s = .next t ∧ t.tideHas 7 ch = true ∧ SameMemory s t) ∧
    (∀ k level sub, k < 4 →
      ∃ t, exec (.pulseInputEdge dt k level sub) s = .next t ∧ (t.tideIn k).raw = level ∧ (t.tideIn k).since = e.tick ∧
        (t.tideIn k).level = (e.tideIn k).level ∧ (∀ j, j ≠ k → t.tideIn j = e.tideIn j) ∧ SameMemory s t ∧ t.regs = e.regs) ∧
    (∀ k, e.tideRun = true → k < 4 → bit (field (tidePin e.tide.body k) 0 1) 0 = true → (e.tideIn k).raw ≠ (e.tideIn k).level →
      (e.tideIn k).since + msTicks (field (tidePin e.tide.body k) 1 1) ≤ e.tick →
      ∃ t, exec (.pulseInputAccept dt k) s = .next t ∧ (t.tideIn k).level = (e.tideIn k).raw ∧ SameMemory s t ∧
        ((e.tideIn k).raw ≠ bit (field (tidePin e.tide.body k) 0 1) 1 →
          t.reg R.MTR_PCNT_COUNT k = min (e.reg R.MTR_PCNT_COUNT k + 1) (2 ^ 64 - 1)) ∧
        ((e.tideIn k).raw = bit (field (tidePin e.tide.body k) 0 1) 1 → t.regs = e.regs)) ∧
    (∀ j at_, (e.tideOut j).busy = some at_ → (e.tideOut j).low = true → at_ + msTicks (field (tidePout e.tide.body j) 2 1) ≤ e.tick →
      exec (.pulseOutputTimer dt j) s = .next (e.setTideOut j { e.tideOut j with low := false, busy := some e.tick }))

/-! ### Register access and the debug port (00, 16, 20) -/

/-- A register write puts the written bits into its rw fields, and while STARTING into its rws fields too; an unmapped or unaligned one
does nothing; the low word of a wide counter read takes a snapshot of it all, and RST.PLOG_COUNT read takes the log's. -/
def Obligations.RegisterAccess : Prop :=
  ∀ (s e : State) (dt a v m : Nat), s.Canonical → e = s.elapse dt →
    (mapped a = true → a % 4 = 0 → windowOf a ≠ 0x25 → e.svc ≠ 0 →
      exec (.registerWrite dt a v m) s = .next (e.writeReg a v m)) ∧
    (mapped a = true → a % 4 = 0 → windowOf a ≠ 0x25 → windowOf a ≠ 7 → e.svc = 0 → v < 2 ^ 32 →
      ∃ t, exec (.registerWrite dt a v m) s = .next t ∧ (∀ x, x ≠ a → t.regWord x = e.regWord x) ∧
        t.regWord a = mergeBits (mergeBits (e.regWord a) v (m &&& accessMask a .rw)) v (m &&& accessMask a .rws) ∧
        t = { e with regs := t.regs }) ∧
    ((mapped a = false ∨ a % 4 ≠ 0) → exec (.registerWrite dt a v m) s = .next e) ∧
    (∀ base n, wideAt a = some (base, n, 0) → a ≠ R.RST_PLOG_COUNT_NEXT.at 0 0 → a ≠ R.DBG_FRAM_DATA_DATA.at 0 0 →
      exec (.counterLowWordRead dt a) s = .next { e with snaps := Sparse.put none e.snaps base (some (e.wordsValue base n)) }) ∧
    exec (.plogCountRead dt) s = .next e.plogSnapshot

/-- The test access port out of reset: IDCODE shifts its constant out, SAMPLE/PRELOAD the pins, EXTEST and the boundary register,
another code the bypass; TRST_N resets only the port; a level-2 session in FIELD advances to RETURN, which blows the image key's
disable fuse. -/
def Obligations.TestAccessPort : Prop :=
  ∀ (s e : State) (dt : Nat), s.Canonical → e = s.elapse dt →
    (∀ low, exec (.trstNAssert dt low) s = .next { e with dbg.trstN := !low, dbg.ir := 0x01, dbg.extest := false }) ∧
    (e.tapOn = true →
      (∃ t, exec (.idcode dt) s = .next t ∧ t.dbg.ir = 0x01 ∧ t.dbg.extest = false ∧
        t.out = e.out ++ [.tdo 32 (e.reg R.TOP_REV_LETTER * 2 ^ 28 + 0x0480 * 2 ^ 12 + 0x3BE * 2 + 1)] ∧
        t = { e with dbg := t.dbg, out := t.out }) ∧
      (∀ pins shift, ∃ t, exec (.samplePreload dt pins shift) s = .next t ∧ t.dbg.boundary = shift ∧
        t.out = e.out ++ [.tdo pins.length (boolsNat pins)] ∧ t = { e with dbg := t.dbg, out := t.out }) ∧
      (∀ shift, e.jtagAllowed 0x03 = true → ∃ t, exec (.extest dt shift) s = .next t ∧ t.dbg.boundary = shift ∧ t.dbg.extest = true ∧
        t.dbg.ir = 0x03 ∧ t = { e with dbg := t.dbg }) ∧
      (∀ shift, e.jtagAllowed 0x03 = false → ∃ t, exec (.extest dt shift) s = .next t ∧ t.dbg.ir = 0xFF ∧ t.dbg.extest = false ∧
        t.reg R.DBG_DENIED_COUNT = min (e.reg R.DBG_DENIED_COUNT + 1) (2 ^ R.DBG_DENIED_COUNT.width - 1) ∧
        t = { e with dbg := t.dbg, regs := t.regs }) ∧
      (∀ code, code ∉ [0x01, 0x02, 0x03, 0x10, 0x11, 0x12] → ∃ t, exec (.bypass dt code) s = .next t ∧ t.dbg.ir = 0xFF ∧
        t.dbg.extest = false ∧ t = { e with dbg := t.dbg }) ∧
      (e.lifecycle = 2 → e.debugLevel = 2 → ∃ t, exec (.dbgReturnWrite dt) s = .next t ∧ t.dbg.returnDue = true ∧
        t.fuses = { e.fuses with imageKeyOff := true } ∧ t = { e with dbg := t.dbg, fuses := t.fuses }) ∧
      (1 ≤ e.debugLevel → ∃ t, exec (.framDataRead dt) s = .next t ∧
        t.reg R.DBG_FRAM_SEL_OFFSET = (e.reg R.DBG_FRAM_SEL_OFFSET + 4) % 2 ^ 18 ∧ SameMemory s t) ∧
      (∀ n v, n < 16 → v < 2 ^ 16 → 1 ≤ e.debugLevel → tmuxDefined v = true →
        ∃ t, exec (.tmuxSelWrite dt n v) s = .next t ∧ t.reg R.DBG_TMUX_SEL_SIG n = v % 256 ∧ t.reg R.DBG_TMUX_SEL_ARG n = v / 256 ∧
          SameMemory s t ∧ SameRegistersBut [(R.DBG_TMUX_SEL_SIG, n, 0)] s t))

/-- In FIELD a capture of DBG_AUTH gives a fresh 32-byte nonce, which nothing constrains, and shifts a challenge out; an accepted
response sets the level, a rejected one is counted and the third locks; DBG_ACC reads DRAM and register words; a FUSE write that
R698 does not refuse programs its field, and a failed read-back sets FUSE_ERR. -/
def Obligations.UnlockAccessAndFuses : Prop :=
  ∀ (s e : State) (dt : Nat), s.Canonical → e = s.elapse dt → e.tapOn = true →
    (e.lifecycle = 2 → ∃ (t : State) (nonce : List Byte), exec (.dbgAuthCapture dt) s = .next t ∧ t.dbg.nonce = some nonce ∧
      nonce.length = 32 ∧ t.dbg.ir = 0x10 ∧ t = { e with dbg := t.dbg, out := t.out, freeCtr := t.freeCtr }) ∧
    (∀ resp, e.lifecycle = 2 →
      (e.flag R.DBG_STATUS_AUTH_LOCK = false → e.authOk resp = true →
        ∃ t, exec (.dbgAuthResponse dt resp) s = .next t ∧ t.reg R.DBG_STATUS_LEVEL = field resp 0 1 ∧ t.dbg.nonce = none ∧
          SameRegistersBut [(R.DBG_STATUS_LEVEL, 0, 0)] s t ∧ SameMemory s t) ∧
      (e.authOk resp = false →
        ∃ t, exec (.dbgAuthResponse dt resp) s = .next t ∧ t.dbg.nonce = none ∧ t.dbg.rejects = e.dbg.rejects + 1 ∧
          t.reg R.DBG_STATUS_LEVEL = e.reg R.DBG_STATUS_LEVEL ∧ (2 ≤ e.dbg.rejects → t.flag R.DBG_STATUS_AUTH_LOCK = true) ∧
          SameMemory s t)) ∧
    (∀ a data, 1 ≤ e.debugLevel → a % 4 = 0 → a < 2 ^ 48 → mapped a = false → e.isDram a = true → e.badWords a 4 = [] →
      ∃ t, exec (.dbgAcc dt a data 1) s = .next t ∧ t.dbg.accData = e.load a 4 ∧ t.dbg.accStatus = 0 ∧ SameMemory s t ∧ t.regs = e.regs) ∧
    (∀ a data, e.debugLevel = 2 → e.inHold = true → a % 4 = 0 → a < 2 ^ 48 → mapped a = false → e.isDram a = true →
      e.badWords a 4 = [] → a ≠ R.DBG_CTRL_HOLD_REQ.at 0 0 →
      ∃ t, exec (.dbgAcc dt a data 2) s = .next t ∧ t.dbg.accStatus = 0 ∧ t.load a 4 = data % 2 ^ 32 ∧ SameMemoryBut a 4 s t) ∧
    (∀ a data op, 1 ≤ e.debugLevel → (op = 1 ∨ op = 2) → a % 4 ≠ 0 →
      ∃ t, exec (.dbgAcc dt a data op) s = .next t ∧ t.dbg.accStatus = 1 ∧ SameMemory s t ∧
        t.reg R.DBG_DENIED_COUNT = min (e.reg R.DBG_DENIED_COUNT + 1) (2 ^ R.DBG_DENIED_COUNT.width - 1)) ∧
    (∀ f data verified, e.jtagAllowed 0x12 = true → e.fuseRefused f = false →
      ∃ t, exec (.fuse dt f data verified) s = .next t ∧ t.fuses = e.fuses.program f data ∧ t.dbg.ir = 0x12 ∧
        (verified = false → t.flag R.DBG_STATUS_FUSE_ERR = true) ∧ (verified = true → t.regs = e.regs) ∧ SameMemory s t) ∧
    (∀ f data verified, e.jtagAllowed 0x12 = true → e.fuseRefused f = true →
      ∃ t, exec (.fuse dt f data verified) s = .next t ∧ t.fuses = e.fuses ∧ t.regs = e.regs)

/-! ### External interfaces (17) -/

/-- Ethernet and CAN: link state follows the port while it is enabled, a frame of an interface that is up is taken at its stamp, or held
while the on-chip network is in reset; a partial message outlives its time-out by being discarded and counted; an answer goes out in
order. PCIe: a request doorbell puts its bytes into the request window and takes the message unless one waits; the host's response
pointer moves within its ring; an interrupt is cleared; PERST_N low and a link that is down show a link of no generation and width. -/
def Obligations.InterfaceEvents : Prop :=
  (∀ (s e : State) (dt : Nat), s.Canonical → e = s.elapse dt →
     (∀ p up, p < 2 → (up = true → bit (field (e.eth p) 0 1) 0 = true ∧ e.powered 11 = true) →
       ∃ t, exec (.ethLinkChange dt p up) s = .next t ∧ t.flag R.ETH_STATUS_UP p = up ∧ t = { e with regs := t.regs } ∧
         SameRegistersBut [(R.ETH_STATUS_UP, p, 0)] s t) ∧
     (∀ p sub f x, p < 2 → e.ifUp p = true → x = e.stamp sub 8 →
       (e.netReset = false → exec (.ethFrameReceive dt p sub f) s = .next (x.2.ethFrame p f x.1 x.2.quality)) ∧
       (e.netReset = true → e.ifaces.waiting = [] → f.length ≤ 65536 →
         exec (.ethFrameReceive dt p sub f) s = .next { x.2 with ifaces.waiting := [⟨p, x.1, x.2.quality, f⟩] })) ∧
     (∀ p k, p < 2 → ((e.reasms p).find? fun k => decide (k.first + msTicks (field (e.eth p) 6 2) ≤ e.tick)) = some k →
       exec (.reassemblyTimeout dt p) s = .next ((e.setReasms p ((e.reasms p).erase k)).incReg R.ETH_REASM_TIMEOUT_REASM_TIMEOUT p)) ∧
     (∀ k id ide d, k < 4 → e.ifUp (3 + k) = true → bit (field (e.can k) 0 1) 1 = true → id = field (e.can k) 8 4 →
       ide = bit (field (e.can k) 0 1) 2 → e.netReset = false →
       exec (.canFrameReceive dt k id ide true d) s = .next (e.canFrame k d)) ∧
     (∀ k x, k < 4 → (e.ifaces.can.find? fun x => x.1 == k) = some x → x.2.last + msTicks (field (e.can k) 0x10 2) ≤ e.tick →
       exec (.canGapTimeout dt k) s =
         .next { e.countMalformed (3 + k) with ifaces.can := e.ifaces.can.filter fun y => y.1 != k }) ∧
     (∀ k st, k < 4 → st ≤ 2 → e.canOn k = true →
       ∃ t, exec (.canBusOff dt k st) s = .next t ∧ t.reg R.CAN_STATUS_STATUS k = st ∧ t = { e with regs := t.regs } ∧
         SameRegistersBut [(R.CAN_STATUS_STATUS, k, 0), (R.CAN_BUS_OFF_BUS_OFF, k, 0)] s t ∧
         (st = 2 → e.reg R.CAN_STATUS_STATUS k ≠ 2 → t.reg R.CAN_BUS_OFF_BUS_OFF k = min (e.reg R.CAN_BUS_OFF_BUS_OFF k + 1) 65535)) ∧
     (∀ i, i < 7 → e.netReset = false → e.boot.phase ≠ .por → exec (.responseSend dt i) s = .next (e.sendNext i))) ∧
  (∀ (s e : State) (dt : Nat), s.Canonical → e = s.elapse dt →
     (∀ v data, e.ifUp 2 = true → e.ifaces.reqStatus ≠ 3 → e.netReset = false →
       exec (.reqDoorbell dt v data) s =
         .next (({ e with ifaces.reqWin := putWindow e.ifaces.reqWin (bits v 9 0) data } : State).takeBell (bits v 9 0) (bits v 20 10))) ∧
     (∀ v data, e.ifUp 2 = true → e.ifaces.reqStatus = 3 →
       exec (.reqDoorbell dt v data) s =
         .next (({ e with ifaces.reqWin := putWindow e.ifaces.reqWin (bits v 9 0) data } : State).incReg R.PCIE_DB_IGNORED_DB_IGNORED)) ∧
     (∀ v, e.ifUp 2 = true → (e.ifaces.rspW + 2048 - v % 2048) % 2048 ≤ 1024 →
       exec (.rspRptrWrite dt v) s = .next { e with ifaces.rspR := v % 2048 }) ∧
     (e.ifUp 2 = true → exec (.intClear dt false) s = .next { e with ifaces.intr := false }) ∧
     (∃ t, exec (.pciePerstN dt false) s = .next t ∧ t.power.perstN = false ∧ t.flag R.PCIE_STATUS_UP = false ∧
       t.reg R.PCIE_STATUS_GEN = 0 ∧ t.reg R.PCIE_STATUS_WIDTH = 0 ∧ SameMemory s t ∧ SameRegistersBut [(R.PCIE_STATUS_UP, 0, 0)] s t) ∧
     exec (.pciePerstN dt true) s = .next { e with power.perstN := true } ∧
     (∀ gen width, bit (field e.pcie 0 1) 0 = true → e.powered 12 = true → e.power.perstN = true → 1 ≤ gen → gen ≤ 7 →
       gen ≤ field e.pcie 1 1 → (width = 1 ∨ width = 2 ∨ width = 4) →
       ∃ t, exec (.pcieLinkChange dt true gen width) s = .next t ∧ t.flag R.PCIE_STATUS_UP = true ∧ t.reg R.PCIE_STATUS_GEN = gen ∧
         t.reg R.PCIE_STATUS_WIDTH = width ∧ t = { e with regs := t.regs } ∧ SameRegistersBut [(R.PCIE_STATUS_UP, 0, 0)] s t))

/-- Chip links: an attempt without a HELLO shows how far training came; a frame with a bad CRC is counted and refused, a good one in its
turn for this rank is acknowledged and taken; frames unacknowledged for 10 µs retrain the link; `link.put` sends its frames and
waits, and fails when they are not acknowledged; `link.sio` runs its script. -/
def Obligations.ChipLinks : Prop :=
  ∀ (s e : State) (dt : Nat), s.Canonical → e = s.elapse dt →
    (∀ p at_, p < 2 → e.linkEn p = true → e.linkUp p = false →
      ∃ t, exec (.linkTrainingAttempt dt p at_ none) s = .next t ∧ t.reg R.LINK_STATE_STATE p = min at_ 3 ∧ t = { e with regs := t.regs } ∧
        SameRegistersBut [(R.LINK_STATE_STATE, p, 0)] s t) ∧
    (∀ p f, p < 2 → e.linkUp p = true → frameGood f = false →
      exec (.linkFrameReceive dt p f) s = .next ((e.incReg R.LINK_CRC_ERR_CRC_ERR p).sendNack p)) ∧
    (∀ p f, p < 2 → e.linkUp p = true → frameGood f = true → 1 ≤ frameType f → frameType f ≤ 3 → frameLen f ≤ 256 →
      frameSeq f = (e.port p).expect → frameDst f = e.linkRank → e.netReset = false →
      exec (.linkFrameReceive dt p f) s =
        .next (((e.setPort p { e.port p with expect := ((e.port p).expect + 1) % 4096 }).sendAck p 1).takeFrame f)) ∧
    (∀ p, p < 2 → e.linkUp p = true →
      ((e.port p).replay.any fun x => decide (4 ≤ x.replays ∨ x.sent + usTicks 10 ≤ e.tick)) = true →
      ∃ t, exec (.linkAckTimeout dt p) s = .next t ∧ t.reg R.LINK_STATE_STATE p = 0 ∧ SameMemory s t ∧
        t.reg R.LINK_RETRAINS_RETRAINS p = min (e.reg R.LINK_RETRAINS_RETRAINS p + 1) (2 ^ R.LINK_RETRAINS_RETRAINS.width - 1)) ∧
    (∀ id (c d : Cmd) (u : State), e.engine id 0x88 = some c → c.aborted = false → e.wrote = none →
      ({ e with ifaces := { e.ifaces with xfer := (e.ifaces.xfer + 1) % 2 ^ 32 } } : State).putFrames c e.ifaces.xfer 0
        (max 1 (ceilDiv (bits (c.word 2) 31 0) 256)) = (none, u) → u.cmd? id = some d →
      ∃ t, exec (.linkPut dt id) s = .next t ∧ t.cmd? id = some { c with stage := .waiting, begun := true } ∧ SameCommandsBut id u t ∧
        t.ifaces.puts = u.ifaces.puts ++ [⟨id, e.ifaces.xfer, bits (c.word 3) 49 48, u.tick⟩] ∧ t.mem = u.mem) ∧
    (∀ id x, (e.ifaces.puts.find? fun x => x.cmd == id) = some x → e.putLate x = true →
      exec (.linkPutTimeout dt id) s =
        .next ((({ e with ifaces.puts := e.ifaces.puts.erase x } : State).supersedeReplay 1 x.xfer
          (((e.cmd? id).map fun c => c.addr 1).getD 0)).finish id { status := 0x20, detail := 2 + 2 ^ 8 * x.rank })) ∧
    (∀ id (c d : Cmd) (u : State) bs reads, e.engine id 0x89 = some c → c.aborted = false → e.wrote = none → c.addr 2 = 0 →
      e.runOps none (scriptOps e.ifaces.cfg (bits (c.word 1) 4 0)) 0 reads = (bs, none, u) → u.cmd? id = some d → u.wrote = none →
      ∃ t, exec (.linkSio dt id none reads) s = .next t ∧ t.Executed id 0 0 0 ∧ SameCommandsBut id u t ∧ t = { u with cmds := t.cmds })
end

