-- ==== Sys2Proof/Laws/PerInstr.lean ====
section
/-!
SUPPORT. Laws of every command as syntax: a command after another time is the same command, and as well formed.
-/

namespace Sys2Proof.Laws.Elapsed

/-- A command after another time carries that time and is exactly as well formed. -/
def Statement (i : Instr) : Prop := ∀ t : Nat, (i.after t).dt = t ∧ (i.after t).wf = i.wf

theorem powerOnResetRelease (dt : Nat) (main : Bool) (bak : Bool) : Statement (.powerOnResetRelease dt main bak) := fun _ => ⟨rfl, rfl⟩
theorem powerOnResetEntry (dt : Nat) : Statement (.powerOnResetEntry dt) := fun _ => ⟨rfl, rfl⟩
theorem porstNRelease (dt : Nat) (low : Nat) : Statement (.porstNRelease dt low) := fun _ => ⟨rfl, rfl⟩
theorem porstNAssert (dt : Nat) : Statement (.porstNAssert dt) := fun _ => ⟨rfl, rfl⟩
theorem aonStep (dt : Nat) : Statement (.aonStep dt) := fun _ => ⟨rfl, rfl⟩
theorem islandStep (dt : Nat) (bist : Bool) (passed : List Nat) : Statement (.islandStep dt bist passed) := fun _ => ⟨rfl, rfl⟩
theorem selectStep (dt : Nat) (strobe : Bool) : Statement (.selectStep dt strobe) := fun _ => ⟨rfl, rfl⟩
theorem verifyStep (dt : Nat) (strobe : Bool) : Statement (.verifyStep dt strobe) := fun _ => ⟨rfl, rfl⟩
theorem sealStep (dt : Nat) : Statement (.sealStep dt) := fun _ => ⟨rfl, rfl⟩
theorem dramStep (dt : Nat) (trained : Bool) : Statement (.dramStep dt trained) := fun _ => ⟨rfl, rfl⟩
theorem bistStep (dt : Nat) (failed : List Nat) : Statement (.bistStep dt failed) := fun _ => ⟨rfl, rfl⟩
theorem weightsStep (dt : Nat) (fails : List (Nat × Nat)) : Statement (.weightsStep dt fails) := fun _ => ⟨rfl, rfl⟩
theorem linksStep (dt : Nat) : Statement (.linksStep dt) := fun _ => ⟨rfl, rfl⟩
theorem bringupStep (dt : Nat) (kats : List Nat) (drbg : Bool) (sio : Option (Nat × Bool)) : Statement (.bringupStep dt kats drbg sio) := fun _ => ⟨rfl, rfl⟩
theorem armStep (dt : Nat) : Statement (.armStep dt) := fun _ => ⟨rfl, rfl⟩
theorem acqWaitExpire (dt : Nat) : Statement (.acqWaitExpire dt) := fun _ => ⟨rfl, rfl⟩
theorem startDone (dt : Nat) : Statement (.startDone dt) := fun _ => ⟨rfl, rfl⟩
theorem startStepTimeout (dt : Nat) : Statement (.startStepTimeout dt) := fun _ => ⟨rfl, rfl⟩
theorem startRetryDelayExpire (dt : Nat) : Statement (.startRetryDelayExpire dt) := fun _ => ⟨rfl, rfl⟩
theorem warmStart (dt : Nat) : Statement (.warmStart dt) := fun _ => ⟨rfl, rfl⟩
theorem pmicPgFall (dt : Nat) (kept : Bool) : Statement (.pmicPgFall dt kept) := fun _ => ⟨rfl, rfl⟩
theorem pmicPgRise (dt : Nat) : Statement (.pmicPgRise dt) := fun _ => ⟨rfl, rfl⟩
theorem orbitRateCheck (dt : Nat) (progress : Nat) : Statement (.orbitRateCheck dt progress) := fun _ => ⟨rfl, rfl⟩
theorem syncReceived (dt : Nat) (msgs : List SyncMsg) : Statement (.syncReceived dt msgs) := fun _ => ⟨rfl, rfl⟩
theorem syncReceiptTimeout (dt : Nat) : Statement (.syncReceiptTimeout dt) := fun _ => ⟨rfl, rfl⟩
theorem holdLimitExpire (dt : Nat) : Statement (.holdLimitExpire dt) := fun _ => ⟨rfl, rfl⟩
theorem fgFramePending (dt : Nat) (g : Nat) : Statement (.fgFramePending dt g) := fun _ => ⟨rfl, rfl⟩
theorem fgDeadline (dt : Nat) (g : Nat) : Statement (.fgDeadline dt g) := fun _ => ⟨rfl, rfl⟩
theorem fgDescriptorEmit (dt : Nat) (g : Nat) : Statement (.fgDescriptorEmit dt g) := fun _ => ⟨rfl, rfl⟩
theorem commandPick (dt : Nat) (ts : List Nat) : Statement (.commandPick dt ts) := fun _ => ⟨rfl, rfl⟩
theorem commandComplete (dt : Nat) (cmd : Nat) : Statement (.commandComplete dt cmd) := fun _ => ⟨rfl, rfl⟩
theorem checkpoint (dt : Nat) (cmd : Nat) : Statement (.checkpoint dt cmd) := fun _ => ⟨rfl, rfl⟩
theorem cqRecordRelease (dt : Nat) (cq : Nat) : Statement (.cqRecordRelease dt cq) := fun _ => ⟨rfl, rfl⟩
theorem seqNop (dt : Nat) (cmd : Nat) : Statement (.seqNop dt cmd) := fun _ => ⟨rfl, rfl⟩
theorem seqSignal (dt : Nat) (cmd : Nat) : Statement (.seqSignal dt cmd) := fun _ => ⟨rfl, rfl⟩
theorem seqWait (dt : Nat) (cmd : Nat) : Statement (.seqWait dt cmd) := fun _ => ⟨rfl, rfl⟩
theorem seqWaitTimeout (dt : Nat) (cmd : Nat) : Statement (.seqWaitTimeout dt cmd) := fun _ => ⟨rfl, rfl⟩
theorem seqSetEvent (dt : Nat) (cmd : Nat) : Statement (.seqSetEvent dt cmd) := fun _ => ⟨rfl, rfl⟩
theorem seqTimer (dt : Nat) (cmd : Nat) : Statement (.seqTimer dt cmd) := fun _ => ⟨rfl, rfl⟩
theorem seqTimerExpire (dt : Nat) (cmd : Nat) : Statement (.seqTimerExpire dt cmd) := fun _ => ⟨rfl, rfl⟩
theorem seqRegWrite (dt : Nat) (cmd : Nat) : Statement (.seqRegWrite dt cmd) := fun _ => ⟨rfl, rfl⟩
theorem seqRegRead (dt : Nat) (cmd : Nat) : Statement (.seqRegRead dt cmd) := fun _ => ⟨rfl, rfl⟩
theorem seqMemWrite (dt : Nat) (cmd : Nat) : Statement (.seqMemWrite dt cmd) := fun _ => ⟨rfl, rfl⟩
theorem seqCall (dt : Nat) (cmd : Nat) : Statement (.seqCall dt cmd) := fun _ => ⟨rfl, rfl⟩
theorem seqBranch (dt : Nat) (cmd : Nat) : Statement (.seqBranch dt cmd) := fun _ => ⟨rfl, rfl⟩
theorem seqLoopSet (dt : Nat) (cmd : Nat) : Statement (.seqLoopSet dt cmd) := fun _ => ⟨rfl, rfl⟩
theorem seqLoop (dt : Nat) (cmd : Nat) : Statement (.seqLoop dt cmd) := fun _ => ⟨rfl, rfl⟩
theorem seqDoorbell (dt : Nat) (cmd : Nat) : Statement (.seqDoorbell dt cmd) := fun _ => ⟨rfl, rfl⟩
theorem queueStop (dt : Nat) (cmd : Nat) : Statement (.queueStop dt cmd) := fun _ => ⟨rfl, rfl⟩
theorem queueStart (dt : Nat) (cmd : Nat) : Statement (.queueStart dt cmd) := fun _ => ⟨rfl, rfl⟩
theorem queueStartSkip (dt : Nat) (cmd : Nat) : Statement (.queueStartSkip dt cmd) := fun _ => ⟨rfl, rfl⟩
theorem queueFlush (dt : Nat) (cmd : Nat) : Statement (.queueFlush dt cmd) := fun _ => ⟨rfl, rfl⟩
theorem queueFlushDiscard (dt : Nat) (cmd : Nat) : Statement (.queueFlushDiscard dt cmd) := fun _ => ⟨rfl, rfl⟩
theorem queueRelease (dt : Nat) (cmd : Nat) : Statement (.queueRelease dt cmd) := fun _ => ⟨rfl, rfl⟩
theorem seqAbort (dt : Nat) (cmd : Nat) : Statement (.seqAbort dt cmd) := fun _ => ⟨rfl, rfl⟩
theorem seqNotify (dt : Nat) (cmd : Nat) : Statement (.seqNotify dt cmd) := fun _ => ⟨rfl, rfl⟩
theorem jobWatchdogExpire (dt : Nat) (p : Nat) : Statement (.jobWatchdogExpire dt p) := fun _ => ⟨rfl, rfl⟩
theorem deadlockDetect (dt : Nat) (p : Nat) : Statement (.deadlockDetect dt p) := fun _ => ⟨rfl, rfl⟩
theorem threadWatchdogExpire (dt : Nat) (t : Nat) : Statement (.threadWatchdogExpire dt t) := fun _ => ⟨rfl, rfl⟩
theorem engineHeartbeatLoss (dt : Nat) (cls : Nat) (inst : Nat) (last : Nat) : Statement (.engineHeartbeatLoss dt cls inst last) := fun _ => ⟨rfl, rfl⟩
theorem networkTimeout (dt : Nat) (cls : Nat) (inst : Nat) (addr : Nat) (work : NetWork) : Statement (.networkTimeout dt cls inst addr work) := fun _ => ⟨rfl, rfl⟩
theorem lateResponse (dt : Nat) : Statement (.lateResponse dt) := fun _ => ⟨rfl, rfl⟩
theorem statusRead (dt : Nat) : Statement (.statusRead dt) := fun _ => ⟨rfl, rfl⟩
theorem logRead (dt : Nat) : Statement (.logRead dt) := fun _ => ⟨rfl, rfl⟩
theorem meterRead (dt : Nat) : Statement (.meterRead dt) := fun _ => ⟨rfl, rfl⟩
theorem submit (dt : Nat) : Statement (.submit dt) := fun _ => ⟨rfl, rfl⟩
theorem abort (dt : Nat) : Statement (.abort dt) := fun _ => ⟨rfl, rfl⟩
theorem responseItem (dt : Nat) (q : Nat) : Statement (.responseItem dt q) := fun _ => ⟨rfl, rfl⟩
theorem refreshReportRead (dt : Nat) (rates : List Nat) : Statement (.refreshReportRead dt rates) := fun _ => ⟨rfl, rfl⟩
theorem csi2FrameStart (dt : Nat) (port : Nat) (vc : Nat) (fn : Nat) (sub : Nat) (corrected : Bool) : Statement (.csi2FrameStart dt port vc fn sub corrected) := fun _ => ⟨rfl, rfl⟩
theorem csi2LinePacket (dt : Nat) (port : Nat) (vc : Nat) (dtype : Nat) (line : List Nat) (crcOk : Bool) (corrected : Bool) (sub : Nat) : Statement (.csi2LinePacket dt port vc dtype line crcOk corrected sub) := fun _ => ⟨rfl, rfl⟩
theorem csi2FrameEnd (dt : Nat) (port : Nat) (vc : Nat) (fn : Nat) (corrected : Bool) : Statement (.csi2FrameEnd dt port vc fn corrected) := fun _ => ⟨rfl, rfl⟩
theorem csi2PacketDiscard (dt : Nat) (port : Nat) (header : Bool) : Statement (.csi2PacketDiscard dt port header) := fun _ => ⟨rfl, rfl⟩
theorem streamWatchdogExpire (dt : Nat) (n : Nat) : Statement (.streamWatchdogExpire dt n) := fun _ => ⟨rfl, rfl⟩
theorem visionItemComplete (dt : Nat) (kind : Nat) (n : Nat) : Statement (.visionItemComplete dt kind n) := fun _ => ⟨rfl, rfl⟩
theorem visionKat (dt : Nat) (chan : Nat) (bad : Bool) : Statement (.visionKat dt chan bad) := fun _ => ⟨rfl, rfl⟩
theorem lidarPacketParse (dt : Nat) (lid : Nat) : Statement (.lidarPacketParse dt lid) := fun _ => ⟨rfl, rfl⟩
theorem scanTimeout (dt : Nat) (lid : Nat) : Statement (.scanTimeout dt lid) := fun _ => ⟨rfl, rfl⟩
theorem lidarWatchdogExpire (dt : Nat) (lid : Nat) : Statement (.lidarWatchdogExpire dt lid) := fun _ => ⟨rfl, rfl⟩
theorem vfeSetCrop (dt : Nat) (cmd : Nat) : Statement (.vfeSetCrop dt cmd) := fun _ => ⟨rfl, rfl⟩
theorem vfeHold (dt : Nat) (cmd : Nat) : Statement (.vfeHold dt cmd) := fun _ => ⟨rfl, rfl⟩
theorem vfeRelease (dt : Nat) (cmd : Nat) : Statement (.vfeRelease dt cmd) := fun _ => ⟨rfl, rfl⟩
theorem vfeRoiResize (dt : Nat) (cmd : Nat) : Statement (.vfeRoiResize dt cmd) := fun _ => ⟨rfl, rfl⟩
theorem tcMma (dt : Nat) (cmd : Nat) (faults : List TcFault) : Statement (.tcMma dt cmd faults) := fun _ => ⟨rfl, rfl⟩
theorem tcTranspose (dt : Nat) (cmd : Nat) (faults : List TcFault) : Statement (.tcTranspose dt cmd faults) := fun _ => ⟨rfl, rfl⟩
theorem tcVop (dt : Nat) (cmd : Nat) (faults : List TcFault) : Statement (.tcVop dt cmd faults) := fun _ => ⟨rfl, rfl⟩
theorem tcVreduce (dt : Nat) (cmd : Nat) (faults : List TcFault) : Statement (.tcVreduce dt cmd faults) := fun _ => ⟨rfl, rfl⟩
theorem tcSoftmax (dt : Nat) (cmd : Nat) (faults : List TcFault) : Statement (.tcSoftmax dt cmd faults) := fun _ => ⟨rfl, rfl⟩
theorem tcNorm (dt : Nat) (cmd : Nat) (faults : List TcFault) : Statement (.tcNorm dt cmd faults) := fun _ => ⟨rfl, rfl⟩
theorem tcSelftest (dt : Nat) (cmd : Nat) (faults : List TcFault) : Statement (.tcSelftest dt cmd faults) := fun _ => ⟨rfl, rfl⟩
theorem tcConv (dt : Nat) (cmd : Nat) (faults : List TcFault) : Statement (.tcConv dt cmd faults) := fun _ => ⟨rfl, rfl⟩
theorem tcWconv (dt : Nat) (cmd : Nat) (faults : List TcFault) : Statement (.tcWconv dt cmd faults) := fun _ => ⟨rfl, rfl⟩
theorem tcWxform (dt : Nat) (cmd : Nat) (faults : List TcFault) : Statement (.tcWxform dt cmd faults) := fun _ => ⟨rfl, rfl⟩
theorem tcS2d (dt : Nat) (cmd : Nat) (faults : List TcFault) : Statement (.tcS2d dt cmd faults) := fun _ => ⟨rfl, rfl⟩
theorem tcD2s (dt : Nat) (cmd : Nat) (faults : List TcFault) : Statement (.tcD2s dt cmd faults) := fun _ => ⟨rfl, rfl⟩
theorem tcHalo (dt : Nat) (cmd : Nat) : Statement (.tcHalo dt cmd) := fun _ => ⟨rfl, rfl⟩
theorem scrubWindow (dt : Nat) (ram : Nat) (b : Nat) : Statement (.scrubWindow dt ram b) := fun _ => ⟨rfl, rfl⟩
theorem scrubForced (dt : Nat) (ram : Nat) : Statement (.scrubForced dt ram) := fun _ => ⟨rfl, rfl⟩
theorem patrolRead (dt : Nat) (n : Nat) : Statement (.patrolRead dt n) := fun _ => ⟨rfl, rfl⟩
theorem linkEccReissue (dt : Nat) (addr : Nat) (good : Bool) (work : NetWork) : Statement (.linkEccReissue dt addr good work) := fun _ => ⟨rfl, rfl⟩
theorem copyLinear (dt : Nat) (cmd : Nat) : Statement (.copyLinear dt cmd) := fun _ => ⟨rfl, rfl⟩
theorem copyStrided (dt : Nat) (cmd : Nat) : Statement (.copyStrided dt cmd) := fun _ => ⟨rfl, rfl⟩
theorem copyTranspose (dt : Nat) (cmd : Nat) : Statement (.copyTranspose dt cmd) := fun _ => ⟨rfl, rfl⟩
theorem copyFill (dt : Nat) (cmd : Nat) : Statement (.copyFill dt cmd) := fun _ => ⟨rfl, rfl⟩
theorem embGather (dt : Nat) (cmd : Nat) (faults : List EmbFault) : Statement (.embGather dt cmd faults) := fun _ => ⟨rfl, rfl⟩
theorem embPut (dt : Nat) (cmd : Nat) (faults : List EmbFault) : Statement (.embPut dt cmd faults) := fun _ => ⟨rfl, rfl⟩
theorem selArgmax (dt : Nat) (cmd : Nat) (bad : Option Nat) : Statement (.selArgmax dt cmd bad) := fun _ => ⟨rfl, rfl⟩
theorem selTopk (dt : Nat) (cmd : Nat) (bad : Option Nat) : Statement (.selTopk dt cmd bad) := fun _ => ⟨rfl, rfl⟩
theorem selSample (dt : Nat) (cmd : Nat) (bad : Option Nat) : Statement (.selSample dt cmd bad) := fun _ => ⟨rfl, rfl⟩
theorem selSort (dt : Nat) (cmd : Nat) (bad : Option Nat) : Statement (.selSort dt cmd bad) := fun _ => ⟨rfl, rfl⟩
theorem streamSeed (dt : Nat) (cmd : Nat) : Statement (.streamSeed dt cmd) := fun _ => ⟨rfl, rfl⟩
theorem streamSave (dt : Nat) (cmd : Nat) : Statement (.streamSave dt cmd) := fun _ => ⟨rfl, rfl⟩
theorem streamLoad (dt : Nat) (cmd : Nat) : Statement (.streamLoad dt cmd) := fun _ => ⟨rfl, rfl⟩
theorem streamClear (dt : Nat) (cmd : Nat) : Statement (.streamClear dt cmd) := fun _ => ⟨rfl, rfl⟩
theorem selXmerge (dt : Nat) (cmd : Nat) (bad : Bool) : Statement (.selXmerge dt cmd bad) := fun _ => ⟨rfl, rfl⟩
theorem xmergeListReceived (dt : Nat) (bad : Bool) : Statement (.xmergeListReceived dt bad) := fun _ => ⟨rfl, rfl⟩
theorem xmergeTimeout (dt : Nat) (cmd : Nat) : Statement (.xmergeTimeout dt cmd) := fun _ => ⟨rfl, rfl⟩
theorem xmergeHoldExpire (dt : Nat) : Statement (.xmergeHoldExpire dt) := fun _ => ⟨rfl, rfl⟩
theorem tokEncode (dt : Nat) (cmd : Nat) : Statement (.tokEncode dt cmd) := fun _ => ⟨rfl, rfl⟩
theorem tokDecode (dt : Nat) (cmd : Nat) : Statement (.tokDecode dt cmd) := fun _ => ⟨rfl, rfl⟩
theorem slotOpen (dt : Nat) (cmd : Nat) : Statement (.slotOpen dt cmd) := fun _ => ⟨rfl, rfl⟩
theorem slotClose (dt : Nat) (cmd : Nat) : Statement (.slotClose dt cmd) := fun _ => ⟨rfl, rfl⟩
theorem tokList (dt : Nat) (cmd : Nat) : Statement (.tokList dt cmd) := fun _ => ⟨rfl, rfl⟩
theorem tokMask (dt : Nat) (cmd : Nat) : Statement (.tokMask dt cmd) := fun _ => ⟨rfl, rfl⟩
theorem tokStep (dt : Nat) (cmd : Nat) : Statement (.tokStep dt cmd) := fun _ => ⟨rfl, rfl⟩
theorem sampleFrame (dt : Nat) (inputs : List (Nat × Int)) (padA : Bool) (padB : Bool) (residue : Bool) (deadline : Bool) (readback : List Nat) : Statement (.sampleFrame dt inputs padA padB residue deadline readback) := fun _ => ⟨rfl, rfl⟩
theorem audioBlockEnd (dt : Nat) : Statement (.audioBlockEnd dt) := fun _ => ⟨rfl, rfl⟩
theorem portLockLoss (dt : Nat) (n : Nat) : Statement (.portLockLoss dt n) := fun _ => ⟨rfl, rfl⟩
theorem portRelock (dt : Nat) (n : Nat) : Statement (.portRelock dt n) := fun _ => ⟨rfl, rfl⟩
theorem priorityMuteOnset (dt : Nat) (b : Bool) : Statement (.priorityMuteOnset dt b) := fun _ => ⟨rfl, rfl⟩
theorem muteRelease (dt : Nat) : Statement (.muteRelease dt) := fun _ => ⟨rfl, rfl⟩
theorem muteDiscrepancy (dt : Nat) : Statement (.muteDiscrepancy dt) := fun _ => ⟨rfl, rfl⟩
theorem rateSwitch (dt : Nat) (n : Nat) : Statement (.rateSwitch dt n) := fun _ => ⟨rfl, rfl⟩
theorem slaveRateSettle (dt : Nat) (n : Nat) : Statement (.slaveRateSettle dt n) := fun _ => ⟨rfl, rfl⟩
theorem hopComplete (dt : Nat) (cap : Nat) : Statement (.hopComplete dt cap) := fun _ => ⟨rfl, rfl⟩
theorem acuPlay (dt : Nat) (cmd : Nat) : Statement (.acuPlay dt cmd) := fun _ => ⟨rfl, rfl⟩
theorem acuHold (dt : Nat) (cmd : Nat) : Statement (.acuHold dt cmd) := fun _ => ⟨rfl, rfl⟩
theorem acuRelease (dt : Nat) (cmd : Nat) : Statement (.acuRelease dt cmd) := fun _ => ⟨rfl, rfl⟩
theorem acuDuck (dt : Nat) (cmd : Nat) : Statement (.acuDuck dt cmd) := fun _ => ⟨rfl, rfl⟩
theorem ancResume (dt : Nat) (cmd : Nat) : Statement (.ancResume dt cmd) := fun _ => ⟨rfl, rfl⟩
theorem ancHold (dt : Nat) (cmd : Nat) : Statement (.ancHold dt cmd) := fun _ => ⟨rfl, rfl⟩
theorem ancStop (dt : Nat) (cmd : Nat) : Statement (.ancStop dt cmd) := fun _ => ⟨rfl, rfl⟩
theorem acuRate (dt : Nat) (cmd : Nat) : Statement (.acuRate dt cmd) := fun _ => ⟨rfl, rfl⟩
theorem meterSample (dt : Nat) (xs : List Int) : Statement (.meterSample dt xs) := fun _ => ⟨rfl, rfl⟩
theorem cycleClose (dt : Nat) (frac : Nat) (mhz : Nat) (ph : List TidePhasor) : Statement (.cycleClose dt frac mhz ph) := fun _ => ⟨rfl, rfl⟩
theorem latch (dt : Nat) : Statement (.latch dt) := fun _ => ⟨rfl, rfl⟩
theorem tideCommitComplete (dt : Nat) : Statement (.tideCommitComplete dt) := fun _ => ⟨rfl, rfl⟩
theorem mainsLockChange (dt : Nat) (gained : Bool) (frac : Nat) (mhz : Nat) (ph : List TidePhasor) : Statement (.mainsLockChange dt gained frac mhz ph) := fun _ => ⟨rfl, rfl⟩
theorem harmonicWindow (dt : Nat) (harm : List (Nat × List (Nat × Nat))) (derived : List (Nat × Nat × Nat)) : Statement (.harmonicWindow dt harm derived) := fun _ => ⟨rfl, rfl⟩
theorem mclkFault (dt : Nat) (on : Bool) : Statement (.mclkFault dt on) := fun _ => ⟨rfl, rfl⟩
theorem channelFault (dt : Nat) (c : Nat) (on : Bool) : Statement (.channelFault dt c on) := fun _ => ⟨rfl, rfl⟩
theorem overload (dt : Nat) (c : Nat) (on : Bool) : Statement (.overload dt c on) := fun _ => ⟨rfl, rfl⟩
theorem pulseInputAccept (dt : Nat) (k : Nat) : Statement (.pulseInputAccept dt k) := fun _ => ⟨rfl, rfl⟩
theorem pulseOutputTimer (dt : Nat) (j : Nat) : Statement (.pulseOutputTimer dt j) := fun _ => ⟨rfl, rfl⟩
theorem mtrSnap (dt : Nat) (cmd : Nat) : Statement (.mtrSnap dt cmd) := fun _ => ⟨rfl, rfl⟩
theorem aonInputFail (dt : Nat) (bak : Bool) : Statement (.aonInputFail dt bak) := fun _ => ⟨rfl, rfl⟩
theorem aonInputValid (dt : Nat) (bak : Bool) : Statement (.aonInputValid dt bak) := fun _ => ⟨rfl, rfl⟩
theorem aonBackToMain (dt : Nat) : Statement (.aonBackToMain dt) := fun _ => ⟨rfl, rfl⟩
theorem railMonitorFault (dt : Nat) (r : Nat) (on : Bool) : Statement (.railMonitorFault dt r on) := fun _ => ⟨rfl, rfl⟩
theorem domainPowerGoodTimeout (dt : Nat) (d : Nat) : Statement (.domainPowerGoodTimeout dt d) := fun _ => ⟨rfl, rfl⟩
theorem clockMonitorWindow (dt : Nat) (c : Nat) (count : Nat) : Statement (.clockMonitorWindow dt c count) := fun _ => ⟨rfl, rfl⟩
theorem thermalReading (dt : Nat) (readings : List Int) : Statement (.thermalReading dt readings) := fun _ => ⟨rfl, rfl⟩
theorem lockstepMismatch (dt : Nat) (pair : Nat) : Statement (.lockstepMismatch dt pair) := fun _ => ⟨rfl, rfl⟩
theorem splitHandoverBegin (dt : Nat) : Statement (.splitHandoverBegin dt) := fun _ => ⟨rfl, rfl⟩
theorem splitHandoverComplete (dt : Nat) (mismatch : Bool) : Statement (.splitHandoverComplete dt mismatch) := fun _ => ⟨rfl, rfl⟩
theorem splitTimeout (dt : Nat) : Statement (.splitTimeout dt) := fun _ => ⟨rfl, rfl⟩
theorem islandWatchdogExpire (dt : Nat) : Statement (.islandWatchdogExpire dt) := fun _ => ⟨rfl, rfl⟩
theorem oscCrossCheck (dt : Nat) (count : Nat) : Statement (.oscCrossCheck dt count) := fun _ => ⟨rfl, rfl⟩
theorem faultRecordWrite (dt : Nat) : Statement (.faultRecordWrite dt) := fun _ => ⟨rfl, rfl⟩
theorem islandRestart (dt : Nat) (passed : Bool) : Statement (.islandRestart dt passed) := fun _ => ⟨rfl, rfl⟩
theorem computeResetAssert (dt : Nat) : Statement (.computeResetAssert dt) := fun _ => ⟨rfl, rfl⟩
theorem computeResetRelease (dt : Nat) : Statement (.computeResetRelease dt) := fun _ => ⟨rfl, rfl⟩
theorem islandSupervisionCycle (dt : Nat) (reports : List UnitReport) : Statement (.islandSupervisionCycle dt reports) := fun _ => ⟨rfl, rfl⟩
theorem pinReadbackSample (dt : Nat) (faultPad : Bool) (hbPad : Bool) : Statement (.pinReadbackSample dt faultPad hbPad) := fun _ => ⟨rfl, rfl⟩
theorem plogCountRead (dt : Nat) : Statement (.plogCountRead dt) := fun _ => ⟨rfl, rfl⟩
theorem counterLowWordRead (dt : Nat) (addr : Nat) : Statement (.counterLowWordRead dt addr) := fun _ => ⟨rfl, rfl⟩
theorem registerWrite (dt : Nat) (addr : Nat) (value : Nat) (mask : Nat) : Statement (.registerWrite dt addr value mask) := fun _ => ⟨rfl, rfl⟩
theorem ethFrameReceive (dt : Nat) (p : Nat) (sub : Nat) (frame : List Byte) : Statement (.ethFrameReceive dt p sub frame) := fun _ => ⟨rfl, rfl⟩
theorem reassemblyTimeout (dt : Nat) (p : Nat) : Statement (.reassemblyTimeout dt p) := fun _ => ⟨rfl, rfl⟩
theorem responseSend (dt : Nat) (iface : Nat) : Statement (.responseSend dt iface) := fun _ => ⟨rfl, rfl⟩
theorem canFrameReceive (dt : Nat) (k : Nat) (id : Nat) (ide : Bool) (fd : Bool) (data : List Byte) : Statement (.canFrameReceive dt k id ide fd data) := fun _ => ⟨rfl, rfl⟩
theorem canGapTimeout (dt : Nat) (k : Nat) : Statement (.canGapTimeout dt k) := fun _ => ⟨rfl, rfl⟩
theorem reqDoorbell (dt : Nat) (v : Nat) (data : List Byte) : Statement (.reqDoorbell dt v data) := fun _ => ⟨rfl, rfl⟩
theorem rspRptrWrite (dt : Nat) (v : Nat) : Statement (.rspRptrWrite dt v) := fun _ => ⟨rfl, rfl⟩
theorem intClear (dt : Nat) (same : Bool) : Statement (.intClear dt same) := fun _ => ⟨rfl, rfl⟩
theorem pciePerstN (dt : Nat) (level : Bool) : Statement (.pciePerstN dt level) := fun _ => ⟨rfl, rfl⟩
theorem linkTrainingAttempt (dt : Nat) (p : Nat) (st : Nat) (hello : Option (Nat × Nat × Nat)) : Statement (.linkTrainingAttempt dt p st hello) := fun _ => ⟨rfl, rfl⟩
theorem linkFrameReceive (dt : Nat) (p : Nat) (frame : List Byte) : Statement (.linkFrameReceive dt p frame) := fun _ => ⟨rfl, rfl⟩
theorem linkAckTimeout (dt : Nat) (p : Nat) : Statement (.linkAckTimeout dt p) := fun _ => ⟨rfl, rfl⟩
theorem linkPut (dt : Nat) (cmd : Nat) : Statement (.linkPut dt cmd) := fun _ => ⟨rfl, rfl⟩
theorem linkPutTimeout (dt : Nat) (cmd : Nat) : Statement (.linkPutTimeout dt cmd) := fun _ => ⟨rfl, rfl⟩
theorem linkSio (dt : Nat) (cmd : Nat) (fail : Option (Nat × Bool)) (reads : List Byte) : Statement (.linkSio dt cmd fail reads) := fun _ => ⟨rfl, rfl⟩
theorem idcode (dt : Nat) : Statement (.idcode dt) := fun _ => ⟨rfl, rfl⟩
theorem samplePreload (dt : Nat) (pins : List Bool) (shift : List Bool) : Statement (.samplePreload dt pins shift) := fun _ => ⟨rfl, rfl⟩
theorem extest (dt : Nat) (shift : List Bool) : Statement (.extest dt shift) := fun _ => ⟨rfl, rfl⟩
theorem bypass (dt : Nat) (code : Nat) : Statement (.bypass dt code) := fun _ => ⟨rfl, rfl⟩
theorem dbgAuthCapture (dt : Nat) : Statement (.dbgAuthCapture dt) := fun _ => ⟨rfl, rfl⟩
theorem dbgAuthResponse (dt : Nat) (resp : List Byte) : Statement (.dbgAuthResponse dt resp) := fun _ => ⟨rfl, rfl⟩
theorem dbgAcc (dt : Nat) (addr : Nat) (data : Nat) (op : Nat) : Statement (.dbgAcc dt addr data op) := fun _ => ⟨rfl, rfl⟩
theorem fuse (dt : Nat) (f : FuseField) (data : List Byte) (verified : Bool) : Statement (.fuse dt f data verified) := fun _ => ⟨rfl, rfl⟩
theorem trstNAssert (dt : Nat) (low : Bool) : Statement (.trstNAssert dt low) := fun _ => ⟨rfl, rfl⟩
theorem dbgReturnWrite (dt : Nat) : Statement (.dbgReturnWrite dt) := fun _ => ⟨rfl, rfl⟩
theorem framDataRead (dt : Nat) : Statement (.framDataRead dt) := fun _ => ⟨rfl, rfl⟩
theorem tmuxSelWrite (dt : Nat) (n : Nat) (v : Nat) : Statement (.tmuxSelWrite dt n v) := fun _ => ⟨rfl, rfl⟩
theorem portFirstLock (dt : Nat) (n : Nat) : Statement (.portFirstLock dt n) := fun _ => ⟨rfl, rfl⟩
theorem pmicPgReturnWaitExpire (dt : Nat) : Statement (.pmicPgReturnWaitExpire dt) := fun _ => ⟨rfl, rfl⟩
theorem pulseInputEdge (dt : Nat) (k : Nat) (level : Bool) (sub : Nat) : Statement (.pulseInputEdge dt k level sub) := fun _ => ⟨rfl, rfl⟩
theorem ethLinkChange (dt : Nat) (p : Nat) (up : Bool) : Statement (.ethLinkChange dt p up) := fun _ => ⟨rfl, rfl⟩
theorem pcieLinkChange (dt : Nat) (up : Bool) (gen : Nat) (width : Nat) : Statement (.pcieLinkChange dt up gen width) := fun _ => ⟨rfl, rfl⟩
theorem canBusOff (dt : Nat) (k : Nat) (state : Nat) : Statement (.canBusOff dt k state) := fun _ => ⟨rfl, rfl⟩
theorem pllLossOfLock (dt : Nat) (p : Nat) (lost : Bool) : Statement (.pllLossOfLock dt p lost) := fun _ => ⟨rfl, rfl⟩
theorem undefinedRequestType (dt : Nat) : Statement (.undefinedRequestType dt) := fun _ => ⟨rfl, rfl⟩

end Sys2Proof.Laws.Elapsed
end

