-- ==== Sys2Proof/Laws/Sparse.lean ====
section
/-!
SUPPORT. Laws of sparse maps: a read after a write, what a write leaves alone, and the canonical form, which every operation
keeps and in which equal maps are equal lists.
-/

namespace Sys2Proof.Machine

/-- What every step of a fold keeps, the fold keeps. -/
theorem foldl_keeps {σ α : Type} (P : σ → Prop) {f : σ → α → σ} (hf : ∀ x a, P x → P (f x a)) :
    ∀ (l : List α) {x : σ}, P x → P (l.foldl f x)
  | [], _, h => h
  | a :: l, _, h => foldl_keeps P hf l (hf _ a h)

variable {β : Type}

theorem Sparse.rising_of_lt {a b : Nat} {m : List (Nat × β)} (h : a ≤ b) (hm : Sparse.risingFrom (some b) m = true) :
    Sparse.risingFrom (some a) m = true := by
  cases m with
  | nil => rfl
  | cons p m =>
    simp only [Sparse.risingFrom, Bool.and_eq_true, decide_eq_true_eq] at hm ⊢
    exact ⟨by omega, hm.2⟩

theorem Sparse.rising_none {b : Nat} {m : List (Nat × β)} (hm : Sparse.risingFrom (some b) m = true) :
    Sparse.risingFrom none m = true := by
  cases m with
  | nil => rfl
  | cons p m => simp only [Sparse.risingFrom, Bool.and_eq_true] at hm ⊢; exact hm.2

/-- A map whose keys lie above `b` lists nothing at or below it. -/
theorem Sparse.get_low (d : β) {b k : Nat} {m : List (Nat × β)} (hm : Sparse.risingFrom (some b) m = true) (h : k ≤ b) :
    Sparse.get d m k = d := by
  cases m with
  | nil => rfl
  | cons p m =>
    simp only [Sparse.risingFrom, Bool.and_eq_true, decide_eq_true_eq] at hm
    have h1 : ¬ p.1 = k := by omega
    have h2 : k < p.1 := by omega
    simp [Sparse.get, h1, h2]

variable [DecidableEq β]

theorem Sparse.rising_put {d : β} {b : Option Nat} {m : List (Nat × β)} {k : Nat} {v : β}
    (hm : Sparse.risingFrom b m = true) (hb : ∀ x, b = some x → x < k) :
    Sparse.risingFrom b (Sparse.put d m k v) = true := by
  have start : ∀ l : List (Nat × β), Sparse.risingFrom (some k) l = true → Sparse.risingFrom b ((k, v) :: l) = true := by
    intro l hl
    cases b with
    | none => simpa [Sparse.risingFrom] using hl
    | some x => simp [Sparse.risingFrom, hb x rfl, hl]
  induction m generalizing b with
  | nil =>
    simp only [Sparse.put]
    split
    · cases b <;> rfl
    · exact start [] rfl
  | cons p m ih =>
    have tail : Sparse.risingFrom (some p.1) m = true := by
      cases b with
      | none => simpa [Sparse.risingFrom] using hm
      | some x => simp only [Sparse.risingFrom, Bool.and_eq_true] at hm; exact hm.2
    simp only [Sparse.put]
    split
    · rename_i hk
      split
      · cases b with
        | none => exact Sparse.rising_none tail
        | some x => exact Sparse.rising_of_lt (by have := hb x rfl; omega) tail
      · exact start m (hk ▸ tail)
    · split
      · rename_i hk
        split
        · exact hm
        · refine start _ ?_
          simp only [Sparse.risingFrom, Bool.and_eq_true, decide_eq_true_eq]
          exact ⟨hk, tail⟩
      · rename_i h1 h2
        have rest := ih (b := some p.1) tail (by intro x hx; cases hx; omega)
          (by intro l hl; simp only [Sparse.risingFrom, Bool.and_eq_true, decide_eq_true_eq]; exact ⟨by omega, hl⟩)
        cases b with
        | none => simpa [Sparse.risingFrom] using rest
        | some x =>
          simp only [Sparse.risingFrom, Bool.and_eq_true, decide_eq_true_eq] at hm ⊢
          exact ⟨hm.1, rest⟩

theorem Sparse.mem_put {d : β} {m : List (Nat × β)} {k : Nat} {v : β} {p : Nat × β} (h : p ∈ Sparse.put d m k v) :
    p ∈ m ∨ (p = (k, v) ∧ v ≠ d) := by
  induction m with
  | nil =>
    simp only [Sparse.put] at h
    split at h
    · cases h
    · rename_i hv; simp only [List.mem_singleton] at h; exact .inr ⟨h, hv⟩
  | cons q m ih =>
    simp only [Sparse.put] at h
    split at h
    · split at h
      · exact .inl (List.mem_cons_of_mem _ h)
      · rename_i hv
        rcases List.mem_cons.1 h with h | h
        · exact .inr ⟨h, hv⟩
        · exact .inl (List.mem_cons_of_mem _ h)
    · split at h
      · split at h
        · exact .inl h
        · rename_i hv
          rcases List.mem_cons.1 h with h | h
          · exact .inr ⟨h, hv⟩
          · exact .inl h
      · rcases List.mem_cons.1 h with h | h
        · exact .inl (h ▸ List.mem_cons_self ..)
        · rcases ih h with h | h
          · exact .inl (List.mem_cons_of_mem _ h)
          · exact .inr h

/-- A write keeps the canonical form. -/
theorem Sparse.put_wf {d : β} {m : List (Nat × β)} (k : Nat) (v : β) (hm : Sparse.wf d m = true) :
    Sparse.wf d (Sparse.put d m k v) = true := by
  simp only [Sparse.wf, Bool.and_eq_true, List.all_eq_true, decide_eq_true_eq] at hm ⊢
  refine ⟨Sparse.rising_put hm.1 (by intro x hx; cases hx), fun p hp => ?_⟩
  rcases Sparse.mem_put hp with h | ⟨h, hv⟩
  · exact hm.2 p h
  · subst h; exact hv

omit [DecidableEq β] in
theorem Sparse.rising_filter {b : Option Nat} {m : List (Nat × β)} (f : Nat × β → Bool)
    (hm : Sparse.risingFrom b m = true) : Sparse.risingFrom b (m.filter f) = true := by
  induction m generalizing b with
  | nil => cases b <;> rfl
  | cons p m ih =>
    have tail : Sparse.risingFrom (some p.1) m = true := by
      cases b with
      | none => simpa [Sparse.risingFrom] using hm
      | some x => simp only [Sparse.risingFrom, Bool.and_eq_true] at hm; exact hm.2
    rw [List.filter_cons]
    split
    · cases b with
      | none => simpa [Sparse.risingFrom] using ih tail
      | some x =>
        simp only [Sparse.risingFrom, Bool.and_eq_true] at hm ⊢
        exact ⟨hm.1, ih tail⟩
    · refine ih ?_
      cases b with
      | none => exact Sparse.rising_none tail
      | some x =>
        simp only [Sparse.risingFrom, Bool.and_eq_true, decide_eq_true_eq] at hm
        exact Sparse.rising_of_lt (Nat.le_of_lt hm.1) tail

/-- Clearing a range keeps the canonical form. -/
theorem Sparse.clear_wf {d : β} {m : List (Nat × β)} (lo hi : Nat) (hm : Sparse.wf d m = true) :
    Sparse.wf d (Sparse.clear m lo hi) = true := by
  simp only [Sparse.wf, Bool.and_eq_true, List.all_eq_true, decide_eq_true_eq] at hm ⊢
  exact ⟨Sparse.rising_filter _ hm.1, fun p hp => hm.2 p (List.mem_filter.1 hp).1⟩

theorem Sparse.wf_rising {d : β} {m : List (Nat × β)} (hm : Sparse.wf d m = true) : Sparse.risingFrom none m = true := by
  simp only [Sparse.wf, Bool.and_eq_true] at hm; exact hm.1

theorem Sparse.get_put_rising {d : β} {m : List (Nat × β)} (k : Nat) (v : β) (x : Nat)
    (hm : Sparse.risingFrom none m = true) :
    Sparse.get d (Sparse.put d m k v) x = if x = k then v else Sparse.get d m x := by
  induction m with
  | nil =>
    simp only [Sparse.put]
    split
    · rename_i hv; simp only [Sparse.get, hv]; split <;> rfl
    · simp only [Sparse.get]
      by_cases h : k = x
      · simp [h]
      · have : ¬ x = k := fun e => h e.symm
        simp [h, this]
  | cons p m ih =>
    have tail : Sparse.risingFrom (some p.1) m = true := by simpa [Sparse.risingFrom] using hm
    have ih := ih (Sparse.rising_none tail)
    simp only [Sparse.put]
    split
    · rename_i hk
      subst hk
      split
      · rename_i hv
        by_cases h : x = p.1
        · subst h; simp [Sparse.get_low d tail (Nat.le_refl _), hv]
        · have h' : ¬ p.1 = x := fun e => h e.symm
          simp only [Sparse.get, h, h', if_false]
          split
          · exact Sparse.get_low d tail (by omega)
          · rfl
      · by_cases h : x = p.1
        · simp [Sparse.get, h]
        · have h' : ¬ p.1 = x := fun e => h e.symm
          simp [Sparse.get, h, h']
    · split
      · rename_i hne hlt
        split
        · rename_i hv
          by_cases h : x = k
          · subst h; simp [Sparse.get, hne, hlt, hv]
          · simp [h]
        · by_cases h : x = k
          · subst h; simp [Sparse.get]
          · have h' : ¬ k = x := fun e => h e.symm
            simp only [Sparse.get, h, h', if_false]
            split
            · rename_i hlow
              have h1 : ¬ p.1 = x := by omega
              have h2 : x < p.1 := by omega
              simp [h1, h2]
            · rfl
      · rename_i hne hlt
        simp only [Sparse.get, ih]
        by_cases h : x = k
        · subst h
          have h1 : ¬ x < p.1 := by omega
          simp [hne, h1]
        · simp only [h, if_false]

/-- A read after a write: the value written at its key, and what was there at every other key. -/
theorem Sparse.get_put {d : β} {m : List (Nat × β)} (k : Nat) (v : β) (x : Nat) (hm : Sparse.wf d m = true) :
    Sparse.get d (Sparse.put d m k v) x = if x = k then v else Sparse.get d m x :=
  Sparse.get_put_rising k v x (Sparse.wf_rising hm)

theorem Sparse.get_put_same {d : β} {m : List (Nat × β)} (k : Nat) (v : β) (hm : Sparse.wf d m = true) :
    Sparse.get d (Sparse.put d m k v) k = v := by simp [Sparse.get_put k v k hm]

theorem Sparse.get_put_other {d : β} {m : List (Nat × β)} {k x : Nat} (v : β) (h : x ≠ k) (hm : Sparse.wf d m = true) :
    Sparse.get d (Sparse.put d m k v) x = Sparse.get d m x := by simp [Sparse.get_put k v x hm, h]

/-- A read after a range was cleared. -/
theorem Sparse.get_clear {d : β} {m : List (Nat × β)} (lo hi x : Nat) (hm : Sparse.wf d m = true) :
    Sparse.get d (Sparse.clear m lo hi) x = if lo ≤ x ∧ x < hi then d else Sparse.get d m x := by
  have hr := Sparse.wf_rising hm
  clear hm
  unfold Sparse.clear
  induction m with
  | nil => simp [Sparse.get]
  | cons p m ih =>
    have tail : Sparse.risingFrom (some p.1) m = true := by simpa [Sparse.risingFrom] using hr
    have ih := ih (Sparse.rising_none tail)
    rw [List.filter_cons]
    split
    · rename_i hp
      simp only [Bool.or_eq_true, decide_eq_true_eq] at hp
      simp only [Sparse.get, ih]
      split
      · rename_i hx; subst hx
        have : ¬ (lo ≤ p.1 ∧ p.1 < hi) := by omega
        simp [this]
      · split
        · split <;> rfl
        · rfl
    · rename_i hp
      simp only [Bool.or_eq_true, decide_eq_true_eq] at hp
      rw [ih]
      split
      · rfl
      · rename_i hx
        have h1 : ¬ p.1 = x := by omega
        simp only [Sparse.get, h1, if_false]
        split
        · exact Sparse.get_low d tail (by omega)
        · rfl

omit [DecidableEq β] in
theorem Sparse.ext_rising {d : β} {b : Option Nat} {m n : List (Nat × β)}
    (hm : Sparse.risingFrom b m = true) (hn : Sparse.risingFrom b n = true)
    (dm : ∀ p ∈ m, p.2 ≠ d) (dn : ∀ p ∈ n, p.2 ≠ d)
    (h : ∀ x, Sparse.get d m x = Sparse.get d n x) : m = n := by
  induction m generalizing b n with
  | nil =>
    cases n with
    | nil => rfl
    | cons q n =>
      exact absurd (by simpa [Sparse.get] using h q.1) (fun e : d = q.2 => dn q (List.mem_cons_self ..) e.symm)
  | cons p m ih =>
    have tm : Sparse.risingFrom (some p.1) m = true := by
      cases b with
      | none => simpa [Sparse.risingFrom] using hm
      | some x => simp only [Sparse.risingFrom, Bool.and_eq_true] at hm; exact hm.2
    cases n with
    | nil => exact absurd (by simpa [Sparse.get] using h p.1) (dm p (List.mem_cons_self ..))
    | cons q n =>
      have tn : Sparse.risingFrom (some q.1) n = true := by
        cases b with
        | none => simpa [Sparse.risingFrom] using hn
        | some x => simp only [Sparse.risingFrom, Bool.and_eq_true] at hn; exact hn.2
      have hp := h p.1
      have hq := h q.1
      simp only [Sparse.get, if_true] at hp hq
      have key : p.1 = q.1 := by
        rcases Nat.lt_trichotomy p.1 q.1 with hlt | heq | hgt
        · have h1 : ¬ q.1 = p.1 := by omega
          simp only [h1, if_false, hlt, if_true] at hp
          exact absurd hp (dm p (List.mem_cons_self ..))
        · exact heq
        · have h1 : ¬ p.1 = q.1 := by omega
          simp only [h1, if_false, hgt, if_true] at hq
          exact absurd hq.symm (dn q (List.mem_cons_self ..))
      have val : p.2 = q.2 := by simpa [key] using hp
      have pq : p = q := Prod.ext key val
      subst pq
      congr 1
      refine ih tm tn (fun r hr => dm r (List.mem_cons_of_mem _ hr)) (fun r hr => dn r (List.mem_cons_of_mem _ hr)) ?_
      intro x
      by_cases hx : x ≤ p.1
      · rw [Sparse.get_low d tm hx, Sparse.get_low d tn hx]
      · have h1 : ¬ p.1 = x := by omega
        have h2 : ¬ x < p.1 := by omega
        simpa [Sparse.get, h1, h2] using h x

/-- Maps in canonical form that read alike everywhere are the same list. -/
theorem Sparse.ext {d : β} {m n : List (Nat × β)} (hm : Sparse.wf d m = true) (hn : Sparse.wf d n = true)
    (h : ∀ x, Sparse.get d m x = Sparse.get d n x) : m = n := by
  simp only [Sparse.wf, Bool.and_eq_true, List.all_eq_true, decide_eq_true_eq] at hm hn
  exact Sparse.ext_rising hm.1 hn.1 hm.2 hn.2 h

end Sys2Proof.Machine
end

