-- ==== Sys2Proof/Laws/State.lean ====
section
/-!
SUPPORT. What the named operations leave of the state: one lemma per field and update.
-/

namespace Sys2Proof.Machine

open Sys2Proof

/-! ### One register word, one byte, one event, one keyed entry, an output -/

@[simp] theorem State.setRegWord_pending (s : State) (a v : Nat) : (s.setRegWord a v).pending = s.pending := rfl
@[simp] theorem State.setRegWord_tick (s : State) (a v : Nat) : (s.setRegWord a v).tick = s.tick := rfl
@[simp] theorem State.setRegWord_freeCtr (s : State) (a v : Nat) : (s.setRegWord a v).freeCtr = s.freeCtr := rfl
@[simp] theorem State.setRegWord_out (s : State) (a v : Nat) : (s.setRegWord a v).out = s.out := rfl
@[simp] theorem State.setRegWord_snaps (s : State) (a v : Nat) : (s.setRegWord a v).snaps = s.snaps := rfl
@[simp] theorem State.setRegWord_mem (s : State) (a v : Nat) : (s.setRegWord a v).mem = s.mem := rfl
@[simp] theorem State.setRegWord_health (s : State) (a v : Nat) : (s.setRegWord a v).health = s.health := rfl
@[simp] theorem State.setRegWord_fram (s : State) (a v : Nat) : (s.setRegWord a v).fram = s.fram := rfl
@[simp] theorem State.setRegWord_flash (s : State) (a v : Nat) : (s.setRegWord a v).flash = s.flash := rfl
@[simp] theorem State.setRegWord_ufs (s : State) (a v : Nat) : (s.setRegWord a v).ufs = s.ufs := rfl
@[simp] theorem State.setRegWord_orbit (s : State) (a v : Nat) : (s.setRegWord a v).orbit = s.orbit := rfl
@[simp] theorem State.setRegWord_groups (s : State) (a v : Nat) : (s.setRegWord a v).groups = s.groups := rfl
@[simp] theorem State.setRegWord_boot (s : State) (a v : Nat) : (s.setRegWord a v).boot = s.boot := rfl
@[simp] theorem State.setRegWord_scrubbers (s : State) (a v : Nat) : (s.setRegWord a v).scrubbers = s.scrubbers := rfl
@[simp] theorem State.setRegWord_patrolAt (s : State) (a v : Nat) : (s.setRegWord a v).patrolAt = s.patrolAt := rfl
@[simp] theorem State.setRegWord_fuses (s : State) (a v : Nat) : (s.setRegWord a v).fuses = s.fuses := rfl
@[simp] theorem State.setRegWord_image (s : State) (a v : Nat) : (s.setRegWord a v).image = s.image := rfl
@[simp] theorem State.setRegWord_applied (s : State) (a v : Nat) : (s.setRegWord a v).applied = s.applied := rfl
@[simp] theorem State.setRegWord_queuesLost (s : State) (a v : Nat) : (s.setRegWord a v).queuesLost = s.queuesLost := rfl
@[simp] theorem State.setRegWord_queues (s : State) (a v : Nat) : (s.setRegWord a v).queues = s.queues := rfl
@[simp] theorem State.setRegWord_cmds (s : State) (a v : Nat) : (s.setRegWord a v).cmds = s.cmds := rfl
@[simp] theorem State.setRegWord_nextId (s : State) (a v : Nat) : (s.setRegWord a v).nextId = s.nextId := rfl
@[simp] theorem State.setRegWord_held (s : State) (a v : Nat) : (s.setRegWord a v).held = s.held := rfl
@[simp] theorem State.setRegWord_threads (s : State) (a v : Nat) : (s.setRegWord a v).threads = s.threads := rfl
@[simp] theorem State.setRegWord_running (s : State) (a v : Nat) : (s.setRegWord a v).running = s.running := rfl
@[simp] theorem State.setRegWord_grants (s : State) (a v : Nat) : (s.setRegWord a v).grants = s.grants := rfl
@[simp] theorem State.setRegWord_events (s : State) (a v : Nat) : (s.setRegWord a v).events = s.events := rfl
@[simp] theorem State.setRegWord_jobs (s : State) (a v : Nat) : (s.setRegWord a v).jobs = s.jobs := rfl
@[simp] theorem State.setRegWord_regulators (s : State) (a v : Nat) : (s.setRegWord a v).regulators = s.regulators := rfl
@[simp] theorem State.setRegWord_windows (s : State) (a v : Nat) : (s.setRegWord a v).windows = s.windows := rfl
@[simp] theorem State.setRegWord_deadlocks (s : State) (a v : Nat) : (s.setRegWord a v).deadlocks = s.deadlocks := rfl
@[simp] theorem State.setRegWord_hub (s : State) (a v : Nat) : (s.setRegWord a v).hub = s.hub := rfl
@[simp] theorem State.setRegWord_ifaces (s : State) (a v : Nat) : (s.setRegWord a v).ifaces = s.ifaces := rfl
@[simp] theorem State.setRegWord_power (s : State) (a v : Nat) : (s.setRegWord a v).power = s.power := rfl
@[simp] theorem State.setRegWord_dbg (s : State) (a v : Nat) : (s.setRegWord a v).dbg = s.dbg := rfl
@[simp] theorem State.setRegWord_acu (s : State) (a v : Nat) : (s.setRegWord a v).acu = s.acu := rfl
@[simp] theorem State.setRegWord_tide (s : State) (a v : Nat) : (s.setRegWord a v).tide = s.tide := rfl
@[simp] theorem State.setRegWord_embFile (s : State) (a v : Nat) : (s.setRegWord a v).embFile = s.embFile := rfl
@[simp] theorem State.setRegWord_streams (s : State) (a v : Nat) : (s.setRegWord a v).streams = s.streams := rfl
@[simp] theorem State.setRegWord_slots (s : State) (a v : Nat) : (s.setRegWord a v).slots = s.slots := rfl
@[simp] theorem State.setRegWord_vis (s : State) (a v : Nat) : (s.setRegWord a v).vis = s.vis := rfl
@[simp] theorem State.setRegWord_wrote (s : State) (a v : Nat) : (s.setRegWord a v).wrote = s.wrote := rfl

@[simp] theorem State.setByte_pending (s : State) (a : Nat) (v : Byte) : (s.setByte a v).pending = s.pending := rfl
@[simp] theorem State.setByte_tick (s : State) (a : Nat) (v : Byte) : (s.setByte a v).tick = s.tick := rfl
@[simp] theorem State.setByte_freeCtr (s : State) (a : Nat) (v : Byte) : (s.setByte a v).freeCtr = s.freeCtr := rfl
@[simp] theorem State.setByte_out (s : State) (a : Nat) (v : Byte) : (s.setByte a v).out = s.out := rfl
@[simp] theorem State.setByte_regs (s : State) (a : Nat) (v : Byte) : (s.setByte a v).regs = s.regs := rfl
@[simp] theorem State.setByte_snaps (s : State) (a : Nat) (v : Byte) : (s.setByte a v).snaps = s.snaps := rfl
@[simp] theorem State.setByte_health (s : State) (a : Nat) (v : Byte) : (s.setByte a v).health = s.health := rfl
@[simp] theorem State.setByte_fram (s : State) (a : Nat) (v : Byte) : (s.setByte a v).fram = s.fram := rfl
@[simp] theorem State.setByte_flash (s : State) (a : Nat) (v : Byte) : (s.setByte a v).flash = s.flash := rfl
@[simp] theorem State.setByte_ufs (s : State) (a : Nat) (v : Byte) : (s.setByte a v).ufs = s.ufs := rfl
@[simp] theorem State.setByte_orbit (s : State) (a : Nat) (v : Byte) : (s.setByte a v).orbit = s.orbit := rfl
@[simp] theorem State.setByte_groups (s : State) (a : Nat) (v : Byte) : (s.setByte a v).groups = s.groups := rfl
@[simp] theorem State.setByte_boot (s : State) (a : Nat) (v : Byte) : (s.setByte a v).boot = s.boot := rfl
@[simp] theorem State.setByte_scrubbers (s : State) (a : Nat) (v : Byte) : (s.setByte a v).scrubbers = s.scrubbers := rfl
@[simp] theorem State.setByte_patrolAt (s : State) (a : Nat) (v : Byte) : (s.setByte a v).patrolAt = s.patrolAt := rfl
@[simp] theorem State.setByte_fuses (s : State) (a : Nat) (v : Byte) : (s.setByte a v).fuses = s.fuses := rfl
@[simp] theorem State.setByte_image (s : State) (a : Nat) (v : Byte) : (s.setByte a v).image = s.image := rfl
@[simp] theorem State.setByte_applied (s : State) (a : Nat) (v : Byte) : (s.setByte a v).applied = s.applied := rfl
@[simp] theorem State.setByte_queuesLost (s : State) (a : Nat) (v : Byte) : (s.setByte a v).queuesLost = s.queuesLost := rfl
@[simp] theorem State.setByte_queues (s : State) (a : Nat) (v : Byte) : (s.setByte a v).queues = s.queues := rfl
@[simp] theorem State.setByte_cmds (s : State) (a : Nat) (v : Byte) : (s.setByte a v).cmds = s.cmds := rfl
@[simp] theorem State.setByte_nextId (s : State) (a : Nat) (v : Byte) : (s.setByte a v).nextId = s.nextId := rfl
@[simp] theorem State.setByte_held (s : State) (a : Nat) (v : Byte) : (s.setByte a v).held = s.held := rfl
@[simp] theorem State.setByte_threads (s : State) (a : Nat) (v : Byte) : (s.setByte a v).threads = s.threads := rfl
@[simp] theorem State.setByte_running (s : State) (a : Nat) (v : Byte) : (s.setByte a v).running = s.running := rfl
@[simp] theorem State.setByte_grants (s : State) (a : Nat) (v : Byte) : (s.setByte a v).grants = s.grants := rfl
@[simp] theorem State.setByte_events (s : State) (a : Nat) (v : Byte) : (s.setByte a v).events = s.events := rfl
@[simp] theorem State.setByte_jobs (s : State) (a : Nat) (v : Byte) : (s.setByte a v).jobs = s.jobs := rfl
@[simp] theorem State.setByte_regulators (s : State) (a : Nat) (v : Byte) : (s.setByte a v).regulators = s.regulators := rfl
@[simp] theorem State.setByte_windows (s : State) (a : Nat) (v : Byte) : (s.setByte a v).windows = s.windows := rfl
@[simp] theorem State.setByte_deadlocks (s : State) (a : Nat) (v : Byte) : (s.setByte a v).deadlocks = s.deadlocks := rfl
@[simp] theorem State.setByte_hub (s : State) (a : Nat) (v : Byte) : (s.setByte a v).hub = s.hub := rfl
@[simp] theorem State.setByte_ifaces (s : State) (a : Nat) (v : Byte) : (s.setByte a v).ifaces = s.ifaces := rfl
@[simp] theorem State.setByte_power (s : State) (a : Nat) (v : Byte) : (s.setByte a v).power = s.power := rfl
@[simp] theorem State.setByte_dbg (s : State) (a : Nat) (v : Byte) : (s.setByte a v).dbg = s.dbg := rfl
@[simp] theorem State.setByte_acu (s : State) (a : Nat) (v : Byte) : (s.setByte a v).acu = s.acu := rfl
@[simp] theorem State.setByte_tide (s : State) (a : Nat) (v : Byte) : (s.setByte a v).tide = s.tide := rfl
@[simp] theorem State.setByte_embFile (s : State) (a : Nat) (v : Byte) : (s.setByte a v).embFile = s.embFile := rfl
@[simp] theorem State.setByte_streams (s : State) (a : Nat) (v : Byte) : (s.setByte a v).streams = s.streams := rfl
@[simp] theorem State.setByte_slots (s : State) (a : Nat) (v : Byte) : (s.setByte a v).slots = s.slots := rfl
@[simp] theorem State.setByte_vis (s : State) (a : Nat) (v : Byte) : (s.setByte a v).vis = s.vis := rfl
@[simp] theorem State.setByte_wrote (s : State) (a : Nat) (v : Byte) : (s.setByte a v).wrote = s.wrote := rfl

@[simp] theorem State.setEvent_pending (s : State) (e v : Nat) : (s.setEvent e v).pending = s.pending := rfl
@[simp] theorem State.setEvent_tick (s : State) (e v : Nat) : (s.setEvent e v).tick = s.tick := rfl
@[simp] theorem State.setEvent_freeCtr (s : State) (e v : Nat) : (s.setEvent e v).freeCtr = s.freeCtr := rfl
@[simp] theorem State.setEvent_out (s : State) (e v : Nat) : (s.setEvent e v).out = s.out := rfl
@[simp] theorem State.setEvent_regs (s : State) (e v : Nat) : (s.setEvent e v).regs = s.regs := rfl
@[simp] theorem State.setEvent_snaps (s : State) (e v : Nat) : (s.setEvent e v).snaps = s.snaps := rfl
@[simp] theorem State.setEvent_mem (s : State) (e v : Nat) : (s.setEvent e v).mem = s.mem := rfl
@[simp] theorem State.setEvent_health (s : State) (e v : Nat) : (s.setEvent e v).health = s.health := rfl
@[simp] theorem State.setEvent_fram (s : State) (e v : Nat) : (s.setEvent e v).fram = s.fram := rfl
@[simp] theorem State.setEvent_flash (s : State) (e v : Nat) : (s.setEvent e v).flash = s.flash := rfl
@[simp] theorem State.setEvent_ufs (s : State) (e v : Nat) : (s.setEvent e v).ufs = s.ufs := rfl
@[simp] theorem State.setEvent_orbit (s : State) (e v : Nat) : (s.setEvent e v).orbit = s.orbit := rfl
@[simp] theorem State.setEvent_groups (s : State) (e v : Nat) : (s.setEvent e v).groups = s.groups := rfl
@[simp] theorem State.setEvent_boot (s : State) (e v : Nat) : (s.setEvent e v).boot = s.boot := rfl
@[simp] theorem State.setEvent_scrubbers (s : State) (e v : Nat) : (s.setEvent e v).scrubbers = s.scrubbers := rfl
@[simp] theorem State.setEvent_patrolAt (s : State) (e v : Nat) : (s.setEvent e v).patrolAt = s.patrolAt := rfl
@[simp] theorem State.setEvent_fuses (s : State) (e v : Nat) : (s.setEvent e v).fuses = s.fuses := rfl
@[simp] theorem State.setEvent_image (s : State) (e v : Nat) : (s.setEvent e v).image = s.image := rfl
@[simp] theorem State.setEvent_applied (s : State) (e v : Nat) : (s.setEvent e v).applied = s.applied := rfl
@[simp] theorem State.setEvent_queuesLost (s : State) (e v : Nat) : (s.setEvent e v).queuesLost = s.queuesLost := rfl
@[simp] theorem State.setEvent_queues (s : State) (e v : Nat) : (s.setEvent e v).queues = s.queues := rfl
@[simp] theorem State.setEvent_cmds (s : State) (e v : Nat) : (s.setEvent e v).cmds = s.cmds := rfl
@[simp] theorem State.setEvent_nextId (s : State) (e v : Nat) : (s.setEvent e v).nextId = s.nextId := rfl
@[simp] theorem State.setEvent_held (s : State) (e v : Nat) : (s.setEvent e v).held = s.held := rfl
@[simp] theorem State.setEvent_threads (s : State) (e v : Nat) : (s.setEvent e v).threads = s.threads := rfl
@[simp] theorem State.setEvent_running (s : State) (e v : Nat) : (s.setEvent e v).running = s.running := rfl
@[simp] theorem State.setEvent_grants (s : State) (e v : Nat) : (s.setEvent e v).grants = s.grants := rfl
@[simp] theorem State.setEvent_jobs (s : State) (e v : Nat) : (s.setEvent e v).jobs = s.jobs := rfl
@[simp] theorem State.setEvent_regulators (s : State) (e v : Nat) : (s.setEvent e v).regulators = s.regulators := rfl
@[simp] theorem State.setEvent_windows (s : State) (e v : Nat) : (s.setEvent e v).windows = s.windows := rfl
@[simp] theorem State.setEvent_deadlocks (s : State) (e v : Nat) : (s.setEvent e v).deadlocks = s.deadlocks := rfl
@[simp] theorem State.setEvent_hub (s : State) (e v : Nat) : (s.setEvent e v).hub = s.hub := rfl
@[simp] theorem State.setEvent_ifaces (s : State) (e v : Nat) : (s.setEvent e v).ifaces = s.ifaces := rfl
@[simp] theorem State.setEvent_power (s : State) (e v : Nat) : (s.setEvent e v).power = s.power := rfl
@[simp] theorem State.setEvent_dbg (s : State) (e v : Nat) : (s.setEvent e v).dbg = s.dbg := rfl
@[simp] theorem State.setEvent_acu (s : State) (e v : Nat) : (s.setEvent e v).acu = s.acu := rfl
@[simp] theorem State.setEvent_tide (s : State) (e v : Nat) : (s.setEvent e v).tide = s.tide := rfl
@[simp] theorem State.setEvent_embFile (s : State) (e v : Nat) : (s.setEvent e v).embFile = s.embFile := rfl
@[simp] theorem State.setEvent_streams (s : State) (e v : Nat) : (s.setEvent e v).streams = s.streams := rfl
@[simp] theorem State.setEvent_slots (s : State) (e v : Nat) : (s.setEvent e v).slots = s.slots := rfl
@[simp] theorem State.setEvent_vis (s : State) (e v : Nat) : (s.setEvent e v).vis = s.vis := rfl
@[simp] theorem State.setEvent_wrote (s : State) (e v : Nat) : (s.setEvent e v).wrote = s.wrote := rfl

@[simp] theorem State.setThread_pending (s : State) (t : Nat) (x : Thread) : (s.setThread t x).pending = s.pending := rfl
@[simp] theorem State.setThread_tick (s : State) (t : Nat) (x : Thread) : (s.setThread t x).tick = s.tick := rfl
@[simp] theorem State.setThread_freeCtr (s : State) (t : Nat) (x : Thread) : (s.setThread t x).freeCtr = s.freeCtr := rfl
@[simp] theorem State.setThread_out (s : State) (t : Nat) (x : Thread) : (s.setThread t x).out = s.out := rfl
@[simp] theorem State.setThread_regs (s : State) (t : Nat) (x : Thread) : (s.setThread t x).regs = s.regs := rfl
@[simp] theorem State.setThread_snaps (s : State) (t : Nat) (x : Thread) : (s.setThread t x).snaps = s.snaps := rfl
@[simp] theorem State.setThread_mem (s : State) (t : Nat) (x : Thread) : (s.setThread t x).mem = s.mem := rfl
@[simp] theorem State.setThread_health (s : State) (t : Nat) (x : Thread) : (s.setThread t x).health = s.health := rfl
@[simp] theorem State.setThread_fram (s : State) (t : Nat) (x : Thread) : (s.setThread t x).fram = s.fram := rfl
@[simp] theorem State.setThread_flash (s : State) (t : Nat) (x : Thread) : (s.setThread t x).flash = s.flash := rfl
@[simp] theorem State.setThread_ufs (s : State) (t : Nat) (x : Thread) : (s.setThread t x).ufs = s.ufs := rfl
@[simp] theorem State.setThread_orbit (s : State) (t : Nat) (x : Thread) : (s.setThread t x).orbit = s.orbit := rfl
@[simp] theorem State.setThread_groups (s : State) (t : Nat) (x : Thread) : (s.setThread t x).groups = s.groups := rfl
@[simp] theorem State.setThread_boot (s : State) (t : Nat) (x : Thread) : (s.setThread t x).boot = s.boot := rfl
@[simp] theorem State.setThread_scrubbers (s : State) (t : Nat) (x : Thread) : (s.setThread t x).scrubbers = s.scrubbers := rfl
@[simp] theorem State.setThread_patrolAt (s : State) (t : Nat) (x : Thread) : (s.setThread t x).patrolAt = s.patrolAt := rfl
@[simp] theorem State.setThread_fuses (s : State) (t : Nat) (x : Thread) : (s.setThread t x).fuses = s.fuses := rfl
@[simp] theorem State.setThread_image (s : State) (t : Nat) (x : Thread) : (s.setThread t x).image = s.image := rfl
@[simp] theorem State.setThread_applied (s : State) (t : Nat) (x : Thread) : (s.setThread t x).applied = s.applied := rfl
@[simp] theorem State.setThread_queuesLost (s : State) (t : Nat) (x : Thread) : (s.setThread t x).queuesLost = s.queuesLost := rfl
@[simp] theorem State.setThread_queues (s : State) (t : Nat) (x : Thread) : (s.setThread t x).queues = s.queues := rfl
@[simp] theorem State.setThread_cmds (s : State) (t : Nat) (x : Thread) : (s.setThread t x).cmds = s.cmds := rfl
@[simp] theorem State.setThread_nextId (s : State) (t : Nat) (x : Thread) : (s.setThread t x).nextId = s.nextId := rfl
@[simp] theorem State.setThread_held (s : State) (t : Nat) (x : Thread) : (s.setThread t x).held = s.held := rfl
@[simp] theorem State.setThread_running (s : State) (t : Nat) (x : Thread) : (s.setThread t x).running = s.running := rfl
@[simp] theorem State.setThread_grants (s : State) (t : Nat) (x : Thread) : (s.setThread t x).grants = s.grants := rfl
@[simp] theorem State.setThread_events (s : State) (t : Nat) (x : Thread) : (s.setThread t x).events = s.events := rfl
@[simp] theorem State.setThread_jobs (s : State) (t : Nat) (x : Thread) : (s.setThread t x).jobs = s.jobs := rfl
@[simp] theorem State.setThread_regulators (s : State) (t : Nat) (x : Thread) : (s.setThread t x).regulators = s.regulators := rfl
@[simp] theorem State.setThread_windows (s : State) (t : Nat) (x : Thread) : (s.setThread t x).windows = s.windows := rfl
@[simp] theorem State.setThread_deadlocks (s : State) (t : Nat) (x : Thread) : (s.setThread t x).deadlocks = s.deadlocks := rfl
@[simp] theorem State.setThread_hub (s : State) (t : Nat) (x : Thread) : (s.setThread t x).hub = s.hub := rfl
@[simp] theorem State.setThread_ifaces (s : State) (t : Nat) (x : Thread) : (s.setThread t x).ifaces = s.ifaces := rfl
@[simp] theorem State.setThread_power (s : State) (t : Nat) (x : Thread) : (s.setThread t x).power = s.power := rfl
@[simp] theorem State.setThread_dbg (s : State) (t : Nat) (x : Thread) : (s.setThread t x).dbg = s.dbg := rfl
@[simp] theorem State.setThread_acu (s : State) (t : Nat) (x : Thread) : (s.setThread t x).acu = s.acu := rfl
@[simp] theorem State.setThread_tide (s : State) (t : Nat) (x : Thread) : (s.setThread t x).tide = s.tide := rfl
@[simp] theorem State.setThread_embFile (s : State) (t : Nat) (x : Thread) : (s.setThread t x).embFile = s.embFile := rfl
@[simp] theorem State.setThread_streams (s : State) (t : Nat) (x : Thread) : (s.setThread t x).streams = s.streams := rfl
@[simp] theorem State.setThread_slots (s : State) (t : Nat) (x : Thread) : (s.setThread t x).slots = s.slots := rfl
@[simp] theorem State.setThread_vis (s : State) (t : Nat) (x : Thread) : (s.setThread t x).vis = s.vis := rfl
@[simp] theorem State.setThread_wrote (s : State) (t : Nat) (x : Thread) : (s.setThread t x).wrote = s.wrote := rfl

@[simp] theorem State.setQueueX_pending (s : State) (q : Nat) (x : QueueX) : (s.setQueueX q x).pending = s.pending := rfl
@[simp] theorem State.setQueueX_tick (s : State) (q : Nat) (x : QueueX) : (s.setQueueX q x).tick = s.tick := rfl
@[simp] theorem State.setQueueX_freeCtr (s : State) (q : Nat) (x : QueueX) : (s.setQueueX q x).freeCtr = s.freeCtr := rfl
@[simp] theorem State.setQueueX_out (s : State) (q : Nat) (x : QueueX) : (s.setQueueX q x).out = s.out := rfl
@[simp] theorem State.setQueueX_regs (s : State) (q : Nat) (x : QueueX) : (s.setQueueX q x).regs = s.regs := rfl
@[simp] theorem State.setQueueX_snaps (s : State) (q : Nat) (x : QueueX) : (s.setQueueX q x).snaps = s.snaps := rfl
@[simp] theorem State.setQueueX_mem (s : State) (q : Nat) (x : QueueX) : (s.setQueueX q x).mem = s.mem := rfl
@[simp] theorem State.setQueueX_health (s : State) (q : Nat) (x : QueueX) : (s.setQueueX q x).health = s.health := rfl
@[simp] theorem State.setQueueX_fram (s : State) (q : Nat) (x : QueueX) : (s.setQueueX q x).fram = s.fram := rfl
@[simp] theorem State.setQueueX_flash (s : State) (q : Nat) (x : QueueX) : (s.setQueueX q x).flash = s.flash := rfl
@[simp] theorem State.setQueueX_ufs (s : State) (q : Nat) (x : QueueX) : (s.setQueueX q x).ufs = s.ufs := rfl
@[simp] theorem State.setQueueX_orbit (s : State) (q : Nat) (x : QueueX) : (s.setQueueX q x).orbit = s.orbit := rfl
@[simp] theorem State.setQueueX_groups (s : State) (q : Nat) (x : QueueX) : (s.setQueueX q x).groups = s.groups := rfl
@[simp] theorem State.setQueueX_boot (s : State) (q : Nat) (x : QueueX) : (s.setQueueX q x).boot = s.boot := rfl
@[simp] theorem State.setQueueX_scrubbers (s : State) (q : Nat) (x : QueueX) : (s.setQueueX q x).scrubbers = s.scrubbers := rfl
@[simp] theorem State.setQueueX_patrolAt (s : State) (q : Nat) (x : QueueX) : (s.setQueueX q x).patrolAt = s.patrolAt := rfl
@[simp] theorem State.setQueueX_fuses (s : State) (q : Nat) (x : QueueX) : (s.setQueueX q x).fuses = s.fuses := rfl
@[simp] theorem State.setQueueX_image (s : State) (q : Nat) (x : QueueX) : (s.setQueueX q x).image = s.image := rfl
@[simp] theorem State.setQueueX_applied (s : State) (q : Nat) (x : QueueX) : (s.setQueueX q x).applied = s.applied := rfl
@[simp] theorem State.setQueueX_queuesLost (s : State) (q : Nat) (x : QueueX) : (s.setQueueX q x).queuesLost = s.queuesLost := rfl
@[simp] theorem State.setQueueX_cmds (s : State) (q : Nat) (x : QueueX) : (s.setQueueX q x).cmds = s.cmds := rfl
@[simp] theorem State.setQueueX_nextId (s : State) (q : Nat) (x : QueueX) : (s.setQueueX q x).nextId = s.nextId := rfl
@[simp] theorem State.setQueueX_held (s : State) (q : Nat) (x : QueueX) : (s.setQueueX q x).held = s.held := rfl
@[simp] theorem State.setQueueX_threads (s : State) (q : Nat) (x : QueueX) : (s.setQueueX q x).threads = s.threads := rfl
@[simp] theorem State.setQueueX_running (s : State) (q : Nat) (x : QueueX) : (s.setQueueX q x).running = s.running := rfl
@[simp] theorem State.setQueueX_grants (s : State) (q : Nat) (x : QueueX) : (s.setQueueX q x).grants = s.grants := rfl
@[simp] theorem State.setQueueX_events (s : State) (q : Nat) (x : QueueX) : (s.setQueueX q x).events = s.events := rfl
@[simp] theorem State.setQueueX_jobs (s : State) (q : Nat) (x : QueueX) : (s.setQueueX q x).jobs = s.jobs := rfl
@[simp] theorem State.setQueueX_regulators (s : State) (q : Nat) (x : QueueX) : (s.setQueueX q x).regulators = s.regulators := rfl
@[simp] theorem State.setQueueX_windows (s : State) (q : Nat) (x : QueueX) : (s.setQueueX q x).windows = s.windows := rfl
@[simp] theorem State.setQueueX_deadlocks (s : State) (q : Nat) (x : QueueX) : (s.setQueueX q x).deadlocks = s.deadlocks := rfl
@[simp] theorem State.setQueueX_hub (s : State) (q : Nat) (x : QueueX) : (s.setQueueX q x).hub = s.hub := rfl
@[simp] theorem State.setQueueX_ifaces (s : State) (q : Nat) (x : QueueX) : (s.setQueueX q x).ifaces = s.ifaces := rfl
@[simp] theorem State.setQueueX_power (s : State) (q : Nat) (x : QueueX) : (s.setQueueX q x).power = s.power := rfl
@[simp] theorem State.setQueueX_dbg (s : State) (q : Nat) (x : QueueX) : (s.setQueueX q x).dbg = s.dbg := rfl
@[simp] theorem State.setQueueX_acu (s : State) (q : Nat) (x : QueueX) : (s.setQueueX q x).acu = s.acu := rfl
@[simp] theorem State.setQueueX_tide (s : State) (q : Nat) (x : QueueX) : (s.setQueueX q x).tide = s.tide := rfl
@[simp] theorem State.setQueueX_embFile (s : State) (q : Nat) (x : QueueX) : (s.setQueueX q x).embFile = s.embFile := rfl
@[simp] theorem State.setQueueX_streams (s : State) (q : Nat) (x : QueueX) : (s.setQueueX q x).streams = s.streams := rfl
@[simp] theorem State.setQueueX_slots (s : State) (q : Nat) (x : QueueX) : (s.setQueueX q x).slots = s.slots := rfl
@[simp] theorem State.setQueueX_vis (s : State) (q : Nat) (x : QueueX) : (s.setQueueX q x).vis = s.vis := rfl
@[simp] theorem State.setQueueX_wrote (s : State) (q : Nat) (x : QueueX) : (s.setQueueX q x).wrote = s.wrote := rfl

@[simp] theorem State.setCmd_pending (s : State) (c : Cmd) : (s.setCmd c).pending = s.pending := rfl
@[simp] theorem State.setCmd_tick (s : State) (c : Cmd) : (s.setCmd c).tick = s.tick := rfl
@[simp] theorem State.setCmd_freeCtr (s : State) (c : Cmd) : (s.setCmd c).freeCtr = s.freeCtr := rfl
@[simp] theorem State.setCmd_out (s : State) (c : Cmd) : (s.setCmd c).out = s.out := rfl
@[simp] theorem State.setCmd_regs (s : State) (c : Cmd) : (s.setCmd c).regs = s.regs := rfl
@[simp] theorem State.setCmd_snaps (s : State) (c : Cmd) : (s.setCmd c).snaps = s.snaps := rfl
@[simp] theorem State.setCmd_mem (s : State) (c : Cmd) : (s.setCmd c).mem = s.mem := rfl
@[simp] theorem State.setCmd_health (s : State) (c : Cmd) : (s.setCmd c).health = s.health := rfl
@[simp] theorem State.setCmd_fram (s : State) (c : Cmd) : (s.setCmd c).fram = s.fram := rfl
@[simp] theorem State.setCmd_flash (s : State) (c : Cmd) : (s.setCmd c).flash = s.flash := rfl
@[simp] theorem State.setCmd_ufs (s : State) (c : Cmd) : (s.setCmd c).ufs = s.ufs := rfl
@[simp] theorem State.setCmd_orbit (s : State) (c : Cmd) : (s.setCmd c).orbit = s.orbit := rfl
@[simp] theorem State.setCmd_groups (s : State) (c : Cmd) : (s.setCmd c).groups = s.groups := rfl
@[simp] theorem State.setCmd_boot (s : State) (c : Cmd) : (s.setCmd c).boot = s.boot := rfl
@[simp] theorem State.setCmd_scrubbers (s : State) (c : Cmd) : (s.setCmd c).scrubbers = s.scrubbers := rfl
@[simp] theorem State.setCmd_patrolAt (s : State) (c : Cmd) : (s.setCmd c).patrolAt = s.patrolAt := rfl
@[simp] theorem State.setCmd_fuses (s : State) (c : Cmd) : (s.setCmd c).fuses = s.fuses := rfl
@[simp] theorem State.setCmd_image (s : State) (c : Cmd) : (s.setCmd c).image = s.image := rfl
@[simp] theorem State.setCmd_applied (s : State) (c : Cmd) : (s.setCmd c).applied = s.applied := rfl
@[simp] theorem State.setCmd_queuesLost (s : State) (c : Cmd) : (s.setCmd c).queuesLost = s.queuesLost := rfl
@[simp] theorem State.setCmd_queues (s : State) (c : Cmd) : (s.setCmd c).queues = s.queues := rfl
@[simp] theorem State.setCmd_nextId (s : State) (c : Cmd) : (s.setCmd c).nextId = s.nextId := rfl
@[simp] theorem State.setCmd_held (s : State) (c : Cmd) : (s.setCmd c).held = s.held := rfl
@[simp] theorem State.setCmd_threads (s : State) (c : Cmd) : (s.setCmd c).threads = s.threads := rfl
@[simp] theorem State.setCmd_running (s : State) (c : Cmd) : (s.setCmd c).running = s.running := rfl
@[simp] theorem State.setCmd_grants (s : State) (c : Cmd) : (s.setCmd c).grants = s.grants := rfl
@[simp] theorem State.setCmd_events (s : State) (c : Cmd) : (s.setCmd c).events = s.events := rfl
@[simp] theorem State.setCmd_jobs (s : State) (c : Cmd) : (s.setCmd c).jobs = s.jobs := rfl
@[simp] theorem State.setCmd_regulators (s : State) (c : Cmd) : (s.setCmd c).regulators = s.regulators := rfl
@[simp] theorem State.setCmd_windows (s : State) (c : Cmd) : (s.setCmd c).windows = s.windows := rfl
@[simp] theorem State.setCmd_deadlocks (s : State) (c : Cmd) : (s.setCmd c).deadlocks = s.deadlocks := rfl
@[simp] theorem State.setCmd_hub (s : State) (c : Cmd) : (s.setCmd c).hub = s.hub := rfl
@[simp] theorem State.setCmd_ifaces (s : State) (c : Cmd) : (s.setCmd c).ifaces = s.ifaces := rfl
@[simp] theorem State.setCmd_power (s : State) (c : Cmd) : (s.setCmd c).power = s.power := rfl
@[simp] theorem State.setCmd_dbg (s : State) (c : Cmd) : (s.setCmd c).dbg = s.dbg := rfl
@[simp] theorem State.setCmd_acu (s : State) (c : Cmd) : (s.setCmd c).acu = s.acu := rfl
@[simp] theorem State.setCmd_tide (s : State) (c : Cmd) : (s.setCmd c).tide = s.tide := rfl
@[simp] theorem State.setCmd_embFile (s : State) (c : Cmd) : (s.setCmd c).embFile = s.embFile := rfl
@[simp] theorem State.setCmd_streams (s : State) (c : Cmd) : (s.setCmd c).streams = s.streams := rfl
@[simp] theorem State.setCmd_slots (s : State) (c : Cmd) : (s.setCmd c).slots = s.slots := rfl
@[simp] theorem State.setCmd_vis (s : State) (c : Cmd) : (s.setCmd c).vis = s.vis := rfl
@[simp] theorem State.setCmd_wrote (s : State) (c : Cmd) : (s.setCmd c).wrote = s.wrote := rfl

@[simp] theorem State.dropCmd_pending (s : State) (c : Nat) : (s.dropCmd c).pending = s.pending := rfl
@[simp] theorem State.dropCmd_tick (s : State) (c : Nat) : (s.dropCmd c).tick = s.tick := rfl
@[simp] theorem State.dropCmd_freeCtr (s : State) (c : Nat) : (s.dropCmd c).freeCtr = s.freeCtr := rfl
@[simp] theorem State.dropCmd_out (s : State) (c : Nat) : (s.dropCmd c).out = s.out := rfl
@[simp] theorem State.dropCmd_regs (s : State) (c : Nat) : (s.dropCmd c).regs = s.regs := rfl
@[simp] theorem State.dropCmd_snaps (s : State) (c : Nat) : (s.dropCmd c).snaps = s.snaps := rfl
@[simp] theorem State.dropCmd_mem (s : State) (c : Nat) : (s.dropCmd c).mem = s.mem := rfl
@[simp] theorem State.dropCmd_health (s : State) (c : Nat) : (s.dropCmd c).health = s.health := rfl
@[simp] theorem State.dropCmd_fram (s : State) (c : Nat) : (s.dropCmd c).fram = s.fram := rfl
@[simp] theorem State.dropCmd_flash (s : State) (c : Nat) : (s.dropCmd c).flash = s.flash := rfl
@[simp] theorem State.dropCmd_ufs (s : State) (c : Nat) : (s.dropCmd c).ufs = s.ufs := rfl
@[simp] theorem State.dropCmd_orbit (s : State) (c : Nat) : (s.dropCmd c).orbit = s.orbit := rfl
@[simp] theorem State.dropCmd_groups (s : State) (c : Nat) : (s.dropCmd c).groups = s.groups := rfl
@[simp] theorem State.dropCmd_boot (s : State) (c : Nat) : (s.dropCmd c).boot = s.boot := rfl
@[simp] theorem State.dropCmd_scrubbers (s : State) (c : Nat) : (s.dropCmd c).scrubbers = s.scrubbers := rfl
@[simp] theorem State.dropCmd_patrolAt (s : State) (c : Nat) : (s.dropCmd c).patrolAt = s.patrolAt := rfl
@[simp] theorem State.dropCmd_fuses (s : State) (c : Nat) : (s.dropCmd c).fuses = s.fuses := rfl
@[simp] theorem State.dropCmd_image (s : State) (c : Nat) : (s.dropCmd c).image = s.image := rfl
@[simp] theorem State.dropCmd_applied (s : State) (c : Nat) : (s.dropCmd c).applied = s.applied := rfl
@[simp] theorem State.dropCmd_queuesLost (s : State) (c : Nat) : (s.dropCmd c).queuesLost = s.queuesLost := rfl
@[simp] theorem State.dropCmd_queues (s : State) (c : Nat) : (s.dropCmd c).queues = s.queues := rfl
@[simp] theorem State.dropCmd_nextId (s : State) (c : Nat) : (s.dropCmd c).nextId = s.nextId := rfl
@[simp] theorem State.dropCmd_held (s : State) (c : Nat) : (s.dropCmd c).held = s.held := rfl
@[simp] theorem State.dropCmd_threads (s : State) (c : Nat) : (s.dropCmd c).threads = s.threads := rfl
@[simp] theorem State.dropCmd_running (s : State) (c : Nat) : (s.dropCmd c).running = s.running := rfl
@[simp] theorem State.dropCmd_grants (s : State) (c : Nat) : (s.dropCmd c).grants = s.grants := rfl
@[simp] theorem State.dropCmd_events (s : State) (c : Nat) : (s.dropCmd c).events = s.events := rfl
@[simp] theorem State.dropCmd_jobs (s : State) (c : Nat) : (s.dropCmd c).jobs = s.jobs := rfl
@[simp] theorem State.dropCmd_regulators (s : State) (c : Nat) : (s.dropCmd c).regulators = s.regulators := rfl
@[simp] theorem State.dropCmd_windows (s : State) (c : Nat) : (s.dropCmd c).windows = s.windows := rfl
@[simp] theorem State.dropCmd_deadlocks (s : State) (c : Nat) : (s.dropCmd c).deadlocks = s.deadlocks := rfl
@[simp] theorem State.dropCmd_hub (s : State) (c : Nat) : (s.dropCmd c).hub = s.hub := rfl
@[simp] theorem State.dropCmd_ifaces (s : State) (c : Nat) : (s.dropCmd c).ifaces = s.ifaces := rfl
@[simp] theorem State.dropCmd_power (s : State) (c : Nat) : (s.dropCmd c).power = s.power := rfl
@[simp] theorem State.dropCmd_dbg (s : State) (c : Nat) : (s.dropCmd c).dbg = s.dbg := rfl
@[simp] theorem State.dropCmd_acu (s : State) (c : Nat) : (s.dropCmd c).acu = s.acu := rfl
@[simp] theorem State.dropCmd_tide (s : State) (c : Nat) : (s.dropCmd c).tide = s.tide := rfl
@[simp] theorem State.dropCmd_embFile (s : State) (c : Nat) : (s.dropCmd c).embFile = s.embFile := rfl
@[simp] theorem State.dropCmd_streams (s : State) (c : Nat) : (s.dropCmd c).streams = s.streams := rfl
@[simp] theorem State.dropCmd_slots (s : State) (c : Nat) : (s.dropCmd c).slots = s.slots := rfl
@[simp] theorem State.dropCmd_vis (s : State) (c : Nat) : (s.dropCmd c).vis = s.vis := rfl
@[simp] theorem State.dropCmd_wrote (s : State) (c : Nat) : (s.dropCmd c).wrote = s.wrote := rfl

@[simp] theorem State.emit_pending (s : State) (x : Output) : (s.emit x).pending = s.pending := rfl
@[simp] theorem State.emit_tick (s : State) (x : Output) : (s.emit x).tick = s.tick := rfl
@[simp] theorem State.emit_freeCtr (s : State) (x : Output) : (s.emit x).freeCtr = s.freeCtr := rfl
@[simp] theorem State.emit_regs (s : State) (x : Output) : (s.emit x).regs = s.regs := rfl
@[simp] theorem State.emit_snaps (s : State) (x : Output) : (s.emit x).snaps = s.snaps := rfl
@[simp] theorem State.emit_mem (s : State) (x : Output) : (s.emit x).mem = s.mem := rfl
@[simp] theorem State.emit_health (s : State) (x : Output) : (s.emit x).health = s.health := rfl
@[simp] theorem State.emit_fram (s : State) (x : Output) : (s.emit x).fram = s.fram := rfl
@[simp] theorem State.emit_flash (s : State) (x : Output) : (s.emit x).flash = s.flash := rfl
@[simp] theorem State.emit_ufs (s : State) (x : Output) : (s.emit x).ufs = s.ufs := rfl
@[simp] theorem State.emit_orbit (s : State) (x : Output) : (s.emit x).orbit = s.orbit := rfl
@[simp] theorem State.emit_groups (s : State) (x : Output) : (s.emit x).groups = s.groups := rfl
@[simp] theorem State.emit_boot (s : State) (x : Output) : (s.emit x).boot = s.boot := rfl
@[simp] theorem State.emit_scrubbers (s : State) (x : Output) : (s.emit x).scrubbers = s.scrubbers := rfl
@[simp] theorem State.emit_patrolAt (s : State) (x : Output) : (s.emit x).patrolAt = s.patrolAt := rfl
@[simp] theorem State.emit_fuses (s : State) (x : Output) : (s.emit x).fuses = s.fuses := rfl
@[simp] theorem State.emit_image (s : State) (x : Output) : (s.emit x).image = s.image := rfl
@[simp] theorem State.emit_applied (s : State) (x : Output) : (s.emit x).applied = s.applied := rfl
@[simp] theorem State.emit_queuesLost (s : State) (x : Output) : (s.emit x).queuesLost = s.queuesLost := rfl
@[simp] theorem State.emit_queues (s : State) (x : Output) : (s.emit x).queues = s.queues := rfl
@[simp] theorem State.emit_cmds (s : State) (x : Output) : (s.emit x).cmds = s.cmds := rfl
@[simp] theorem State.emit_nextId (s : State) (x : Output) : (s.emit x).nextId = s.nextId := rfl
@[simp] theorem State.emit_held (s : State) (x : Output) : (s.emit x).held = s.held := rfl
@[simp] theorem State.emit_threads (s : State) (x : Output) : (s.emit x).threads = s.threads := rfl
@[simp] theorem State.emit_running (s : State) (x : Output) : (s.emit x).running = s.running := rfl
@[simp] theorem State.emit_grants (s : State) (x : Output) : (s.emit x).grants = s.grants := rfl
@[simp] theorem State.emit_events (s : State) (x : Output) : (s.emit x).events = s.events := rfl
@[simp] theorem State.emit_jobs (s : State) (x : Output) : (s.emit x).jobs = s.jobs := rfl
@[simp] theorem State.emit_regulators (s : State) (x : Output) : (s.emit x).regulators = s.regulators := rfl
@[simp] theorem State.emit_windows (s : State) (x : Output) : (s.emit x).windows = s.windows := rfl
@[simp] theorem State.emit_deadlocks (s : State) (x : Output) : (s.emit x).deadlocks = s.deadlocks := rfl
@[simp] theorem State.emit_hub (s : State) (x : Output) : (s.emit x).hub = s.hub := rfl
@[simp] theorem State.emit_ifaces (s : State) (x : Output) : (s.emit x).ifaces = s.ifaces := rfl
@[simp] theorem State.emit_power (s : State) (x : Output) : (s.emit x).power = s.power := rfl
@[simp] theorem State.emit_dbg (s : State) (x : Output) : (s.emit x).dbg = s.dbg := rfl
@[simp] theorem State.emit_acu (s : State) (x : Output) : (s.emit x).acu = s.acu := rfl
@[simp] theorem State.emit_tide (s : State) (x : Output) : (s.emit x).tide = s.tide := rfl
@[simp] theorem State.emit_embFile (s : State) (x : Output) : (s.emit x).embFile = s.embFile := rfl
@[simp] theorem State.emit_streams (s : State) (x : Output) : (s.emit x).streams = s.streams := rfl
@[simp] theorem State.emit_slots (s : State) (x : Output) : (s.emit x).slots = s.slots := rfl
@[simp] theorem State.emit_vis (s : State) (x : Output) : (s.emit x).vis = s.vis := rfl
@[simp] theorem State.emit_wrote (s : State) (x : Output) : (s.emit x).wrote = s.wrote := rfl

@[simp] theorem State.clearMem_pending (s : State) (lo hi : Nat) : (s.clearMem lo hi).pending = s.pending := rfl
@[simp] theorem State.clearMem_tick (s : State) (lo hi : Nat) : (s.clearMem lo hi).tick = s.tick := rfl
@[simp] theorem State.clearMem_freeCtr (s : State) (lo hi : Nat) : (s.clearMem lo hi).freeCtr = s.freeCtr := rfl
@[simp] theorem State.clearMem_out (s : State) (lo hi : Nat) : (s.clearMem lo hi).out = s.out := rfl
@[simp] theorem State.clearMem_regs (s : State) (lo hi : Nat) : (s.clearMem lo hi).regs = s.regs := rfl
@[simp] theorem State.clearMem_snaps (s : State) (lo hi : Nat) : (s.clearMem lo hi).snaps = s.snaps := rfl
@[simp] theorem State.clearMem_fram (s : State) (lo hi : Nat) : (s.clearMem lo hi).fram = s.fram := rfl
@[simp] theorem State.clearMem_flash (s : State) (lo hi : Nat) : (s.clearMem lo hi).flash = s.flash := rfl
@[simp] theorem State.clearMem_ufs (s : State) (lo hi : Nat) : (s.clearMem lo hi).ufs = s.ufs := rfl
@[simp] theorem State.clearMem_orbit (s : State) (lo hi : Nat) : (s.clearMem lo hi).orbit = s.orbit := rfl
@[simp] theorem State.clearMem_groups (s : State) (lo hi : Nat) : (s.clearMem lo hi).groups = s.groups := rfl
@[simp] theorem State.clearMem_boot (s : State) (lo hi : Nat) : (s.clearMem lo hi).boot = s.boot := rfl
@[simp] theorem State.clearMem_scrubbers (s : State) (lo hi : Nat) : (s.clearMem lo hi).scrubbers = s.scrubbers := rfl
@[simp] theorem State.clearMem_patrolAt (s : State) (lo hi : Nat) : (s.clearMem lo hi).patrolAt = s.patrolAt := rfl
@[simp] theorem State.clearMem_fuses (s : State) (lo hi : Nat) : (s.clearMem lo hi).fuses = s.fuses := rfl
@[simp] theorem State.clearMem_image (s : State) (lo hi : Nat) : (s.clearMem lo hi).image = s.image := rfl
@[simp] theorem State.clearMem_applied (s : State) (lo hi : Nat) : (s.clearMem lo hi).applied = s.applied := rfl
@[simp] theorem State.clearMem_queuesLost (s : State) (lo hi : Nat) : (s.clearMem lo hi).queuesLost = s.queuesLost := rfl
@[simp] theorem State.clearMem_queues (s : State) (lo hi : Nat) : (s.clearMem lo hi).queues = s.queues := rfl
@[simp] theorem State.clearMem_cmds (s : State) (lo hi : Nat) : (s.clearMem lo hi).cmds = s.cmds := rfl
@[simp] theorem State.clearMem_nextId (s : State) (lo hi : Nat) : (s.clearMem lo hi).nextId = s.nextId := rfl
@[simp] theorem State.clearMem_held (s : State) (lo hi : Nat) : (s.clearMem lo hi).held = s.held := rfl
@[simp] theorem State.clearMem_threads (s : State) (lo hi : Nat) : (s.clearMem lo hi).threads = s.threads := rfl
@[simp] theorem State.clearMem_running (s : State) (lo hi : Nat) : (s.clearMem lo hi).running = s.running := rfl
@[simp] theorem State.clearMem_grants (s : State) (lo hi : Nat) : (s.clearMem lo hi).grants = s.grants := rfl
@[simp] theorem State.clearMem_events (s : State) (lo hi : Nat) : (s.clearMem lo hi).events = s.events := rfl
@[simp] theorem State.clearMem_jobs (s : State) (lo hi : Nat) : (s.clearMem lo hi).jobs = s.jobs := rfl
@[simp] theorem State.clearMem_regulators (s : State) (lo hi : Nat) : (s.clearMem lo hi).regulators = s.regulators := rfl
@[simp] theorem State.clearMem_windows (s : State) (lo hi : Nat) : (s.clearMem lo hi).windows = s.windows := rfl
@[simp] theorem State.clearMem_deadlocks (s : State) (lo hi : Nat) : (s.clearMem lo hi).deadlocks = s.deadlocks := rfl
@[simp] theorem State.clearMem_hub (s : State) (lo hi : Nat) : (s.clearMem lo hi).hub = s.hub := rfl
@[simp] theorem State.clearMem_ifaces (s : State) (lo hi : Nat) : (s.clearMem lo hi).ifaces = s.ifaces := rfl
@[simp] theorem State.clearMem_power (s : State) (lo hi : Nat) : (s.clearMem lo hi).power = s.power := rfl
@[simp] theorem State.clearMem_dbg (s : State) (lo hi : Nat) : (s.clearMem lo hi).dbg = s.dbg := rfl
@[simp] theorem State.clearMem_acu (s : State) (lo hi : Nat) : (s.clearMem lo hi).acu = s.acu := rfl
@[simp] theorem State.clearMem_tide (s : State) (lo hi : Nat) : (s.clearMem lo hi).tide = s.tide := rfl
@[simp] theorem State.clearMem_embFile (s : State) (lo hi : Nat) : (s.clearMem lo hi).embFile = s.embFile := rfl
@[simp] theorem State.clearMem_streams (s : State) (lo hi : Nat) : (s.clearMem lo hi).streams = s.streams := rfl
@[simp] theorem State.clearMem_slots (s : State) (lo hi : Nat) : (s.clearMem lo hi).slots = s.slots := rfl
@[simp] theorem State.clearMem_vis (s : State) (lo hi : Nat) : (s.clearMem lo hi).vis = s.vis := rfl
@[simp] theorem State.clearMem_wrote (s : State) (lo hi : Nat) : (s.clearMem lo hi).wrote = s.wrote := rfl

theorem State.resetRegs_eq (s : State) (lo hi : Nat) : ∃ m n, s.resetRegs lo hi = { s with regs := m, snaps := n } := ⟨_, _, rfl⟩

@[simp] theorem State.resetRegs_pending (s : State) (lo hi : Nat) : (s.resetRegs lo hi).pending = s.pending := by obtain ⟨_, _, h⟩ := s.resetRegs_eq lo hi; rw [h]
@[simp] theorem State.resetRegs_tick (s : State) (lo hi : Nat) : (s.resetRegs lo hi).tick = s.tick := by obtain ⟨_, _, h⟩ := s.resetRegs_eq lo hi; rw [h]
@[simp] theorem State.resetRegs_freeCtr (s : State) (lo hi : Nat) : (s.resetRegs lo hi).freeCtr = s.freeCtr := by obtain ⟨_, _, h⟩ := s.resetRegs_eq lo hi; rw [h]
@[simp] theorem State.resetRegs_out (s : State) (lo hi : Nat) : (s.resetRegs lo hi).out = s.out := by obtain ⟨_, _, h⟩ := s.resetRegs_eq lo hi; rw [h]
@[simp] theorem State.resetRegs_mem (s : State) (lo hi : Nat) : (s.resetRegs lo hi).mem = s.mem := by obtain ⟨_, _, h⟩ := s.resetRegs_eq lo hi; rw [h]
@[simp] theorem State.resetRegs_health (s : State) (lo hi : Nat) : (s.resetRegs lo hi).health = s.health := by obtain ⟨_, _, h⟩ := s.resetRegs_eq lo hi; rw [h]
@[simp] theorem State.resetRegs_fram (s : State) (lo hi : Nat) : (s.resetRegs lo hi).fram = s.fram := by obtain ⟨_, _, h⟩ := s.resetRegs_eq lo hi; rw [h]
@[simp] theorem State.resetRegs_flash (s : State) (lo hi : Nat) : (s.resetRegs lo hi).flash = s.flash := by obtain ⟨_, _, h⟩ := s.resetRegs_eq lo hi; rw [h]
@[simp] theorem State.resetRegs_ufs (s : State) (lo hi : Nat) : (s.resetRegs lo hi).ufs = s.ufs := by obtain ⟨_, _, h⟩ := s.resetRegs_eq lo hi; rw [h]
@[simp] theorem State.resetRegs_orbit (s : State) (lo hi : Nat) : (s.resetRegs lo hi).orbit = s.orbit := by obtain ⟨_, _, h⟩ := s.resetRegs_eq lo hi; rw [h]
@[simp] theorem State.resetRegs_groups (s : State) (lo hi : Nat) : (s.resetRegs lo hi).groups = s.groups := by obtain ⟨_, _, h⟩ := s.resetRegs_eq lo hi; rw [h]
@[simp] theorem State.resetRegs_boot (s : State) (lo hi : Nat) : (s.resetRegs lo hi).boot = s.boot := by obtain ⟨_, _, h⟩ := s.resetRegs_eq lo hi; rw [h]
@[simp] theorem State.resetRegs_scrubbers (s : State) (lo hi : Nat) : (s.resetRegs lo hi).scrubbers = s.scrubbers := by obtain ⟨_, _, h⟩ := s.resetRegs_eq lo hi; rw [h]
@[simp] theorem State.resetRegs_patrolAt (s : State) (lo hi : Nat) : (s.resetRegs lo hi).patrolAt = s.patrolAt := by obtain ⟨_, _, h⟩ := s.resetRegs_eq lo hi; rw [h]
@[simp] theorem State.resetRegs_fuses (s : State) (lo hi : Nat) : (s.resetRegs lo hi).fuses = s.fuses := by obtain ⟨_, _, h⟩ := s.resetRegs_eq lo hi; rw [h]
@[simp] theorem State.resetRegs_image (s : State) (lo hi : Nat) : (s.resetRegs lo hi).image = s.image := by obtain ⟨_, _, h⟩ := s.resetRegs_eq lo hi; rw [h]
@[simp] theorem State.resetRegs_applied (s : State) (lo hi : Nat) : (s.resetRegs lo hi).applied = s.applied := by obtain ⟨_, _, h⟩ := s.resetRegs_eq lo hi; rw [h]
@[simp] theorem State.resetRegs_queuesLost (s : State) (lo hi : Nat) : (s.resetRegs lo hi).queuesLost = s.queuesLost := by obtain ⟨_, _, h⟩ := s.resetRegs_eq lo hi; rw [h]
@[simp] theorem State.resetRegs_queues (s : State) (lo hi : Nat) : (s.resetRegs lo hi).queues = s.queues := by obtain ⟨_, _, h⟩ := s.resetRegs_eq lo hi; rw [h]
@[simp] theorem State.resetRegs_cmds (s : State) (lo hi : Nat) : (s.resetRegs lo hi).cmds = s.cmds := by obtain ⟨_, _, h⟩ := s.resetRegs_eq lo hi; rw [h]
@[simp] theorem State.resetRegs_nextId (s : State) (lo hi : Nat) : (s.resetRegs lo hi).nextId = s.nextId := by obtain ⟨_, _, h⟩ := s.resetRegs_eq lo hi; rw [h]
@[simp] theorem State.resetRegs_held (s : State) (lo hi : Nat) : (s.resetRegs lo hi).held = s.held := by obtain ⟨_, _, h⟩ := s.resetRegs_eq lo hi; rw [h]
@[simp] theorem State.resetRegs_threads (s : State) (lo hi : Nat) : (s.resetRegs lo hi).threads = s.threads := by obtain ⟨_, _, h⟩ := s.resetRegs_eq lo hi; rw [h]
@[simp] theorem State.resetRegs_running (s : State) (lo hi : Nat) : (s.resetRegs lo hi).running = s.running := by obtain ⟨_, _, h⟩ := s.resetRegs_eq lo hi; rw [h]
@[simp] theorem State.resetRegs_grants (s : State) (lo hi : Nat) : (s.resetRegs lo hi).grants = s.grants := by obtain ⟨_, _, h⟩ := s.resetRegs_eq lo hi; rw [h]
@[simp] theorem State.resetRegs_events (s : State) (lo hi : Nat) : (s.resetRegs lo hi).events = s.events := by obtain ⟨_, _, h⟩ := s.resetRegs_eq lo hi; rw [h]
@[simp] theorem State.resetRegs_jobs (s : State) (lo hi : Nat) : (s.resetRegs lo hi).jobs = s.jobs := by obtain ⟨_, _, h⟩ := s.resetRegs_eq lo hi; rw [h]
@[simp] theorem State.resetRegs_regulators (s : State) (lo hi : Nat) : (s.resetRegs lo hi).regulators = s.regulators := by obtain ⟨_, _, h⟩ := s.resetRegs_eq lo hi; rw [h]
@[simp] theorem State.resetRegs_windows (s : State) (lo hi : Nat) : (s.resetRegs lo hi).windows = s.windows := by obtain ⟨_, _, h⟩ := s.resetRegs_eq lo hi; rw [h]
@[simp] theorem State.resetRegs_deadlocks (s : State) (lo hi : Nat) : (s.resetRegs lo hi).deadlocks = s.deadlocks := by obtain ⟨_, _, h⟩ := s.resetRegs_eq lo hi; rw [h]
@[simp] theorem State.resetRegs_hub (s : State) (lo hi : Nat) : (s.resetRegs lo hi).hub = s.hub := by obtain ⟨_, _, h⟩ := s.resetRegs_eq lo hi; rw [h]
@[simp] theorem State.resetRegs_ifaces (s : State) (lo hi : Nat) : (s.resetRegs lo hi).ifaces = s.ifaces := by obtain ⟨_, _, h⟩ := s.resetRegs_eq lo hi; rw [h]
@[simp] theorem State.resetRegs_power (s : State) (lo hi : Nat) : (s.resetRegs lo hi).power = s.power := by obtain ⟨_, _, h⟩ := s.resetRegs_eq lo hi; rw [h]
@[simp] theorem State.resetRegs_dbg (s : State) (lo hi : Nat) : (s.resetRegs lo hi).dbg = s.dbg := by obtain ⟨_, _, h⟩ := s.resetRegs_eq lo hi; rw [h]
@[simp] theorem State.resetRegs_acu (s : State) (lo hi : Nat) : (s.resetRegs lo hi).acu = s.acu := by obtain ⟨_, _, h⟩ := s.resetRegs_eq lo hi; rw [h]
@[simp] theorem State.resetRegs_tide (s : State) (lo hi : Nat) : (s.resetRegs lo hi).tide = s.tide := by obtain ⟨_, _, h⟩ := s.resetRegs_eq lo hi; rw [h]
@[simp] theorem State.resetRegs_embFile (s : State) (lo hi : Nat) : (s.resetRegs lo hi).embFile = s.embFile := by obtain ⟨_, _, h⟩ := s.resetRegs_eq lo hi; rw [h]
@[simp] theorem State.resetRegs_streams (s : State) (lo hi : Nat) : (s.resetRegs lo hi).streams = s.streams := by obtain ⟨_, _, h⟩ := s.resetRegs_eq lo hi; rw [h]
@[simp] theorem State.resetRegs_slots (s : State) (lo hi : Nat) : (s.resetRegs lo hi).slots = s.slots := by obtain ⟨_, _, h⟩ := s.resetRegs_eq lo hi; rw [h]
@[simp] theorem State.resetRegs_vis (s : State) (lo hi : Nat) : (s.resetRegs lo hi).vis = s.vis := by obtain ⟨_, _, h⟩ := s.resetRegs_eq lo hi; rw [h]
@[simp] theorem State.resetRegs_wrote (s : State) (lo hi : Nat) : (s.resetRegs lo hi).wrote = s.wrote := by obtain ⟨_, _, h⟩ := s.resetRegs_eq lo hi; rw [h]

@[simp] theorem State.freeBelow_pending (s : State) (n : Nat) : ((s.freeBelow n).2).pending = s.pending := rfl
@[simp] theorem State.freeBelow_tick (s : State) (n : Nat) : ((s.freeBelow n).2).tick = s.tick := rfl
@[simp] theorem State.freeBelow_out (s : State) (n : Nat) : ((s.freeBelow n).2).out = s.out := rfl
@[simp] theorem State.freeBelow_regs (s : State) (n : Nat) : ((s.freeBelow n).2).regs = s.regs := rfl
@[simp] theorem State.freeBelow_snaps (s : State) (n : Nat) : ((s.freeBelow n).2).snaps = s.snaps := rfl
@[simp] theorem State.freeBelow_mem (s : State) (n : Nat) : ((s.freeBelow n).2).mem = s.mem := rfl
@[simp] theorem State.freeBelow_health (s : State) (n : Nat) : ((s.freeBelow n).2).health = s.health := rfl
@[simp] theorem State.freeBelow_fram (s : State) (n : Nat) : ((s.freeBelow n).2).fram = s.fram := rfl
@[simp] theorem State.freeBelow_flash (s : State) (n : Nat) : ((s.freeBelow n).2).flash = s.flash := rfl
@[simp] theorem State.freeBelow_ufs (s : State) (n : Nat) : ((s.freeBelow n).2).ufs = s.ufs := rfl
@[simp] theorem State.freeBelow_orbit (s : State) (n : Nat) : ((s.freeBelow n).2).orbit = s.orbit := rfl
@[simp] theorem State.freeBelow_groups (s : State) (n : Nat) : ((s.freeBelow n).2).groups = s.groups := rfl
@[simp] theorem State.freeBelow_boot (s : State) (n : Nat) : ((s.freeBelow n).2).boot = s.boot := rfl
@[simp] theorem State.freeBelow_scrubbers (s : State) (n : Nat) : ((s.freeBelow n).2).scrubbers = s.scrubbers := rfl
@[simp] theorem State.freeBelow_patrolAt (s : State) (n : Nat) : ((s.freeBelow n).2).patrolAt = s.patrolAt := rfl
@[simp] theorem State.freeBelow_fuses (s : State) (n : Nat) : ((s.freeBelow n).2).fuses = s.fuses := rfl
@[simp] theorem State.freeBelow_image (s : State) (n : Nat) : ((s.freeBelow n).2).image = s.image := rfl
@[simp] theorem State.freeBelow_applied (s : State) (n : Nat) : ((s.freeBelow n).2).applied = s.applied := rfl
@[simp] theorem State.freeBelow_queuesLost (s : State) (n : Nat) : ((s.freeBelow n).2).queuesLost = s.queuesLost := rfl
@[simp] theorem State.freeBelow_queues (s : State) (n : Nat) : ((s.freeBelow n).2).queues = s.queues := rfl
@[simp] theorem State.freeBelow_cmds (s : State) (n : Nat) : ((s.freeBelow n).2).cmds = s.cmds := rfl
@[simp] theorem State.freeBelow_nextId (s : State) (n : Nat) : ((s.freeBelow n).2).nextId = s.nextId := rfl
@[simp] theorem State.freeBelow_held (s : State) (n : Nat) : ((s.freeBelow n).2).held = s.held := rfl
@[simp] theorem State.freeBelow_threads (s : State) (n : Nat) : ((s.freeBelow n).2).threads = s.threads := rfl
@[simp] theorem State.freeBelow_running (s : State) (n : Nat) : ((s.freeBelow n).2).running = s.running := rfl
@[simp] theorem State.freeBelow_grants (s : State) (n : Nat) : ((s.freeBelow n).2).grants = s.grants := rfl
@[simp] theorem State.freeBelow_events (s : State) (n : Nat) : ((s.freeBelow n).2).events = s.events := rfl
@[simp] theorem State.freeBelow_jobs (s : State) (n : Nat) : ((s.freeBelow n).2).jobs = s.jobs := rfl
@[simp] theorem State.freeBelow_regulators (s : State) (n : Nat) : ((s.freeBelow n).2).regulators = s.regulators := rfl
@[simp] theorem State.freeBelow_windows (s : State) (n : Nat) : ((s.freeBelow n).2).windows = s.windows := rfl
@[simp] theorem State.freeBelow_deadlocks (s : State) (n : Nat) : ((s.freeBelow n).2).deadlocks = s.deadlocks := rfl
@[simp] theorem State.freeBelow_hub (s : State) (n : Nat) : ((s.freeBelow n).2).hub = s.hub := rfl
@[simp] theorem State.freeBelow_ifaces (s : State) (n : Nat) : ((s.freeBelow n).2).ifaces = s.ifaces := rfl
@[simp] theorem State.freeBelow_power (s : State) (n : Nat) : ((s.freeBelow n).2).power = s.power := rfl
@[simp] theorem State.freeBelow_dbg (s : State) (n : Nat) : ((s.freeBelow n).2).dbg = s.dbg := rfl
@[simp] theorem State.freeBelow_acu (s : State) (n : Nat) : ((s.freeBelow n).2).acu = s.acu := rfl
@[simp] theorem State.freeBelow_tide (s : State) (n : Nat) : ((s.freeBelow n).2).tide = s.tide := rfl
@[simp] theorem State.freeBelow_embFile (s : State) (n : Nat) : ((s.freeBelow n).2).embFile = s.embFile := rfl
@[simp] theorem State.freeBelow_streams (s : State) (n : Nat) : ((s.freeBelow n).2).streams = s.streams := rfl
@[simp] theorem State.freeBelow_slots (s : State) (n : Nat) : ((s.freeBelow n).2).slots = s.slots := rfl
@[simp] theorem State.freeBelow_vis (s : State) (n : Nat) : ((s.freeBelow n).2).vis = s.vis := rfl
@[simp] theorem State.freeBelow_wrote (s : State) (n : Nat) : ((s.freeBelow n).2).wrote = s.wrote := rfl

@[simp] theorem State.freeWithin_pending (s : State) (n : Nat) : ((s.freeWithin n).2).pending = s.pending := rfl
@[simp] theorem State.freeWithin_tick (s : State) (n : Nat) : ((s.freeWithin n).2).tick = s.tick := rfl
@[simp] theorem State.freeWithin_out (s : State) (n : Nat) : ((s.freeWithin n).2).out = s.out := rfl
@[simp] theorem State.freeWithin_regs (s : State) (n : Nat) : ((s.freeWithin n).2).regs = s.regs := rfl
@[simp] theorem State.freeWithin_snaps (s : State) (n : Nat) : ((s.freeWithin n).2).snaps = s.snaps := rfl
@[simp] theorem State.freeWithin_mem (s : State) (n : Nat) : ((s.freeWithin n).2).mem = s.mem := rfl
@[simp] theorem State.freeWithin_health (s : State) (n : Nat) : ((s.freeWithin n).2).health = s.health := rfl
@[simp] theorem State.freeWithin_fram (s : State) (n : Nat) : ((s.freeWithin n).2).fram = s.fram := rfl
@[simp] theorem State.freeWithin_flash (s : State) (n : Nat) : ((s.freeWithin n).2).flash = s.flash := rfl
@[simp] theorem State.freeWithin_ufs (s : State) (n : Nat) : ((s.freeWithin n).2).ufs = s.ufs := rfl
@[simp] theorem State.freeWithin_orbit (s : State) (n : Nat) : ((s.freeWithin n).2).orbit = s.orbit := rfl
@[simp] theorem State.freeWithin_groups (s : State) (n : Nat) : ((s.freeWithin n).2).groups = s.groups := rfl
@[simp] theorem State.freeWithin_boot (s : State) (n : Nat) : ((s.freeWithin n).2).boot = s.boot := rfl
@[simp] theorem State.freeWithin_scrubbers (s : State) (n : Nat) : ((s.freeWithin n).2).scrubbers = s.scrubbers := rfl
@[simp] theorem State.freeWithin_patrolAt (s : State) (n : Nat) : ((s.freeWithin n).2).patrolAt = s.patrolAt := rfl
@[simp] theorem State.freeWithin_fuses (s : State) (n : Nat) : ((s.freeWithin n).2).fuses = s.fuses := rfl
@[simp] theorem State.freeWithin_image (s : State) (n : Nat) : ((s.freeWithin n).2).image = s.image := rfl
@[simp] theorem State.freeWithin_applied (s : State) (n : Nat) : ((s.freeWithin n).2).applied = s.applied := rfl
@[simp] theorem State.freeWithin_queuesLost (s : State) (n : Nat) : ((s.freeWithin n).2).queuesLost = s.queuesLost := rfl
@[simp] theorem State.freeWithin_queues (s : State) (n : Nat) : ((s.freeWithin n).2).queues = s.queues := rfl
@[simp] theorem State.freeWithin_cmds (s : State) (n : Nat) : ((s.freeWithin n).2).cmds = s.cmds := rfl
@[simp] theorem State.freeWithin_nextId (s : State) (n : Nat) : ((s.freeWithin n).2).nextId = s.nextId := rfl
@[simp] theorem State.freeWithin_held (s : State) (n : Nat) : ((s.freeWithin n).2).held = s.held := rfl
@[simp] theorem State.freeWithin_threads (s : State) (n : Nat) : ((s.freeWithin n).2).threads = s.threads := rfl
@[simp] theorem State.freeWithin_running (s : State) (n : Nat) : ((s.freeWithin n).2).running = s.running := rfl
@[simp] theorem State.freeWithin_grants (s : State) (n : Nat) : ((s.freeWithin n).2).grants = s.grants := rfl
@[simp] theorem State.freeWithin_events (s : State) (n : Nat) : ((s.freeWithin n).2).events = s.events := rfl
@[simp] theorem State.freeWithin_jobs (s : State) (n : Nat) : ((s.freeWithin n).2).jobs = s.jobs := rfl
@[simp] theorem State.freeWithin_regulators (s : State) (n : Nat) : ((s.freeWithin n).2).regulators = s.regulators := rfl
@[simp] theorem State.freeWithin_windows (s : State) (n : Nat) : ((s.freeWithin n).2).windows = s.windows := rfl
@[simp] theorem State.freeWithin_deadlocks (s : State) (n : Nat) : ((s.freeWithin n).2).deadlocks = s.deadlocks := rfl
@[simp] theorem State.freeWithin_hub (s : State) (n : Nat) : ((s.freeWithin n).2).hub = s.hub := rfl
@[simp] theorem State.freeWithin_ifaces (s : State) (n : Nat) : ((s.freeWithin n).2).ifaces = s.ifaces := rfl
@[simp] theorem State.freeWithin_power (s : State) (n : Nat) : ((s.freeWithin n).2).power = s.power := rfl
@[simp] theorem State.freeWithin_dbg (s : State) (n : Nat) : ((s.freeWithin n).2).dbg = s.dbg := rfl
@[simp] theorem State.freeWithin_acu (s : State) (n : Nat) : ((s.freeWithin n).2).acu = s.acu := rfl
@[simp] theorem State.freeWithin_tide (s : State) (n : Nat) : ((s.freeWithin n).2).tide = s.tide := rfl
@[simp] theorem State.freeWithin_embFile (s : State) (n : Nat) : ((s.freeWithin n).2).embFile = s.embFile := rfl
@[simp] theorem State.freeWithin_streams (s : State) (n : Nat) : ((s.freeWithin n).2).streams = s.streams := rfl
@[simp] theorem State.freeWithin_slots (s : State) (n : Nat) : ((s.freeWithin n).2).slots = s.slots := rfl
@[simp] theorem State.freeWithin_vis (s : State) (n : Nat) : ((s.freeWithin n).2).vis = s.vis := rfl
@[simp] theorem State.freeWithin_wrote (s : State) (n : Nat) : ((s.freeWithin n).2).wrote = s.wrote := rfl

/-! ### Several register words and bytes: nothing but the registers, nothing but memory, changes -/

theorem State.setRegWords_eq (s : State) (a v n : Nat) : s.setRegWords a v n = { s with regs := (s.setRegWords a v n).regs } := by
  induction n generalizing s a v with
  | zero => rfl
  | succ n ih => rw [State.setRegWords, ih]; rfl

theorem State.setReg_eq (s : State) (r : RegRow) (v i j : Nat) :
    s.setReg r v i j = { s with regs := (s.setReg r v i j).regs } := by
  unfold State.setReg; exact State.setRegWords_eq ..

theorem State.incReg_eq (s : State) (r : RegRow) (i j n : Nat) :
    s.incReg r i j n = { s with regs := (s.incReg r i j n).regs } := State.setReg_eq ..

theorem State.setSvc_eq (s : State) (c : Nat) : s.setSvc c = { s with regs := (s.setSvc c).regs } := by
  unfold State.setSvc; rw [State.setReg_eq (s.setReg _ _), State.setReg_eq s]

theorem State.setBytes_eq (s : State) (a : Nat) (bs : List Byte) : s.setBytes a bs = { s with mem := (s.setBytes a bs).mem } := by
  induction bs generalizing s a with
  | nil => rfl
  | cons b bs ih => rw [State.setBytes, ih]; rfl

@[simp] theorem State.setRegWords_pending (s : State) (a v n : Nat) : (s.setRegWords a v n).pending = s.pending := by rw [State.setRegWords_eq]
@[simp] theorem State.setRegWords_tick (s : State) (a v n : Nat) : (s.setRegWords a v n).tick = s.tick := by rw [State.setRegWords_eq]
@[simp] theorem State.setRegWords_freeCtr (s : State) (a v n : Nat) : (s.setRegWords a v n).freeCtr = s.freeCtr := by rw [State.setRegWords_eq]
@[simp] theorem State.setRegWords_out (s : State) (a v n : Nat) : (s.setRegWords a v n).out = s.out := by rw [State.setRegWords_eq]
@[simp] theorem State.setRegWords_snaps (s : State) (a v n : Nat) : (s.setRegWords a v n).snaps = s.snaps := by rw [State.setRegWords_eq]
@[simp] theorem State.setRegWords_mem (s : State) (a v n : Nat) : (s.setRegWords a v n).mem = s.mem := by rw [State.setRegWords_eq]
@[simp] theorem State.setRegWords_health (s : State) (a v n : Nat) : (s.setRegWords a v n).health = s.health := by rw [State.setRegWords_eq]
@[simp] theorem State.setRegWords_fram (s : State) (a v n : Nat) : (s.setRegWords a v n).fram = s.fram := by rw [State.setRegWords_eq]
@[simp] theorem State.setRegWords_flash (s : State) (a v n : Nat) : (s.setRegWords a v n).flash = s.flash := by rw [State.setRegWords_eq]
@[simp] theorem State.setRegWords_ufs (s : State) (a v n : Nat) : (s.setRegWords a v n).ufs = s.ufs := by rw [State.setRegWords_eq]
@[simp] theorem State.setRegWords_orbit (s : State) (a v n : Nat) : (s.setRegWords a v n).orbit = s.orbit := by rw [State.setRegWords_eq]
@[simp] theorem State.setRegWords_groups (s : State) (a v n : Nat) : (s.setRegWords a v n).groups = s.groups := by rw [State.setRegWords_eq]
@[simp] theorem State.setRegWords_boot (s : State) (a v n : Nat) : (s.setRegWords a v n).boot = s.boot := by rw [State.setRegWords_eq]
@[simp] theorem State.setRegWords_scrubbers (s : State) (a v n : Nat) : (s.setRegWords a v n).scrubbers = s.scrubbers := by rw [State.setRegWords_eq]
@[simp] theorem State.setRegWords_patrolAt (s : State) (a v n : Nat) : (s.setRegWords a v n).patrolAt = s.patrolAt := by rw [State.setRegWords_eq]
@[simp] theorem State.setRegWords_fuses (s : State) (a v n : Nat) : (s.setRegWords a v n).fuses = s.fuses := by rw [State.setRegWords_eq]
@[simp] theorem State.setRegWords_image (s : State) (a v n : Nat) : (s.setRegWords a v n).image = s.image := by rw [State.setRegWords_eq]
@[simp] theorem State.setRegWords_applied (s : State) (a v n : Nat) : (s.setRegWords a v n).applied = s.applied := by rw [State.setRegWords_eq]
@[simp] theorem State.setRegWords_queuesLost (s : State) (a v n : Nat) : (s.setRegWords a v n).queuesLost = s.queuesLost := by rw [State.setRegWords_eq]
@[simp] theorem State.setRegWords_queues (s : State) (a v n : Nat) : (s.setRegWords a v n).queues = s.queues := by rw [State.setRegWords_eq]
@[simp] theorem State.setRegWords_cmds (s : State) (a v n : Nat) : (s.setRegWords a v n).cmds = s.cmds := by rw [State.setRegWords_eq]
@[simp] theorem State.setRegWords_nextId (s : State) (a v n : Nat) : (s.setRegWords a v n).nextId = s.nextId := by rw [State.setRegWords_eq]
@[simp] theorem State.setRegWords_held (s : State) (a v n : Nat) : (s.setRegWords a v n).held = s.held := by rw [State.setRegWords_eq]
@[simp] theorem State.setRegWords_threads (s : State) (a v n : Nat) : (s.setRegWords a v n).threads = s.threads := by rw [State.setRegWords_eq]
@[simp] theorem State.setRegWords_running (s : State) (a v n : Nat) : (s.setRegWords a v n).running = s.running := by rw [State.setRegWords_eq]
@[simp] theorem State.setRegWords_grants (s : State) (a v n : Nat) : (s.setRegWords a v n).grants = s.grants := by rw [State.setRegWords_eq]
@[simp] theorem State.setRegWords_events (s : State) (a v n : Nat) : (s.setRegWords a v n).events = s.events := by rw [State.setRegWords_eq]
@[simp] theorem State.setRegWords_jobs (s : State) (a v n : Nat) : (s.setRegWords a v n).jobs = s.jobs := by rw [State.setRegWords_eq]
@[simp] theorem State.setRegWords_regulators (s : State) (a v n : Nat) : (s.setRegWords a v n).regulators = s.regulators := by rw [State.setRegWords_eq]
@[simp] theorem State.setRegWords_windows (s : State) (a v n : Nat) : (s.setRegWords a v n).windows = s.windows := by rw [State.setRegWords_eq]
@[simp] theorem State.setRegWords_deadlocks (s : State) (a v n : Nat) : (s.setRegWords a v n).deadlocks = s.deadlocks := by rw [State.setRegWords_eq]
@[simp] theorem State.setRegWords_hub (s : State) (a v n : Nat) : (s.setRegWords a v n).hub = s.hub := by rw [State.setRegWords_eq]
@[simp] theorem State.setRegWords_ifaces (s : State) (a v n : Nat) : (s.setRegWords a v n).ifaces = s.ifaces := by rw [State.setRegWords_eq]
@[simp] theorem State.setRegWords_power (s : State) (a v n : Nat) : (s.setRegWords a v n).power = s.power := by rw [State.setRegWords_eq]
@[simp] theorem State.setRegWords_dbg (s : State) (a v n : Nat) : (s.setRegWords a v n).dbg = s.dbg := by rw [State.setRegWords_eq]
@[simp] theorem State.setRegWords_acu (s : State) (a v n : Nat) : (s.setRegWords a v n).acu = s.acu := by rw [State.setRegWords_eq]
@[simp] theorem State.setRegWords_tide (s : State) (a v n : Nat) : (s.setRegWords a v n).tide = s.tide := by rw [State.setRegWords_eq]
@[simp] theorem State.setRegWords_embFile (s : State) (a v n : Nat) : (s.setRegWords a v n).embFile = s.embFile := by rw [State.setRegWords_eq]
@[simp] theorem State.setRegWords_streams (s : State) (a v n : Nat) : (s.setRegWords a v n).streams = s.streams := by rw [State.setRegWords_eq]
@[simp] theorem State.setRegWords_slots (s : State) (a v n : Nat) : (s.setRegWords a v n).slots = s.slots := by rw [State.setRegWords_eq]
@[simp] theorem State.setRegWords_vis (s : State) (a v n : Nat) : (s.setRegWords a v n).vis = s.vis := by rw [State.setRegWords_eq]
@[simp] theorem State.setRegWords_wrote (s : State) (a v n : Nat) : (s.setRegWords a v n).wrote = s.wrote := by rw [State.setRegWords_eq]

@[simp] theorem State.setReg_pending (s : State) (r : RegRow) (v i j : Nat) : (s.setReg r v i j).pending = s.pending := by rw [State.setReg_eq]
@[simp] theorem State.setReg_tick (s : State) (r : RegRow) (v i j : Nat) : (s.setReg r v i j).tick = s.tick := by rw [State.setReg_eq]
@[simp] theorem State.setReg_freeCtr (s : State) (r : RegRow) (v i j : Nat) : (s.setReg r v i j).freeCtr = s.freeCtr := by rw [State.setReg_eq]
@[simp] theorem State.setReg_out (s : State) (r : RegRow) (v i j : Nat) : (s.setReg r v i j).out = s.out := by rw [State.setReg_eq]
@[simp] theorem State.setReg_snaps (s : State) (r : RegRow) (v i j : Nat) : (s.setReg r v i j).snaps = s.snaps := by rw [State.setReg_eq]
@[simp] theorem State.setReg_mem (s : State) (r : RegRow) (v i j : Nat) : (s.setReg r v i j).mem = s.mem := by rw [State.setReg_eq]
@[simp] theorem State.setReg_health (s : State) (r : RegRow) (v i j : Nat) : (s.setReg r v i j).health = s.health := by rw [State.setReg_eq]
@[simp] theorem State.setReg_fram (s : State) (r : RegRow) (v i j : Nat) : (s.setReg r v i j).fram = s.fram := by rw [State.setReg_eq]
@[simp] theorem State.setReg_flash (s : State) (r : RegRow) (v i j : Nat) : (s.setReg r v i j).flash = s.flash := by rw [State.setReg_eq]
@[simp] theorem State.setReg_ufs (s : State) (r : RegRow) (v i j : Nat) : (s.setReg r v i j).ufs = s.ufs := by rw [State.setReg_eq]
@[simp] theorem State.setReg_orbit (s : State) (r : RegRow) (v i j : Nat) : (s.setReg r v i j).orbit = s.orbit := by rw [State.setReg_eq]
@[simp] theorem State.setReg_groups (s : State) (r : RegRow) (v i j : Nat) : (s.setReg r v i j).groups = s.groups := by rw [State.setReg_eq]
@[simp] theorem State.setReg_boot (s : State) (r : RegRow) (v i j : Nat) : (s.setReg r v i j).boot = s.boot := by rw [State.setReg_eq]
@[simp] theorem State.setReg_scrubbers (s : State) (r : RegRow) (v i j : Nat) : (s.setReg r v i j).scrubbers = s.scrubbers := by rw [State.setReg_eq]
@[simp] theorem State.setReg_patrolAt (s : State) (r : RegRow) (v i j : Nat) : (s.setReg r v i j).patrolAt = s.patrolAt := by rw [State.setReg_eq]
@[simp] theorem State.setReg_fuses (s : State) (r : RegRow) (v i j : Nat) : (s.setReg r v i j).fuses = s.fuses := by rw [State.setReg_eq]
@[simp] theorem State.setReg_image (s : State) (r : RegRow) (v i j : Nat) : (s.setReg r v i j).image = s.image := by rw [State.setReg_eq]
@[simp] theorem State.setReg_applied (s : State) (r : RegRow) (v i j : Nat) : (s.setReg r v i j).applied = s.applied := by rw [State.setReg_eq]
@[simp] theorem State.setReg_queuesLost (s : State) (r : RegRow) (v i j : Nat) : (s.setReg r v i j).queuesLost = s.queuesLost := by rw [State.setReg_eq]
@[simp] theorem State.setReg_queues (s : State) (r : RegRow) (v i j : Nat) : (s.setReg r v i j).queues = s.queues := by rw [State.setReg_eq]
@[simp] theorem State.setReg_cmds (s : State) (r : RegRow) (v i j : Nat) : (s.setReg r v i j).cmds = s.cmds := by rw [State.setReg_eq]
@[simp] theorem State.setReg_nextId (s : State) (r : RegRow) (v i j : Nat) : (s.setReg r v i j).nextId = s.nextId := by rw [State.setReg_eq]
@[simp] theorem State.setReg_held (s : State) (r : RegRow) (v i j : Nat) : (s.setReg r v i j).held = s.held := by rw [State.setReg_eq]
@[simp] theorem State.setReg_threads (s : State) (r : RegRow) (v i j : Nat) : (s.setReg r v i j).threads = s.threads := by rw [State.setReg_eq]
@[simp] theorem State.setReg_running (s : State) (r : RegRow) (v i j : Nat) : (s.setReg r v i j).running = s.running := by rw [State.setReg_eq]
@[simp] theorem State.setReg_grants (s : State) (r : RegRow) (v i j : Nat) : (s.setReg r v i j).grants = s.grants := by rw [State.setReg_eq]
@[simp] theorem State.setReg_events (s : State) (r : RegRow) (v i j : Nat) : (s.setReg r v i j).events = s.events := by rw [State.setReg_eq]
@[simp] theorem State.setReg_jobs (s : State) (r : RegRow) (v i j : Nat) : (s.setReg r v i j).jobs = s.jobs := by rw [State.setReg_eq]
@[simp] theorem State.setReg_regulators (s : State) (r : RegRow) (v i j : Nat) : (s.setReg r v i j).regulators = s.regulators := by rw [State.setReg_eq]
@[simp] theorem State.setReg_windows (s : State) (r : RegRow) (v i j : Nat) : (s.setReg r v i j).windows = s.windows := by rw [State.setReg_eq]
@[simp] theorem State.setReg_deadlocks (s : State) (r : RegRow) (v i j : Nat) : (s.setReg r v i j).deadlocks = s.deadlocks := by rw [State.setReg_eq]
@[simp] theorem State.setReg_hub (s : State) (r : RegRow) (v i j : Nat) : (s.setReg r v i j).hub = s.hub := by rw [State.setReg_eq]
@[simp] theorem State.setReg_ifaces (s : State) (r : RegRow) (v i j : Nat) : (s.setReg r v i j).ifaces = s.ifaces := by rw [State.setReg_eq]
@[simp] theorem State.setReg_power (s : State) (r : RegRow) (v i j : Nat) : (s.setReg r v i j).power = s.power := by rw [State.setReg_eq]
@[simp] theorem State.setReg_dbg (s : State) (r : RegRow) (v i j : Nat) : (s.setReg r v i j).dbg = s.dbg := by rw [State.setReg_eq]
@[simp] theorem State.setReg_acu (s : State) (r : RegRow) (v i j : Nat) : (s.setReg r v i j).acu = s.acu := by rw [State.setReg_eq]
@[simp] theorem State.setReg_tide (s : State) (r : RegRow) (v i j : Nat) : (s.setReg r v i j).tide = s.tide := by rw [State.setReg_eq]
@[simp] theorem State.setReg_embFile (s : State) (r : RegRow) (v i j : Nat) : (s.setReg r v i j).embFile = s.embFile := by rw [State.setReg_eq]
@[simp] theorem State.setReg_streams (s : State) (r : RegRow) (v i j : Nat) : (s.setReg r v i j).streams = s.streams := by rw [State.setReg_eq]
@[simp] theorem State.setReg_slots (s : State) (r : RegRow) (v i j : Nat) : (s.setReg r v i j).slots = s.slots := by rw [State.setReg_eq]
@[simp] theorem State.setReg_vis (s : State) (r : RegRow) (v i j : Nat) : (s.setReg r v i j).vis = s.vis := by rw [State.setReg_eq]
@[simp] theorem State.setReg_wrote (s : State) (r : RegRow) (v i j : Nat) : (s.setReg r v i j).wrote = s.wrote := by rw [State.setReg_eq]

@[simp] theorem State.incReg_pending (s : State) (r : RegRow) (i j n : Nat) : (s.incReg r i j n).pending = s.pending := by rw [State.incReg_eq]
@[simp] theorem State.incReg_tick (s : State) (r : RegRow) (i j n : Nat) : (s.incReg r i j n).tick = s.tick := by rw [State.incReg_eq]
@[simp] theorem State.incReg_freeCtr (s : State) (r : RegRow) (i j n : Nat) : (s.incReg r i j n).freeCtr = s.freeCtr := by rw [State.incReg_eq]
@[simp] theorem State.incReg_out (s : State) (r : RegRow) (i j n : Nat) : (s.incReg r i j n).out = s.out := by rw [State.incReg_eq]
@[simp] theorem State.incReg_snaps (s : State) (r : RegRow) (i j n : Nat) : (s.incReg r i j n).snaps = s.snaps := by rw [State.incReg_eq]
@[simp] theorem State.incReg_mem (s : State) (r : RegRow) (i j n : Nat) : (s.incReg r i j n).mem = s.mem := by rw [State.incReg_eq]
@[simp] theorem State.incReg_health (s : State) (r : RegRow) (i j n : Nat) : (s.incReg r i j n).health = s.health := by rw [State.incReg_eq]
@[simp] theorem State.incReg_fram (s : State) (r : RegRow) (i j n : Nat) : (s.incReg r i j n).fram = s.fram := by rw [State.incReg_eq]
@[simp] theorem State.incReg_flash (s : State) (r : RegRow) (i j n : Nat) : (s.incReg r i j n).flash = s.flash := by rw [State.incReg_eq]
@[simp] theorem State.incReg_ufs (s : State) (r : RegRow) (i j n : Nat) : (s.incReg r i j n).ufs = s.ufs := by rw [State.incReg_eq]
@[simp] theorem State.incReg_orbit (s : State) (r : RegRow) (i j n : Nat) : (s.incReg r i j n).orbit = s.orbit := by rw [State.incReg_eq]
@[simp] theorem State.incReg_groups (s : State) (r : RegRow) (i j n : Nat) : (s.incReg r i j n).groups = s.groups := by rw [State.incReg_eq]
@[simp] theorem State.incReg_boot (s : State) (r : RegRow) (i j n : Nat) : (s.incReg r i j n).boot = s.boot := by rw [State.incReg_eq]
@[simp] theorem State.incReg_scrubbers (s : State) (r : RegRow) (i j n : Nat) : (s.incReg r i j n).scrubbers = s.scrubbers := by rw [State.incReg_eq]
@[simp] theorem State.incReg_patrolAt (s : State) (r : RegRow) (i j n : Nat) : (s.incReg r i j n).patrolAt = s.patrolAt := by rw [State.incReg_eq]
@[simp] theorem State.incReg_fuses (s : State) (r : RegRow) (i j n : Nat) : (s.incReg r i j n).fuses = s.fuses := by rw [State.incReg_eq]
@[simp] theorem State.incReg_image (s : State) (r : RegRow) (i j n : Nat) : (s.incReg r i j n).image = s.image := by rw [State.incReg_eq]
@[simp] theorem State.incReg_applied (s : State) (r : RegRow) (i j n : Nat) : (s.incReg r i j n).applied = s.applied := by rw [State.incReg_eq]
@[simp] theorem State.incReg_queuesLost (s : State) (r : RegRow) (i j n : Nat) : (s.incReg r i j n).queuesLost = s.queuesLost := by rw [State.incReg_eq]
@[simp] theorem State.incReg_queues (s : State) (r : RegRow) (i j n : Nat) : (s.incReg r i j n).queues = s.queues := by rw [State.incReg_eq]
@[simp] theorem State.incReg_cmds (s : State) (r : RegRow) (i j n : Nat) : (s.incReg r i j n).cmds = s.cmds := by rw [State.incReg_eq]
@[simp] theorem State.incReg_nextId (s : State) (r : RegRow) (i j n : Nat) : (s.incReg r i j n).nextId = s.nextId := by rw [State.incReg_eq]
@[simp] theorem State.incReg_held (s : State) (r : RegRow) (i j n : Nat) : (s.incReg r i j n).held = s.held := by rw [State.incReg_eq]
@[simp] theorem State.incReg_threads (s : State) (r : RegRow) (i j n : Nat) : (s.incReg r i j n).threads = s.threads := by rw [State.incReg_eq]
@[simp] theorem State.incReg_running (s : State) (r : RegRow) (i j n : Nat) : (s.incReg r i j n).running = s.running := by rw [State.incReg_eq]
@[simp] theorem State.incReg_grants (s : State) (r : RegRow) (i j n : Nat) : (s.incReg r i j n).grants = s.grants := by rw [State.incReg_eq]
@[simp] theorem State.incReg_events (s : State) (r : RegRow) (i j n : Nat) : (s.incReg r i j n).events = s.events := by rw [State.incReg_eq]
@[simp] theorem State.incReg_jobs (s : State) (r : RegRow) (i j n : Nat) : (s.incReg r i j n).jobs = s.jobs := by rw [State.incReg_eq]
@[simp] theorem State.incReg_regulators (s : State) (r : RegRow) (i j n : Nat) : (s.incReg r i j n).regulators = s.regulators := by rw [State.incReg_eq]
@[simp] theorem State.incReg_windows (s : State) (r : RegRow) (i j n : Nat) : (s.incReg r i j n).windows = s.windows := by rw [State.incReg_eq]
@[simp] theorem State.incReg_deadlocks (s : State) (r : RegRow) (i j n : Nat) : (s.incReg r i j n).deadlocks = s.deadlocks := by rw [State.incReg_eq]
@[simp] theorem State.incReg_hub (s : State) (r : RegRow) (i j n : Nat) : (s.incReg r i j n).hub = s.hub := by rw [State.incReg_eq]
@[simp] theorem State.incReg_ifaces (s : State) (r : RegRow) (i j n : Nat) : (s.incReg r i j n).ifaces = s.ifaces := by rw [State.incReg_eq]
@[simp] theorem State.incReg_power (s : State) (r : RegRow) (i j n : Nat) : (s.incReg r i j n).power = s.power := by rw [State.incReg_eq]
@[simp] theorem State.incReg_dbg (s : State) (r : RegRow) (i j n : Nat) : (s.incReg r i j n).dbg = s.dbg := by rw [State.incReg_eq]
@[simp] theorem State.incReg_acu (s : State) (r : RegRow) (i j n : Nat) : (s.incReg r i j n).acu = s.acu := by rw [State.incReg_eq]
@[simp] theorem State.incReg_tide (s : State) (r : RegRow) (i j n : Nat) : (s.incReg r i j n).tide = s.tide := by rw [State.incReg_eq]
@[simp] theorem State.incReg_embFile (s : State) (r : RegRow) (i j n : Nat) : (s.incReg r i j n).embFile = s.embFile := by rw [State.incReg_eq]
@[simp] theorem State.incReg_streams (s : State) (r : RegRow) (i j n : Nat) : (s.incReg r i j n).streams = s.streams := by rw [State.incReg_eq]
@[simp] theorem State.incReg_slots (s : State) (r : RegRow) (i j n : Nat) : (s.incReg r i j n).slots = s.slots := by rw [State.incReg_eq]
@[simp] theorem State.incReg_vis (s : State) (r : RegRow) (i j n : Nat) : (s.incReg r i j n).vis = s.vis := by rw [State.incReg_eq]
@[simp] theorem State.incReg_wrote (s : State) (r : RegRow) (i j n : Nat) : (s.incReg r i j n).wrote = s.wrote := by rw [State.incReg_eq]

@[simp] theorem State.setSvc_pending (s : State) (c : Nat) : (s.setSvc c).pending = s.pending := by rw [State.setSvc_eq]
@[simp] theorem State.setSvc_tick (s : State) (c : Nat) : (s.setSvc c).tick = s.tick := by rw [State.setSvc_eq]
@[simp] theorem State.setSvc_freeCtr (s : State) (c : Nat) : (s.setSvc c).freeCtr = s.freeCtr := by rw [State.setSvc_eq]
@[simp] theorem State.setSvc_out (s : State) (c : Nat) : (s.setSvc c).out = s.out := by rw [State.setSvc_eq]
@[simp] theorem State.setSvc_snaps (s : State) (c : Nat) : (s.setSvc c).snaps = s.snaps := by rw [State.setSvc_eq]
@[simp] theorem State.setSvc_mem (s : State) (c : Nat) : (s.setSvc c).mem = s.mem := by rw [State.setSvc_eq]
@[simp] theorem State.setSvc_health (s : State) (c : Nat) : (s.setSvc c).health = s.health := by rw [State.setSvc_eq]
@[simp] theorem State.setSvc_fram (s : State) (c : Nat) : (s.setSvc c).fram = s.fram := by rw [State.setSvc_eq]
@[simp] theorem State.setSvc_flash (s : State) (c : Nat) : (s.setSvc c).flash = s.flash := by rw [State.setSvc_eq]
@[simp] theorem State.setSvc_ufs (s : State) (c : Nat) : (s.setSvc c).ufs = s.ufs := by rw [State.setSvc_eq]
@[simp] theorem State.setSvc_orbit (s : State) (c : Nat) : (s.setSvc c).orbit = s.orbit := by rw [State.setSvc_eq]
@[simp] theorem State.setSvc_groups (s : State) (c : Nat) : (s.setSvc c).groups = s.groups := by rw [State.setSvc_eq]
@[simp] theorem State.setSvc_boot (s : State) (c : Nat) : (s.setSvc c).boot = s.boot := by rw [State.setSvc_eq]
@[simp] theorem State.setSvc_scrubbers (s : State) (c : Nat) : (s.setSvc c).scrubbers = s.scrubbers := by rw [State.setSvc_eq]
@[simp] theorem State.setSvc_patrolAt (s : State) (c : Nat) : (s.setSvc c).patrolAt = s.patrolAt := by rw [State.setSvc_eq]
@[simp] theorem State.setSvc_fuses (s : State) (c : Nat) : (s.setSvc c).fuses = s.fuses := by rw [State.setSvc_eq]
@[simp] theorem State.setSvc_image (s : State) (c : Nat) : (s.setSvc c).image = s.image := by rw [State.setSvc_eq]
@[simp] theorem State.setSvc_applied (s : State) (c : Nat) : (s.setSvc c).applied = s.applied := by rw [State.setSvc_eq]
@[simp] theorem State.setSvc_queuesLost (s : State) (c : Nat) : (s.setSvc c).queuesLost = s.queuesLost := by rw [State.setSvc_eq]
@[simp] theorem State.setSvc_queues (s : State) (c : Nat) : (s.setSvc c).queues = s.queues := by rw [State.setSvc_eq]
@[simp] theorem State.setSvc_cmds (s : State) (c : Nat) : (s.setSvc c).cmds = s.cmds := by rw [State.setSvc_eq]
@[simp] theorem State.setSvc_nextId (s : State) (c : Nat) : (s.setSvc c).nextId = s.nextId := by rw [State.setSvc_eq]
@[simp] theorem State.setSvc_held (s : State) (c : Nat) : (s.setSvc c).held = s.held := by rw [State.setSvc_eq]
@[simp] theorem State.setSvc_threads (s : State) (c : Nat) : (s.setSvc c).threads = s.threads := by rw [State.setSvc_eq]
@[simp] theorem State.setSvc_running (s : State) (c : Nat) : (s.setSvc c).running = s.running := by rw [State.setSvc_eq]
@[simp] theorem State.setSvc_grants (s : State) (c : Nat) : (s.setSvc c).grants = s.grants := by rw [State.setSvc_eq]
@[simp] theorem State.setSvc_events (s : State) (c : Nat) : (s.setSvc c).events = s.events := by rw [State.setSvc_eq]
@[simp] theorem State.setSvc_jobs (s : State) (c : Nat) : (s.setSvc c).jobs = s.jobs := by rw [State.setSvc_eq]
@[simp] theorem State.setSvc_regulators (s : State) (c : Nat) : (s.setSvc c).regulators = s.regulators := by rw [State.setSvc_eq]
@[simp] theorem State.setSvc_windows (s : State) (c : Nat) : (s.setSvc c).windows = s.windows := by rw [State.setSvc_eq]
@[simp] theorem State.setSvc_deadlocks (s : State) (c : Nat) : (s.setSvc c).deadlocks = s.deadlocks := by rw [State.setSvc_eq]
@[simp] theorem State.setSvc_hub (s : State) (c : Nat) : (s.setSvc c).hub = s.hub := by rw [State.setSvc_eq]
@[simp] theorem State.setSvc_ifaces (s : State) (c : Nat) : (s.setSvc c).ifaces = s.ifaces := by rw [State.setSvc_eq]
@[simp] theorem State.setSvc_power (s : State) (c : Nat) : (s.setSvc c).power = s.power := by rw [State.setSvc_eq]
@[simp] theorem State.setSvc_dbg (s : State) (c : Nat) : (s.setSvc c).dbg = s.dbg := by rw [State.setSvc_eq]
@[simp] theorem State.setSvc_acu (s : State) (c : Nat) : (s.setSvc c).acu = s.acu := by rw [State.setSvc_eq]
@[simp] theorem State.setSvc_tide (s : State) (c : Nat) : (s.setSvc c).tide = s.tide := by rw [State.setSvc_eq]
@[simp] theorem State.setSvc_embFile (s : State) (c : Nat) : (s.setSvc c).embFile = s.embFile := by rw [State.setSvc_eq]
@[simp] theorem State.setSvc_streams (s : State) (c : Nat) : (s.setSvc c).streams = s.streams := by rw [State.setSvc_eq]
@[simp] theorem State.setSvc_slots (s : State) (c : Nat) : (s.setSvc c).slots = s.slots := by rw [State.setSvc_eq]
@[simp] theorem State.setSvc_vis (s : State) (c : Nat) : (s.setSvc c).vis = s.vis := by rw [State.setSvc_eq]
@[simp] theorem State.setSvc_wrote (s : State) (c : Nat) : (s.setSvc c).wrote = s.wrote := by rw [State.setSvc_eq]

@[simp] theorem State.setBytes_pending (s : State) (a : Nat) (bs : List Byte) : (s.setBytes a bs).pending = s.pending := by rw [State.setBytes_eq]
@[simp] theorem State.setBytes_tick (s : State) (a : Nat) (bs : List Byte) : (s.setBytes a bs).tick = s.tick := by rw [State.setBytes_eq]
@[simp] theorem State.setBytes_freeCtr (s : State) (a : Nat) (bs : List Byte) : (s.setBytes a bs).freeCtr = s.freeCtr := by rw [State.setBytes_eq]
@[simp] theorem State.setBytes_out (s : State) (a : Nat) (bs : List Byte) : (s.setBytes a bs).out = s.out := by rw [State.setBytes_eq]
@[simp] theorem State.setBytes_regs (s : State) (a : Nat) (bs : List Byte) : (s.setBytes a bs).regs = s.regs := by rw [State.setBytes_eq]
@[simp] theorem State.setBytes_snaps (s : State) (a : Nat) (bs : List Byte) : (s.setBytes a bs).snaps = s.snaps := by rw [State.setBytes_eq]
@[simp] theorem State.setBytes_health (s : State) (a : Nat) (bs : List Byte) : (s.setBytes a bs).health = s.health := by rw [State.setBytes_eq]
@[simp] theorem State.setBytes_fram (s : State) (a : Nat) (bs : List Byte) : (s.setBytes a bs).fram = s.fram := by rw [State.setBytes_eq]
@[simp] theorem State.setBytes_flash (s : State) (a : Nat) (bs : List Byte) : (s.setBytes a bs).flash = s.flash := by rw [State.setBytes_eq]
@[simp] theorem State.setBytes_ufs (s : State) (a : Nat) (bs : List Byte) : (s.setBytes a bs).ufs = s.ufs := by rw [State.setBytes_eq]
@[simp] theorem State.setBytes_orbit (s : State) (a : Nat) (bs : List Byte) : (s.setBytes a bs).orbit = s.orbit := by rw [State.setBytes_eq]
@[simp] theorem State.setBytes_groups (s : State) (a : Nat) (bs : List Byte) : (s.setBytes a bs).groups = s.groups := by rw [State.setBytes_eq]
@[simp] theorem State.setBytes_boot (s : State) (a : Nat) (bs : List Byte) : (s.setBytes a bs).boot = s.boot := by rw [State.setBytes_eq]
@[simp] theorem State.setBytes_scrubbers (s : State) (a : Nat) (bs : List Byte) : (s.setBytes a bs).scrubbers = s.scrubbers := by rw [State.setBytes_eq]
@[simp] theorem State.setBytes_patrolAt (s : State) (a : Nat) (bs : List Byte) : (s.setBytes a bs).patrolAt = s.patrolAt := by rw [State.setBytes_eq]
@[simp] theorem State.setBytes_fuses (s : State) (a : Nat) (bs : List Byte) : (s.setBytes a bs).fuses = s.fuses := by rw [State.setBytes_eq]
@[simp] theorem State.setBytes_image (s : State) (a : Nat) (bs : List Byte) : (s.setBytes a bs).image = s.image := by rw [State.setBytes_eq]
@[simp] theorem State.setBytes_applied (s : State) (a : Nat) (bs : List Byte) : (s.setBytes a bs).applied = s.applied := by rw [State.setBytes_eq]
@[simp] theorem State.setBytes_queuesLost (s : State) (a : Nat) (bs : List Byte) : (s.setBytes a bs).queuesLost = s.queuesLost := by rw [State.setBytes_eq]
@[simp] theorem State.setBytes_queues (s : State) (a : Nat) (bs : List Byte) : (s.setBytes a bs).queues = s.queues := by rw [State.setBytes_eq]
@[simp] theorem State.setBytes_cmds (s : State) (a : Nat) (bs : List Byte) : (s.setBytes a bs).cmds = s.cmds := by rw [State.setBytes_eq]
@[simp] theorem State.setBytes_nextId (s : State) (a : Nat) (bs : List Byte) : (s.setBytes a bs).nextId = s.nextId := by rw [State.setBytes_eq]
@[simp] theorem State.setBytes_held (s : State) (a : Nat) (bs : List Byte) : (s.setBytes a bs).held = s.held := by rw [State.setBytes_eq]
@[simp] theorem State.setBytes_threads (s : State) (a : Nat) (bs : List Byte) : (s.setBytes a bs).threads = s.threads := by rw [State.setBytes_eq]
@[simp] theorem State.setBytes_running (s : State) (a : Nat) (bs : List Byte) : (s.setBytes a bs).running = s.running := by rw [State.setBytes_eq]
@[simp] theorem State.setBytes_grants (s : State) (a : Nat) (bs : List Byte) : (s.setBytes a bs).grants = s.grants := by rw [State.setBytes_eq]
@[simp] theorem State.setBytes_events (s : State) (a : Nat) (bs : List Byte) : (s.setBytes a bs).events = s.events := by rw [State.setBytes_eq]
@[simp] theorem State.setBytes_jobs (s : State) (a : Nat) (bs : List Byte) : (s.setBytes a bs).jobs = s.jobs := by rw [State.setBytes_eq]
@[simp] theorem State.setBytes_regulators (s : State) (a : Nat) (bs : List Byte) : (s.setBytes a bs).regulators = s.regulators := by rw [State.setBytes_eq]
@[simp] theorem State.setBytes_windows (s : State) (a : Nat) (bs : List Byte) : (s.setBytes a bs).windows = s.windows := by rw [State.setBytes_eq]
@[simp] theorem State.setBytes_deadlocks (s : State) (a : Nat) (bs : List Byte) : (s.setBytes a bs).deadlocks = s.deadlocks := by rw [State.setBytes_eq]
@[simp] theorem State.setBytes_hub (s : State) (a : Nat) (bs : List Byte) : (s.setBytes a bs).hub = s.hub := by rw [State.setBytes_eq]
@[simp] theorem State.setBytes_ifaces (s : State) (a : Nat) (bs : List Byte) : (s.setBytes a bs).ifaces = s.ifaces := by rw [State.setBytes_eq]
@[simp] theorem State.setBytes_power (s : State) (a : Nat) (bs : List Byte) : (s.setBytes a bs).power = s.power := by rw [State.setBytes_eq]
@[simp] theorem State.setBytes_dbg (s : State) (a : Nat) (bs : List Byte) : (s.setBytes a bs).dbg = s.dbg := by rw [State.setBytes_eq]
@[simp] theorem State.setBytes_acu (s : State) (a : Nat) (bs : List Byte) : (s.setBytes a bs).acu = s.acu := by rw [State.setBytes_eq]
@[simp] theorem State.setBytes_tide (s : State) (a : Nat) (bs : List Byte) : (s.setBytes a bs).tide = s.tide := by rw [State.setBytes_eq]
@[simp] theorem State.setBytes_embFile (s : State) (a : Nat) (bs : List Byte) : (s.setBytes a bs).embFile = s.embFile := by rw [State.setBytes_eq]
@[simp] theorem State.setBytes_streams (s : State) (a : Nat) (bs : List Byte) : (s.setBytes a bs).streams = s.streams := by rw [State.setBytes_eq]
@[simp] theorem State.setBytes_slots (s : State) (a : Nat) (bs : List Byte) : (s.setBytes a bs).slots = s.slots := by rw [State.setBytes_eq]
@[simp] theorem State.setBytes_vis (s : State) (a : Nat) (bs : List Byte) : (s.setBytes a bs).vis = s.vis := by rw [State.setBytes_eq]
@[simp] theorem State.setBytes_wrote (s : State) (a : Nat) (bs : List Byte) : (s.setBytes a bs).wrote = s.wrote := by rw [State.setBytes_eq]

/-! ### Time -/

theorem State.elapse_eq (s : State) (dt : Nat) : s.elapse dt =
    { s with tick := s.tick + dt, out := (s.elapse dt).out, orbit := (s.elapse dt).orbit, deadlocks := (s.elapse dt).deadlocks } := by
  simp only [State.elapse, State.watchDeadlock]; split <;> rfl

@[simp] theorem State.elapse_pending (s : State) (dt : Nat) : (s.elapse dt).pending = s.pending := by rw [State.elapse_eq]
@[simp] theorem State.elapse_freeCtr (s : State) (dt : Nat) : (s.elapse dt).freeCtr = s.freeCtr := by rw [State.elapse_eq]
@[simp] theorem State.elapse_regs (s : State) (dt : Nat) : (s.elapse dt).regs = s.regs := by rw [State.elapse_eq]
@[simp] theorem State.elapse_snaps (s : State) (dt : Nat) : (s.elapse dt).snaps = s.snaps := by rw [State.elapse_eq]
@[simp] theorem State.elapse_mem (s : State) (dt : Nat) : (s.elapse dt).mem = s.mem := by rw [State.elapse_eq]
@[simp] theorem State.elapse_health (s : State) (dt : Nat) : (s.elapse dt).health = s.health := by rw [State.elapse_eq]
@[simp] theorem State.elapse_fram (s : State) (dt : Nat) : (s.elapse dt).fram = s.fram := by rw [State.elapse_eq]
@[simp] theorem State.elapse_flash (s : State) (dt : Nat) : (s.elapse dt).flash = s.flash := by rw [State.elapse_eq]
@[simp] theorem State.elapse_ufs (s : State) (dt : Nat) : (s.elapse dt).ufs = s.ufs := by rw [State.elapse_eq]
@[simp] theorem State.elapse_groups (s : State) (dt : Nat) : (s.elapse dt).groups = s.groups := by rw [State.elapse_eq]
@[simp] theorem State.elapse_boot (s : State) (dt : Nat) : (s.elapse dt).boot = s.boot := by rw [State.elapse_eq]
@[simp] theorem State.elapse_scrubbers (s : State) (dt : Nat) : (s.elapse dt).scrubbers = s.scrubbers := by rw [State.elapse_eq]
@[simp] theorem State.elapse_patrolAt (s : State) (dt : Nat) : (s.elapse dt).patrolAt = s.patrolAt := by rw [State.elapse_eq]
@[simp] theorem State.elapse_fuses (s : State) (dt : Nat) : (s.elapse dt).fuses = s.fuses := by rw [State.elapse_eq]
@[simp] theorem State.elapse_image (s : State) (dt : Nat) : (s.elapse dt).image = s.image := by rw [State.elapse_eq]
@[simp] theorem State.elapse_applied (s : State) (dt : Nat) : (s.elapse dt).applied = s.applied := by rw [State.elapse_eq]
@[simp] theorem State.elapse_queuesLost (s : State) (dt : Nat) : (s.elapse dt).queuesLost = s.queuesLost := by rw [State.elapse_eq]
@[simp] theorem State.elapse_queues (s : State) (dt : Nat) : (s.elapse dt).queues = s.queues := by rw [State.elapse_eq]
@[simp] theorem State.elapse_cmds (s : State) (dt : Nat) : (s.elapse dt).cmds = s.cmds := by rw [State.elapse_eq]
@[simp] theorem State.elapse_nextId (s : State) (dt : Nat) : (s.elapse dt).nextId = s.nextId := by rw [State.elapse_eq]
@[simp] theorem State.elapse_held (s : State) (dt : Nat) : (s.elapse dt).held = s.held := by rw [State.elapse_eq]
@[simp] theorem State.elapse_threads (s : State) (dt : Nat) : (s.elapse dt).threads = s.threads := by rw [State.elapse_eq]
@[simp] theorem State.elapse_running (s : State) (dt : Nat) : (s.elapse dt).running = s.running := by rw [State.elapse_eq]
@[simp] theorem State.elapse_grants (s : State) (dt : Nat) : (s.elapse dt).grants = s.grants := by rw [State.elapse_eq]
@[simp] theorem State.elapse_events (s : State) (dt : Nat) : (s.elapse dt).events = s.events := by rw [State.elapse_eq]
@[simp] theorem State.elapse_jobs (s : State) (dt : Nat) : (s.elapse dt).jobs = s.jobs := by rw [State.elapse_eq]
@[simp] theorem State.elapse_regulators (s : State) (dt : Nat) : (s.elapse dt).regulators = s.regulators := by rw [State.elapse_eq]
@[simp] theorem State.elapse_windows (s : State) (dt : Nat) : (s.elapse dt).windows = s.windows := by rw [State.elapse_eq]
@[simp] theorem State.elapse_hub (s : State) (dt : Nat) : (s.elapse dt).hub = s.hub := by rw [State.elapse_eq]
@[simp] theorem State.elapse_ifaces (s : State) (dt : Nat) : (s.elapse dt).ifaces = s.ifaces := by rw [State.elapse_eq]
@[simp] theorem State.elapse_power (s : State) (dt : Nat) : (s.elapse dt).power = s.power := by rw [State.elapse_eq]
@[simp] theorem State.elapse_dbg (s : State) (dt : Nat) : (s.elapse dt).dbg = s.dbg := by rw [State.elapse_eq]
@[simp] theorem State.elapse_acu (s : State) (dt : Nat) : (s.elapse dt).acu = s.acu := by rw [State.elapse_eq]
@[simp] theorem State.elapse_tide (s : State) (dt : Nat) : (s.elapse dt).tide = s.tide := by rw [State.elapse_eq]
@[simp] theorem State.elapse_embFile (s : State) (dt : Nat) : (s.elapse dt).embFile = s.embFile := by rw [State.elapse_eq]
@[simp] theorem State.elapse_streams (s : State) (dt : Nat) : (s.elapse dt).streams = s.streams := by rw [State.elapse_eq]
@[simp] theorem State.elapse_slots (s : State) (dt : Nat) : (s.elapse dt).slots = s.slots := by rw [State.elapse_eq]
@[simp] theorem State.elapse_vis (s : State) (dt : Nat) : (s.elapse dt).vis = s.vis := by rw [State.elapse_eq]
@[simp] theorem State.elapse_wrote (s : State) (dt : Nat) : (s.elapse dt).wrote = s.wrote := by rw [State.elapse_eq]

@[simp] theorem State.elapse_tick (s : State) (dt : Nat) : (s.elapse dt).tick = s.tick + dt := by rw [State.elapse_eq]
/-- Nothing leaves the block while time passes within one second of Orbit time. -/
theorem State.elapse_out (s : State) (dt : Nat) (h : (s.elapse dt).now / 1000000000 ≤ s.now / 1000000000) :
    (s.elapse dt).out = [] := by
  have e : s.watchDeadlock.now = s.now := by simp only [State.watchDeadlock]; split <;> rfl
  simp only [State.elapse, State.secondPulses, State.now] at h ⊢
  simp only [State.now] at e
  rw [e, Nat.sub_eq_zero_of_le h]; rfl

end Sys2Proof.Machine
end

