-- ==== Sys2Proof/Laws/Registers.lean ====
section
/-!
SUPPORT. Laws of the register file and of memory: what a read gives after a write, and what a write leaves alone.
-/

namespace Sys2Proof.Machine

open Sys2Proof

/-! ### Fields of a number -/

theorem bits_lt (w hi lo : Nat) : bits w hi lo < 2 ^ (hi + 1 - lo) := Nat.mod_lt _ (Nat.two_pow_pos _)

/-- A field of `n` bits from bit `lo` of a number put together from the bits below, the field and the bits above. -/
theorem bits_join (low v high lo n : Nat) (h1 : low < 2 ^ lo) (h2 : v < 2 ^ n) (hn : 0 < n) :
    bits (low + 2 ^ lo * v + 2 ^ (lo + n) * high) (lo + n - 1) lo = v := by
  have e : lo + n - 1 + 1 - lo = n := by omega
  rw [bits, e, Nat.shiftRight_eq_div_pow, Nat.pow_add, Nat.mul_assoc, Nat.add_assoc, ← Nat.mul_add,
    Nat.add_mul_div_left _ _ (Nat.two_pow_pos lo), Nat.div_eq_of_lt h1, Nat.zero_add, Nat.add_mul_mod_self_left,
    Nat.mod_eq_of_lt h2]

theorem bits_mod (w n hi lo : Nat) (h : hi < n) : bits (w % 2 ^ n) hi lo = bits w hi lo := by
  apply Nat.eq_of_testBit_eq
  intro i
  simp only [bits, Nat.testBit_mod_two_pow, Nat.testBit_shiftRight]
  by_cases h1 : i < hi + 1 - lo
  · have : lo + i < n := by omega
    simp [h1, this]
  · simp [h1]

/-! ### Register words -/

theorem State.regWord_setRegWord (s : State) (a v x : Nat) (h : Sparse.wf 0#32 s.regs = true) :
    (s.setRegWord a v).regWord x = if x = a then v % 2 ^ 32 else s.regWord x := by
  simp only [State.regWord, State.setRegWord, Sparse.get_put _ _ _ h]
  split
  · exact BitVec.toNat_ofNat ..
  · rfl

theorem State.setRegWord_wf (s : State) (a v : Nat) (h : Sparse.wf 0#32 s.regs = true) :
    Sparse.wf 0#32 (s.setRegWord a v).regs = true := Sparse.put_wf _ _ h

theorem State.setRegWords_wf (s : State) (a v n : Nat) (h : Sparse.wf 0#32 s.regs = true) :
    Sparse.wf 0#32 (s.setRegWords a v n).regs = true := by
  induction n generalizing s a v with
  | zero => exact h
  | succ n ih => exact ih _ _ _ (s.setRegWord_wf a v h)

theorem State.setReg_wf (s : State) (r : RegRow) (v i j : Nat) (h : Sparse.wf 0#32 s.regs = true) :
    Sparse.wf 0#32 (s.setReg r v i j).regs = true := s.setRegWords_wf _ _ _ h

theorem State.incReg_wf (s : State) (r : RegRow) (i j n : Nat) (h : Sparse.wf 0#32 s.regs = true) :
    Sparse.wf 0#32 (s.incReg r i j n).regs = true := s.setReg_wf _ _ _ _ h

theorem State.setSvc_wf (s : State) (c : Nat) (h : Sparse.wf 0#32 s.regs = true) :
    Sparse.wf 0#32 (s.setSvc c).regs = true := State.setReg_wf _ _ _ _ _ (s.setReg_wf _ _ _ _ h)

/-- A word outside the words written is as it was. -/
theorem State.regWord_setRegWords_other (s : State) (a v n x : Nat) (h : Sparse.wf 0#32 s.regs = true)
    (hx : x < a ∨ a + 4 * n ≤ x) : (s.setRegWords a v n).regWord x = s.regWord x := by
  induction n generalizing s a v with
  | zero => rfl
  | succ n ih =>
    rw [State.setRegWords, ih _ _ _ (s.setRegWord_wf a v h) (by omega), State.regWord_setRegWord _ _ _ _ h]
    have : x ≠ a := by omega
    simp [this]

theorem State.regWords_congr (s t : State) (a n : Nat) (h : ∀ x, a ≤ x → x < a + 4 * n → t.regWord x = s.regWord x) :
    t.regWords a n = s.regWords a n := by
  induction n generalizing a with
  | zero => rfl
  | succ n ih =>
    simp only [State.regWords]
    rw [h a (Nat.le_refl _) (by omega), ih (a + 4) (fun x h1 h2 => h x (by omega) (by omega))]

/-- The words read back as the number written, cut to their width. -/
theorem State.regWords_setRegWords_same (s : State) (a v n : Nat) (h : Sparse.wf 0#32 s.regs = true) :
    (s.setRegWords a v n).regWords a n = v % 2 ^ (32 * n) := by
  induction n generalizing s a v with
  | zero => simp [State.regWords, Nat.mod_one]
  | succ n ih =>
    have hw := s.setRegWord_wf a v h
    rw [State.setRegWords, State.regWords, ih _ _ _ hw, State.regWord_setRegWords_other _ _ _ _ _ hw (by omega),
      State.regWord_setRegWord _ _ _ _ h, if_pos rfl]
    rw [show 32 * (n + 1) = 32 + 32 * n by omega, Nat.pow_add, Nat.mod_mul]

theorem State.regWords_setRegWords_other (s : State) (a v n b m : Nat) (h : Sparse.wf 0#32 s.regs = true)
    (hd : b + 4 * m ≤ a ∨ a + 4 * n ≤ b) : (s.setRegWords a v n).regWords b m = s.regWords b m :=
  State.regWords_congr _ _ _ _ fun x h1 h2 => s.regWord_setRegWords_other a v n x h (by omega)

/-! ### Register fields -/

theorem RegRow.fits (r : RegRow) : r.lo + r.width ≤ 32 * r.words := by unfold RegRow.words; omega

/-- The number that a write of a field leaves in its words. -/
theorem State.setReg_words (s : State) (r : RegRow) (v i j : Nat) (h : Sparse.wf 0#32 s.regs = true) :
    (s.setReg r v i j).regWords (r.at i j) r.words =
      (s.regWords (r.at i j) r.words % 2 ^ r.lo + 2 ^ r.lo * (v % 2 ^ r.width) +
        2 ^ (r.lo + r.width) * (s.regWords (r.at i j) r.words / 2 ^ (r.lo + r.width))) % 2 ^ (32 * r.words) := by
  simp only [State.setReg, State.regWords_setRegWords_same _ _ _ _ h]

/-- A field reads back as the value written, cut to its width. -/
theorem State.reg_setReg_same (s : State) (r : RegRow) (v i j : Nat) (h : Sparse.wf 0#32 s.regs = true) (hw : 0 < r.width) :
    (s.setReg r v i j).reg r i j = v % 2 ^ r.width := by
  have hf := r.fits
  rw [State.reg, State.setReg_words _ _ _ _ _ h, bits_mod _ _ _ _ (by omega),
    bits_join _ _ _ _ _ (Nat.mod_lt _ (Nat.two_pow_pos _)) (Nat.mod_lt _ (Nat.two_pow_pos _)) hw]

/-- A field in other words is as it was. -/
theorem State.reg_setReg_other (s : State) (r q : RegRow) (v i j k l : Nat) (h : Sparse.wf 0#32 s.regs = true)
    (hd : q.at k l + 4 * q.words ≤ r.at i j ∨ r.at i j + 4 * r.words ≤ q.at k l) :
    (s.setReg r v i j).reg q k l = s.reg q k l := by
  simp only [State.reg, State.setReg]
  rw [State.regWords_setRegWords_other _ _ _ _ _ _ h hd]

theorem State.reg_lt (s : State) (r : RegRow) (i j : Nat) (hw : 0 < r.width) : s.reg r i j < 2 ^ r.width := by
  have := bits_lt (s.regWords (r.at i j) r.words) (r.lo + r.width - 1) r.lo
  have e : r.lo + r.width - 1 + 1 - r.lo = r.width := by omega
  rwa [e] at this

/-- A counter field after `n` more: saturated at its largest value. -/
theorem State.reg_incReg_same (s : State) (r : RegRow) (i j n : Nat) (h : Sparse.wf 0#32 s.regs = true) (hw : 0 < r.width) :
    (s.incReg r i j n).reg r i j = min (s.reg r i j + n) (2 ^ r.width - 1) := by
  have : 0 < 2 ^ r.width := Nat.two_pow_pos _
  rw [State.incReg, State.reg_setReg_same _ _ _ _ _ h hw, Nat.mod_eq_of_lt (by omega)]

theorem State.reg_incReg_other (s : State) (r q : RegRow) (i j n k l : Nat) (h : Sparse.wf 0#32 s.regs = true)
    (hd : q.at k l + 4 * q.words ≤ r.at i j ∨ r.at i j + 4 * r.words ≤ q.at k l) :
    (s.incReg r i j n).reg q k l = s.reg q k l := State.reg_setReg_other _ _ _ _ _ _ _ _ h hd

/-- A field in the same words, in other bits, is as it was. -/
theorem State.reg_setReg_beside (s : State) (r q : RegRow) (v i j k l : Nat) (h : Sparse.wf 0#32 s.regs = true)
    (ha : q.at k l = r.at i j) (hn : q.words = r.words) (hq : 0 < q.width)
    (hb : q.lo + q.width ≤ r.lo ∨ r.lo + r.width ≤ q.lo) :
    (s.setReg r v i j).reg q k l = s.reg q k l := by
  have hf := r.fits
  have hg := q.fits
  rw [State.reg, State.reg, ha, hn, State.setReg_words _ _ _ _ _ h, bits_mod _ _ _ _ (by omega)]
  apply Nat.eq_of_testBit_eq
  intro b
  simp only [bits, Nat.testBit_mod_two_pow, Nat.testBit_shiftRight]
  by_cases hin : b < q.lo + q.width - 1 + 1 - q.lo
  · simp only [hin, decide_true, Bool.true_and]
    generalize s.regWords (r.at i j) r.words = w
    have hv : v % 2 ^ r.width < 2 ^ r.width := Nat.mod_lt _ (Nat.two_pow_pos _)
    have hw : w % 2 ^ r.lo < 2 ^ r.lo := Nat.mod_lt _ (Nat.two_pow_pos _)
    have hj : w % 2 ^ r.lo + 2 ^ r.lo * (v % 2 ^ r.width) < 2 ^ (r.lo + r.width) := by
      rw [Nat.pow_add]
      calc w % 2 ^ r.lo + 2 ^ r.lo * (v % 2 ^ r.width)
          < 2 ^ r.lo + 2 ^ r.lo * (v % 2 ^ r.width) := by omega
        _ = 2 ^ r.lo * (v % 2 ^ r.width + 1) := by rw [Nat.mul_add]; omega
        _ ≤ 2 ^ r.lo * 2 ^ r.width := Nat.mul_le_mul_left _ hv
    rw [Nat.add_comm (w % 2 ^ r.lo + _), Nat.testBit_two_pow_mul_add _ hj]
    rcases hb with hb | hb
    · have h1 : q.lo + b < r.lo + r.width := by omega
      have h2 : q.lo + b < r.lo := by omega
      rw [if_pos h1, Nat.add_comm (w % 2 ^ r.lo), Nat.testBit_two_pow_mul_add _ hw, if_pos h2, Nat.testBit_mod_two_pow]
      simp [h2]
    · have h1 : ¬ q.lo + b < r.lo + r.width := by omega
      rw [if_neg h1, Nat.testBit_div_two_pow]
      congr 1; omega
  · simp [hin]

/-! ### Memory -/

theorem State.byte_setByte (s : State) (a : Nat) (v : Byte) (x : Nat) (h : Sparse.wf 0#8 s.mem = true) :
    (s.setByte a v).byte x = if x = a then v else s.byte x := Sparse.get_put _ _ _ h

theorem State.setByte_wf (s : State) (a : Nat) (v : Byte) (h : Sparse.wf 0#8 s.mem = true) :
    Sparse.wf 0#8 (s.setByte a v).mem = true := Sparse.put_wf _ _ h

theorem State.setBytes_wf (s : State) (a : Nat) (bs : List Byte) (h : Sparse.wf 0#8 s.mem = true) :
    Sparse.wf 0#8 (s.setBytes a bs).mem = true := by
  induction bs generalizing s a with
  | nil => exact h
  | cons b bs ih => exact ih _ _ (s.setByte_wf a b h)

/-- Every byte outside the bytes written reads as before. -/
theorem State.byte_setBytes_other (s : State) (a : Nat) (bs : List Byte) (x : Nat) (h : Sparse.wf 0#8 s.mem = true)
    (hx : x < a ∨ a + bs.length ≤ x) : (s.setBytes a bs).byte x = s.byte x := by
  induction bs generalizing s a with
  | nil => rfl
  | cons b bs ih =>
    rw [List.length_cons] at hx
    rw [State.setBytes, ih _ _ (s.setByte_wf a b h) (by omega), State.byte_setByte _ _ _ _ h, if_neg (by omega)]

theorem State.bytes_congr (s t : State) (a n : Nat) (h : ∀ x, a ≤ x → x < a + n → t.byte x = s.byte x) :
    t.bytes a n = s.bytes a n := by
  induction n generalizing a with
  | zero => rfl
  | succ n ih =>
    rw [State.bytes, State.bytes, h a (Nat.le_refl _) (by omega), ih (a + 1) fun x h1 h2 => h x (by omega) (by omega)]

/-- The bytes written read back. -/
theorem State.bytes_setBytes_same (s : State) (a : Nat) (bs : List Byte) (h : Sparse.wf 0#8 s.mem = true) :
    (s.setBytes a bs).bytes a bs.length = bs := by
  induction bs generalizing s a with
  | nil => rfl
  | cons b bs ih =>
    have hw := s.setByte_wf a b h
    rw [State.setBytes, List.length_cons, State.bytes, ih _ _ hw, State.byte_setBytes_other _ _ _ _ hw (by omega),
      State.byte_setByte _ _ _ _ h, if_pos rfl]

theorem State.bytes_setBytes_other (s : State) (a : Nat) (bs : List Byte) (b n : Nat) (h : Sparse.wf 0#8 s.mem = true)
    (hd : b + n ≤ a ∨ a + bs.length ≤ b) : (s.setBytes a bs).bytes b n = s.bytes b n :=
  State.bytes_congr _ _ _ _ fun x h1 h2 => s.byte_setBytes_other a bs x h (by omega)

/-! ### Events -/

theorem State.event_setEvent (s : State) (e v x : Nat) (h : Sparse.wf 0#32 s.events = true) :
    (s.setEvent e v).event x = if x = e then v % 2 ^ 32 else s.event x := by
  simp only [State.event, State.setEvent, Sparse.get_put _ _ _ h]
  split
  · exact BitVec.toNat_ofNat ..
  · rfl

/-! ### Reset -/

theorem RegRow.init_wf (r : RegRow) {m : List (Nat × Word32)} (h : Sparse.wf 0#32 m = true) :
    Sparse.wf 0#32 (r.init m) = true := by
  unfold RegRow.init
  split
  · exact h
  · exact foldl_keeps (Sparse.wf 0#32 · = true)
      (fun _ _ => foldl_keeps (Sparse.wf 0#32 · = true) (fun _ _ => Sparse.put_wf _ _) _) _ h

/-- The registers at reset are in canonical form. -/
theorem regsReset_wf : Sparse.wf 0#32 regsReset = true :=
  foldl_keeps (Sparse.wf 0#32 · = true) (fun _ _ => Sparse.put_wf _ _) _
    (foldl_keeps (Sparse.wf 0#32 · = true) (fun _ r => r.init_wf) _ rfl)

end Sys2Proof.Machine
end

