-- ==== Sys2Proof/Machine/Pins.lean ====
section
/-!
DEFINITION. What the state drives on the output and bidirectional pins (R77, R107, R566, R567, R659, R677, R691, R692, R700,
R709, Tables 3.8, 19.1 and 20.6).
-/

namespace Sys2Proof.Machine

open Sys2Proof

/-- The pins of Table 3.8. -/
inductive Pin where
  | safeFaultN
  | safeHeartbeat
  /-- MTR_PO0 and MTR_PO1. -/
  | pulseOut (j : Nat)
  | modulatorClock
  /-- TDM_DOUT of a port. -/
  | tdmData (p : Nat)
  /-- TDM_BCLK and TDM_FS of a port. -/
  | tdmClock (p : Nat)
  | pdmClock (k : Nat)
  | canTx (k : Nat)
  | ethTx (p : Nat)
  | pcieTx
  | linkTx (p : Nat)
  | xspiSelect
  /-- XSPI_CLK and XSPI_DQ. -/
  | xspiBus
  | ufsResetN
  /-- LPDDR5X reset and clock enable. -/
  | dramReset
  /-- I2C_SCL and I2C_SDA of a bus. -/
  | i2c (k : Nat)
  /-- SPI_SCLK and SPI_MOSI of a bus. -/
  | spiBus (k : Nat)
  | spiSelect (k : Nat)
  | gpio (k : Nat)
  | tmux (n : Nat)
  | tdo
  deriving DecidableEq, Repr

/-- What a pad shows. -/
inductive PadState where
  /-- The pad's supply is absent. -/
  | undriven
  | low
  | high
  | highZ
  /-- High impedance with the weak pull-down. -/
  | pulledDown
  /-- An open-drain output that is released. -/
  | released
  /-- A transmitter in electrical idle. -/
  | idle
  /-- An input, with the pull of Table 17.16: 0 none, 1 up, 2 down. -/
  | input (pull : Nat)
  /-- As the configured block behind the pad drives it. -/
  | configured
  /-- As the pin's boundary cell says (R700). -/
  | boundaryCell
  deriving DecidableEq, Repr

/-- Pads of the always-on supply (type A of Table 19.1). -/
def Pin.alwaysOn : Pin → Bool
  | .safeFaultN | .safeHeartbeat | .pulseOut _ | .modulatorClock => true
  | _ => false

/-- The level that a test multiplexer brings out: nothing for a pulse or a clock (Table 20.6). -/
def State.tmuxLevel (s : State) (sig arg : Nat) : Option Bool :=
  match sig with
  | 0x06 => some (s.reg R.ACU_STATUS_ANC_STATE == 2)
  | 0x07 => some (bit (s.reg R.ACU_STATUS_ANC_CAUSE) 1)
  | 0x08 => some (s.flag R.TC_STATUS_BUSY arg)
  | 0x09 => some (s.flag R.PART_JOB_ACTIVE arg)
  | 0x0A => some (s.svc != 1)
  | 0x0B => some (s.flag R.SAFE_STATUS_LATCH)
  | 0x0C => some (s.flag R.PWR_AON_WARN)
  | _ => none

/-- The device drives the xSPI bus: from SELECT to the end of VERIFY of a cold-start attempt (R77). -/
def State.xspiOn (s : State) : Bool :=
  s.boot.phase == .step && s.svc == 0 && !s.flag R.BOOT_STATUS_WARM && s.boot.pgSince.isNone &&
  (s.reg R.BOOT_STATUS_STEP == 2 || s.reg R.BOOT_STATUS_STEP == 3)

/-- A level. -/
def PadState.of (b : Bool) : PadState := if b then .high else .low

/-- A pad once its supply is valid (Table 3.8, R659). -/
def State.padDriven (s : State) : Pin → PadState
  | .safeFaultN => .of s.hub.faultN
  | .safeHeartbeat => .of (s.hub.faultN && s.hub.heartbeat)
  | .pulseOut j => if s.tideRun && (Sparse.get {} s.tide.outs j).low then .low else .released
  | .modulatorClock => if s.tideRun then .configured else .low
  | .tdmData p =>
    if s.applied && portOn (audPort s.audio p) && !s.flag R.ACU_PORT_STAT_FAULT p then .configured else .low
  | .tdmClock p =>
    if s.applied && portOn (audPort s.audio p) then (if portMaster (audPort s.audio p) then .configured else .input 2)
    else .pulledDown
  | .pdmClock k => if s.applied && bits (field s.audio 0x10 2) (4 * k + 3) (4 * k) != 0 then .configured else .pulledDown
  | .canTx k => if bit (field (ifCan s.ifaces.cfg k) 0 1) 0 then .configured else .high
  | .ethTx p => if bit (field (ifEth s.ifaces.cfg p) 0 1) 0 then .configured else .idle
  | .pcieTx => if bit (field (ifPcie s.ifaces.cfg) 0 1) 0 then .configured else .idle
  | .linkTx p => if bit (field (ifLink s.ifaces.cfg) 0 1) p then .configured else .idle
  | .xspiSelect | .xspiBus => if s.xspiOn then .configured else .highZ
  | .ufsResetN => .of s.boot.ufsOut
  | .dramReset => if s.flag R.MEMC_STATUS_TRAINED then .configured else .low
  | .i2c k => if s.applied && ifI2c s.ifaces.cfg k != 0 then .configured else .released
  | .spiBus k => if s.applied && ifSpi s.ifaces.cfg k != 0 then .configured else .low
  | .spiSelect k => if s.applied && ifSpi s.ifaces.cfg k != 0 then .configured else .high
  | .gpio k =>
    if ¬ s.applied then .input 0
    else if bit s.ifaces.gpioDir k then .of (bit s.ifaces.gpioOut k)
    else .input (bits (field (ifGpio s.ifaces.cfg) 8 8) (2 * k + 1) (2 * k))
  | .tmux n =>
    let sig := s.reg R.DBG_TMUX_SEL_SIG n
    if sig = 0 then .highZ
    else match s.tmuxLevel sig (s.reg R.DBG_TMUX_SEL_ARG n) with
      | some b => .of b
      | none => .configured
  | .tdo => .highZ

/-- What a pad shows; `rail` says whether its I/O supply is there.  In power-on reset the always-on pads are undriven but for
SAFE_FAULT_N, which is held low; the others keep what Table 3.8 gives from their supply on.  EXTEST drives every output but the
observe-only ones. -/
def State.pad (s : State) (rail : Bool) (p : Pin) : PadState :=
  if p.alwaysOn then
    if s.boot.phase = .por then (if p = .safeFaultN then .low else .undriven) else s.padDriven p
  else if ¬ rail then .undriven
  else if s.dbg.extest ∧ p ≠ .tdo then .boundaryCell
  else s.padDriven p

end Sys2Proof.Machine
end

