-- ==== Sys2Proof/Tests/Slice0.lean ====
section
/-!
SUPPORT. Tests: terms that WellFormed refuses, single commands on small states with results worked out by hand from the spec, and for
every statement a state and operands that meet its hypotheses, clause by clause.
-/

set_option Elab.async false
set_option linter.unusedVariables false

open Sys2Proof Sys2Proof.Machine

/-- Registers set, each by its field, its first index and its value. -/
def Sys2Proof.Machine.State.sets (s : State) (l : List (RegRow × Nat × Nat)) : State :=
  l.foldl (fun s x => s.setReg x.1 x.2.2 x.2.1) s

namespace Sys2Proof.Tests

/-! ### Small states -/

/-- The machine after power-on reset with every register word 0: a small state to build others from. -/
def blank : State := { State.reset with regs := [] }

/-- A start in step `k`. -/
def starting (k : Nat) : State := { blank.setReg R.BOOT_STATUS_STEP k with boot.phase := .step }

/-- In service, with PMIC_PG high. -/
def inService : State :=
  { blank.sets [(R.TOP_SVC_STATE, 0, 1), (R.PWR_PMIC_PG, 0, 1)] with boot.phase := .idle, hub.faultN := true }

/-- In SAFE, with PMIC_PG high. -/
def inSafe : State := { blank.sets [(R.TOP_SVC_STATE, 0, 2), (R.PWR_PMIC_PG, 0, 1)] with boot.phase := .idle }

/-- A byte string of `n` bytes with little-endian fields, each an offset, a length and a value. -/
def mk (n : Nat) (l : List (Nat × Nat × Nat)) : List Byte :=
  (List.range n).map fun i => match l.find? fun x => decide (x.1 ≤ i ∧ i < x.1 + x.2.1) with
    | some x => BitVec.ofNat 8 (x.2.2 / 256 ^ (i - x.1))
    | none => 0#8

/-- An image with sections of given types and bytes. -/
def imageOf (l : List (Nat × List Byte)) : Image := ⟨[], [], l.map fun x => ⟨x.1, 0, x.2⟩⟩

/-- A command of an opcode and class under execution, with the words after its header. -/
def cmd (op cls : Nat) (ws : List Nat) : Cmd :=
  { id := 1, queue := 40, thread := 0, part := 0, seqno := 0, depth := 0, offset := 0, root := 1
    words := (op + 4096 * cls) :: ws, stage := .exec }

/-- Sequencers and engines run, and a command is under execution. -/
def runs (c : Cmd) : State := { blank with running := true, cmds := [c], nextId := 2 }

/-- The state a step goes on to. -/
def nx (o : Host.Outcome State Fault Refusal) : State := match o with
  | .next t => t
  | _ => blank

/-- Flash with an eligible header in slot A. -/
def eligibleFlash : List Host.Cell :=
  let h := mk 0xF8 [(0, 8, 0x3130444C4F4E454A), (8, 2, 1), (0xA, 2, 0x100), (0x10, 4, 7), (0x16, 2, 0x0480)]
  let b := h ++ leBytes 4 (crc32 h)
  (List.range 252).filterMap fun i => if b.getD i 0#8 = 0#8 then none else some (i, b.getD i 0#8)

/-- Queue 511 in a state, with S = 2^`lg`, RPTR 0 where `w` is above it, and WPTR. -/
def ringOf (st lg w r : Nat) : State :=
  blank.sets [(R.QUE_STATE_STATE, 511, st), (R.QUE_CFG_LOG2_SLOTS, 511, lg), (R.QUE_WPTR_WPTR, 511, w), (R.QUE_RPTR_RPTR, 511, r)]

/-- Queue `q` in a state, empty, with S = 2^`lg`. -/
def ringAt (q st lg : Nat) : State := blank.sets [(R.QUE_STATE_STATE, q, st), (R.QUE_CFG_LOG2_SLOTS, q, lg)]

/-- A PARTITIONS section with one partition, which holds every core and pair. -/
def part0 : List Byte := mk 320 [(0, 1, 1), (66, 2, 0xFFFF), (68, 1, 0xFF), (0x4C, 2, 0x3FF)]

/-- Command `id` is executed with a status, a DETAIL and units. -/
def isExec (s : State) (id status detail units : Nat) : Bool :=
  (s.cmd? id).any fun c => c.stage == .done && c.status == status && c.detail == detail && c.units == units

/-- The PARTITIONS section `part0` with one PERMIT entry. -/
def partPermit (o : Nat) : List Byte := mk 320 [(0, 1, 1), (66, 2, 0xFFFF), (68, 1, 0xFF), (0x4C, 2, 0x3FF), (64 + 0x88, 4, o)]

/-- A PARTITIONS section with one partition, the client 7 on every interface with every right, and the stream route 0 of queues 40 and 511. -/
def clientRoute : List Byte :=
  mk 368 [(0, 1, 1), (1, 1, 1), (2, 1, 1), (66, 2, 0xFFFF), (68, 1, 0xFF), (0x4C, 2, 0x3FF), (320, 2, 7), (322, 1, 0xFF), (323, 1, 3),
    (324, 1, 1), (340, 2, 40), (342, 2, 511), (348, 4, 64), (364, 2, 1)]

/-- A VISION section: receiver 7; stream 15 of it, of one line of two samples, with FLAGS `fl`; SAFETY channel 31 of it; and lidar
intake 3 from queue 40 with FLAGS `lf`. -/
def visSection (fl lf : Nat) : List Byte :=
  mk 512 [(0, 1, 1), (1, 1, 1), (2, 1, 1), (64 + 16 * 7, 1, 1), (192, 1, 15), (193, 1, 7), (195, 1, 0x2C), (197, 1, 1), (198, 2, 2),
    (200, 2, 1), (203, 1, fl), (0xC0 + 0x48, 4, 64), (0xC0 + 0x3F, 1, 1), (320, 1, 31), (322, 1, 15), (323, 1, 2), (448, 1, 3),
    (450, 2, 40), (448 + 0x21, 1, lf)]

/-- The vision engine runs with the section above. -/
def seeing : State := { inService.setReg R.VFE_STATUS_RUN 1 with image := some (imageOf [(6, visSection 0 0)]) }

/-- A computation ended well. -/
def okEff (x : Except Done Unit × State) : Bool := match x.1 with
  | .ok _ => true
  | .error _ => false

theorem ok_pair (x : Except Done Unit × State) (h : okEff x = true) : x = (.ok (), x.2) := by
  obtain ⟨r, s⟩ := x
  cases r with
  | ok a => rfl
  | error d => cases h

/-- A computation ended with a failure. -/
def errEff (x : Except Done Unit × State) (d : Done) : Bool := match x.1 with
  | .ok _ => false
  | .error e => e == d

theorem err_pair (x : Except Done Unit × State) (d : Done) (h : errEff x d = true) : x = (.error d, x.2) := by
  obtain ⟨r, s⟩ := x
  cases r with
  | ok a => cases h
  | error e => simp only [errEff, beq_iff_eq] at h; rw [h]


/-! ### WellFormed: one ill-formed term for each check -/

/-- Comparators, cores and time messages that do not exist. -/
theorem test_ill_formed_start :
    ([.islandStep 0 true [9],
      .bistStep 0 [16],
      .syncReceived 0 [⟨2, 0, 0, 0⟩],
      .fgFramePending 0 32,
      .fgDeadline 0 32,
      .fgDescriptorEmit 0 32] : List Instr).all (fun c => !c.wf) = true := by decide

/-- Threads, queues, partitions, engine classes and addresses that do not exist. -/
theorem test_ill_formed_threads_and_queues :
    ([.commandPick 0 [64],
      .cqRecordRelease 0 512,
      .jobWatchdogExpire 0 4,
      .deadlockDetect 0 4,
      .threadWatchdogExpire 0 64,
      .engineHeartbeatLoss 0 0 0 0,
      .engineHeartbeatLoss 0 10 0 0,
      .networkTimeout 0 1 0 (2 ^ 48) .request,
      .responseItem 0 512] : List Instr).all (fun c => !c.wf) = true := by decide

/-- Receivers, virtual channels, data types, streams, item kinds, channels and lidar intakes that do not exist. -/
theorem test_ill_formed_intake :
    ([.csi2FrameStart 0 8 0 0 0 false,
      .csi2FrameStart 0 0 16 0 0 false,
      .csi2FrameStart 0 0 0 (2 ^ 16) 0 false,
      .csi2LinePacket 0 8 0 0 [] true false 0,
      .csi2LinePacket 0 0 16 0 [] true false 0,
      .csi2LinePacket 0 0 0 64 [] true false 0,
      .csi2FrameEnd 0 8 0 0 false,
      .csi2FrameEnd 0 0 16 0 false,
      .csi2FrameEnd 0 0 0 (2 ^ 16) false,
      .csi2PacketDiscard 0 8 true,
      .streamWatchdogExpire 0 16,
      .visionItemComplete 0 5 0,
      .visionKat 0 32 true,
      .lidarPacketParse 0 4,
      .scanTimeout 0 4,
      .lidarWatchdogExpire 0 4] : List Instr).all (fun c => !c.wf) = true := by decide

/-- Faults of cores and bits that do not exist. -/
theorem test_ill_formed_tensor :
    ([.tcMma 0 0 [.weight 16 0 0 0 0],
      .tcTranspose 0 0 [.weight 0 0 0 0 32],
      .tcVop 0 0 [.drain 16 0 0 0 0],
      .tcVreduce 0 0 [.drain 0 0 0 0 32],
      .tcSoftmax 0 0 [.checker 16 true],
      .tcNorm 0 0 [.feed 16 0 0],
      .tcSelftest 0 0 [.residue 16 0],
      .tcConv 0 0 [.parity 16 0],
      .tcWconv 0 0 [.kat 16],
      .tcWxform 0 0 [.kat 16],
      .tcS2d 0 0 [.checker 16 false],
      .tcD2s 0 0 [.residue 16 1]] : List Instr).all (fun c => !c.wf) = true := by decide

/-- RAMs, report lengths, rates, patrol counts, addresses and gather units that do not exist. -/
theorem test_ill_formed_memories :
    ([.refreshReportRead 0 (List.replicate 31 0),
      .refreshReportRead 0 (List.replicate 32 4),
      .scrubWindow 0 18 0,
      .scrubWindow 0 0x110 0,
      .scrubForced 0 0xFF,
      .patrolRead 0 0,
      .linkEccReissue 0 (2 ^ 48) true .request,
      .embGather 0 0 [⟨4, 0, false⟩],
      .embPut 0 0 [⟨4, 0, true⟩]] : List Instr).all (fun c => !c.wf) = true := by decide

/-- Ports, captures, channels, pins and outputs that do not exist. -/
theorem test_ill_formed_sound_and_meter :
    ([.sampleFrame 0 [] false false false false [6],
      .portLockLoss 0 6,
      .portRelock 0 6,
      .portFirstLock 0 6,
      .rateSwitch 0 6,
      .slaveRateSettle 0 6,
      .hopComplete 0 4,
      .channelFault 0 10 true,
      .overload 0 10 true,
      .pulseInputAccept 0 4,
      .pulseInputEdge 0 4 true 0,
      .pulseOutputTimer 0 2] : List Instr).all (fun c => !c.wf) = true := by decide

/-- Rails, domains, clocks, sensors, PLLs, pairs, and register words that do not exist. -/
theorem test_ill_formed_supplies :
    ([.railMonitorFault 0 6 true,
      .domainPowerGoodTimeout 0 0,
      .domainPowerGoodTimeout 0 15,
      .clockMonitorWindow 0 0 0,
      .clockMonitorWindow 0 26 0,
      .thermalReading 0 [],
      .pllLossOfLock 0 11 true,
      .lockstepMismatch 0 9,
      .counterLowWordRead 0 (2 ^ 48),
      .counterLowWordRead 0 2,
      .registerWrite 0 (2 ^ 48) 0 0,
      .registerWrite 0 2 0 0,
      .registerWrite 0 0 (2 ^ 32) 0,
      .registerWrite 0 0 0 (2 ^ 32)] : List Instr).all (fun c => !c.wf) = true := by decide

/-- Ports, controllers, identifiers, doorbell values, debug codes and fuse values that do not exist. -/
theorem test_ill_formed_links_and_debug :
    ([.ethFrameReceive 0 2 0 [],
      .ethLinkChange 0 2 true,
      .reassemblyTimeout 0 2,
      .responseSend 0 7,
      .canFrameReceive 0 4 0 false true [],
      .canFrameReceive 0 0 (2 ^ 29) true true [],
      .canFrameReceive 0 0 0 false true (List.replicate 65 0#8),
      .canGapTimeout 0 4,
      .canBusOff 0 4 0,
      .canBusOff 0 0 3,
      .reqDoorbell 0 (2 ^ 32) [],
      .rspRptrWrite 0 (2 ^ 32),
      .linkTrainingAttempt 0 2 0 none,
      .linkFrameReceive 0 2 [],
      .linkAckTimeout 0 2,
      .bypass 0 32,
      .dbgAcc 0 (2 ^ 48) 0 0,
      .dbgAcc 0 0 (2 ^ 32) 0,
      .dbgAcc 0 0 0 4,
      .fuse 0 .svn [] true,
      .tmuxSelWrite 0 16 0,
      .tmuxSelWrite 0 0 (2 ^ 32)] : List Instr).all (fun c => !c.wf) = true := by decide

/-- A command of every kind of check, at the edge of its range. -/
theorem test_well_formed_edges :
    ([.islandStep 0 true [8], .commandPick 0 [63], .csi2FrameStart 0 7 15 0xFFFF 0 false, .lidarPacketParse 0 3,
      .tcMma 0 0 [.weight 15 0 0 0 31], .scrubWindow 0 0x10F 0, .domainPowerGoodTimeout 0 14, .clockMonitorWindow 0 25 0,
      .fuse 0 .svn (List.replicate 4 0#8) true, .bypass 0 31] : List Instr).all Instr.wf = true := by decide

/-- No row of the table gives its command bits, so no word spells one. -/
theorem test_no_word_spells_a_command : decodeTableWord 32 0 = none ∧ decodeTableWord 8 0xFF = none := by decide

/-! ### Single commands: results worked out by hand from the spec -/

/-- From 03_jenold_image_and_start.md, 16_reset_and_recovery.md, 18_supplies_power_clocks.md. -/
theorem test_step_timeout_code_and_retry :
    let s : State := { (starting 2).setReg R.BOOT_STATUS_WARM 1 with tick := 125001 }
    let e : State := s.elapse 0
    let t : State := nx (exec (.startStepTimeout 0) s)
    t.boot.phase = .retry ∧
    t.boot.since = t.tick ∧
    t.reg R.BOOT_FAIL_CODE = 0x11 ∧
    t.reg R.BOOT_FAIL_STEP = 2 ∧
    t.svc = 0 ∧
    t.running = false := by decide +kernel

/-- From 03_jenold_image_and_start.md, 16_reset_and_recovery.md, 18_supplies_power_clocks.md. -/
theorem test_warm_start_begins_at_select :
    let s : State := { inSafe with boot := { phase := .idle, warmDue := true } }
    let e : State := s.elapse 0
    let t : State := nx (exec (.warmStart 0) s)
    t.svc = 0 ∧
    t.boot.phase = .step ∧
    t.reg R.BOOT_STATUS_STEP = 2 ∧
    t.warm = true ∧
    t.reg R.BOOT_TALLY_WARM = 1 ∧
    t.boot.warmDue = false := by decide +kernel

/-- From 02_orbit_time_and_fusion_groups.md, 03_jenold_image_and_start.md. -/
theorem test_done_enters_service :
    let s : State := (starting 0xA).setReg R.TIME_STATUS_ARMED 1
    let e : State := s.elapse 0
    let t : State := nx (exec (.startDone 0) s)
    t.svc = 1 ∧
    t.hub.faultN = true ∧
    t.boot.phase = .idle ∧
    t.reg R.BOOT_STATUS_STEP = 0xF ∧
    t.reg R.SAFE_STATUS_LATCH = 0 ∧
    t.reg R.BOOT_STATUS_FAILS = 0 := by decide +kernel

/-- From 18_supplies_power_clocks.md. -/
theorem test_temperature_is_signed :
    let s : State := (inService.setReg R.PWR_DOMAINS_ON 1).setReg R.CLK_THERM_CFG_T_TRIP 125
    let e : State := s.elapse 0
    let t : State := nx (exec (.thermalReading 0 [-4]) s)
    signed 16 (t.reg R.PWR_TEMP_T 0) = -4 ∧
    t.inExcursion 0x83 0 = false := by decide +kernel

/-- From 18_supplies_power_clocks.md. -/
theorem test_throttle_takes_one_level :
    let s : State := { inService.sets [(R.PWR_DOMAINS_ON, 0, 1), (R.CLK_THERM_CFG_T_TRIP, 0, 125), (R.CLK_THERM_CFG_T_THROT, 0, 115), (R.CLK_TC_MAX_MHZ, 0, 1100)] with power.ladder := true }
    let e : State := s.elapse 0
    let t : State := nx (exec (.thermalReading 0 [460]) s)
    t.reg R.CLK_TC_FREQ_LEVEL 0 = 1 ∧
    t.reg R.CLK_TC_FREQ_MHZ 0 = 1000 ∧
    signed 16 (t.reg R.PWR_TEMP_T 0) = 460 := by decide +kernel

/-- From 18_supplies_power_clocks.md. -/
theorem test_main_loss_warns :
    let s : State := (inService.setReg R.PWR_AON_BAK_VALID 1).setReg R.PWR_AON_ON_BAK 1
    let e : State := s.elapse 0
    let t : State := nx (exec (.aonInputFail 0 true) s)
    t.aonValid true = false ∧
    t.flag R.PWR_AON_WARN = true ∧
    t.reg R.PWR_WARNINGS_COUNT = 1 := by decide +kernel

/-- From 18_supplies_power_clocks.md. -/
theorem test_main_return_switches_back :
    let s : State := { inService.setReg R.PWR_AON_ON_BAK 1 with power.mainSince := some 0, tick := 2500000 }
    let e : State := s.elapse 0
    let t : State := nx (exec (.aonBackToMain 0) s)
    t.flag R.PWR_AON_ON_BAK = false ∧
    t.reg R.PWR_AON_SWITCHES_COUNT = 1 := by decide +kernel

/-- From 02_orbit_time_and_fusion_groups.md. -/
theorem test_port_switch_counts :
    let s : State := { inService.sets [(R.TIME_CFG_PORT_SEL, 0, 2), (R.TIME_STATUS_STATE, 0, 1)] with orbit.port0 := ⟨77, some 0, 10⟩, orbit.port1 := ⟨77, some 20, 10⟩, tick := 20 }
    let e : State := s.elapse 0
    let t : State := nx (exec (.syncReceiptTimeout 0) s)
    t.reg R.TIME_STATUS_PORT = 1 ∧
    t.reg R.TIME_STATUS_STATE = 1 ∧
    t.reg R.TIME_TALLY_PORT_SWITCH = 1 := by decide +kernel

/-- From 15_safety_mechanisms.md. -/
theorem test_pair_splits :
    let s : State := { inService with hub.handover := some ⟨7, 0⟩, image := some (imageOf [(2, part0)]) }
    let e : State := s.elapse 0
    let t : State := nx (exec (.splitHandoverComplete 0 false) s)
    t.flag R.SAFE_PAIR_STAT_SPLIT 7 = true ∧
    t.flag R.SAFE_PAIR_STAT_PAUSING 7 = false ∧
    t.hub.handover = none := by decide +kernel

/-- From 15_safety_mechanisms.md. -/
theorem test_safe_latches_twice :
    let s : State := inService
    let t : State := nx (Host.Outcome.next (s.raise 0xFF 0 0))
    t.latched 0xFF = true := by decide +kernel

/-- From 15_safety_mechanisms.md. -/
theorem test_class_s_fault_enters_safe :
    let s : State := inService.sets [(R.SAFE_FAULT_CFG_REACT, 0x50, 1)]
    let t : State := nx (Host.Outcome.next (s.raise 0x50 3 4))
    t.svc = 2 ∧
    t.hub.faultN = false ∧
    t.cmds = [] ∧
    t.threads = [] ∧
    t.running = false := by decide +kernel

/-- From 04_queues_commands_events.md. -/
theorem test_signal_adds :
    let c : Cmd := cmd 1 0 [3 + 2^32, 3 + 2^33, 2^12, 0]
    let s : State := runs (cmd 1 0 [3 + 2^32, 3 + 2^33, 2^12, 0])
    let e : State := s.elapse 0
    let t : State := nx (exec (.seqSignal 0 1) s)
    isExec t 1 0 0 0 ∧
    t.event 3 = 3 := by decide +kernel

/-- From 04_queues_commands_events.md. -/
theorem test_signal_wraps :
    let c : Cmd := cmd 3 0 [3 + 2^32 * (2^32 - 1)]
    let s : State := runs (cmd 3 0 [3 + 2^32 * (2^32 - 1)])
    let e : State := s.elapse 0
    let t : State := nx (exec (.seqSetEvent 0 1) s)
    isExec t 1 0 0 0 ∧
    t.event 3 = 2^32 - 1 := by decide +kernel

/-- From 04_queues_commands_events.md. -/
theorem test_wait_timeout_status :
    let c : Cmd := { cmd 2 0 [3 + 2^32 * 2, 100] with stage := .waitEvent, limit := some 0 }
    let s : State := runs { cmd 2 0 [3 + 2^32 * 2, 100] with stage := .waitEvent, limit := some 0 }
    let e : State := s.elapse 0
    let t : State := nx (exec (.seqWaitTimeout 0 1) s)
    isExec t 1 0x1C 0 0 := by decide +kernel

/-- From 04_queues_commands_events.md. -/
theorem test_reg_read_stores_little_endian :
    let a := R.TOP_ID_PART.at 0 0
    let c : Cmd := cmd 6 0 [a, 0x1000]
    let s : State := { (runs (cmd 6 0 [a, 0x1000])).setReg R.TOP_ID_PART 0x0480 with image := none }
    let e : State := s.elapse 0
    let t : State := nx (exec (.seqRegRead 0 1) s)
    isExec t 1 0 0 0 ∧
    t.byte 0x1004 = 0 ∧
    t.byte 0x1001 = 4 := by decide +kernel

/-- From 04_queues_commands_events.md. -/
theorem test_write_stores_two_words :
    let a := 0x1000
    let c : Cmd := cmd 7 0 [a, 2, 7, 9]
    let s : State := runs (cmd 7 0 [a, 2, 7, 9])
    let e : State := s.elapse 0
    let t : State := nx (exec (.seqMemWrite 0 1) s)
    isExec t 1 0 0 0 ∧
    t.load a 8 = 7 ∧
    t.load (a + 8) 8 = 9 := by decide +kernel

/-- From 04_queues_commands_events.md. -/
theorem test_full_ring_doorbell_rejected :
    let c : Cmd := cmd 12 0 [511 + 2^16 * 18]
    let s : State := { ringOf qStopped 4 1 1 with running := true, cmds := [cmd 12 0 [511 + 2^16 * 18]] }
    let e : State := s.elapse 0
    let t : State := nx (exec (.seqDoorbell 0 1) s)
    isExec t 1 7 0 0 ∧
    t.wptr 511 = 1 := by decide +kernel

/-- From 04_queues_commands_events.md. -/
theorem test_nested_call_too_deep :
    let c : Cmd := { cmd 8 0 [0x1000, 4] with depth := 4 }
    let s : State := runs { cmd 8 0 [0x1000, 4] with depth := 4 }
    let e : State := s.elapse 0
    let t : State := nx (exec (.seqCall 0 1) s)
    isExec t 1 0x1D 0 0 := by decide +kernel

/-- From 04_queues_commands_events.md. -/
theorem test_loop_counts_down :
    let c : Cmd := { cmd 11 0 [3 + 2^32 * (2^32 - 1)] with depth := 1, offset := 1 }
    let s : State := { (runs { cmd 11 0 [3 + 2^32 * (2^32 - 1)] with depth := 1, offset := 1 }).setReg R.SEQ_LOOP_COUNT 2 0 3 with threads := [(0, { frames := [⟨0, 0x1000, 2, 2⟩] })] }
    let e : State := s.elapse 0
    let t : State := nx (exec (.seqLoop 0 1) s)
    isExec t 1 0 0 0 ∧
    (t.thread 0).frames = [⟨0, 0x1000, 2, 0⟩] ∧
    t.reg R.SEQ_LOOP_COUNT 0 3 = 1 := by decide +kernel

/-- From 04_queues_commands_events.md. -/
theorem test_loop_without_count :
    let c : Cmd := { cmd 9 0 [1 + 2^33, 0, 1] with depth := 1 }
    let s : State := { runs { cmd 9 0 [1 + 2^33, 0, 1] with depth := 1 } with threads := [(0, { frames := [⟨0, 0x1000, 2, 2⟩] })] }
    let e : State := s.elapse 0
    let t : State := nx (exec (.seqBranch 0 1) s)
    isExec t 1 0x1E 0 0 := by decide +kernel

/-- From 04_queues_commands_events.md. -/
theorem test_stop_keeps_pointers :
    let c : Cmd := cmd 13 0 [511]
    let s : State := { ringOf qIdle 4 1 1 with running := true, cmds := [cmd 13 0 [511]] }
    let e : State := s.elapse 0
    let t : State := nx (exec (.queueStop 0 1) s)
    isExec t 1 0 0 0 ∧
    t.qState 511 = qStopped ∧
    t.wptr 511 = 1 := by decide +kernel

/-- From 04_queues_commands_events.md. -/
theorem test_reset_bumps_generation :
    let c : Cmd := cmd 13 0 [511 + 3 * 2^16]
    let s : State := { ringOf qActive 4 2 0 with running := true, cmds := [cmd 13 0 [511 + 3 * 2^16]] }
    let e : State := s.elapse 0
    let t : State := nx (exec (.queueFlush 0 1) s)
    isExec t 1 0 0 0 ∧
    t.gen 511 = 1 ∧
    t.wptr 511 = 2 ∧
    t.rptr 511 = 0 := by decide +kernel

/-- From 04_queues_commands_events.md. -/
theorem test_control_of_other_partition :
    let c : Cmd := cmd 13 0 [511 + 5 * 2^16 + 3 * 2^32]
    let s : State := { ringOf qActive 4 2 0 with running := true, cmds := [cmd 13 0 [511 + 5 * 2^16 + 3 * 2^32]] }
    let e : State := s.elapse 0
    let t : State := nx (exec (.queueRelease 0 1) s)
    isExec t 1 0x14 0 0 := by decide +kernel

/-- From 04_queues_commands_events.md. -/
theorem test_abort_unknown_seqno :
    let c : Cmd := cmd 14 0 [511, 4, 0]
    let s : State := { (ringOf qActive 4 2 2).setReg R.QUE_SEQNO_NEXT 5 511 with running := true, cmds := [cmd 14 0 [511, 4, 0]] }
    let e : State := s.elapse 0
    let t : State := nx (exec (.seqAbort 0 1) s)
    isExec t 1 0 2 0 := by decide +kernel

/-- From 05_partitions_jobs_bandwidth.md, 16_reset_and_recovery.md. -/
theorem test_late_response_counts :
    let s : State := inService
    let e : State := s.elapse 0
    let t : State := nx (exec (.lateResponse 0) s)
    t.reg R.RST_LATE_RESP_COUNT = 1 := by decide +kernel

/-- From 06_vision_and_range_intake.md. -/
theorem test_frame_end_counts :
    let s : State := { seeing with vis.streams := [(15, { frame := some { fn := 3, fs := 0, quality := 0, lines := [[1, 2]], stamps := [0] } })] }
    let e : State := s.elapse 0
    let t : State := nx (exec (.csi2FrameEnd 0 7 0 3 false) s)
    (t.visStr 15).frame = none ∧
    t.reg R.VFE_STR_FRAMES_COUNT 15 = 1 := by decide +kernel

/-- From 06_vision_and_range_intake.md. -/
theorem test_item_bytes_after_header :
    let i : VisItem := { kind := 4, source := 31, buf := 0, addr := 0x1000, fn := 0, flags := 0, fs := 0, ref := 0, quality := 1, w := 1, h := 1, c := 1, dtype := 0, body := [5#8, 6#8] }
    let s : State := { inService with vis.items := [{ kind := 4, source := 31, buf := 0, addr := 0x1000, fn := 0, flags := 0, fs := 0, ref := 0, quality := 1, w := 1, h := 1, c := 1, dtype := 0, body := [5#8, 6#8] }] }
    let e : State := s.elapse 0
    let t : State := nx (exec (.visionItemComplete 0 4 31) s)
    t.bytes 0x1040 2 = [5#8, 6#8] ∧
    t.load 0x1000 8 = 4 + 2 ^ 8 * 31 + 2 ^ 16 * 1 ∧
    t.byte (i.addr + 66) = 0 := by decide +kernel

/-- From 06_vision_and_range_intake.md. -/
theorem test_hold_marks_buffer :
    let c : Cmd := cmd 0x51 3 [4 + 2^8 * 31, 9, 0x1000]
    let s : State := { runs (cmd 0x51 3 [4 + 2^8 * 31, 9, 0x1000]) with vis.sources := [(256 * 4 + 31, { items := [(2, 9)] })] }
    let e : State := s.elapse 0
    let t : State := nx (exec (.vfeHold 0 1) s)
    isExec t 1 0 0 0 ∧
    (t.visSource 4 31).held = [2] ∧
    t.load (c.addr 3) 8 = 0 := by decide +kernel

/-- From 07_tensor_core.md, 08_convolution_mapping.md. -/
theorem test_mma_int8_products :
    let c : Cmd := cmd 0x21 2 [2^36, 0x100 + 2^36, 0x200 + 2^36, 0, 0, 0, 1 + 2^20 * 2 + 2^36 * 2, 0x400 + 2^32]
    let s : State := { runs (cmd 0x21 2 [2^36, 0x100 + 2^36, 0x200 + 2^36, 0, 0, 0, 1 + 2^20 * 2 + 2^36 * 2, 0x400 + 2^32]) with mem := [(0xE000000000, 3#8), (0xE000000001, 255#8), (0xE000000100, 1#8), (0xE000000101, 2#8), (0xE000000110, 4#8), (0xE000000111, 5#8)] }
    let e : State := s.elapse 0
    let t : State := nx (exec (.tcMma 0 1 []) s)
    isExec t 1 0 0 0 ∧
    t.load 0xE000000200 4 = 2^32 - 1 ∧
    t.load 0xE000000204 4 = 1 := by decide +kernel

/-- From 07_tensor_core.md, 08_convolution_mapping.md. -/
theorem test_tensor_transpose :
    let c : Cmd := cmd 0x23 2 [0x10 + 2^36, 0, 0x100 + 2^36, 1 + 2^16 * 2, 0, 1]
    let s : State := { runs (cmd 0x23 2 [0x10 + 2^36, 0, 0x100 + 2^36, 1 + 2^16 * 2, 0, 1]) with mem := [(0xE000000010, 7#8), (0xE000000011, 9#8)] }
    let e : State := s.elapse 0
    let t : State := nx (exec (.tcTranspose 0 1 []) s)
    isExec t 1 0 0 0 ∧
    t.load 0xE000000100 1 = 7 ∧
    t.load 0xE000000110 1 = 9 := by decide +kernel

/-- From 07_tensor_core.md, 08_convolution_mapping.md. -/
theorem test_negate_saturates :
    let c : Cmd := cmd 0x24 2 [0x10 + 2^36, 0, 0x100 + 2^36, 1 + 2^16 * 2 + 2^44 * 0xA, 0, 1]
    let s : State := { runs (cmd 0x24 2 [0x10 + 2^36, 0, 0x100 + 2^36, 1 + 2^16 * 2 + 2^44 * 0xA, 0, 1]) with mem := [(0xE000000010, 7#8), (0xE000000011, 128#8)] }
    let e : State := s.elapse 0
    let t : State := nx (exec (.tcVop 0 1 []) s)
    isExec t 1 0 0 0 ∧
    t.load 0xE000000100 1 = 249 ∧
    t.load 0xE000000101 1 = 127 := by decide +kernel

/-- From 07_tensor_core.md, 08_convolution_mapping.md. -/
theorem test_reduce_uint8 :
    let c : Cmd := cmd 0x25 2 [0x10 + 2^36, 0, 0x100 + 2^36, 1 + 2^16 * 2, 0, 1]
    let s : State := { runs (cmd 0x25 2 [0x10 + 2^36, 0, 0x100 + 2^36, 1 + 2^16 * 2, 0, 1]) with mem := [(0xE000000010, 7#8), (0xE000000011, 128#8)] }
    let e : State := s.elapse 0
    let t : State := nx (exec (.tcVreduce 0 1 []) s)
    isExec t 1 0 0 0 ∧
    t.load 0xE000000100 1 = 135 := by decide +kernel

/-- From 07_tensor_core.md, 08_convolution_mapping.md. -/
theorem test_convolution_int8 :
    let c : Cmd := cmd 0x30 2 [2^36, 0x100 + 2^36, 0x200 + 2^36, 0, 0, 0, 1 + 2^13 + 2^26 * 2 + 2^42, 0x400 + 2^32, 0x111100, 2^16 * 16 + 2^32 * 16, 0]
    let s : State := { runs (cmd 0x30 2 [2^36, 0x100 + 2^36, 0x200 + 2^36, 0, 0, 0, 1 + 2^13 + 2^26 * 2 + 2^42, 0x400 + 2^32, 0x111100, 2^16 * 16 + 2^32 * 16, 0]) with mem := [(0xE000000000, 3#8), (0xE000000001, 255#8), (0xE000000100, 1#8), (0xE000000110, 4#8)] }
    let e : State := s.elapse 0
    let t : State := nx (exec (.tcConv 0 1 []) s)
    isExec t 1 0 0 0 ∧
    t.load 0xE000000200 4 = 2^32 - 1 := by decide +kernel

/-- From 07_tensor_core.md, 08_convolution_mapping.md. -/
theorem test_space_to_depth_pads :
    let c : Cmd := cmd 0x33 2 [0x10 + 2^36, 0, 0x200 + 2^36, 1 + 2^13 * 2 + 2^26 + 2^42, 5 + 2^16 + 2^32 * 4, 1]
    let s : State := { runs (cmd 0x33 2 [0x10 + 2^36, 0, 0x200 + 2^36, 1 + 2^13 * 2 + 2^26 + 2^42, 5 + 2^16 + 2^32 * 4, 1]) with mem := [(0xE000000010, 7#8), (0xE000000011, 8#8)] }
    let e : State := s.elapse 0
    let t : State := nx (exec (.tcS2d 0 1 []) s)
    isExec t 1 0 0 0 ∧
    t.load 0xE000000200 4 = 0x05050807 := by decide +kernel

/-- From 07_tensor_core.md, 08_convolution_mapping.md. -/
theorem test_depth_to_space :
    let c : Cmd := cmd 0x34 2 [0x10 + 2^36, 0, 0x200 + 2^36, 1 + 2^13 + 2^26 * 4 + 2^42, 2^16 * 4 + 2^32, 1]
    let s : State := { runs (cmd 0x34 2 [0x10 + 2^36, 0, 0x200 + 2^36, 1 + 2^13 + 2^26 * 4 + 2^42, 2^16 * 4 + 2^32, 1]) with mem := [(0xE000000010, 7#8), (0xE000000012, 9#8)] }
    let e : State := s.elapse 0
    let t : State := nx (exec (.tcD2s 0 1 []) s)
    isExec t 1 0 0 0 ∧
    t.load 0xE000000200 2 = 7 ∧
    t.load 0xE000000210 2 = 9 := by decide +kernel

/-- From 07_tensor_core.md. -/
theorem test_dot_product_uint8_int4 :
    
    dotAcc 0 2 [3, 255] [1, 15] 7 = 11 := by decide +kernel

/-- From 09_memory_scratchpad_dram.md. -/
theorem test_hot_memory_refresh :
    let s : State := blank.sets [(R.MEMC_STATUS_TRAINED, 0, 1), (R.PWR_PMIC_PG, 0, 1), (R.MEMC_STATUS_RATE, 0, 2)]
    let e : State := s.elapse 0
    let t : State := nx (exec (.refreshReportRead 0 (List.replicate 32 2)) s)
    (∀ ch ∈ List.range 32, t.reg R.MEMC_CH_RATE_RATE ch = 2) ∧
    t.reg R.MEMC_STATUS_RATE = 2 ∧
    t.inExcursion 0x55 0 = false := by decide +kernel

/-- From 09_memory_scratchpad_dram.md. -/
theorem test_uncorrectable_word_poisons :
    let s : State := { blank with image := some (imageOf [(5, mk 32 [(0, 1, 1), (24, 4, 64)])]), health := [(8, .uncorrectable)], hub.latches := [{ src := 0x53, inst := 0, react := 0, detail := 0, time := 0, quality := 0, first := true, before := 0, after := 0, tick := 0 }] }
    (s.readMem 0 9).1 = some 8 ∧
    Sparse.get Health.good (s.readMem 0 9).2.health 8 = .poisoned ∧
    (s.readMem 0 9).2.reg R.MEMC_LAST_UE_ADDR_ADDR = 8 := by decide +kernel

/-- From 09_memory_scratchpad_dram.md. -/
theorem test_copy_three_bytes :
    let c : Cmd := cmd 0x40 1 [0x1000, 0x2000, 3]
    let s : State := { runs (cmd 0x40 1 [0x1000, 0x2000, 3]) with mem := [(0x1000, 1#8), (0x1002, 2#8)] }
    let e : State := s.elapse 0
    let t : State := nx (exec (.copyLinear 0 1) s)
    isExec t 1 0 0 3 ∧
    t.bytes 0x2000 3 = [1#8, 0#8, 2#8] ∧
    t.byte 0x2003 = 0#8 := by decide +kernel

/-- From 09_memory_scratchpad_dram.md. -/
theorem test_copy_strided_rows :
    let c : Cmd := cmd 0x41 1 [0x1000, 0x2000, 1, 2 + 2^24 * 2, 4, 8, 0x10, 0x20]
    let s : State := { runs (cmd 0x41 1 [0x1000, 0x2000, 1, 2 + 2^24 * 2, 4, 8, 0x10, 0x20]) with mem := [(0x1000, 1#8), (0x1004, 2#8), (0x1010, 3#8), (0x1014, 4#8)] }
    let e : State := s.elapse 0
    let t : State := nx (exec (.copyStrided 0 1) s)
    isExec t 1 0 0 4 ∧
    t.byte 0x2000 = 1#8 ∧
    t.byte 0x2008 = 2#8 ∧
    t.byte 0x2020 = 3#8 ∧
    t.byte 0x2028 = 4#8 ∧
    t.mem.length = 8 := by decide +kernel

/-- From 09_memory_scratchpad_dram.md. -/
theorem test_copy_transposes :
    let c : Cmd := cmd 0x42 1 [0x1000, 0x2000, 2 + 2^24 * 3 + 2^48, 8, 4]
    let s : State := { runs (cmd 0x42 1 [0x1000, 0x2000, 2 + 2^24 * 3 + 2^48, 8, 4]) with mem := [(0x1000, 1#8), (0x1002, 2#8), (0x1008, 3#8), (0x100C, 4#8)] }
    let e : State := s.elapse 0
    let t : State := nx (exec (.copyTranspose 0 1) s)
    isExec t 1 0 0 12 ∧
    t.bytes 0x2000 12 = [1#8, 0#8, 3#8, 0#8, 2#8, 0#8, 0#8, 0#8, 0#8, 0#8, 4#8, 0#8] := by decide +kernel

/-- From 10_embedding_engine.md, 11_select_engine.md. -/
theorem test_embedding_sum :
    let c : Cmd := cmd 0x60 4 [9 * 2^10, 0x1000, 0, 0x2000, 8, 0, 0, 1]
    let s : State := { runs (cmd 0x60 4 [9 * 2^10, 0x1000, 0, 0x2000, 8, 0, 0, 1]) with embFile := [(0, [mk 64 [(0, 8, 0x4000), (8, 8, 2), (16, 8, 2 + 2^16 * 16)]])], mem := [(0x1000, 1#8), (0x4010, 3#8), (0x4011, 255#8), (0x4013, 0x3C#8)] }
    let e : State := s.elapse 0
    let t : State := nx (exec (.embGather 0 1 []) s)
    isExec t 1 0 0 1 ∧
    t.load 0x2000 8 = 0xBF80000040400000 := by decide +kernel

/-- From 10_embedding_engine.md, 11_select_engine.md. -/
theorem test_embedding_put_rounds :
    let c : Cmd := cmd 0x61 4 [9 * 2^8, 0x1000, 0x2000, 8, 1]
    let s : State := { runs (cmd 0x61 4 [9 * 2^8, 0x1000, 0x2000, 8, 1]) with image := some (imageOf [(5, mk 32 [(4, 2, 1), (16, 8, 0x4000), (24, 5, 0x1000), (29, 1, 3)])]), embFile := [(0, [mk 64 [(0, 8, 0x4000), (8, 8, 2), (16, 8, 2 + 2^16 * 16)]])], mem := [(0x1000, 1#8), (0x2002, 0x80#8), (0x2003, 0x3F#8), (0x2006, 0x80#8), (0x2007, 0xBF#8)] }
    let e : State := s.elapse 0
    let t : State := nx (exec (.embPut 0 1 []) s)
    isExec t 1 0 0 1 ∧
    t.load 0x4010 2 = 0x817F ∧
    t.load 0x4014 2 = 0 := by decide +kernel

/-- From 10_embedding_engine.md, 11_select_engine.md. -/
theorem test_argmax_row :
    let c : Cmd := cmd 0x68 5 [2^26, 1 + 2^16 * 0x2000, 0, 0, 0x1000, 0, 0, 0, 0, 0, 2]
    let s : State := { runs (cmd 0x68 5 [2^26, 1 + 2^16 * 0x2000, 0, 0, 0x1000, 0, 0, 0, 0, 0, 2]) with mem := [(0x1000, 128#8), (0x1001, 9#8)] }
    let e : State := s.elapse 0
    let t : State := nx (exec (.selArgmax 0 1 none) s)
    isExec t 1 0 0 1 ∧
    t.load 0x2000 8 = 9 + 2^32 := by decide +kernel

/-- From 10_embedding_engine.md, 11_select_engine.md. -/
theorem test_top_one :
    let c : Cmd := cmd 0x69 5 [2^26 + 2^5, 1 + 2^16 * 0x2000, 2^40 * 7, 0, 0x1000, 0, 0, 0, 0, 0, 2]
    let s : State := { runs (cmd 0x69 5 [2^26 + 2^5, 1 + 2^16 * 0x2000, 2^40 * 7, 0, 0x1000, 0, 0, 0, 0, 0, 2]) with mem := [(0x1000, 128#8), (0x1001, 9#8)] }
    let e : State := s.elapse 0
    let t : State := nx (exec (.selTopk 0 1 none) s)
    isExec t 1 0 0 1 ∧
    t.load 0x2000 8 = 9 + 2^32 * 8 := by decide +kernel

/-- From 10_embedding_engine.md, 11_select_engine.md. -/
theorem test_sample_one_token :
    let c : Cmd := cmd 0x6A 5 [2^26 + 9, 1 + 2^16 * 0x2000, 0, 0x3000, 0x1000, 0, 0, 0, 0, 0, 2]
    let s : State := { (runs (cmd 0x6A 5 [2^26 + 9, 1 + 2^16 * 0x2000, 0, 0x3000, 0x1000, 0, 0, 0, 0, 0, 2])).setReg R.SEL_STREAM_RANGE_COUNT 1 0 with mem := [(0x1002, 128#8), (0x1003, 0x3F#8), (0x300A, 0x80#8), (0x300B, 0x3F#8)] }
    let e : State := s.elapse 0
    let t : State := nx (exec (.selSample 0 1 none) s)
    isExec t 1 0 0 1 ∧
    t.load 0x2000 8 = 2^32 + 2^50 := by decide +kernel

/-- From 11_select_engine.md. -/
theorem test_locked_stream_refused :
    let c : Cmd := cmd 0x6C 5 [127 + 2^9, 0x1000]
    let s : State := runs (cmd 0x6C 5 [127 + 2^9, 0x1000])
    let e : State := s.elapse 0
    let t : State := nx (exec (.streamLoad 0 1) s)
    isExec t 1 0x14 0 0 := by decide +kernel

/-- From 12_comet_token_engine.md. -/
theorem test_encode_two_bytes :
    let c : Cmd := cmd 0x70 6 [0x30, 0x1000, 0, 0x2000, 4 + 2^16, 0]
    let s : State := { runs (cmd 0x70 6 [0x30, 0x1000, 0, 0x2000, 4 + 2^16, 0]) with image := some (imageOf [(0xB, mk 144 [(0, 1, 1), (16 + 8, 4, 10), (16 + 0xC, 4, 1), (16 + 0x10, 4, 2), (16 + 0x28, 8, 0x5000), (16 + 0x44, 4, 0x4440)])]), mem := [(0x5020, 16#8)] }
    let e : State := s.elapse 0
    let t : State := nx (exec (.tokEncode 0 1) s)
    isExec t 1 0 0 0 ∧
    t.load 0x2000 12 = 1 + 2^32 * 2 := by decide +kernel

/-- From 12_comet_token_engine.md. -/
theorem test_decode_one_byte :
    let c : Cmd := cmd 0x71 6 [0, 0x1000, 1, 0x2000, 8, 0]
    let s : State := { runs (cmd 0x71 6 [0, 0x1000, 1, 0x2000, 8, 0]) with image := some (imageOf [(0xB, mk 144 [(0, 1, 1), (16 + 8, 4, 10), (16 + 0x30, 8, 0x6000), (16 + 0x38, 8, 0x7000), (16 + 0x40, 4, 1), (16 + 0x48, 8, 0x8000)])]), mem := [(0x6004, 1#8), (0x7000, 0x41#8)] }
    let e : State := s.elapse 0
    let t : State := nx (exec (.tokDecode 0 1) s)
    isExec t 1 0 0 0 ∧
    t.load 0x2000 2 = 0x41 := by decide +kernel

/-- From 12_comet_token_engine.md. -/
theorem test_mask_row :
    let c : Cmd := cmd 0x74 6 [0x2000, 64, 12 + 2^20 * 9 + 2^32, 0x1000, 0x3000]
    let s : State := { (runs (cmd 0x74 6 [0x2000, 64, 12 + 2^20 * 9 + 2^32, 0x1000, 0x3000])).setReg R.TOK_SLOT_RANGE_COUNT 128 0 with image := some (imageOf [(0xB, mk 144 [(0, 1, 1), (16 + 8, 4, 10)])]), slots := [(5, { active := true, epoch := 1 })], mem := [(0x1000, 5#8), (0x1002, 1#8)] }
    let e : State := s.elapse 0
    let t : State := nx (exec (.tokMask 0 1) s)
    isExec t 1 0 0 0 ∧
    t.load 0x3000 4 = 10 ∧
    t.load 0x2028 8 = 0xFF800000FF800000 ∧
    t.load 0x2024 4 = 0 := by decide +kernel

/-- From 12_comet_token_engine.md. -/
theorem test_step_finishes :
    let c : Cmd := cmd 0x75 6 [0x2000, 0x1000, 1, 0x3000]
    let s : State := { (runs (cmd 0x75 6 [0x2000, 0x1000, 1, 0x3000])).setReg R.TOK_SLOT_RANGE_COUNT 128 0 with image := some (imageOf [(0xB, mk 144 [(0, 1, 1), (16 + 8, 4, 10), (16 + 0x10, 4, 2)])]), slots := [(5, { active := true, epoch := 1 })], mem := [(0x1000, 5#8), (0x1002, 1#8), (0x2000, 2#8)] }
    let e : State := s.elapse 0
    let t : State := nx (exec (.tokStep 0 1) s)
    isExec t 1 0 0 0 ∧
    t.load 0x3000 8 = 2 + 2^24 * 12 + 2^32 + 2^48 ∧
    (t.slotOf 5).finished = true := by decide +kernel

/-- From 12_comet_token_engine.md. -/
theorem test_stream_record :
    let c : Cmd := cmd 0x73 6 [0x1000, 0]
    let s : State := { (runs (cmd 0x73 6 [0x1000, 0])).setReg R.TOK_SLOT_RANGE_COUNT 128 0 with slots := [(0, { active := true, epoch := 3 }), (127, { active := true, epoch := 9 })] }
    let e : State := s.elapse 0
    let t : State := nx (exec (.tokList 0 1) s)
    isExec t 1 0 0 0 ∧
    t.load 0x1000 8 = 0x00030000 + 2^32 * (127 + 2^16 * 9) := by decide +kernel

/-- From 13_acoustic_engine.md. -/
theorem test_capture_hold_order :
    let c : Cmd := cmd 0x81 7 [3, 9, 0x1000]
    let s : State := { runs (cmd 0x81 7 [3, 9, 0x1000]) with acu.caps := [(3, { items := [(7, 9)], held := [1] })] }
    let e : State := s.elapse 0
    let t : State := nx (exec (.acuHold 0 1) s)
    isExec t 1 0 0 0 ∧
    (t.capture 3).held = [7, 1] ∧
    t.load 0x1000 8 = 0 ∧
    t.reg R.ACU_CAP_HELD_BUFS 3 = 130 := by decide +kernel

/-- From 13_acoustic_engine.md. -/
theorem test_hop_header_words :
    let s : State := { inService with image := some (imageOf [(7, mk 320 [(0xA, 1, 1), (256, 1, 3), (256 + 4, 1, 1), (256 + 6, 1, 3), (256 + 7, 1, 2), (256 + 8, 8, 0x4000), (256 + 16, 4, 0x1000)])]), acu.caps := [(3, { seq := 4, ready := [{ first := 100, quality := 2, buf := some 1, frames := 480, rows := [[5], [6]] }] })] }
    let e : State := s.elapse 0
    let t : State := nx (exec (.hopComplete 0 3) s)
    (t.capture 3).seq = 5 ∧
    (t.capture 3).ready = [] ∧
    (t.capture 3).items = [(1, 4)] ∧
    t.load 0x5000 8 = 3 + 2^8 * 3 + 2^16 * 2 + 2^32 * 4 ∧
    t.load 0x5008 8 = 100 ∧
    t.reg R.ACU_CAP_HOPS_COUNT 3 = 1 := by decide +kernel

/-- From 13_acoustic_engine.md. -/
theorem test_anc_cause :
    let c : Cmd := cmd 0x84 7 [0, 0]
    let s : State := (runs (cmd 0x84 7 [0, 0])).setReg R.ACU_STATUS_ANC_CAUSE 0x9F
    let e : State := s.elapse 0
    let t : State := nx (exec (.ancResume 0 1) s)
    isExec t 1 0 0 0 ∧
    t.reg R.ACU_STATUS_ANC_CAUSE = 0x83 := by decide +kernel

/-- From 13_acoustic_engine.md. -/
theorem test_mute_onset :
    let s : State := inService.setReg R.ACU_STATUS_SP_RUN 1
    let e : State := s.elapse 0
    let t : State := nx (exec (.priorityMuteOnset 0 true) s)
    t.flag R.ACU_MUTE_MUTED = true ∧
    t.flag R.ACU_MUTE_B = true ∧
    (t.reg R.ACU_STATUS_ANC_CAUSE).testBit 1 = true ∧
    t.reg R.ACU_MUTES_COUNT = 1 := by decide +kernel

/-- From 13_acoustic_engine.md. -/
theorem test_rate_change_counts :
    let s : State := { inService.sets [(R.PWR_DOMAINS_ON, 0, 32)] with applied := true, image := some (imageOf [(7, mk 256 [(0, 1, 1), (64, 1, 1)])]), acu.ports := [(0, { ramp := Ramp.at 0, change := some true })] }
    let e : State := s.elapse 0
    let t : State := nx (exec (.rateSwitch 0 0) s)
    t.flag R.ACU_PORT_STAT_ALT 0 = true ∧
    t.reg R.ACU_RATE_CHANGES_COUNT = 1 := by decide +kernel

/-- From 14_tide_metering.md. -/
theorem test_frequency_in_millihertz :
    let s : State := { inService.sets [(R.MTR_STATUS_RUN, 0, 1), (R.MTR_STATUS_MAINS_LOCK, 0, 1)] with tide.cycle := { w := 480 * 2 ^ 40 } }
    let e : State := s.elapse 0
    let t : State := nx (exec (.cycleClose 0 (2 ^ 40) 66500 []) s)
    t.reg R.MTR_FREQ_MHZ = 66500 ∧
    t.tide.window = 1 := by decide +kernel

/-- From 14_tide_metering.md. -/
theorem test_snapshot_before_any_latch :
    let c : Cmd := cmd 0x90 9 [2, 0x1000, 384]
    let s : State := runs (cmd 0x90 9 [2, 0x1000, 384])
    let e : State := s.elapse 0
    let t : State := nx (exec (.mtrSnap 0 1) s)
    isExec t 1 0 0 0 ∧
    t.bytes 0x1000 32 = List.replicate 32 0#8 := by decide +kernel

/-- From 14_tide_metering.md. -/
theorem test_input_pulse_counts :
    let s : State := { inService.setReg R.MTR_STATUS_RUN 1 with tide.body := mk 512 [(0x10C, 1, 1), (0x10D, 1, 2)], tide.ins := [(3, { raw := true })] }
    let e : State := s.elapse (msTicks 2)
    let t : State := nx (exec (.pulseInputAccept (msTicks 2) 3) s)
    (t.tideIn 3).level = true ∧
    t.reg R.MTR_PCNT_COUNT 3 = 1 := by decide +kernel

/-- From 20_debug_access.md. -/
theorem test_debug_write_stores :
    let s : State := { blank.sets [(R.DBG_STATUS_LIFECYCLE, 0, 2), (R.DBG_STATUS_LEVEL, 0, 2), (R.DBG_STATUS_HOLD, 0, 1)] with boot.phase := .idle }
    let e : State := s.elapse 0
    let t : State := nx (exec (.dbgAcc 0 0x1000 (2 ^ 32 + 9) 2) s)
    t.dbg.accStatus = 0 ∧
    t.load 0x1000 4 = 9 := by decide +kernel

/-- From 20_debug_access.md. -/
theorem test_three_rejections_lock :
    let s : State := { blank.sets [(R.DBG_STATUS_LIFECYCLE, 0, 2)] with boot.phase := .idle, dbg.rejects := 2 }
    let e : State := s.elapse 0
    let t : State := nx (exec (.dbgAuthResponse 0 []) s)
    t.flag R.DBG_STATUS_AUTH_LOCK = true ∧
    t.dbg.rejects = 3 ∧
    t.reg R.DBG_STATUS_LEVEL = 0 := by decide +kernel

/-- From 20_debug_access.md. -/
theorem test_test_mux_fields :
    let s : State := { blank.sets [(R.DBG_STATUS_LIFECYCLE, 0, 2), (R.DBG_STATUS_LEVEL, 0, 1), (R.DBG_FRAM_SEL_OFFSET, 0, 0x3FFFC)] with boot.phase := .idle }
    let e : State := s.elapse 0
    let t : State := nx (exec (.framDataRead 0) s)
    t.reg R.DBG_FRAM_SEL_OFFSET = 0 ∧
    (nx (exec (.tmuxSelWrite 0 15 0x0505) s)).reg R.DBG_TMUX_SEL_SIG 15 = 5 ∧
    (nx (exec (.tmuxSelWrite 0 15 0x0505) s)).reg R.DBG_TMUX_SEL_ARG 15 = 5 := by decide +kernel

/-- From 17_external_interfaces.md. -/
theorem test_can_bus_off :
    let s : State := { inService.setReg R.PWR_DOMAINS_ON 1024 with ifaces.cfg := mk 600 [(320, 1, 1)] }
    let e : State := s.elapse 0
    let t : State := nx (exec (.canBusOff 0 3 2) s)
    t.reg R.CAN_STATUS_STATUS 3 = 2 ∧
    t.reg R.CAN_BUS_OFF_BUS_OFF 3 = 1 := by decide +kernel

/-- From 17_external_interfaces.md. -/
theorem test_pcie_train_gen4 :
    let s : State := { inService.setReg R.PWR_DOMAINS_ON 2048 with ifaces.cfg := mk 600 [(192, 1, 1), (193, 1, 4)], power.perstN := true }
    let e : State := s.elapse 0
    let t : State := nx (exec (.pcieLinkChange 0 true 4 4) s)
    t.flag R.PCIE_STATUS_UP = true ∧
    t.reg R.PCIE_STATUS_GEN = 4 ∧
    t.reg R.PCIE_STATUS_WIDTH = 4 := by decide +kernel

/-- From 11_select_engine.md, 17_external_interfaces.md. -/
theorem test_link_down_counts :
    let s : State := { inService.setReg R.LINK_STATE_STATE 4 1 with ifaces.port1 := { replay := [{ seq := 0, frame := [], sent := 0 }] } }
    let e : State := s.elapse (usTicks 10)
    let t : State := nx (exec (.linkAckTimeout (usTicks 10) 1) s)
    t.reg R.LINK_STATE_STATE 1 = 0 ∧
    t.reg R.LINK_RETRAINS_RETRAINS 1 = 1 := by decide +kernel

/-- From 11_select_engine.md, 17_external_interfaces.md. -/
theorem test_gpio_write_sets_pin :
    let c : Cmd := cmd 0x89 8 [1, 0, 0]
    let s : State := { runs (cmd 0x89 8 [1, 0, 0]) with ifaces.cfg := mk 600 [(2, 1, 2), (464 + 8, 8, 2^16), (464 + 16, 8, 4 + 2^8 * 5 + 2^16)] }
    let e : State := s.elapse 0
    let t : State := nx (exec (.linkSio 0 1 none []) s)
    isExec t 1 0 0 0 ∧
    t.ifaces.gpioOut = 32 := by decide +kernel

/-! ### Whole-machine statements -/

/-- A step's outcome that goes on. -/
def goesOn (o : Host.Outcome State Fault Refusal) : Bool := match o with
  | .next _ => true
  | _ => false

theorem nx_eq (o : Host.Outcome State Fault Refusal) (h : goesOn o = true) : o = .next (nx o) := by
  cases o with
  | next t => rfl
  | fault f => cases h
  | refused r => cases h

/-- In service with two commands waiting. -/
def waitingTwo : State := { inService with pending := [.lateResponse 3, .linkPut 0 9] }

theorem witness_StepRunsTheFrontCommand : waitingTwo.pending = .lateResponse 3 :: [.linkPut 0 9] := rfl

theorem witness_CommandsRunInOrder :
    waitingTwo.pending = .lateResponse 3 :: [.linkPut 0 9] ∧ step waitingTwo = .next (nx (step waitingTwo)) :=
  ⟨rfl, nx_eq _ (by decide +kernel)⟩

theorem witness_ModelStoreNeverWritten :
    exec (.latch 0) waitingTwo = .next (nx (exec (.latch 0) waitingTwo)) := nx_eq _ (by decide +kernel)

theorem witness_StepKeepsCanonical : waitingTwo.Canonical ∧ step waitingTwo = .next (nx (step waitingTwo)) :=
  ⟨by simp only [State.Canonical]; decide +kernel, nx_eq _ (by decide +kernel)⟩

/-- A start at its last step, with START_DONE in front: a step that enters IN_SERVICE. -/
def almostDone : State := { (starting 0xA).setReg R.TIME_STATUS_ARMED 1 with pending := [.startDone 0] }

theorem witness_ServiceStateMoves_1 :
    almostDone.Canonical ∧ step almostDone = .next (nx (step almostDone)) ∧ (nx (step almostDone)).svc = 1 :=
  ⟨by simp only [State.Canonical]; decide +kernel, nx_eq _ (by decide +kernel), by decide +kernel⟩

/-- In service, with a class-S setting for the source of a forced scrub pass: a step that enters SAFE. -/
def failing : State :=
  { inService.sets [(R.SAFE_FAULT_CFG_REACT, 0x52, 1), (R.PWR_DOMAINS_ON, 0, 256)] with pending := [.scrubForced (msTicks 200) 17] }

theorem witness_ServiceStateMoves_2 :
    failing.Canonical ∧ step failing = .next (nx (step failing)) ∧ (nx (step failing)).svc = 2 :=
  ⟨by simp only [State.Canonical]; decide +kernel, nx_eq _ (by decide +kernel), by decide +kernel⟩

/-- The sixth attempt of a cold start, past its limit: a step that enters CONFIG_FAULT. -/
def lastTry : State := { (starting 3).setReg R.BOOT_STATUS_FAILS 5 with pending := [.startStepTimeout 0], tick := 2 ^ 40 }

theorem witness_ServiceStateMoves_3 :
    lastTry.Canonical ∧ step lastTry = .next (nx (step lastTry)) ∧ (nx (step lastTry)).svc = 4 :=
  ⟨by simp only [State.Canonical]; decide +kernel, nx_eq _ (by decide +kernel), by decide +kernel⟩

/-- OUT_OF_SERVICE with a release of PORST_N in front: a step that leaves it. -/
def outOfService : State :=
  { blank.sets [(R.TOP_SVC_STATE, 0, 3)] with boot.phase := .porst, power.porstN := false, pending := [.porstNRelease 0 1000] }

theorem witness_ServiceStateMoves_4 :
    outOfService.Canonical ∧ step outOfService = .next (nx (step outOfService)) ∧ outOfService.svc = 3 :=
  ⟨by simp only [State.Canonical]; decide +kernel, nx_eq _ (by decide +kernel), by decide +kernel⟩

theorem witness_FusesOnlyAdvance_1 :
    (Instr.latch 0).blowsFuses = false ∧ exec (.latch 0) waitingTwo = .next (nx (exec (.latch 0) waitingTwo)) :=
  ⟨by decide, nx_eq _ (by decide +kernel)⟩

theorem witness_FusesOnlyAdvance_2 :
    waitingTwo.fuses.lifecycle ≤ 3 ∧ step waitingTwo = .next (nx (step waitingTwo)) := ⟨by decide, nx_eq _ (by decide +kernel)⟩

/-! ### For every clause of a statement, a state and operands that meet its hypotheses -/

theorem witness_AlwaysOnResetRows_1 :
    let s : State := blank
    let e : State := s.elapse 0
    (s.Canonical) ∧
    (e.boot.phase = .por ∧ (true || false) = true ∧ e.power.porstN = true) := by simp only [State.Canonical]; decide +kernel

theorem witness_AlwaysOnResetRows_2 :
    let s : State := { blank with boot.phase := .idle }
    let e : State := s.elapse 0
    (s.Canonical) ∧
    (e.boot.phase ≠ .por) := by simp only [State.Canonical]; decide +kernel

theorem witness_AlwaysOnResetRows_3 :
    let s : State := { blank with boot.phase := .porst, power.porstN := false }
    let e : State := s.elapse 0
    (s.Canonical) ∧
    (1000 ≤ 1000 ∧ e.boot.phase ≠ .por) := by simp only [State.Canonical]; decide +kernel

theorem witness_AlwaysOnResetRows_4 :
    let s : State := { blank with boot.phase := .step }
    let e : State := s.elapse 0
    (s.Canonical) ∧
    (e.svc = 0 ∧ e.boot.phase ≠ .por) := by simp only [State.Canonical]; decide +kernel

theorem witness_StartStepsPassInOrder_1 :
    let s : State := starting 0
    let e : State := s.elapse 0
    (s.Canonical) ∧
    (e.overLimit = false ∧ e.inStep 0 = true) := by simp only [State.Canonical]; decide +kernel

theorem witness_StartStepsPassInOrder_2 :
    let s : State := (starting 1).setReg R.PWR_PMIC_PG 1
    let e : State := s.elapse 0
    (s.Canonical) ∧
    (e.overLimit = false ∧ e.inStep 1 = true) ∧
    (((List.range 9).all fun i => (List.range 9).contains i) = true ∧ e.flag R.PWR_PMIC_PG = true) := by simp only [State.Canonical]; decide +kernel

theorem witness_StartStepsPassInOrder_4 :
    let s : State := starting 4
    let e : State := s.elapse 0
    (s.Canonical) ∧
    (e.overLimit = false ∧ e.inStep 4 = true) := by simp only [State.Canonical]; decide +kernel

theorem witness_StartStepsPassInOrder_5 :
    let s : State := starting 6
    let e : State := s.elapse 0
    (s.Canonical) ∧
    (e.overLimit = false ∧ e.inStep 6 = true) := by simp only [State.Canonical]; decide +kernel

theorem witness_StartStepsPassInOrder_6 :
    let s : State := starting 7
    let e : State := s.elapse 0
    (s.Canonical) ∧
    (e.overLimit = false ∧ e.inStep 7 = true ∧ e.warm = false ∧ e.weightList = []) := by simp only [State.Canonical]; decide +kernel

theorem witness_StartStepsPassInOrder_7 :
    let s : State := starting 8
    let e : State := s.elapse 0
    (s.Canonical) ∧
    (e.overLimit = false ∧ e.inStep 8 = true ∧ e.ifaces.cfg = e.sec 0xC ∧ e.linksDown = [] ∧ e.linksReady = true) := by simp only [State.Canonical]; decide +kernel

theorem witness_SelectDramAndBringupPass_1 :
    let s : State := { starting 2 with flash := eligibleFlash }
    let e : State := s.elapse 0
    let u : State := e.powerAll [10, 14]
    (s.Canonical) ∧
    (e.overLimit = false ∧ u.warm = false ∧ u.reg R.BOOT_STATUS_FAILS = 0 ∧ e.inStep 2 = true) ∧
    (¬ (u.eligibleGen 0 = 0 ∧ u.eligibleGen 1 = 0)) := by simp only [State.Canonical]; decide +kernel

theorem witness_SelectDramAndBringupPass_2 :
    let s : State := starting 5
    let e : State := s.elapse 0
    let u : State := (e.powerOn 9).applyLoads 5
    (s.Canonical) ∧
    (u.Canonical) ∧
    (e.overLimit = false ∧ e.inStep 5 = true ∧ u.warm = false) := by simp only [State.Canonical]; decide +kernel

theorem witness_SelectDramAndBringupPass_3 :
    let s : State := { starting 9 with running := true }
    let e : State := s.elapse 0
    (s.Canonical) ∧
    (e.overLimit = false ∧ e.inStep 9 = true ∧ e.running = true ∧ e.initialRuns = false) := by simp only [State.Canonical]; decide +kernel

theorem witness_ArmAndDone_1 :
    let s : State := starting 0xA
    let e : State := s.elapse 0
    (s.Canonical) ∧
    (e.inStep 0xA = true ∧ e.overLimit = false ∧ e.unarmed = true ∧ e.dbg.holdStart = false) ∧
    ((e.flag R.TIME_STATUS_STEPPED = true ∨ e.reg R.TIME_CFG_ACQ_WAIT = 0)) := by simp only [State.Canonical]; decide +kernel

theorem witness_ArmAndDone_2 :
    let s : State := { (starting 0xA).setReg R.TIME_CFG_ACQ_WAIT 1 with tick := 2500000 }
    let e : State := s.elapse 0
    (s.Canonical) ∧
    (e.inStep 0xA = true ∧ e.overLimit = false ∧ e.unarmed = true ∧ e.dbg.holdStart = false ∧ e.warm = false) ∧
    (e.orbit.armAt + msTicks (100 * e.reg R.TIME_CFG_ACQ_WAIT) ≤ e.tick) := by simp only [State.Canonical]; decide +kernel

theorem witness_ArmAndDone_3 :
    let s : State := (starting 0xA).setReg R.TIME_STATUS_ARMED 1
    let e : State := s.elapse 0
    (s.Canonical) ∧
    (e.inStep 0xA = true ∧ e.unarmed = false ∧ e.dbg.extest = false ∧ e.dbg.holdStart = false) := by simp only [State.Canonical]; decide +kernel

theorem witness_RetriesAndWarmStarts_1 :
    let s : State := { (starting 2).setReg R.BOOT_STATUS_WARM 1 with tick := 125001 }
    let e : State := s.elapse 0
    (s.Canonical) ∧
    (e.inStep 2 = true ∧ e.overLimit = true ∧ e.warm = true) := by simp only [State.Canonical]; decide +kernel

theorem witness_RetriesAndWarmStarts_2 :
    let s : State := { blank with boot.phase := .retry, tick := 2500000 }
    let e : State := s.elapse 0
    (s.Canonical) ∧
    (e.boot.phase = .retry ∧ e.boot.since + msTicks 100 ≤ e.tick) := by simp only [State.Canonical]; decide +kernel

theorem witness_RetriesAndWarmStarts_3 :
    let s : State := { blank with boot.phase := .pgBack, tick := 2500000 }
    let e : State := s.elapse 0
    (s.Canonical) ∧
    (e.boot.phase = .pgBack ∧ e.boot.since + msTicks 100 ≤ e.tick) := by simp only [State.Canonical]; decide +kernel

theorem witness_RetriesAndWarmStarts_4 :
    let s : State := { inSafe with boot := { phase := .idle, warmDue := true } }
    let e : State := s.elapse 0
    (s.Canonical) ∧
    (e.svc = 2 ∧ e.boot.warmDue = true ∧ e.flag R.PWR_PMIC_PG = true ∧ e.hub.outFrom = none) := by simp only [State.Canonical]; decide +kernel

theorem witness_RetriesAndWarmStarts_5 :
    let s : State := { starting 1 with boot := { phase := .step, pgSince := some 0 } }
    let e : State := s.elapse 0
    (s.Canonical) ∧
    (e.flag R.PWR_PMIC_PG = false ∧ e.boot.phase ≠ .pgLost ∧ e.boot.pgSince = some 0 ∧ e.boot.phase = .step) := by simp only [State.Canonical]; decide +kernel

theorem witness_RetriesAndWarmStarts_6 :
    let s : State := { blank with boot := { phase := .idle, warmOnPg := true } }
    let e : State := s.elapse 0
    (s.Canonical) ∧
    (e.flag R.PWR_PMIC_PG = false ∧ e.boot.phase ≠ .pgLost ∧ e.boot.pgSince = none ∧ e.boot.warmOnPg = true) := by simp only [State.Canonical]; decide +kernel

theorem witness_RetriesAndWarmStarts_7 :
    let s : State := { blank with boot.phase := .pgLost }
    let e : State := s.elapse 0
    (s.Canonical) ∧
    (e.flag R.PWR_PMIC_PG = false ∧ e.boot.phase = .pgLost) := by simp only [State.Canonical]; decide +kernel

theorem witness_RetriesAndWarmStarts_8 :
    let s : State := inService
    let e : State := s.elapse 0
    (s.Canonical) ∧
    (e.flag R.PWR_PMIC_PG = true ∧ e.boot.phase ≠ .por) := by simp only [State.Canonical]; decide +kernel

theorem witness_AlwaysOnInputs_1 :
    let s : State := (inService.setReg R.PWR_AON_MAIN_VALID 1).setReg R.PWR_AON_ON_BAK 1
    let e : State := s.elapse 0
    (s.Canonical) ∧
    (e.boot.phase ≠ .por ∧ e.aonValid false = true ∧ e.flag R.PWR_AON_ON_BAK = !false) := by simp only [State.Canonical]; decide +kernel

theorem witness_AlwaysOnInputs_2 :
    let s : State := (inService.setReg R.PWR_AON_BAK_VALID 1).setReg R.PWR_AON_ON_BAK 1
    let e : State := s.elapse 0
    (s.Canonical) ∧
    (e.boot.phase ≠ .por ∧ e.aonValid true = true ∧ e.aonValid false = false ∧ e.flag R.PWR_AON_ON_BAK = true ∧ e.tideRun = false) := by simp only [State.Canonical]; decide +kernel

theorem witness_AlwaysOnInputs_3 :
    let s : State := (inService.setReg R.PWR_AON_WARN 1).setReg R.PWR_AON_ON_BAK 1
    let e : State := s.elapse 0
    (s.Canonical) ∧
    (e.boot.phase ≠ .por ∧ e.aonValid true = false ∧ e.flag R.PWR_AON_WARN = true ∧ e.flag R.PWR_AON_ON_BAK = true) := by simp only [State.Canonical]; decide +kernel

theorem witness_AlwaysOnInputs_4 :
    let s : State := { inService.setReg R.PWR_AON_ON_BAK 1 with power.mainSince := some 0, tick := 2500000 }
    let e : State := s.elapse 0
    (s.Canonical) ∧
    (e.boot.phase ≠ .por ∧ e.power.mainSince = some 0 ∧ e.flag R.PWR_AON_ON_BAK = true ∧ 0 + msTicks 100 ≤ e.tick ∧ e.tideRun = false) := by simp only [State.Canonical]; decide +kernel

theorem witness_RepeatedJudgements_1 :
    let s : State := inService
    let e : State := s.elapse 0
    (e.boot.phase ≠ .por ∧ 970000 ≤ 1030000) := by decide +kernel

theorem witness_RepeatedJudgements_2 :
    let s : State := inService
    let e : State := s.elapse 0
    (e.boot.phase ≠ .por ∧ (1030001 < 970000 ∨ 1030000 < 1030001) ∧ e.inExcursion 0x04 0 = false) := by decide +kernel

theorem witness_RepeatedJudgements_3 :
    let s : State := inService
    let e : State := s.elapse 0
    (e.boot.phase ≠ .por ∧ 950000 ≤ 950000 ∧ 950000 ≤ 1050000) := by decide +kernel

theorem witness_RepeatedJudgements_4 :
    let s : State := inService
    let e : State := s.elapse 0
    (e.boot.phase ≠ .por ∧ (949999 < 950000 ∨ 1050000 < 949999) ∧ e.inExcursion 0x03 0 = false) := by decide +kernel

theorem witness_RepeatedJudgements_5 :
    let s : State := { inService with hub.excursions := [(3, 0)] }
    let e : State := s.elapse 0
    (e.boot.phase ≠ .por ∧ e.inExcursion 0x03 0 = true ∧ (0 < 950000 ∨ 1050000 < 0)) := by decide +kernel

theorem witness_SupplyAndClockMonitors_1 :
    let s : State := inService
    let e : State := s.elapse 0
    (s.Canonical) ∧
    (e.boot.phase ≠ .por ∧ 5 < 6) := by simp only [State.Canonical]; decide +kernel

theorem witness_SupplyAndClockMonitors_2 :
    let s : State := { inService with power.armed := true }
    let e : State := s.elapse 0
    (s.Canonical) ∧
    (e.boot.phase ≠ .por ∧ 5 < 6 ∧ e.flag R.PWR_PMIC_PG = true ∧ e.power.armed = true ∧ e.inExcursion 0x81 5 = false) := by simp only [State.Canonical]; decide +kernel

theorem witness_SupplyAndClockMonitors_3 :
    let s : State := { starting 2 with tick := 5000 }
    let e : State := s.elapse 0
    (s.Canonical) ∧
    (e.boot.phase = .step ∧ e.boot.pgSince = none ∧ e.reg R.BOOT_STATUS_STEP = powerStep 14 ∧ e.powered 14 = false ∧ e.boot.since + usTicks 200 ≤ e.tick) := by simp only [State.Canonical]; decide +kernel

theorem witness_SupplyAndClockMonitors_4 :
    let s : State := inService.setReg R.PWR_DOMAINS_ON 256
    let e : State := s.elapse 0
    (s.Canonical) ∧
    (e.boot.phase ≠ .por ∧ e.clockOn 8 = true ∧ 7 ≤ 8 ∧ Sparse.wf 0 e.power.badWindows = true) ∧
    (49 * e.clockKhz 8 ≤ 5000 * 9800 ∧ 5000 * 9800 ≤ 51 * e.clockKhz 8 ∧ e.power.pllLost.contains (clockPll 8) = false) := by simp only [State.Canonical]; decide +kernel

theorem witness_SupplyAndClockMonitors_5 :
    let s : State := { inService.setReg R.PWR_DOMAINS_ON 256 with power.badWindows := [(8, 1)] }
    let e : State := s.elapse 0
    (s.Canonical) ∧
    (e.boot.phase ≠ .por ∧ e.clockOn 8 = true ∧ 7 ≤ 8) ∧
    ((5000 * 9799 < 49 * e.clockKhz 8 ∨ 51 * e.clockKhz 8 < 5000 * 9799) ∧ 1 ≤ e.badWindowsOf 8 ∧ e.inExcursion 0x82 8 = false) := by simp only [State.Canonical]; decide +kernel

theorem witness_SupplyAndClockMonitors_6 :
    let s : State := inService.setReg R.PWR_DOMAINS_ON 2048
    let e : State := s.elapse 0
    (s.Canonical) ∧
    (e.boot.phase ≠ .por ∧ e.clockOn 16 = true ∧ 7 ≤ 16 ∧ e.inExcursion 0x82 16 = false) ∧
    ((List.range 26).filter (fun k => e.clockOn k && clockPll k == 9) = [16]) := by simp only [State.Canonical]; decide +kernel

theorem witness_SensorReadings_1 :
    let s : State := inService
    let e : State := s.elapse 0
    (s.Canonical) ∧
    (e.boot.phase ≠ .por ∧ -(2 ^ 15) ≤ (100 : Int) ∧ (100 : Int) < 2 ^ 15 ∧ e.sensorOn 0 = false) := by simp only [State.Canonical]; decide +kernel

theorem witness_SensorReadings_2 :
    let s : State := (inService.setReg R.PWR_DOMAINS_ON 1).setReg R.CLK_THERM_CFG_T_TRIP 125
    let e : State := s.elapse 0
    (s.Canonical) ∧
    (e.boot.phase ≠ .por ∧ e.sensorOn 0 = true ∧ e.power.ladder = false ∧ (-4 : Int) < 4 * (e.reg R.CLK_THERM_CFG_T_TRIP : Int) - 20) := by simp only [State.Canonical]; decide +kernel

theorem witness_SensorReadings_3 :
    let s : State := { inService.sets [(R.PWR_DOMAINS_ON, 0, 1), (R.CLK_THERM_CFG_T_TRIP, 0, 125), (R.CLK_THERM_CFG_T_THROT, 0, 115), (R.CLK_TC_MAX_MHZ, 0, 1100)] with power.ladder := true }
    let e : State := s.elapse 0
    (s.Canonical) ∧
    (e.boot.phase ≠ .por ∧ e.sensorOn 0 = true ∧ e.power.ladder = true ∧ 4 * (e.reg R.CLK_THERM_CFG_T_THROT : Int) ≤ 460 ∧ (460 : Int) < 4 * (e.reg R.CLK_THERM_CFG_T_TRIP : Int)) ∧
    (e.reg R.CLK_TC_FREQ_LEVEL 0 + 1 < (ladder (e.reg R.CLK_TC_MAX_MHZ 0)).length ∧ e.stepsApart 0 (msTicks 1) = true) := by simp only [State.Canonical]; decide +kernel

theorem witness_SensorReadings_4 :
    let s : State := { inService.sets [(R.PWR_DOMAINS_ON, 0, 1), (R.CLK_THERM_CFG_T_TRIP, 0, 125)] with power.hot := [(0, 1)] }
    let e : State := s.elapse 0
    (s.Canonical) ∧
    (e.boot.phase ≠ .por ∧ e.sensorOn 0 = true ∧ 4 * (e.reg R.CLK_THERM_CFG_T_TRIP : Int) ≤ 500 ∧ 1 ≤ Sparse.get 0 e.power.hot 0 ∧ e.inExcursion 0x83 0 = false) := by simp only [State.Canonical]; decide +kernel

theorem witness_OrbitDiscipline_1 :
    let s : State := inService
    let e : State := s.elapse 0
    let m : SyncMsg := ⟨0, 77, 1000, 100⟩
    (s.Canonical) ∧
    (e.boot.phase ≠ .por ∧ e.syncEnabled m.port = true ∧ e.reg R.TIME_STATUS_STATE ≠ 1 ∧ e.reg R.TIME_STATUS_STATE ≠ 2 ∧ e.flag R.TIME_STATUS_STEPPED = false ∧ e.boot.armedOnce = false) := by simp only [State.Canonical]; decide +kernel

theorem witness_OrbitDiscipline_2 :
    let s : State := { inService.sets [(R.TIME_CFG_PORT_SEL, 0, 2), (R.TIME_STATUS_STATE, 0, 1)] with orbit.port0 := ⟨77, some 0, 10⟩, orbit.port1 := ⟨77, some 20, 10⟩, tick := 20 }
    let e : State := s.elapse 0
    (s.Canonical) ∧
    (e.boot.phase ≠ .por ∧ 0 = e.reg R.TIME_STATUS_PORT ∧ (e.reg R.TIME_STATUS_STATE = 1 ∨ e.reg R.TIME_STATUS_STATE = 2) ∧ e.syncFresh 0 = false ∧ e.syncEnabled 1 = true ∧ e.syncFresh 1 = true ∧ (e.syncPort 1).gm = (e.syncPort 0).gm) := by simp only [State.Canonical]; decide +kernel

theorem witness_OrbitDiscipline_3 :
    let s : State := { inService.sets [(R.TIME_CFG_PORT_SEL, 0, 2), (R.TIME_STATUS_STATE, 0, 2)] with orbit.port0 := ⟨77, some 0, 10⟩, tick := 20 }
    let e : State := s.elapse 0
    (s.Canonical) ∧
    (e.boot.phase ≠ .por ∧ 0 = e.reg R.TIME_STATUS_PORT ∧ (e.reg R.TIME_STATUS_STATE = 1 ∨ e.reg R.TIME_STATUS_STATE = 2) ∧ e.syncFresh 0 = false ∧ e.syncFresh 1 = false) := by simp only [State.Canonical]; decide +kernel

theorem witness_OrbitDiscipline_4 :
    let s : State := inService.sets [(R.TIME_STATUS_STATE, 0, 3)]
    let e : State := s.elapse 0
    (s.Canonical) ∧
    (e.boot.phase ≠ .por ∧ e.reg R.TIME_STATUS_STATE = 3 ∧ e.orbit.holdAt + e.reg R.TIME_CFG_HOLD_LIMIT * 25000000 ≤ e.tick) := by simp only [State.Canonical]; decide +kernel

theorem witness_FusionGroups_1 :
    let s : State := { inService.sets [(R.TIME_STATUS_ARMED, 0, 1), (R.TIME_FG_CFG_ENABLE, 31, 1), (R.TIME_FG_PERIOD_P, 31, 100)] with groups := [(31, { next := some 0 })] }
    let e : State := s.elapse 0
    (s.Canonical) ∧
    (31 < 32 ∧ e.fgOn 31 = true ∧ (e.group 31).next = some 0 ∧ 2 * 0 ≤ 2 * e.now + e.fgWindow 31) := by simp only [State.Canonical]; decide +kernel

theorem witness_FusionGroups_2 :
    let f : FgFrame := { t := 0 }
    let s : State := { inService.sets [(R.TIME_STATUS_ARMED, 0, 1), (R.TIME_FG_CFG_ENABLE, 31, 1)] with groups := [(31, { frames := [{ t := 0 }] })] }
    let e : State := s.elapse 0
    (s.Canonical) ∧
    (31 < 32 ∧ e.fgOn 31 = true ∧ ((e.group 31).frames.find? fun f => f.ready.isNone) = some f ∧ f.t + e.reg R.TIME_FG_DEADLINE_D 31 ≤ e.now) := by simp only [State.Canonical]; decide +kernel

theorem witness_FusionGroups_3 :
    let f : FgFrame := { t := 0, items := [(0, ⟨0, 0, 0⟩)], ready := some true }
    let s : State := { inService.sets [(R.TIME_STATUS_ARMED, 0, 1), (R.TIME_FG_CFG_ENABLE, 0, 1), (R.TIME_FG_CFG_QUEUE, 0, 40), (R.TIME_FG_MEMBER_USED, 0, 1), (R.QUE_STATE_STATE, 40, 1), (R.QUE_CFG_LOG2_SLOTS, 40, 4)] with groups := [(0, { frames := [{ t := 0, items := [(0, ⟨0, 0, 0⟩)], ready := some true }] })] }
    let e : State := s.elapse 0
    let q := 40
    let ev := eventIndex (e.reg R.TIME_FG_CFG_PART 0) (e.reg R.TIME_FG_CFG_EVENT 0) (e.flag R.TIME_FG_CFG_GLOBAL 0)
    (s.Canonical) ∧
    (0 < 32 ∧ e.fgOn 0 = true ∧ (e.group 0).frames = f :: [] ∧ f.ready.isSome = true ∧ (∀ m ∈ e.fgMembers 0, (f.items.any fun x => x.1 == m) = true) ∧ q = e.reg R.TIME_FG_CFG_QUEUE 0) ∧
    (3 ≤ e.qFree q ∧ e.doorbellCause q (e.ptrAdd q (e.wptr q) 3) (e.gen q) = 0 ∧ e.event ev + 1 < 2 ^ 32 ∧ e.waiters ev = []) := by simp only [State.Canonical]; decide +kernel

theorem witness_FusionGroups_4 :
    let f : FgFrame := { t := 0, ready := some false }
    let s : State := { inService.sets [(R.TIME_STATUS_ARMED, 0, 1), (R.TIME_FG_CFG_ENABLE, 0, 1), (R.TIME_FG_CFG_QUEUE, 0, 40), (R.QUE_STATE_STATE, 40, 2), (R.QUE_CFG_LOG2_SLOTS, 40, 1)] with groups := [(0, { frames := [{ t := 0, ready := some false }] })] }
    let e : State := s.elapse 0
    let q := 40
    (s.Canonical) ∧
    (0 < 32 ∧ e.fgOn 0 = true ∧ (e.group 0).frames = f :: [] ∧ f.ready.isSome = true ∧ (∀ m ∈ e.fgMembers 0, (f.items.any fun x => x.1 == m) = true) ∧ q = e.reg R.TIME_FG_CFG_QUEUE 0) ∧
    (e.qState q = qActive ∧ e.qFree q < 3) := by simp only [State.Canonical]; decide +kernel

theorem witness_CounterSnapshots_1 :
    let s : State := inService
    let t : State := { inService with snaps := [(R.TOP_SVC_TIME_TIME.at 0 0, some 5)] }
    let a := R.TOP_SVC_TIME_TIME.at 0 0
    let b := R.TOP_SVC_TIME_TIME.at 0 0 + 4
    (Sparse.wf none s.snaps = true ∧ wideAt a = some (a, 2, 0) ∧ wideAt b = some (a, 2, 1) ∧ a ≠ R.RST_PLOG_COUNT_NEXT.at 0 0 ∧ a ≠ R.DBG_FRAM_DATA_DATA.at 0 0 ∧ b ≠ R.RST_PLOG_COUNT_NEXT.at 0 0 ∧ b ≠ R.DBG_FRAM_DATA_DATA.at 0 0) ∧
    (Sparse.get none (s.readReg a).2.snaps a = Sparse.get none (s.readReg a).2.snaps a) := by decide +kernel

theorem witness_DoorbellRule_1 :
    let s : State := ringOf qActive 4 1 0
    (Sparse.wf 0#32 s.regs = true ∧ 511 < 512 ∧ s.qState 511 ≤ 4 ∧ s.reg R.QUE_CFG_LOG2_SLOTS 511 ≤ 16 ∧ (s.doorbell 511 16 0).1 = 0) := by decide +kernel

theorem witness_DoorbellRule_2 :
    let s : State := ringOf qIdle 4 1 1
    (Sparse.wf 0#32 s.regs = true ∧ s.qState 511 ≤ 4 ∧ s.reg R.QUE_CFG_LOG2_SLOTS 511 ≤ 16 ∧ (s.doorbell 511 1 0).1 = 0 ∧ 1 = s.wptr 511 ∧ s.qCount 511 = 0) := by decide +kernel

theorem witness_DoorbellRule_3 :
    let s : State := ringOf qStopped 4 1 0
    (Sparse.wf 0#32 s.regs = true ∧ s.qState 511 ≤ 4 ∧ s.reg R.QUE_CFG_LOG2_SLOTS 511 ≤ 16 ∧ (s.doorbell 511 17 0).1 = 0x33 ∧ (s.doorbell 511 2 1).1 = 0x32 ∧ (s.doorbell 511 32 0).1 = 0x33) := by decide +kernel

theorem witness_DoorbellRule_4 :
    let s : State := ringOf qFenced 4 1 0
    (Sparse.wf 0#32 s.regs = true ∧ s.qState 511 ≤ 4 ∧ s.reg R.QUE_CFG_LOG2_SLOTS 511 ≤ 16 ∧ (s.doorbell 511 2 0).1 = 0x31) := by decide +kernel

theorem witness_FullRing_1 :
    let s : State := ringOf qActive 4 1 0
    (Sparse.wf 0#32 s.regs = true ∧ 511 < 512 ∧ s.reg R.QUE_CFG_LOG2_SLOTS 511 ≤ 16 ∧ (s.qState 511 = qActive ∨ s.qState 511 = qIdle ∨ s.qState 511 = qStopped) ∧ s.wptr 511 < 2 * s.qSize 511 ∧ s.rptr 511 < 2 * s.qSize 511 ∧ s.qCount 511 ≤ s.qSize 511 ∧ 16 < 2 * s.qSize 511 ∧ s.ptrDiff 511 16 (s.rptr 511) = s.qSize 511) := by decide +kernel

theorem witness_ThreadsPick_1 :
    let c : Cmd := cmd 0 0 [0,0,0,0,0,0,0]
    let s : State := { blank.sets [(R.QUE_STATE_STATE, 40, 2), (R.QUE_CFG_LOG2_SLOTS, 40, 4), (R.QUE_WPTR_WPTR, 40, 1), (R.QUE_PRIO_PRIORITY, 40, 1)] with running := true, applied := true, image := some (imageOf [(2, part0)]), mem := [] }
    let e : State := s.elapse 0
    let f := e.fetch { part := e.qPart 40, inJob := false, depth := 0, left := 16 } (e.ringSlots 40 0 1)
    (s.Canonical) ∧
    (0 < 64 ∧ e.mayPick 0 = true ∧ (e.thread 0).frames = []) ∧
    (e.choice 0 (fun q => ((List.range 4).filterMap fun p => if e.grantFree p then e.grantWinner p [0] else none).contains q) = some 40) ∧
    (e.nextOf 40 = some (0, 1, 0, false) ∧ e.jobBudget (e.qPart 40) 40 = none ∧ (e.queueX 40).aborted.contains 0 = false) ∧
    (f.2.1 = none ∧ f.2.2 = { e with regs := f.2.2.regs, regulators := f.2.2.regulators }) ∧
    ((∀ c ∈ e.cmds, c.id < e.nextId) ∧ Sparse.wf ({} : QueueX) e.queues = true) := by simp only [State.Canonical]; decide +kernel

theorem witness_CompletionAndCheckpoints_1 :
    let c : Cmd := { cmd 0 0 [0] with stage := .done }
    let s : State := runs { cmd 0 0 [0] with stage := .done }
    let e : State := s.elapse 0
    (s.Canonical) ∧
    (e.cmd? 1 = some c ∧ c.stage = .done ∧ c.aborted = false ∧ c.status = 0 ∧ hdrNotify (c.word 0) = false ∧ hdrCheckpoint (c.word 0) = false ∧ e.held = [] ∧ e.jobs = [] ∧ c.mute = false ∧ hdrSignalEn (c.word 0) = false) := by simp only [State.Canonical]; decide +kernel

theorem witness_CompletionAndCheckpoints_2 :
    let c : Cmd := { cmd 0 0 [0] with stage := .done, words := [2^41 + 5 * 2^28] }
    let s : State := runs { cmd 0 0 [0] with stage := .done, words := [2^41 + 5 * 2^28] }
    let e : State := s.elapse 0
    (s.Canonical) ∧
    (e.cmd? 1 = some c ∧ c.stage = .done ∧ c.aborted = false ∧ c.status = 0 ∧ hdrNotify (c.word 0) = false ∧ hdrCheckpoint (c.word 0) = false ∧ e.held = [] ∧ e.jobs = [] ∧ c.mute = false) ∧
    (hdrSignalEn (c.word 0) = true ∧ 5 = eventIndex c.part (hdrSignalEvt (c.word 0)) false ∧ e.event 5 + 1 < 2 ^ 32 ∧ e.waiters 5 = []) := by simp only [State.Canonical]; decide +kernel

theorem witness_CompletionAndCheckpoints_3 :
    let c : Cmd := { cmd 0 0 [0,0,0,0,0,0,0x100] with stage := .waiting, begun := true, units := 7, words := [0x40 + 2^43,0,0,0,0,0,0,0x100] }
    let s : State := runs { cmd 0 0 [0,0,0,0,0,0,0x100] with stage := .waiting, begun := true, units := 7, words := [0x40 + 2^43,0,0,0,0,0,0,0x100] }
    let e : State := s.elapse 0
    (s.Canonical) ∧
    (e.cmd? 1 = some c ∧ c.stage = .waiting ∧ hdrCheckpoint (c.word 0) = true ∧ c.begun = true ∧ c.aborted = false ∧ c.stopping = false ∧ e.qState c.queue ≠ qFenced ∧ hdrNotify (c.word 0) = false ∧ e.badWords c.progress 8 = [] ∧ e.wrote = none) := by simp only [State.Canonical]; decide +kernel

theorem witness_CompletionAndCheckpoints_4 :
    let r : HeldRec := { queue := 40, cq := 41, seqno := 0, words := [1,2,3,4,5,6,7,8], finish := none }
    let s : State := { (ringAt 41 qActive 4) with running := true, held := [{ queue := 40, cq := 41, seqno := 0, words := [1,2,3,4,5,6,7,8], finish := none }] }
    let e : State := s.elapse 0
    (s.Canonical) ∧
    (e.running = true ∧ e.held = [r] ∧ r.cq = 41 ∧ r.finish = none ∧ e.earlierOpen r.queue r.seqno = false ∧ e.cqFull 41 = false ∧ e.doorbellCause 41 (e.ptrAdd 41 (e.wptr 41) 1) (e.gen 41) = 0) := by simp only [State.Canonical]; decide +kernel

theorem witness_PairsAndHandover_1 :
    let s : State := inService
    let e : State := s.elapse 0
    (s.Canonical) ∧
    (e.boot.phase ≠ .por) := by simp only [State.Canonical]; decide +kernel

theorem witness_PairsAndHandover_2 :
    let s : State := { inService with image := some (imageOf [(2, part0)]) }
    let e : State := s.elapse 0
    (s.Canonical) ∧
    (0 < 8 ∧ e.boot.phase ≠ .por ∧ e.inLockstep 0 = true) := by simp only [State.Canonical]; decide +kernel

theorem witness_PairsAndHandover_3 :
    let s : State := { inService.sets [(R.SAFE_PAIR_CFG_SPLIT_EVT, 0, 3), (R.SAFE_PAIR_CFG_MODE, 0, 2)] with running := true, grants := true, image := some (imageOf [(2, part0)]), events := [(3, 1#32)] }
    let e : State := s.elapse 0
    (s.Canonical) ∧
    (e.splitNext = some (0, 3) ∧ e.running = true ∧ e.grants = true ∧ e.hub.handover = none) := by simp only [State.Canonical]; decide +kernel

theorem witness_PairsAndHandover_4 :
    let s : State := { inService with hub.handover := some ⟨7, 0⟩, image := some (imageOf [(2, part0)]) }
    let e : State := s.elapse 0
    (s.Canonical) ∧
    (e.hub.handover = some ⟨7, 0⟩ ∧ 7 < 8 ∧ ((List.range 4).all fun k => e.paused (8 * 7 + k)) = true) := by simp only [State.Canonical]; decide +kernel

theorem witness_PairsAndHandover_5 :
    let s : State := { runs (cmd 2 0 [0]) with hub.handover := some ⟨0, 0⟩, image := some (imageOf [(2, part0)]), tick := 2500, threads := [(0, { cur := some 1 })] }
    let e : State := s.elapse 0
    (s.Canonical) ∧
    (e.hub.handover = some ⟨0, 0⟩ ∧ 0 + usTicks 100 ≤ e.tick ∧ ((List.range 4).all fun k => e.paused (8 * 0 + k)) = false) := by simp only [State.Canonical]; decide +kernel

theorem witness_IslandSupervision_1 :
    let s : State := { inService with tick := 15001 }
    let e : State := s.elapse 0
    (s.Canonical) ∧
    (e.boot.phase ≠ .por ∧ e.hub.served + usTicks 600 < e.tick) := by simp only [State.Canonical]; decide +kernel

theorem witness_IslandSupervision_2 :
    let s : State := { inService with tick := 15000 }
    let e : State := s.elapse 0
    (s.Canonical) ∧
    (e.boot.phase ≠ .por ∧ e.hub.islandDead = false ∧ e.hub.outFrom = none ∧ e.hub.served + usTicks 400 ≤ e.tick ∧ e.tick ≤ e.hub.served + usTicks 600 ∧ e.svc = 1 ∧ e.hub.faultN = true ∧ e.dangerLatched = false) := by simp only [State.Canonical]; decide +kernel

theorem witness_IslandSupervision_3 :
    let s : State := inSafe
    let e : State := s.elapse 0
    (s.Canonical) ∧
    (e.boot.phase ≠ .por ∧ e.svc ≠ 1) := by simp only [State.Canonical]; decide +kernel

theorem witness_FaultRecordsAndComputeReset_1 :
    let l : Latch := { src := 0x51, time := 0, quality := 0, inst := 0, detail := 0, react := 0, first := false, before := 1, after := 1, tick := 0 }
    let s : State := { inService with hub.latches := [{ src := 0x51, time := 0, quality := 0, inst := 0, detail := 0, react := 0, first := false, before := 1, after := 1, tick := 0 }] }
    let e : State := s.elapse 0
    (s.Canonical) ∧
    (e.hub.latches = l :: [] ∧ e.hub.islandDead = false ∧ e.hub.outFrom = none ∧ e.netReset = false ∧ e.hub.reset ≠ .undecided) := by simp only [State.Canonical]; decide +kernel

theorem witness_FaultRecordsAndComputeReset_2 :
    let s : State := { inSafe with hub.outFrom := some 1 }
    let e : State := s.elapse 0
    (s.Canonical) ∧
    (e.hub.outFrom = some 1) := by simp only [State.Canonical]; decide +kernel

theorem witness_FaultRecordsAndComputeReset_3 :
    let l : Latch := { src := 0x01, time := 0, quality := 0, inst := 0, detail := 0, react := 2, first := false, before := 4, after := 4, tick := 0 }
    let s : State := { blank.sets [(R.TOP_SVC_STATE, 0, 4)] with hub.outFrom := some 4, hub.latches := [{ src := 0x01, time := 0, quality := 0, inst := 0, detail := 0, react := 2, first := false, before := 4, after := 4, tick := 0 }] }
    let e : State := s.elapse 0
    (s.Canonical) ∧
    (e.hub.outFrom = some 4 ∧ (4 = 3 ∨ 4 = 4)) := by simp only [State.Canonical]; decide +kernel

theorem witness_FaultRecordsAndComputeReset_4 :
    let s : State := { inSafe with hub.reset := .due }
    let e : State := s.elapse 0
    (s.Canonical) ∧
    (e.hub.reset = .due ∧ e.hub.islandDead = false ∧ e.hub.outFrom = none) := by simp only [State.Canonical]; decide +kernel

theorem witness_FaultRecordsAndComputeReset_5 :
    let s : State := { inSafe with hub.reset := .asserted 0, tick := 2500 }
    let e : State := s.elapse 0
    (s.Canonical) ∧
    (e.hub.reset = .asserted 0 ∧ 0 + usTicks 100 ≤ e.tick ∧ e.hub.islandDead = false ∧ e.hub.outFrom = none ∧ e.ifaces.waiting = [] ∧ e.ifaces.bell = none) := by simp only [State.Canonical]; decide +kernel

theorem witness_FaultHub_1 :
    let s : State := { inService with hub.latches := [{ src := 0x51, time := 0, quality := 0, inst := 0, detail := 0, react := 0, first := false, before := 1, after := 1, tick := 0 }] }
    (Sparse.wf 0#32 s.regs = true ∧ 0x51 < 256 ∧ s.latched 0x51 = true) := by decide +kernel

theorem witness_FaultHub_2 :
    let s : State := inService
    (Sparse.wf 0#32 s.regs = true ∧ 0xFF < 256 ∧ s.latched 0xFF = false ∧ s.reg R.SAFE_FAULT_CFG_REACT 0xFF = 0) := by decide +kernel

theorem witness_FaultHub_3 :
    let s : State := inService.sets [(R.SAFE_FAULT_CFG_REACT, 0x50, 1)]
    (Sparse.wf 0#32 s.regs = true ∧ 0x50 < 256 ∧ s.latched 0x50 = false ∧ s.svc = 1 ∧ s.reg R.SAFE_FAULT_CFG_REACT 0x50 = 1) := by decide +kernel

theorem witness_SignalsWaitsAndTimers_1 :
    let c : Cmd := cmd 0 0 [0]
    let s : State := runs (cmd 0 0 [0])
    let e : State := s.elapse 0
    (s.Canonical) ∧
    (e.wrote = none ∧ c.aborted = false ∧ e.executing 1 0x00 = some c) := by simp only [State.Canonical]; decide +kernel

theorem witness_SignalsWaitsAndTimers_2 :
    let c : Cmd := cmd 1 0 [3 + 2^32, 3 + 2^33, 2^12, 0]
    let s : State := runs (cmd 1 0 [3 + 2^32, 3 + 2^33, 2^12, 0])
    let e : State := s.elapse 0
    (s.Canonical) ∧
    (e.wrote = none ∧ c.aborted = false ∧ e.executing 1 0x01 = some c ∧ [1, 2, 3, 4].map (fun i => eventIndex c.part (bits (c.word i) 11 0) (bit (c.word i) 12)) = [3, 3, 16384, 0]) ∧
    (e.event 3 + 3 < 2 ^ 32 ∧ e.cmds.all (fun c => c.stage != .waitEvent) = true) := by simp only [State.Canonical]; decide +kernel

theorem witness_SignalsWaitsAndTimers_3 :
    let c : Cmd := cmd 3 0 [3 + 2^32 * (2^32 - 1)]
    let s : State := runs (cmd 3 0 [3 + 2^32 * (2^32 - 1)])
    let e : State := s.elapse 0
    (s.Canonical) ∧
    (e.wrote = none ∧ c.aborted = false ∧ 3 = eventIndex c.part (bits (c.word 1) 11 0) (bit (c.word 1) 12) ∧ e.executing 1 0x03 = some c ∧ e.waiters 3 = []) := by simp only [State.Canonical]; decide +kernel

theorem witness_SignalsWaitsAndTimers_4 :
    let c : Cmd := cmd 3 0 [3 + 2^32]
    let w : Cmd := { cmd 2 0 [3 + 2^32] with id := 2, stage := .waitEvent }
    let s : State := { runs (cmd 3 0 [3 + 2^32]) with cmds := [cmd 3 0 [3 + 2^32], { cmd 2 0 [3 + 2^32] with id := 2, stage := .waitEvent }] }
    let e : State := s.elapse 0
    (s.Canonical) ∧
    (e.wrote = none ∧ c.aborted = false ∧ 3 = eventIndex c.part (bits (c.word 1) 11 0) (bit (c.word 1) 12) ∧ e.executing 1 0x03 = some c) ∧
    (e.waiters 3 = [w] ∧ e.cmd? w.id = some w ∧ bit (w.word 1) 13 = false ∧ bits (w.word 1) 63 32 ≤ bits (c.word 1) 63 32) := by simp only [State.Canonical]; decide +kernel

theorem witness_SignalsWaitsAndTimers_5 :
    let c : Cmd := cmd 2 0 [3 + 2^13 + 2^32 * 2]
    let s : State := { runs (cmd 2 0 [3 + 2^13 + 2^32 * 2]) with events := [(3, 2#32)] }
    let e : State := s.elapse 0
    (s.Canonical) ∧
    (e.wrote = none ∧ c.aborted = false ∧ e.executing 1 0x02 = some c ∧ 2 ≤ e.event c.waitOn ∧ 2 = bits (c.word 1) 63 32) := by simp only [State.Canonical]; decide +kernel

theorem witness_SignalsWaitsAndTimers_6 :
    let c : Cmd := cmd 2 0 [3 + 2^32 * 2, 100]
    let s : State := { runs (cmd 2 0 [3 + 2^32 * 2, 100]) with events := [(3, 1#32)] }
    let e : State := s.elapse 0
    (s.Canonical) ∧
    (e.wrote = none ∧ c.aborted = false ∧ e.executing 1 0x02 = some c ∧ e.event c.waitOn < 2 ∧ 2 = bits (c.word 1) 63 32) := by simp only [State.Canonical]; decide +kernel

theorem witness_SignalsWaitsAndTimers_7 :
    let c : Cmd := { cmd 2 0 [3 + 2^32 * 2, 100] with stage := .waitEvent, limit := some 0 }
    let s : State := runs { cmd 2 0 [3 + 2^32 * 2, 100] with stage := .waitEvent, limit := some 0 }
    let e : State := s.elapse 0
    (s.Canonical) ∧
    (e.wrote = none ∧ c.aborted = false ∧ e.cmd? 1 = some c ∧ c.stage = .waitEvent ∧ c.limit = some 0 ∧ 0 ≤ e.tick) := by simp only [State.Canonical]; decide +kernel

theorem witness_SignalsWaitsAndTimers_8 :
    let c : Cmd := cmd 4 0 [1, 0]
    let s : State := runs (cmd 4 0 [1, 0])
    let e : State := s.elapse 0
    (s.Canonical) ∧
    (e.wrote = none ∧ c.aborted = false ∧ 0 = (if bit (c.word 1) 0 then c.word 2 else e.now + c.word 2) ∧ e.executing 1 0x04 = some c ∧ 0 ≤ e.now) := by simp only [State.Canonical]; decide +kernel

theorem witness_SignalsWaitsAndTimers_9 :
    let c : Cmd := cmd 4 0 [0, 9]
    let s : State := runs (cmd 4 0 [0, 9])
    let e : State := s.elapse 0
    (s.Canonical) ∧
    (e.wrote = none ∧ c.aborted = false ∧ 9 = (if bit (c.word 1) 0 then c.word 2 else e.now + c.word 2) ∧ e.executing 1 0x04 = some c ∧ e.now < 9) := by simp only [State.Canonical]; decide +kernel

theorem witness_SignalsWaitsAndTimers_10 :
    let c : Cmd := { cmd 4 0 [0, 9] with stage := .waitTimer, limit := some 0 }
    let s : State := runs { cmd 4 0 [0, 9] with stage := .waitTimer, limit := some 0 }
    let e : State := s.elapse 0
    (s.Canonical) ∧
    (e.wrote = none ∧ c.aborted = false ∧ e.cmd? 1 = some c ∧ c.stage = .waitTimer ∧ c.limit = some 0 ∧ 0 ≤ e.now) := by simp only [State.Canonical]; decide +kernel

theorem witness_RegistersMemoryAndDoorbells_1 :
    let a := R.CLK_THERM_CFG_T_THROT.at 0 0
    let c : Cmd := cmd 5 0 [a, 0x33 + 2^32 * (2 ^ 32 - 1 &&& accessMask a .rw)]
    let m := bits (c.word 2) 63 32
    let s : State := { runs (cmd 5 0 [R.PWR_WARNINGS_COUNT.at 0 0, 0]) with cmds := [cmd 5 0 [a, 0x33 + 2^32 * (2 ^ 32 - 1 &&& accessMask a .rw)]], image := some (imageOf [(2, partPermit (a - regSpace))]) }
    let e : State := s.elapse 0
    (s.Canonical) ∧
    (e.wrote = none ∧ c.aborted = false ∧ a = bits (c.word 1) 47 0 ∧ e.executing 1 0x05 = some c) ∧
    (mapped a = true ∧ e.permits c.part (a - regSpace) = true ∧ m &&& accessMask a .rw = m) ∧
    ((R.DBG_TMUX_SEL_SIG.index a).isNone = true ∧ a ≠ R.DBG_FRAM_SEL_OFFSET.at 0 0) := by simp only [State.Canonical]; decide +kernel

theorem witness_RegistersMemoryAndDoorbells_2 :
    let a := R.CLK_THERM_CFG_T_THROT.at 0 0
    let c : Cmd := cmd 5 0 [a, 0x33 + 2^32]
    let s : State := runs (cmd 5 0 [a, 0x33 + 2^32])
    let e : State := s.elapse 0
    (s.Canonical) ∧
    (e.wrote = none ∧ c.aborted = false ∧ a = bits (c.word 1) 47 0 ∧ e.executing 1 0x05 = some c) ∧
    (¬ (mapped a = true ∧ e.permits c.part (a - regSpace) = true ∧ bits (c.word 2) 63 32 &&& accessMask a .rw = bits (c.word 2) 63 32)) := by simp only [State.Canonical]; decide +kernel

theorem witness_RegistersMemoryAndDoorbells_3 :
    let a := R.TOP_ID_PART.at 0 0
    let c : Cmd := cmd 6 0 [a, 0x1000]
    let s : State := { (runs (cmd 6 0 [a, 0x1000])).setReg R.TOP_ID_PART 0x0480 with image := none }
    let e : State := s.elapse 0
    (s.Canonical) ∧
    (e.wrote = none ∧ c.aborted = false ∧ a = bits (c.word 1) 47 0 ∧ 0x1000 = bits (c.word 2) 47 0 ∧ e.executing 1 0x06 = some c ∧ mapped a = true ∧ closedWindow a = false ∧ e.badWords 0x1000 4 = []) := by simp only [State.Canonical]; decide +kernel

theorem witness_RegistersMemoryAndDoorbells_4 :
    let a := 0x1000
    let c : Cmd := cmd 7 0 [a, 2, 7, 9]
    let s : State := runs (cmd 7 0 [a, 2, 7, 9])
    let e : State := s.elapse 0
    (s.Canonical) ∧
    (e.wrote = none ∧ c.aborted = false ∧ a = bits (c.word 1) 47 0 ∧ 2 = bits (c.word 2) 6 0 ∧ e.executing 1 0x07 = some c ∧ e.badWords a (8 * 2) = []) := by simp only [State.Canonical]; decide +kernel

theorem witness_RegistersMemoryAndDoorbells_5 :
    let c : Cmd := { cmd 10 0 [3 + 2^32 * 7] with thread := 63 }
    let s : State := runs { cmd 10 0 [3 + 2^32 * 7] with thread := 63 }
    let e : State := s.elapse 0
    (s.Canonical) ∧
    (e.wrote = none ∧ c.aborted = false ∧ 3 = bits (c.word 1) 1 0 ∧ c.thread < 64 ∧ e.executing 1 0x0A = some c) := by simp only [State.Canonical]; decide +kernel

theorem witness_RegistersMemoryAndDoorbells_6 :
    let c : Cmd := cmd 12 0 [511 + 2^16 * 17]
    let s : State := { ringOf qStopped 4 1 1 with running := true, cmds := [cmd 12 0 [511 + 2^16 * 17]] }
    let e : State := s.elapse 0
    (s.Canonical) ∧
    (e.wrote = none ∧ c.aborted = false ∧ 511 = bits (c.word 1) 8 0 ∧ 17 = bits (c.word 1) 32 16 ∧ e.executing 1 0x0C = some c ∧ bits (c.word 2) 47 0 = 0 ∧ e.doorbellCause 511 17 (bits (c.word 1) 47 40) = 0) := by simp only [State.Canonical]; decide +kernel

theorem witness_RegistersMemoryAndDoorbells_7 :
    let c : Cmd := cmd 12 0 [511 + 2^16 * 18]
    let s : State := { ringOf qStopped 4 1 1 with running := true, cmds := [cmd 12 0 [511 + 2^16 * 18]] }
    let e : State := s.elapse 0
    (s.Canonical) ∧
    (e.wrote = none ∧ c.aborted = false ∧ 511 = bits (c.word 1) 8 0 ∧ 18 = bits (c.word 1) 32 16 ∧ e.executing 1 0x0C = some c ∧ bits (c.word 2) 47 0 = 0 ∧ e.doorbellCause 511 18 (bits (c.word 1) 47 40) ≠ 0) := by simp only [State.Canonical]; decide +kernel

theorem witness_CallsBranchesAndLoops_1 :
    let c : Cmd := { cmd 8 0 [0x1000, 4] with depth := 4 }
    let s : State := runs { cmd 8 0 [0x1000, 4] with depth := 4 }
    let e : State := s.elapse 0
    (s.Canonical) ∧
    (e.wrote = none ∧ c.aborted = false ∧ e.executing 1 0x08 = some c ∧ c.depth = 4) := by simp only [State.Canonical]; decide +kernel

theorem witness_CallsBranchesAndLoops_2 :
    let c : Cmd := cmd 8 0 [0x1000, 0]
    let s : State := runs (cmd 8 0 [0x1000, 0])
    let e : State := s.elapse 0
    (s.Canonical) ∧
    (e.wrote = none ∧ c.aborted = false ∧ e.executing 1 0x08 = some c ∧ c.depth ≠ 4 ∧ c.word 2 = 0) := by simp only [State.Canonical]; decide +kernel

theorem witness_CallsBranchesAndLoops_3 :
    let c : Cmd := cmd 8 0 [0x1000, 4]
    let s : State := { runs (cmd 8 0 [0x1000, 4]) with threads := [(0, { cur := some 1 })] }
    let e : State := s.elapse 0
    (s.Canonical) ∧
    (e.wrote = none ∧ c.aborted = false ∧ e.executing 1 0x08 = some c ∧ c.depth ≠ 4 ∧ c.word 2 ≠ 0) := by simp only [State.Canonical]; decide +kernel

theorem witness_CallsBranchesAndLoops_4 :
    let c : Cmd := { cmd 9 0 [2^32 * (2^32 - 1)] with depth := 1, offset := 1 }
    let s : State := { runs { cmd 9 0 [2^32 * (2^32 - 1)] with depth := 1, offset := 1 } with threads := [(0, { frames := [⟨0, 0x1000, 2, 2⟩] })] }
    let e : State := s.elapse 0
    let f : Frame := ⟨0, 0x1000, 2, 2⟩
    (s.Canonical) ∧
    (e.wrote = none ∧ c.aborted = false ∧ (e.thread c.thread).frames = f :: [] ∧ c.depth ≠ 0 ∧ 0 < f.slots ∧ (c.offset : Int) + signed 32 (bits (c.word 1) 63 32) = (0 : Nat) ∧ e.executing 1 0x09 = some c ∧ bits (c.word 1) 2 0 = 0) := by simp only [State.Canonical]; decide +kernel

theorem witness_CallsBranchesAndLoops_5 :
    let c : Cmd := { cmd 11 0 [3 + 2^32 * (2^32 - 1)] with depth := 1, offset := 1 }
    let s : State := { (runs { cmd 11 0 [3 + 2^32 * (2^32 - 1)] with depth := 1, offset := 1 }).setReg R.SEQ_LOOP_COUNT 2 0 3 with threads := [(0, { frames := [⟨0, 0x1000, 2, 2⟩] })] }
    let e : State := s.elapse 0
    let f : Frame := ⟨0, 0x1000, 2, 2⟩
    (s.Canonical) ∧
    (e.wrote = none ∧ c.aborted = false ∧ (e.thread c.thread).frames = f :: [] ∧ c.depth ≠ 0 ∧ 0 < f.slots ∧ (c.offset : Int) + signed 32 (bits (c.word 1) 63 32) = (0 : Nat) ∧ e.executing 1 0x0B = some c ∧ c.thread < 64 ∧ 2 ≤ e.reg R.SEQ_LOOP_COUNT c.thread (bits (c.word 1) 1 0)) := by simp only [State.Canonical]; decide +kernel

theorem witness_CallsBranchesAndLoops_6 :
    let c : Cmd := { cmd 9 0 [1, 0, 1] with depth := 1 }
    let s : State := { runs { cmd 9 0 [1, 0, 1] with depth := 1 } with threads := [(0, { frames := [⟨0, 0x1000, 2, 2⟩] })] }
    let e : State := s.elapse 0
    (s.Canonical) ∧
    (e.wrote = none ∧ c.aborted = false ∧ e.executing 1 0x09 = some c ∧ e.jumpTarget c (bits (c.word 1) 63 32) = some 0 ∧ ((bits (c.word 1) 2 0 = 1 ∧ e.event (eventIndex c.part (bits (c.word 1) 27 16) (bit (c.word 1) 3)) < c.word 3) ∨ (bits (c.word 1) 2 0 = 2 ∧ c.word 3 ≤ e.event (eventIndex c.part (bits (c.word 1) 27 16) (bit (c.word 1) 3))))) := by simp only [State.Canonical]; decide +kernel

theorem witness_CallsBranchesAndLoops_7 :
    let c : Cmd := { cmd 11 0 [3] with depth := 1 }
    let s : State := { (runs { cmd 11 0 [3] with depth := 1 }).setReg R.SEQ_LOOP_COUNT 1 0 3 with threads := [(0, { frames := [⟨0, 0x1000, 2, 2⟩] })] }
    let e : State := s.elapse 0
    (s.Canonical) ∧
    (e.wrote = none ∧ c.aborted = false ∧ 1 = e.reg R.SEQ_LOOP_COUNT c.thread (bits (c.word 1) 1 0) ∧ e.executing 1 0x0B = some c ∧ c.thread < 64 ∧ e.jumpTarget c (bits (c.word 1) 63 32) = some 0) := by simp only [State.Canonical]; decide +kernel

theorem witness_CallsBranchesAndLoops_8 :
    let c : Cmd := { cmd 9 0 [1 + 2^33, 0, 1] with depth := 1 }
    let s : State := { runs { cmd 9 0 [1 + 2^33, 0, 1] with depth := 1 } with threads := [(0, { frames := [⟨0, 0x1000, 2, 2⟩] })] }
    let e : State := s.elapse 0
    (s.Canonical) ∧
    (e.wrote = none ∧ c.aborted = false ∧ (c.depth = 0 ∨ (c.offset : Int) + signed 32 (bits (c.word 1) 63 32) < 0 ∨ (e.thread c.thread).frames.head?.all (fun f => decide ((f.slots : Int) ≤ (c.offset : Int) + signed 32 (bits (c.word 1) 63 32)))) ∧ e.executing 1 0x09 = some c) := by simp only [State.Canonical]; decide +kernel

theorem witness_CallsBranchesAndLoops_9 :
    let c : Cmd := cmd 11 0 [3]
    let s : State := { runs (cmd 11 0 [3]) with threads := [(0, { frames := [⟨0, 0x1000, 2, 2⟩] })] }
    let e : State := s.elapse 0
    (s.Canonical) ∧
    (e.wrote = none ∧ c.aborted = false ∧ (c.depth = 0 ∨ (c.offset : Int) + signed 32 (bits (c.word 1) 63 32) < 0 ∨ (e.thread c.thread).frames.head?.all (fun f => decide ((f.slots : Int) ≤ (c.offset : Int) + signed 32 (bits (c.word 1) 63 32)))) ∧ e.executing 1 0x0B = some c) := by simp only [State.Canonical]; decide +kernel

theorem witness_QueueControl_1 :
    let c : Cmd := cmd 13 0 [511]
    let s : State := { ringOf qIdle 4 1 1 with running := true, cmds := [cmd 13 0 [511]] }
    let e : State := s.elapse 0
    (s.Canonical) ∧
    (e.wrote = none ∧ c.aborted = false ∧ e.executing 1 0x0D = some c ∧ 511 = bits (c.word 1) 8 0 ∧ bits (c.word 1) 18 16 = 0 ∧ (e.qState 511 = qIdle ∨ e.qState 511 = qActive)) := by simp only [State.Canonical]; decide +kernel

theorem witness_QueueControl_2 :
    let c : Cmd := cmd 13 0 [511 + 2^16]
    let s : State := { ringOf qStopped 4 1 0 with running := true, cmds := [cmd 13 0 [511 + 2^16]] }
    let e : State := s.elapse 0
    (s.Canonical) ∧
    (e.wrote = none ∧ c.aborted = false ∧ e.executing 1 0x0D = some c ∧ 511 = bits (c.word 1) 8 0 ∧ bits (c.word 1) 18 16 = 1 ∧ e.qState 511 = qStopped ∧ e.qCount 511 ≠ 0 ∧ Sparse.wf ({} : QueueX) e.queues = true) := by simp only [State.Canonical]; decide +kernel

theorem witness_QueueControl_3 :
    let c : Cmd := cmd 13 0 [511 + 2^17]
    let s : State := { ringOf qStopped 4 2 0 with running := true, cmds := [cmd 13 0 [511 + 2^17]], queues := [(511, { redo := [⟨0, 1, 0⟩], failed := true, fetch := 1 })] }
    let e : State := s.elapse 0
    (s.Canonical) ∧
    (e.wrote = none ∧ c.aborted = false ∧ e.executing 1 0x0D = some c ∧ 511 = bits (c.word 1) 8 0 ∧ bits (c.word 1) 18 16 = 2 ∧ e.qState 511 = qStopped ∧ Sparse.wf ({} : QueueX) e.queues = true) := by simp only [State.Canonical]; decide +kernel

theorem witness_QueueControl_4 :
    let c : Cmd := cmd 13 0 [511 + 3 * 2^16]
    let s : State := { ringOf qActive 4 2 0 with running := true, cmds := [cmd 13 0 [511 + 3 * 2^16]] }
    let e : State := s.elapse 0
    (s.Canonical) ∧
    (e.wrote = none ∧ c.aborted = false ∧ e.executing 1 0x0D = some c ∧ 511 = bits (c.word 1) 8 0 ∧ bits (c.word 1) 18 16 = 3) := by simp only [State.Canonical]; decide +kernel

theorem witness_QueueControl_5 :
    let c : Cmd := cmd 13 0 [511 + 4 * 2^16]
    let s : State := { (ringOf qActive 4 2 0).setReg R.QUE_CFG_KIND 2 511 with running := true, cmds := [cmd 13 0 [511 + 4 * 2^16]] }
    let e : State := s.elapse 0
    (s.Canonical) ∧
    (e.wrote = none ∧ c.aborted = false ∧ e.executing 1 0x0D = some c ∧ 511 = bits (c.word 1) 8 0 ∧ bits (c.word 1) 18 16 = 4 ∧ e.reg R.QUE_CFG_KIND 511 ≠ 0 ∧ e.windows = [] ∧ e.wptr 511 < 2 * e.qSize 511) := by simp only [State.Canonical]; decide +kernel

theorem witness_QueueControl_6 :
    let c : Cmd := cmd 13 0 [511 + 5 * 2^16 + 2^33]
    let s : State := { ringOf qActive 4 2 0 with running := true, cmds := [cmd 13 0 [511 + 5 * 2^16 + 2^33]] }
    let e : State := s.elapse 0
    (s.Canonical) ∧
    (e.wrote = none ∧ c.aborted = false ∧ e.executing 1 0x0D = some c ∧ 511 = bits (c.word 1) 8 0 ∧ bits (c.word 1) 18 16 = 5 ∧ bits (c.word 1) 63 32 ≤ e.qCount 511 ∧ e.reg R.QUE_CFG_LOG2_SLOTS 511 ≤ 16) := by simp only [State.Canonical]; decide +kernel

theorem witness_QueueControl_7 :
    let c : Cmd := cmd 13 0 [511 + 5 * 2^16 + 3 * 2^32]
    let s : State := { ringOf qActive 4 2 0 with running := true, cmds := [cmd 13 0 [511 + 5 * 2^16 + 3 * 2^32]] }
    let e : State := s.elapse 0
    (s.Canonical) ∧
    (e.wrote = none ∧ c.aborted = false ∧ e.executing 1 0x0D = some c ∧ 511 = bits (c.word 1) 8 0 ∧ bits (c.word 1) 18 16 = 5 ∧ e.qCount 511 < bits (c.word 1) 63 32) := by simp only [State.Canonical]; decide +kernel

theorem witness_AbortAndNotify_1 :
    let c : Cmd := cmd 14 0 [511, 4, 0]
    let s : State := { (ringOf qActive 4 2 2).setReg R.QUE_SEQNO_NEXT 5 511 with running := true, cmds := [cmd 14 0 [511, 4, 0]] }
    let e : State := s.elapse 0
    (s.Canonical) ∧
    (e.wrote = none ∧ c.aborted = false ∧ 511 = bits (c.word 1) 8 0 ∧ 4 = c.word 2 ∧ e.executing 1 0x0E = some c ∧ bits (c.word 3) 47 0 = 0) ∧
    ((e.cmds.any fun x => x.queue == 511 && x.depth == 0 && x.seqno == 4) = false ∧ (e.queueX 511).aborted.contains 4 = false ∧ ((e.queueX 511).redo.any fun r => r.seqno == 4) = false ∧ 4 < e.reg R.QUE_SEQNO_NEXT 511) := by simp only [State.Canonical]; decide +kernel

theorem witness_AbortAndNotify_2 :
    let c : Cmd := cmd 14 0 [511, 5, 0]
    let s : State := { (ringOf qActive 4 2 2).setReg R.QUE_SEQNO_NEXT 5 511 with running := true, cmds := [cmd 14 0 [511, 5, 0]], queues := [(511, { fetch := 2 })] }
    let e : State := s.elapse 0
    (s.Canonical) ∧
    (e.wrote = none ∧ c.aborted = false ∧ 511 = bits (c.word 1) 8 0 ∧ 5 = c.word 2 ∧ e.executing 1 0x0E = some c ∧ bits (c.word 3) 47 0 = 0) ∧
    ((e.cmds.any fun x => x.queue == 511 && x.depth == 0 && x.seqno == 5) = false ∧ (e.queueX 511).aborted.contains 5 = false ∧ ((e.queueX 511).redo.any fun r => r.seqno == 5) = false ∧ e.reg R.QUE_SEQNO_NEXT 511 + (e.untaken 511).length ≤ 5) := by simp only [State.Canonical]; decide +kernel

theorem witness_AbortAndNotify_3 :
    let c : Cmd := cmd 14 0 [511, 5, 0]
    let s : State := { (ringOf qActive 4 3 2).setReg R.QUE_SEQNO_NEXT 5 511 with running := true, cmds := [cmd 14 0 [511, 5, 0]], queues := [(511, { fetch := 2 })] }
    let e : State := s.elapse 0
    (s.Canonical) ∧
    (e.wrote = none ∧ c.aborted = false ∧ 511 = bits (c.word 1) 8 0 ∧ 5 = c.word 2 ∧ e.executing 1 0x0E = some c ∧ bits (c.word 3) 47 0 = 0) ∧
    ((e.cmds.any fun x => x.queue == 511 && x.depth == 0 && x.seqno == 5) = false ∧ (e.queueX 511).aborted.contains 5 = false ∧ ((e.queueX 511).redo.any fun r => r.seqno == 5) = false) ∧
    (e.reg R.QUE_SEQNO_NEXT 511 ≤ 5 ∧ 5 < e.reg R.QUE_SEQNO_NEXT 511 + (e.untaken 511).length ∧ e.windows = []) := by simp only [State.Canonical]; decide +kernel

theorem witness_AbortAndNotify_4 :
    let c : Cmd := cmd 15 0 [511, 1, 2, 3, 4, 5, 6]
    let s : State := { ringOf qActive 0 1 0 with running := true, cmds := [cmd 15 0 [511, 1, 2, 3, 4, 5, 6]] }
    let e : State := s.elapse 0
    (s.Canonical) ∧
    (e.wrote = none ∧ c.aborted = false ∧ 511 = bits (c.word 1) 8 0 ∧ e.executing 1 0x0F = some c ∧ e.held = [] ∧ e.cqFull 511 = true) := by simp only [State.Canonical]; decide +kernel

theorem witness_AbortAndNotify_5 :
    let c : Cmd := cmd 15 0 [511, 1, 2, 3, 4, 5, 6]
    let s : State := { ringOf qActive 4 1 0 with running := true, cmds := [cmd 15 0 [511, 1, 2, 3, 4, 5, 6]] }
    let e : State := s.elapse 0
    (s.Canonical) ∧
    (e.wrote = none ∧ c.aborted = false ∧ 511 = bits (c.word 1) 8 0 ∧ e.executing 1 0x0F = some c ∧ e.held = [] ∧ e.cqFull 511 = false ∧ c.queue ≠ 511 ∧ e.doorbellCause 511 (e.ptrAdd 511 (e.wptr 511) 1) (e.gen 511) = 0 ∧ e.earlierOpen c.queue c.seqno = false) := by simp only [State.Canonical]; decide +kernel

theorem witness_Watchdogs_1 :
    let j : Job := { cmd := 1, start := 0 }
    let s : State := { inService with jobs := [(0, { cmd := 1, start := 0 })], tick := 26 }
    let e : State := s.elapse 0
    (s.Canonical) ∧
    (e.job? 0 = some j ∧ j.initial = false ∧ j.fired = false ∧ usTicks (e.reg R.PART_JOB_BUDGET_US 0) < e.tick - j.start) := by simp only [State.Canonical]; decide +kernel

theorem witness_Watchdogs_2 :
    let s : State := { runs { cmd 2 0 [3 + 2^32] with stage := .waitEvent } with image := some (imageOf [(2, part0)]), threads := [(0, { cur := some 1 })], deadlocks := [(0, { since := some 0 })] }
    let e : State := s.elapse 0
    (s.Canonical) ∧
    (0 < 4 ∧ (Sparse.get ({} : Deadlock) e.deadlocks 0).fired = false ∧ e.quiet 0 = true ∧ (Sparse.get ({} : Deadlock) e.deadlocks 0).since = some 0 ∧ 0 + usTicks (e.reg R.PART_DL_DL_TIME 0) ≤ e.tick) := by simp only [State.Canonical]; decide +kernel

theorem witness_Watchdogs_3 :
    let s : State := { runs (cmd 2 0 [3 + 2^32]) with image := some (imageOf [(2, part0)]), threads := [(0, { cur := some 1 })] }
    let e : State := s.elapse 0
    (s.Canonical) ∧
    (0 < 64 ∧ e.threadState 0 = 1 ∧ (e.thread 0).boundary + usTicks (e.reg R.RST_WD_CFG_THREAD_US) ≤ e.tick) := by simp only [State.Canonical]; decide +kernel

theorem witness_Watchdogs_4 :
    let s : State := inService
    let e : State := s.elapse 0
    (s.Canonical) ∧
    (e.boot.phase ≠ .por ∧ e.beats 9 0 = true) := by simp only [State.Canonical]; decide +kernel

theorem witness_Watchdogs_5 :
    let s : State := inService
    let e : State := s.elapse 0
    (s.Canonical) ∧
    (e.boot.phase ≠ .por ∧ e.netReset = false ∧ e.hub.reissue = []) := by simp only [State.Canonical]; decide +kernel

theorem witness_Watchdogs_6 :
    let s : State := inService
    let e : State := s.elapse 0
    (s.Canonical) := by simp only [State.Canonical]; decide +kernel

theorem witness_StatusReadsAnswered_1 :
    let r : Request := ⟨2, wordsBytes [1, 0, regSpace + 0x20000, 1, 0, 0, 0, 0], []⟩
    let s : State := { inService with ifaces.direct := [(2, wordsBytes [1, 0, regSpace + 0x20000, 1, 0, 0, 0, 0])] }
    let e : State := s.elapse 0
    let u : State := { e with ifaces.direct := [] }
    (s.Canonical) ∧
    (e.intakeTake = some (r, u) ∧ r.type = 1 ∧ u.judgeFirst r = 0 ∧ u.judgeRights r = 0) ∧
    (((List.range 1).any fun i => !mapped (regSpace + 0x20000 + 4 * i) || closedWindow (regSpace + 0x20000 + 4 * i)) = true) := by simp only [State.Canonical]; decide +kernel

theorem witness_StatusReadsAnswered_2 :
    let r : Request := ⟨2, wordsBytes [1, 0, regSpace, 2, 0, 0, 0, 0], []⟩
    let s : State := { inService with ifaces.direct := [(2, wordsBytes [1, 0, regSpace, 2, 0, 0, 0, 0])] }
    let e : State := s.elapse 0
    let u : State := { e with ifaces.direct := [] }
    let v := (u.incReg R.PART_INTAKE_ACCEPT_COUNT).readRegs regSpace 2
    (s.Canonical) ∧
    (e.intakeTake = some (r, u) ∧ r.type = 1 ∧ u.judgeFirst r = 0 ∧ u.judgeRights r = 0) ∧
    (((List.range 2).any fun i => !mapped (regSpace + 4 * i) || closedWindow (regSpace + 4 * i)) = false) := by simp only [State.Canonical]; decide +kernel

theorem witness_StatusReadsAnswered_3 :
    let r : Request := ⟨2, wordsBytes [2, 0, 0, 2, 0, 0, 0, 0], []⟩
    let s : State := { inService with ifaces.direct := [(2, wordsBytes [2, 0, 0, 2, 0, 0, 0, 0])] }
    let e : State := s.elapse 0
    let u : State := { e with ifaces.direct := [] }
    let l := u.logRecords (bits (r.word 2) 1 0)
    (s.Canonical) ∧
    (e.intakeTake = some (r, u) ∧ r.type = 2 ∧ u.judgeFirst r = 0 ∧ u.judgeRights r = 0) := by simp only [State.Canonical]; decide +kernel

theorem witness_StatusReadsAnswered_4 :
    let r : Request := ⟨2, wordsBytes [3, 0, 1, 0, 0, 0, 0, 0], []⟩
    let s : State := { inService with ifaces.direct := [(2, wordsBytes [3, 0, 1, 0, 0, 0, 0, 0])] }
    let e : State := s.elapse 0
    let u : State := { e with ifaces.direct := [] }
    let x := u.snapshot (r.word 2)
    (s.Canonical) ∧
    (e.intakeTake = some (r, u) ∧ r.type = 3 ∧ u.judgeFirst r = 0 ∧ u.judgeRights r = 0 ∧ u.selectorOk (r.word 2) = true ∧ u.passedBy (4 + u.tide.port) = true) := by simp only [State.Canonical]; decide +kernel

theorem witness_StatusReadsAnswered_5 :
    let r : Request := ⟨2, wordsBytes [3, 0, 4, 0, 0, 0, 0, 0], []⟩
    let s : State := { inService.sets [(R.MTR_STATUS_RUN, 0, 1)] with ifaces.direct := [(2, wordsBytes [3, 0, 4, 0, 0, 0, 0, 0])] }
    let e : State := s.elapse 0
    let u : State := { e with ifaces.direct := [] }
    (s.Canonical) ∧
    (e.intakeTake = some (r, u) ∧ r.type = 3 ∧ u.judgeFirst r = 0 ∧ u.judgeRights r = 0 ∧ u.selectorOk (r.word 2) = false) := by simp only [State.Canonical]; decide +kernel

theorem witness_StatusReadsAnswered_6 :
    let r : Request := ⟨2, wordsBytes [6, 0, 15, 0, 0, 0, 0, 0], []⟩
    let s : State := { inService with ifaces.direct := [(2, wordsBytes [6, 0, 15, 0, 0, 0, 0, 0])] }
    let e : State := s.elapse 0
    let u : State := { e with ifaces.direct := [] }
    (s.Canonical) ∧
    (e.intakeTake = some (r, u) ∧ (r.type = 0 ∨ 5 < r.type)) := by simp only [State.Canonical]; decide +kernel

theorem witness_StatusReadsAnswered_7 :
    let r : Request := ⟨2, wordsBytes [4, 0, 15, 0, 0, 0, 0, 0], []⟩
    let s : State := { inSafe with ifaces.direct := [(2, wordsBytes [4, 0, 15, 0, 0, 0, 0, 0])] }
    let e : State := s.elapse 0
    let u : State := { e with ifaces.direct := [] }
    (s.Canonical) ∧
    (e.intakeTake = some (r, u) ∧ u.judgeFirst r ≠ 0 ∧ r.type = 4) := by simp only [State.Canonical]; decide +kernel

theorem witness_StatusReadsAnswered_8 :
    let r : Request := ⟨2, wordsBytes [5, 0, 15, 0, 0, 0, 0, 0], []⟩
    let s : State := { inSafe with ifaces.direct := [(2, wordsBytes [5, 0, 15, 0, 0, 0, 0, 0])] }
    let e : State := s.elapse 0
    let u : State := { e with ifaces.direct := [] }
    (s.Canonical) ∧
    (e.intakeTake = some (r, u) ∧ u.judgeFirst r ≠ 0 ∧ r.type = 5) := by simp only [State.Canonical]; decide +kernel

theorem witness_RequestsAndResponses_1 :
    let r : Request := ⟨2, wordsBytes [4 + 2^16 * 7 + 2^32, 0, 0, 0, 0, 0, 0, 0], []⟩
    let s : State := { inService with applied := true, image := some (imageOf [(2, clientRoute)]), windows := [(0, [{ reqId := 2, route := 0, iface := 2, word0 := 0, isAbort := false }])], ifaces.direct := [(2, wordsBytes [4 + 2^16 * 7 + 2^32, 0, 0, 0, 0, 0, 0, 0])] }
    let e : State := s.elapse 0
    let u : State := { e with ifaces.direct := [] }
    let ent := slice clientRoute 336 32
    (s.Canonical) ∧
    (e.intakeTake = some (r, u) ∧ r.type = 4 ∧ u.judgeFirst r = 0 ∧ 0 = ((u.client r.clientId).map (·.1)).getD 0 ∧ u.entry? 0 r.reqId = none ∧ u.judgeRights r = 0 ∧ u.route r.routeNo = some ent ∧ 40 = field ent 4 2) ∧
    ((u.windowBusy 0 || decide (field ent 0x1C 2 ≤ u.openOn r.routeNo) || u.lacksRoom 40 (1 + ceilDiv r.len 64) || (field ent 2 1 == 1 && u.lacksRoom (field ent 8 2) 1)) = true) := by simp only [State.Canonical]; decide +kernel

theorem witness_RequestsAndResponses_2 :
    let r : Request := ⟨2, wordsBytes [4 + 2^16 * 7 + 2^32, 0, 0, 0, 0, 0, 0, 0], []⟩
    let s : State := { (inService.setReg R.QUE_STATE_STATE 1 40).setReg R.QUE_CFG_LOG2_SLOTS 4 40 with applied := true, image := some (imageOf [(2, clientRoute)]), ifaces.direct := [(2, wordsBytes [4 + 2^16 * 7 + 2^32, 0, 0, 0, 0, 0, 0, 0])] }
    let e : State := s.elapse 0
    let u : State := { e with ifaces.direct := [] }
    let ent := slice clientRoute 336 32
    (s.Canonical) ∧
    (e.intakeTake = some (r, u) ∧ r.type = 4 ∧ u.judgeFirst r = 0 ∧ 0 = ((u.client r.clientId).map (·.1)).getD 0 ∧ u.entry? 0 r.reqId = none ∧ u.judgeRights r = 0 ∧ u.route r.routeNo = some ent ∧ 40 = field ent 4 2) ∧
    ((u.windowBusy 0 || decide (field ent 0x1C 2 ≤ u.openOn r.routeNo) || u.lacksRoom 40 (1 + ceilDiv r.len 64)) = false ∧ field ent 2 1 ≠ 1 ∧ u.reg R.QUE_CFG_LOG2_SLOTS 40 ≤ 16) ∧
    (u.doorbellCause 40 (u.ptrAdd 40 (u.wptr 40) r.item.length) (u.gen 40) = 0) := by simp only [State.Canonical]; decide +kernel

theorem witness_RequestsAndResponses_3 :
    let r : Request := ⟨2, wordsBytes [4 + 2^16 * 7 + 2^32, 0, 0, 0, 0, 0, 0, 0], []⟩
    let x : WinEntry := { reqId := 1, route := 0, iface := 2, word0 := 0, isAbort := false }
    let s : State := { inService with applied := true, image := some (imageOf [(2, clientRoute)]), windows := [(0, [{ reqId := 1, route := 0, iface := 2, word0 := 0, isAbort := false }])], ifaces.direct := [(2, wordsBytes [4 + 2^16 * 7 + 2^32, 0, 0, 0, 0, 0, 0, 0])] }
    let e : State := s.elapse 0
    let u : State := { e with ifaces.direct := [] }
    (s.Canonical) ∧
    (e.intakeTake = some (r, u) ∧ r.type = 4 ∧ u.judgeFirst r = 0 ∧ 0 = ((u.client r.clientId).map (·.1)).getD 0 ∧ u.entry? 0 r.reqId = some x) := by simp only [State.Canonical]; decide +kernel

theorem witness_RequestsAndResponses_4 :
    let r : Request := ⟨2, wordsBytes [5 + 2^16 * 7 + 2^32, 0, 9, 0, 0, 0, 0, 0], []⟩
    let s : State := { inService with applied := true, image := some (imageOf [(2, clientRoute)]), ifaces.direct := [(2, wordsBytes [5 + 2^16 * 7 + 2^32, 0, 9, 0, 0, 0, 0, 0])] }
    let e : State := s.elapse 0
    let u : State := { e with ifaces.direct := [] }
    let x : WinEntry := { reqId := r.reqId, route := 0, iface := r.iface, word0 := r.word 0, isAbort := true, itemQ := 0, itemPtr := u.wptr 0 }
    (s.Canonical) ∧
    (e.intakeTake = some (r, u) ∧ r.type = 5 ∧ u.judgeFirst r = 0 ∧ u.judgeRights r = 0 ∧ 0 = ((u.client r.clientId).map (·.1)).getD 0 ∧ u.entry? 0 r.reqId = none ∧ u.entry? 0 (bits (r.word 2) 31 0) = none ∧ u.windowBusy 0 = false) := by simp only [State.Canonical]; decide +kernel

theorem witness_RequestsAndResponses_5 :
    let s : State := { ringOf qActive 4 1 0 with applied := true, image := some (imageOf [(2, clientRoute)]) }
    let e : State := s.elapse 0
    let h := e.slot 511 (e.rptr 511)
    (s.Canonical) ∧
    (e.applied = true ∧ e.netReset = false ∧ e.qState 511 = qActive ∧ 511 < 512 ∧ e.reg R.QUE_CFG_LOG2_SLOTS 511 ≤ 16 ∧ e.itemSlots 511 = some 1 ∧ e.routeOfRes 511 = some 0 ∧ e.client (bits (field h 0 8) 31 16) = none) := by simp only [State.Canonical]; decide +kernel

theorem witness_RequestsAndResponses_6 :
    let x : WinEntry := { reqId := 1, route := 0, iface := 2, word0 := 0, isAbort := false }
    let s : State := { ringOf qActive 4 1 0 with applied := true, mem := [(2, 7), (4, 1)], windows := [(0, [{ reqId := 1, route := 0, iface := 2, word0 := 0, isAbort := false }])], image := some (imageOf [(2, clientRoute)]) }
    let e : State := s.elapse 0
    let h := e.slot 511 (e.rptr 511)
    (s.Canonical) ∧
    (e.applied = true ∧ e.netReset = false ∧ e.qState 511 = qActive ∧ 511 < 512 ∧ e.reg R.QUE_CFG_LOG2_SLOTS 511 ≤ 16 ∧ e.itemSlots 511 = some 1 ∧ e.routeOfRes 511 = some 0) ∧
    (e.client (bits (field h 0 8) 31 16) = some (0, slice clientRoute 320 16) ∧ ((e.window 0).find? fun y => y.reqId == bits (field h 0 8) 63 32 && y.closed.isNone && y.route == 0) = some x ∧ responseStatus (field h 12 1) = true) := by simp only [State.Canonical]; decide +kernel

theorem witness_CameraFrames_1 :
    let s : State := seeing
    let e : State := s.elapse 0
    let ent := visStream (e.sec 6) 0
    (s.Canonical) ∧
    (e.visOn 7 = true ∧ e.visMatch 7 0 = [ent] ∧ 15 = field ent 0 1 ∧ 15 < 16 ∧ strKind ent ≠ 3 ∧ e.health = [] ∧ Sparse.wf ({} : VisStream) e.vis.streams = true ∧ (e.visStr 15).frame = none) := by simp only [State.Canonical]; decide +kernel

theorem witness_CameraFrames_2 :
    let f : VisFrame := { fn := 3, fs := 0, quality := 0 }
    let s : State := { seeing with vis.streams := [(15, { frame := some { fn := 3, fs := 0, quality := 0 } })] }
    let e : State := s.elapse 0
    let ent := visStream (e.sec 6) 0
    (s.Canonical) ∧
    (e.visOn 7 = true ∧ e.visMatch 7 0 = [ent] ∧ 15 = field ent 0 1 ∧ strKind ent ≠ 3 ∧ e.health = [] ∧ Sparse.wf ({} : VisStream) e.vis.streams = true) ∧
    ((e.visStr 15).frame = some f ∧ f.lines.length < strH ent ∧ [1, 2].length = lineLen ent) := by simp only [State.Canonical]; decide +kernel

theorem witness_CameraFrames_3 :
    let f : VisFrame := { fn := 3, fs := 0, quality := 0, lines := [[1, 2]], stamps := [0] }
    let s : State := { seeing with vis.streams := [(15, { frame := some { fn := 3, fs := 0, quality := 0, lines := [[1, 2]], stamps := [0] } })] }
    let e : State := s.elapse 0
    let ent := visStream (e.sec 6) 0
    (s.Canonical) ∧
    (e.visOn 7 = true ∧ e.visMatch 7 0 = [ent] ∧ 15 = field ent 0 1 ∧ strKind ent ≠ 3 ∧ e.health = [] ∧ Sparse.wf ({} : VisStream) e.vis.streams = true) ∧
    ((e.visStr 15).frame = some f ∧ f.lines.length = strH ent ∧ f.bad ≤ field ent 0x3C 2 ∧ f.long = false) := by simp only [State.Canonical]; decide +kernel

theorem witness_ItemsAndLidar_1 :
    let i : VisItem := { kind := 4, source := 31, buf := 0, addr := 0x1000, fn := 0, flags := 0, fs := 0, ref := 0, quality := 1, w := 1, h := 1, c := 1, dtype := 0, body := [5#8, 6#8] }
    let s : State := { inService with vis.items := [{ kind := 4, source := 31, buf := 0, addr := 0x1000, fn := 0, flags := 0, fs := 0, ref := 0, quality := 1, w := 1, h := 1, c := 1, dtype := 0, body := [5#8, 6#8] }] }
    let e : State := s.elapse 0
    (s.Canonical) ∧
    ((e.vis.items.find? fun i => i.kind == 4 && i.source == 31) = some i ∧ e.health = [] ∧ ((List.range 32).all fun g => !e.fgOn g) = true) := by simp only [State.Canonical]; decide +kernel

theorem witness_ItemsAndLidar_2 :
    let s : State := { seeing with vis.streams := [(15, { armed := some 0 })] }
    let e : State := s.elapse 0
    let ent := visStream (e.sec 6) 0
    (s.Canonical) ∧
    (e.streamEntry 15 = some ent ∧ (e.visStr 15).armed = some 0 ∧ e.dogExpired 0 (field ent 0x0C 4) (field ent 0x0A 1) = true ∧ (e.visStr 15).frame = none ∧ bit (field ent 0x0B 1) 1 = false) := by simp only [State.Canonical]; decide +kernel

theorem witness_ItemsAndLidar_3 :
    let s : State := { seeing with vis.streams := [(15, { armed := some 0 })], image := some (imageOf [(6, visSection 2 0)]) }
    let e : State := s.elapse 0
    let ent := visStream (e.sec 6) 0
    (s.Canonical) ∧
    (e.streamEntry 15 = some ent ∧ (e.visStr 15).armed = some 0 ∧ e.dogExpired 0 (field ent 0x0C 4) (field ent 0x0A 1) = true ∧ (e.visStr 15).frame = none ∧ bit (field ent 0x0B 1) 1 = true) := by simp only [State.Canonical]; decide +kernel

theorem witness_ItemsAndLidar_4 :
    let s : State := seeing
    let e : State := s.elapse 0
    let c : List Byte := visChan (e.sec 6) 0
    (s.Canonical) ∧
    (e.chanEntry 31 = some c ∧ e.flag R.VFE_STATUS_RUN = true ∧ bit (field c 3 1) 1 = true) := by simp only [State.Canonical]; decide +kernel

theorem witness_ItemsAndLidar_6 :
    let s : State := { (seeing.setReg R.QUE_STATE_STATE 2 40).setReg R.QUE_WPTR_WPTR 1 40 with vis.lidars := [] }
    let e : State := s.elapse 0
    let ent := visLidar (e.sec 6) 0
    let h := e.slot 40 (e.rptr 40)
    (s.Canonical) ∧
    (e.lidarEntry 3 = some ent ∧ 40 = field ent 2 2 ∧ 0 = field h 0 2 ∧ e.flag R.VFE_STATUS_RUN = true ∧ e.qState 40 = qActive ∧ 1 ≤ e.qCount 40) := by simp only [State.Canonical]; decide +kernel

theorem witness_ItemsAndLidar_7 :
    let sc : VisScan := { stamp := 0, quality := 0, n := 0, buf := none }
    let s : State := { seeing with vis.lidars := [(3, { scan := some { stamp := 0, quality := 0, n := 0, buf := none } })] }
    let e : State := s.elapse 0
    let ent := visLidar (e.sec 6) 0
    (s.Canonical) ∧
    (e.lidarEntry 3 = some ent ∧ (e.visLid 3).scan = some sc ∧ sc.stamp + field ent 0x18 4 ≤ e.now ∧ sc.buf = none ∧ (sc.cells.length < lidarCells ent → bit (field ent 0x21 1) 0 = false)) := by simp only [State.Canonical]; decide +kernel

theorem witness_ItemsAndLidar_8 :
    let s : State := { seeing with vis.lidars := [(3, { armed := some 0 })] }
    let e : State := s.elapse 0
    let ent := visLidar (e.sec 6) 0
    (s.Canonical) ∧
    (e.lidarEntry 3 = some ent ∧ (e.visLid 3).armed = some 0 ∧ e.dogExpired 0 (field ent 0x1C 4) (field ent 0x20 1) = true ∧ bit (field ent 0x21 1) 0 = false) := by simp only [State.Canonical]; decide +kernel

theorem witness_VisionCommands_1 :
    let c : Cmd := cmd 0x50 3 [31, 1 + 2^16 * 2 + 2^32 * 3 + 2^48 * 4]
    let s : State := runs (cmd 0x50 3 [31, 1 + 2^16 * 2 + 2^32 * 3 + 2^48 * 4])
    let e : State := s.elapse 0
    (s.Canonical) ∧
    (e.wrote = none ∧ c.aborted = false ∧ e.engine 1 0x50 = some c) := by simp only [State.Canonical]; decide +kernel

theorem witness_VisionCommands_2 :
    let c : Cmd := cmd 0x51 3 [4 + 2^8 * 31, 9, 0x1000]
    let s : State := { runs (cmd 0x51 3 [4 + 2^8 * 31, 9, 0x1000]) with vis.sources := [(256 * 4 + 31, { items := [(2, 9)] })] }
    let e : State := s.elapse 0
    let x : VisSource := e.visSource (bits (c.word 1) 2 0) (bits (c.word 1) 12 8)
    (s.Canonical) ∧
    (e.wrote = none ∧ c.aborted = false ∧ e.engine 1 0x51 = some c ∧ (x.items.find? fun i => i.2 == bits (c.word 2) 31 0) = some (2, 9) ∧ x.held.contains 2 = false ∧ e.badWords (c.addr 3) 8 = [] ∧ c.addr 3 ≠ 0) := by simp only [State.Canonical]; decide +kernel

theorem witness_VisionCommands_3 :
    let c : Cmd := cmd 0x52 3 [4 + 2^8 * 31, 9, 0x1000]
    let s : State := { runs (cmd 0x52 3 [4 + 2^8 * 31, 9, 0x1000]) with vis.sources := [(256 * 4 + 31, { items := [(2, 9)], held := [2] })] }
    let e : State := s.elapse 0
    let x : VisSource := e.visSource (bits (c.word 1) 2 0) (bits (c.word 1) 12 8)
    (s.Canonical) ∧
    (e.wrote = none ∧ c.aborted = false ∧ e.engine 1 0x52 = some c ∧ (x.items.find? fun i => i.2 == bits (c.word 2) 31 0) = some (2, 9) ∧ x.held.contains 2 = true ∧ e.badWords (c.addr 3) 8 = [] ∧ c.addr 3 ≠ 0) := by simp only [State.Canonical]; decide +kernel

theorem witness_VisionCommands_4 :
    let c : Cmd := cmd 0x53 3 [0, 0, 0, 0, 0]
    let s : State := runs (cmd 0x53 3 [0, 0, 0, 0, 0])
    let e : State := s.elapse 0
    ((s.Canonical) ∧
    (e.wrote = none ∧ c.aborted = false ∧ e.engine 1 0x53 = some c ∧ e.cmd? 1 = some c)) ∧
    (Eff.each (roiBox c) (List.range (bits (c.word 5) 8 0)) e = (.ok (), e)) := by
  refine ⟨?_, ?_⟩
  · simp only [State.Canonical]; decide +kernel
  · exact rfl

theorem witness_ItemsAndLidar_5 :
    let s : State := seeing
    let e : State := s.elapse 0
    let c : List Byte := visChan (e.sec 6) 0
    (s.Canonical) ∧
    (e.chanEntry 31 = some c ∧ e.katOk c = true) := by simp only [State.Canonical]; decide +kernel

theorem witness_TensorCommands_1 :
    let c : Cmd := cmd 0x21 2 [2^36, 0x100 + 2^36, 0x200 + 2^36, 0, 0, 0, 1 + 2^20 * 2 + 2^36 * 2, 0x400 + 2^32]
    let s : State := { runs (cmd 0x21 2 [2^36, 0x100 + 2^36, 0x200 + 2^36, 0, 0, 0, 1 + 2^20 * 2 + 2^36 * 2, 0x400 + 2^32]) with mem := [(0xE000000000, 3#8), (0xE000000001, 255#8), (0xE000000100, 1#8), (0xE000000101, 2#8), (0xE000000110, 4#8), (0xE000000111, 5#8)] }
    let e : State := s.elapse 0
    let x := e.runCores (fun n => (mmaJob c [] n).run) (maskCores c.coreMask)
    (e.wrote = none ∧ c.aborted = false ∧ x.2.cmd? 1 = some c ∧ x.2.wrote = none ∧ e.engine 1 0x21 = some c ∧ x.1 = {}) := by decide +kernel

theorem witness_TensorCommands_2 :
    let c : Cmd := cmd 0x23 2 [0x10 + 2^36, 0, 0x100 + 2^36, 1 + 2^16 * 2, 0, 1]
    let s : State := { runs (cmd 0x23 2 [0x10 + 2^36, 0, 0x100 + 2^36, 1 + 2^16 * 2, 0, 1]) with mem := [(0xE000000010, 7#8), (0xE000000011, 9#8)] }
    let e : State := s.elapse 0
    let x := e.runCores (transposeCore c []) (maskCores c.coreMask)
    (e.wrote = none ∧ c.aborted = false ∧ x.2.cmd? 1 = some c ∧ x.2.wrote = none ∧ e.engine 1 0x23 = some c ∧ x.1 = {}) := by decide +kernel

theorem witness_TensorCommands_3 :
    let c : Cmd := cmd 0x24 2 [0x10 + 2^36, 0, 0x100 + 2^36, 1 + 2^16 * 2 + 2^44 * 0xA, 0, 1]
    let s : State := { runs (cmd 0x24 2 [0x10 + 2^36, 0, 0x100 + 2^36, 1 + 2^16 * 2 + 2^44 * 0xA, 0, 1]) with mem := [(0xE000000010, 7#8), (0xE000000011, 128#8)] }
    let e : State := s.elapse 0
    let x := e.runCores (vopCore c []) (maskCores c.coreMask)
    (e.wrote = none ∧ c.aborted = false ∧ x.2.cmd? 1 = some c ∧ x.2.wrote = none ∧ e.engine 1 0x24 = some c ∧ x.1 = {}) := by decide +kernel

theorem witness_TensorCommands_4 :
    let c : Cmd := cmd 0x25 2 [0x10 + 2^36, 0, 0x100 + 2^36, 1 + 2^16 * 2, 0, 1]
    let s : State := { runs (cmd 0x25 2 [0x10 + 2^36, 0, 0x100 + 2^36, 1 + 2^16 * 2, 0, 1]) with mem := [(0xE000000010, 7#8), (0xE000000011, 128#8)] }
    let e : State := s.elapse 0
    let x := e.runCores (reduceCore c []) (maskCores c.coreMask)
    (e.wrote = none ∧ c.aborted = false ∧ x.2.cmd? 1 = some c ∧ x.2.wrote = none ∧ e.engine 1 0x25 = some c ∧ x.1 = {}) := by decide +kernel

theorem witness_TensorCommands_5 :
    let c : Cmd := cmd 0x26 2 [0x10 + 2^36, 0, 0x100 + 2^36, 0, 0, 1]
    let s : State := runs (cmd 0x26 2 [0x10 + 2^36, 0, 0x100 + 2^36, 0, 0, 1])
    let e : State := s.elapse 0
    let x := e.runCores (softmaxCore c []) (maskCores c.coreMask)
    (e.wrote = none ∧ c.aborted = false ∧ x.2.cmd? 1 = some c ∧ x.2.wrote = none ∧ e.engine 1 0x26 = some c ∧ x.1 = {}) := by decide +kernel

theorem witness_TensorCommands_6 :
    let c : Cmd := cmd 0x27 2 [0x10 + 2^36, 0, 0x100 + 2^36, 0, 0, 1]
    let s : State := runs (cmd 0x27 2 [0x10 + 2^36, 0, 0x100 + 2^36, 0, 0, 1])
    let e : State := s.elapse 0
    let x := e.runCores (normCore c []) (maskCores c.coreMask)
    (e.wrote = none ∧ c.aborted = false ∧ x.2.cmd? 1 = some c ∧ x.2.wrote = none ∧ e.engine 1 0x27 = some c ∧ x.1 = {}) := by decide +kernel

theorem witness_TensorCommands_7 :
    let c : Cmd := cmd 0x2A 2 [0, 0, 0, 1, 0, 0]
    let s : State := runs (cmd 0x2A 2 [0, 0, 0, 1, 0, 0])
    let e : State := s.elapse 0
    let x := e.runCores (selftestCore c []) (maskCores c.coreMask)
    (e.wrote = none ∧ c.aborted = false ∧ x.2.cmd? 1 = some c ∧ x.2.wrote = none ∧ e.engine 1 0x2A = some c ∧ x.1 = {}) := by decide +kernel

theorem witness_TensorCommands_8 :
    let c : Cmd := cmd 0x30 2 [2^36, 0x100 + 2^36, 0x200 + 2^36, 0, 0, 0, 1 + 2^13 + 2^26 * 2 + 2^42, 0x400 + 2^32, 0x111100, 2^16 * 16 + 2^32 * 16, 0]
    let s : State := { runs (cmd 0x30 2 [2^36, 0x100 + 2^36, 0x200 + 2^36, 0, 0, 0, 1 + 2^13 + 2^26 * 2 + 2^42, 0x400 + 2^32, 0x111100, 2^16 * 16 + 2^32 * 16, 0]) with mem := [(0xE000000000, 3#8), (0xE000000001, 255#8), (0xE000000100, 1#8), (0xE000000110, 4#8)] }
    let e : State := s.elapse 0
    let x := e.runCores (fun n => (convJob c [] n).run) (maskCores c.coreMask)
    (e.wrote = none ∧ c.aborted = false ∧ x.2.cmd? 1 = some c ∧ x.2.wrote = none ∧ e.engine 1 0x30 = some c ∧ x.1 = {}) := by decide +kernel

theorem witness_TensorCommands_9 :
    let c : Cmd := cmd 0x31 2 [2^36, 0x100 + 2^36, 0x200 + 2^36, 0, 0, 0, 0, 0x400 + 2^32, 0x111122, 0, 2^25]
    let s : State := runs (cmd 0x31 2 [2^36, 0x100 + 2^36, 0x200 + 2^36, 0, 0, 0, 0, 0x400 + 2^32, 0x111122, 0, 2^25])
    let e : State := s.elapse 0
    let x := e.runCores (wconvCore c []) (maskCores c.coreMask)
    (e.wrote = none ∧ c.aborted = false ∧ x.2.cmd? 1 = some c ∧ x.2.wrote = none ∧ e.engine 1 0x31 = some c ∧ x.1 = {}) := by decide +kernel

theorem witness_TensorCommands_10 :
    let c : Cmd := cmd 0x32 2 [2^36, 0, 0x200 + 2^36, 1 + 2^16, 0, 1]
    let s : State := { runs (cmd 0x32 2 [2^36, 0, 0x200 + 2^36, 1 + 2^16, 0, 1]) with mem := [(0xE000000000, 1#8)] }
    let e : State := s.elapse 0
    let x := e.runCores (wxformCore c []) (maskCores c.coreMask)
    (e.wrote = none ∧ c.aborted = false ∧ x.2.cmd? 1 = some c ∧ x.2.wrote = none ∧ e.engine 1 0x32 = some c ∧ x.1 = {}) := by decide +kernel

theorem witness_TensorCommands_11 :
    let c : Cmd := cmd 0x33 2 [0x10 + 2^36, 0, 0x200 + 2^36, 1 + 2^13 * 2 + 2^26 + 2^42, 5 + 2^16 + 2^32 * 4, 1]
    let s : State := { runs (cmd 0x33 2 [0x10 + 2^36, 0, 0x200 + 2^36, 1 + 2^13 * 2 + 2^26 + 2^42, 5 + 2^16 + 2^32 * 4, 1]) with mem := [(0xE000000010, 7#8), (0xE000000011, 8#8)] }
    let e : State := s.elapse 0
    let x := e.runCores (foldCore true c []) (maskCores c.coreMask)
    (e.wrote = none ∧ c.aborted = false ∧ x.2.cmd? 1 = some c ∧ x.2.wrote = none ∧ e.engine 1 0x33 = some c ∧ x.1 = {}) := by decide +kernel

theorem witness_TensorCommands_12 :
    let c : Cmd := cmd 0x34 2 [0x10 + 2^36, 0, 0x200 + 2^36, 1 + 2^13 + 2^26 * 4 + 2^42, 2^16 * 4 + 2^32, 1]
    let s : State := { runs (cmd 0x34 2 [0x10 + 2^36, 0, 0x200 + 2^36, 1 + 2^13 + 2^26 * 4 + 2^42, 2^16 * 4 + 2^32, 1]) with mem := [(0xE000000010, 7#8), (0xE000000012, 9#8)] }
    let e : State := s.elapse 0
    let x := e.runCores (foldCore false c []) (maskCores c.coreMask)
    (e.wrote = none ∧ c.aborted = false ∧ x.2.cmd? 1 = some c ∧ x.2.wrote = none ∧ e.engine 1 0x34 = some c ∧ x.1 = {}) := by decide +kernel

theorem witness_TensorCommands_13 :
    let c : Cmd := cmd 0x35 2 [0x10 + 2^36, 0, 0, 2 + 2^13 + 2^26, 1, 3]
    let s : State := { runs (cmd 0x35 2 [0x10 + 2^36, 0, 0, 2 + 2^13 + 2^26, 1, 3]) with mem := [(0xE000000010, 7#8)] }
    let e : State := s.elapse 0
    let x := e.runCores (haloCore c) (maskCores c.coreMask)
    (e.wrote = none ∧ c.aborted = false ∧ x.2.cmd? 1 = some c ∧ x.2.wrote = none ∧ e.engine 1 0x35 = some c ∧ x.1 = {}) := by decide +kernel

theorem witness_IntegerPasses_1 :
    
    (isFloat 0 = false ∧ isFloat 2 = false) := by decide +kernel

theorem witness_MemoryUpkeep_1 :
    let s : State := blank.setReg R.PWR_DOMAINS_ON 1
    let e : State := s.elapse 0
    (s.Canonical) ∧
    (sramAt 0 = some (1, cmemBase 0, 0x800000) ∧ sramRows 0 = (64, 16, 8192) ∧ e.scrubs 0 = true ∧ 15 < 16 ∧ Sparse.get 0 (e.scrub 0).rows 15 + 1 < 8192 ∧ Sparse.wf 0 (e.scrub 0).rows = true ∧ e.health = []) := by simp only [State.Canonical]; decide +kernel

theorem witness_MemoryUpkeep_2 :
    let s : State := { blank.setReg R.PWR_DOMAINS_ON 256 with boot.phase := .idle }
    let e : State := s.elapse (msTicks 200)
    (s.Canonical) ∧
    (17 < 18 ∧ e.scrubs 17 = true ∧ (e.scrub 17).forced = false ∧ (e.scrub 17).began + msTicks 200 ≤ e.tick) := by simp only [State.Canonical]; decide +kernel

theorem witness_MemoryUpkeep_3 :
    let s : State := { blank.sets [(R.MEMC_STATUS_TRAINED, 0, 1), (R.PWR_PMIC_PG, 0, 1), (R.MEMC_CFG_PATROL, 0, 5)] with image := some (imageOf [(5, mk 32 [(0, 1, 1), (24, 4, 64)])]) }
    let e : State := s.elapse 0
    (s.Canonical) ∧
    (e.dramUp = true ∧ 0 < e.patrolSize ∧ e.reg R.MEMC_CFG_PATROL ≠ 0 ∧ e.health = [] ∧ e.patrolAt + 8 * 6 < e.patrolSize ∧ e.patrolSize ≤ e.patrolAt + 8 * 7) := by simp only [State.Canonical]; decide +kernel

theorem witness_MemoryUpkeep_4 :
    let s : State := blank.sets [(R.MEMC_STATUS_TRAINED, 0, 1), (R.PWR_PMIC_PG, 0, 1)]
    let e : State := s.elapse 0
    (s.Canonical) ∧
    (e.dramUp = true ∧ e.isDram 0x1000 = true ∧ e.hub.reissue = []) := by simp only [State.Canonical]; decide +kernel

theorem witness_MemoryUpkeep_5 :
    let s : State := { blank.sets [(R.MEMC_STATUS_TRAINED, 0, 1), (R.PWR_PMIC_PG, 0, 1)] with hub.reissue := [(0x1100, 2)] }
    let e : State := s.elapse 0
    (s.Canonical) ∧
    (e.dramUp = true ∧ e.isDram 0x1100 = true ∧ e.hub.reissue = [(0x1100, 2)]) := by simp only [State.Canonical]; decide +kernel

theorem witness_MemoryUpkeep_6 :
    let s : State := blank.sets [(R.MEMC_STATUS_TRAINED, 0, 1), (R.PWR_PMIC_PG, 0, 1), (R.MEMC_STATUS_RATE, 0, 2)]
    let e : State := s.elapse 0
    (s.Canonical) ∧
    (e.dramUp = true ∧ 2 < 3 ∧ e.reg R.MEMC_STATUS_RATE = 2) := by simp only [State.Canonical]; decide +kernel

theorem witness_WordErrors_1 :
    let s : State := { blank with health := [(0xE000000010, .correctable)] }
    (s.Canonical) ∧
    (s.badWords 0xE000000000 16 = [] ∧ s.badWords 0xE000000000 17 = [(0xE000000010, .correctable)]) := by simp only [State.Canonical]; decide +kernel

theorem witness_WordErrors_2 :
    let s : State := { blank with image := some (imageOf [(5, mk 32 [(0, 1, 1), (24, 4, 64)])]), health := [(8, .uncorrectable)], hub.latches := [{ src := 0x53, inst := 0, react := 0, detail := 0, time := 0, quality := 0, first := true, before := 0, after := 0, tick := 0 }] }
    (s.Canonical) ∧
    (s.badWords 0 9 = [(8, .uncorrectable)] ∧ sramIndex 8 = none ∧ s.latched 0x53 = true) := by simp only [State.Canonical]; decide +kernel

theorem witness_WordErrors_3 :
    let s : State := { blank with health := [(0xE000000010, .poisoned)] }
    let bs := List.replicate 16 5#8
    (s.Canonical) ∧
    (s.badWords 0xE000000010 bs.length = [(0xE000000010, .poisoned)] ∧ 0xE000000010 + s.wordSize 0xE000000010 ≤ 0xE000000010 + bs.length) := by simp only [State.Canonical]; decide +kernel

theorem witness_Copies_1 :
    let c : Cmd := cmd 0x40 1 [0x1000, 0x2000, 3]
    let s : State := { runs (cmd 0x40 1 [0x1000, 0x2000, 3]) with mem := [(0x1000, 1#8), (0x1002, 2#8)] }
    let e : State := s.elapse 0
    (s.Canonical) ∧
    (e.wrote = none ∧ c.aborted = false ∧ c.begun = false ∧ hdrCheckpoint (c.word 0) = false ∧ e.health = [] ∧ c.word 3 = 3 ∧ e.engine 1 0x40 = some c) := by simp only [State.Canonical]; decide +kernel

theorem witness_Copies_2 :
    let c : Cmd := cmd 0x43 1 [0x0807060504030201, 0x2000, 9]
    let s : State := runs (cmd 0x43 1 [0x0807060504030201, 0x2000, 9])
    let e : State := s.elapse 0
    (s.Canonical) ∧
    (e.wrote = none ∧ c.aborted = false ∧ c.begun = false ∧ hdrCheckpoint (c.word 0) = false ∧ e.health = [] ∧ c.word 3 = 9 ∧ e.engine 1 0x43 = some c) := by simp only [State.Canonical]; decide +kernel

theorem witness_Copies_3 :
    let c : Cmd := cmd 0x41 1 [0x1000, 0x2000, 1, 2 + 2^24 * 2, 4, 8, 0x10, 0x20]
    let s : State := { runs (cmd 0x41 1 [0x1000, 0x2000, 1, 2 + 2^24 * 2, 4, 8, 0x10, 0x20]) with mem := [(0x1000, 1#8), (0x1004, 2#8), (0x1010, 3#8), (0x1014, 4#8)] }
    let e : State := s.elapse 0
    let src : Nat → Nat → Nat := fun q i => c.addr 1 + q * c.word 7 + i * c.word 5
    let dst : Nat → Nat → Nat := fun q i => c.addr 2 + q * c.word 8 + i * c.word 6
    (s.Canonical) ∧
    (e.wrote = none ∧ c.aborted = false ∧ c.begun = false ∧ hdrCheckpoint (c.word 0) = false ∧ e.health = [] ∧ c.word 3 = 1 ∧ bits (c.word 4) 23 0 = 2 ∧ bits (c.word 4) 47 24 = 2 ∧ e.engine 1 0x41 = some c) ∧
    (∀ q ∈ List.range 2, ∀ i ∈ List.range 2, ∀ q' ∈ List.range 2, ∀ i' ∈ List.range 2, ((src q i + 1 ≤ dst q' i' ∨ dst q' i' + 1 ≤ src q i) ∧ ((q, i) = (q', i') ∨ dst q i + 1 ≤ dst q' i' ∨ dst q' i' + 1 ≤ dst q i))) := by simp only [State.Canonical]; decide +kernel

theorem witness_Copies_4 :
    let c : Cmd := cmd 0x42 1 [0x1000, 0x2000, 2 + 2^24 * 3 + 2^48, 8, 4]
    let s : State := { runs (cmd 0x42 1 [0x1000, 0x2000, 2 + 2^24 * 3 + 2^48, 8, 4]) with mem := [(0x1000, 1#8), (0x1002, 2#8), (0x1008, 3#8), (0x100C, 4#8)] }
    let e : State := s.elapse 0
    let src : Nat → Nat → Nat := fun i j => c.addr 1 + i * c.word 4 + j * 2
    let dst : Nat → Nat → Nat := fun j i => c.addr 2 + j * c.word 5 + i * 2
    (s.Canonical) ∧
    (e.wrote = none ∧ c.aborted = false ∧ c.begun = false ∧ hdrCheckpoint (c.word 0) = false ∧ e.health = [] ∧ transDims (c.word 3) = (2, 3, 2) ∧ e.engine 1 0x42 = some c) ∧
    (∀ i ∈ List.range 2, ∀ j ∈ List.range 3, ∀ i' ∈ List.range 2, ∀ j' ∈ List.range 3, ((src i j + 2 ≤ dst j' i' ∨ dst j' i' + 2 ≤ src i j) ∧ ((i, j) = (i', j') ∨ dst j i + 2 ≤ dst j' i' ∨ dst j' i' + 2 ≤ dst j i))) := by simp only [State.Canonical]; decide +kernel

theorem witness_RowCommands_1 :
    let c : Cmd := cmd 0x60 4 [9 * 2^10, 0x1000, 0, 0x2000, 8, 0, 0, 1]
    let s : State := { runs (cmd 0x60 4 [9 * 2^10, 0x1000, 0, 0x2000, 8, 0, 0, 1]) with embFile := [(0, [mk 64 [(0, 8, 0x4000), (8, 8, 2), (16, 8, 2 + 2^16 * 16)]])], mem := [(0x1000, 1#8), (0x4010, 3#8), (0x4011, 255#8), (0x4013, 0x3C#8)] }
    let e : State := s.elapse 0
    let o := gatherOp (c.word 1)
    let tb : EmbTable := (e.embTable c.part o.table).getD (embTableOf [])
    let x := runRows (gatherRow c o tb 0) (embBad []) 1 0 1 e
    (e.wrote = none ∧ c.aborted = false ∧ c.begun = false ∧ hdrCheckpoint (c.word 0) = false ∧ x.2.2.cmd? 1 = some c ∧ x.2.2.wrote = none ∧ e.engine 1 0x60 = some c ∧ e.embTable c.part o.table = some tb ∧ 1 = gatherRows c ∧ x.1 = 1 ∧ x.2.1 = {}) := by decide +kernel

theorem witness_RowCommands_2 :
    let c : Cmd := cmd 0x61 4 [9 * 2^8, 0x1000, 0x2000, 8, 1]
    let s : State := { runs (cmd 0x61 4 [9 * 2^8, 0x1000, 0x2000, 8, 1]) with image := some (imageOf [(5, mk 32 [(4, 2, 1), (16, 8, 0x4000), (24, 5, 0x1000), (29, 1, 3)])]), embFile := [(0, [mk 64 [(0, 8, 0x4000), (8, 8, 2), (16, 8, 2 + 2^16 * 16)]])], mem := [(0x1000, 1#8), (0x2002, 0x80#8), (0x2003, 0x3F#8), (0x2006, 0x80#8), (0x2007, 0xBF#8)] }
    let e : State := s.elapse 0
    let tb : EmbTable := (e.embTable c.part 0).getD (embTableOf [])
    let x := runRows (putAt c tb) (embBad []) 1 0 1 e
    (e.wrote = none ∧ c.aborted = false ∧ c.begun = false ∧ hdrCheckpoint (c.word 0) = false ∧ x.2.2.cmd? 1 = some c ∧ x.2.2.wrote = none ∧ e.engine 1 0x61 = some c ∧ e.embTable c.part (bits (c.word 1) 5 0) = some tb ∧ 1 = bits (c.word 5) 23 0 ∧ x.1 = 1 ∧ x.2.1 = {}) := by decide +kernel

theorem witness_RowCommands_3 :
    let c : Cmd := cmd 0x68 5 [2^26, 1 + 2^16 * 0x2000, 0, 0, 0x1000, 0, 0, 0, 0, 0, 2]
    let s : State := { runs (cmd 0x68 5 [2^26, 1 + 2^16 * 0x2000, 0, 0, 0x1000, 0, 0, 0, 0, 0, 2]) with mem := [(0x1000, 128#8), (0x1001, 9#8)] }
    let e : State := s.elapse 0
    let x := runRows (selRow c 1) (selBad none) 1 0 1 e
    (e.wrote = none ∧ c.aborted = false ∧ c.begun = false ∧ hdrCheckpoint (c.word 0) = false ∧ x.2.2.cmd? 1 = some c ∧ x.2.2.wrote = none ∧ 1 = c.sel.rows ∧ c.sel.n ≠ 0 ∧ e.engine 1 0x68 = some c ∧ x.1 = 1 ∧ x.2.1 = {}) := by decide +kernel

theorem witness_RowCommands_4 :
    let c : Cmd := cmd 0x69 5 [2^26 + 2^5, 1 + 2^16 * 0x2000, 2^40 * 7, 0, 0x1000, 0, 0, 0, 0, 0, 2]
    let s : State := { runs (cmd 0x69 5 [2^26 + 2^5, 1 + 2^16 * 0x2000, 2^40 * 7, 0, 0x1000, 0, 0, 0, 0, 0, 2]) with mem := [(0x1000, 128#8), (0x1001, 9#8)] }
    let e : State := s.elapse 0
    let x := runRows (selLong c c.sel.k) (selBad none) 1 0 1 e
    (e.wrote = none ∧ c.aborted = false ∧ c.begun = false ∧ hdrCheckpoint (c.word 0) = false ∧ x.2.2.cmd? 1 = some c ∧ x.2.2.wrote = none ∧ 1 = c.sel.rows ∧ c.sel.k ≠ 0 ∧ e.engine 1 0x69 = some c ∧ x.1 = 1 ∧ x.2.1 = {}) := by decide +kernel

theorem witness_RowCommands_5 :
    let c : Cmd := cmd 0x6A 5 [2^26 + 9, 1 + 2^16 * 0x2000, 0, 0x3000, 0x1000, 0, 0, 0, 0, 0, 2]
    let s : State := { (runs (cmd 0x6A 5 [2^26 + 9, 1 + 2^16 * 0x2000, 0, 0x3000, 0x1000, 0, 0, 0, 0, 0, 2])).setReg R.SEL_STREAM_RANGE_COUNT 1 0 with mem := [(0x1002, 128#8), (0x1003, 0x3F#8), (0x300A, 0x80#8), (0x300B, 0x3F#8)] }
    let e : State := s.elapse 0
    let x := runRows (sampleRow c) (selBad none) 1 0 1 e
    (e.wrote = none ∧ c.aborted = false ∧ c.begun = false ∧ hdrCheckpoint (c.word 0) = false ∧ x.2.2.cmd? 1 = some c ∧ x.2.2.wrote = none ∧ 1 = c.sel.rows ∧ c.sel.n ≠ 0 ∧ e.engine 1 0x6A = some c ∧ x.1 = 1 ∧ x.2.1 = {}) := by decide +kernel

theorem witness_RowCommands_6 :
    let c : Cmd := cmd 0x6B 5 [2^26 + 2^4, 1 + 2^16 * 0x2000, 0, 0, 0x1000, 0, 0, 0, 0, 0, 2]
    let s : State := { runs (cmd 0x6B 5 [2^26 + 2^4, 1 + 2^16 * 0x2000, 0, 0, 0x1000, 0, 0, 0, 0, 0, 2]) with mem := [(0x1000, 3#8), (0x1001, 1#8)] }
    let e : State := s.elapse 0
    let x := runRows (selLong c c.sel.n) (selBad none) 1 0 1 e
    (e.wrote = none ∧ c.aborted = false ∧ c.begun = false ∧ hdrCheckpoint (c.word 0) = false ∧ x.2.2.cmd? 1 = some c ∧ x.2.2.wrote = none ∧ 1 = c.sel.rows ∧ c.sel.n ≠ 0 ∧ e.engine 1 0x6B = some c ∧ x.1 = 1 ∧ x.2.1 = {}) := by decide +kernel

theorem witness_RandomStreams_1 :
    let c : Cmd := cmd 0x6C 5 [127, 0x1000]
    let s : State := runs (cmd 0x6C 5 [127, 0x1000])
    let e : State := s.elapse 0
    (s.Canonical) ∧
    (Sparse.wf (none : Option Stream) e.streams = true ∧ e.wrote = none ∧ c.aborted = false ∧ e.engine 1 0x6C = some c ∧ 127 = bits (c.word 1) 6 0 ∧ e.health = [] ∧ bits (c.word 1) 10 8 = 0) := by simp only [State.Canonical]; decide +kernel

theorem witness_RandomStreams_2 :
    let c : Cmd := cmd 0x6C 5 [127 + 2^8, 0x1000]
    let s : State := { runs (cmd 0x6C 5 [127 + 2^8, 0x1000]) with streams := [(127, some ⟨List.replicate 32 1#8, List.replicate 16 2#8, 3⟩)] }
    let e : State := s.elapse 0
    (s.Canonical) ∧
    (Sparse.wf (none : Option Stream) e.streams = true ∧ e.wrote = none ∧ c.aborted = false ∧ e.engine 1 0x6C = some c ∧ 127 = bits (c.word 1) 6 0 ∧ e.health = [] ∧ bits (c.word 1) 10 8 = 1) := by simp only [State.Canonical]; decide +kernel

theorem witness_RandomStreams_3 :
    let c : Cmd := cmd 0x6C 5 [127 + 2^9, 0x1000]
    let s : State := { runs (cmd 0x6C 5 [127 + 2^9, 0x1000]) with mem := ((List.range 64).zip (streamBytes (some ⟨List.replicate 32 1#8, List.replicate 16 2#8, 3⟩))).filterMap fun x => if x.2 = 0#8 then none else some (0x1000 + x.1, x.2) }
    let e : State := s.elapse 0
    let b := e.bytes (c.addr 2) 64
    (s.Canonical) ∧
    (Sparse.wf (none : Option Stream) e.streams = true ∧ e.wrote = none ∧ c.aborted = false ∧ e.engine 1 0x6C = some c ∧ 127 = bits (c.word 1) 6 0 ∧ e.health = [] ∧ bits (c.word 1) 10 8 = 2 ∧ field b 56 4 = crc32 (b.take 56) ∧ field b 60 4 = 0 ∧ field b 55 1 = 0 ∧ field b 54 1 = 1) := by simp only [State.Canonical]; decide +kernel

theorem witness_RandomStreams_4 :
    let c : Cmd := cmd 0x6C 5 [127 + 2^9, 0x1000]
    let s : State := runs (cmd 0x6C 5 [127 + 2^9, 0x1000])
    let e : State := s.elapse 0
    let b := e.bytes (c.addr 2) 64
    (s.Canonical) ∧
    (Sparse.wf (none : Option Stream) e.streams = true ∧ e.wrote = none ∧ c.aborted = false ∧ e.engine 1 0x6C = some c ∧ 127 = bits (c.word 1) 6 0 ∧ e.health = [] ∧ bits (c.word 1) 10 8 = 2 ∧ field b 56 4 ≠ crc32 (b.take 56)) := by simp only [State.Canonical]; decide +kernel

theorem witness_RandomStreams_5 :
    let c : Cmd := cmd 0x6C 5 [127 + 2^8 * 3, 0]
    let s : State := { runs (cmd 0x6C 5 [127 + 2^8 * 3, 0]) with streams := [(3, some ⟨[], [], 3⟩), (127, some ⟨[], [], 3⟩)] }
    let e : State := s.elapse 0
    (s.Canonical) ∧
    (Sparse.wf (none : Option Stream) e.streams = true ∧ e.wrote = none ∧ c.aborted = false ∧ e.engine 1 0x6C = some c ∧ 127 = bits (c.word 1) 6 0 ∧ e.health = [] ∧ bits (c.word 1) 10 8 = 3) := by simp only [State.Canonical]; decide +kernel

theorem witness_ListMerge_1 :
    let c : Cmd := cmd 0x6D 5 [0x1000, 0x2000, 2 + 2^16 * 2 + 2^32 * 9, 100]
    let s : State := { runs (cmd 0x6D 5 [0x1000, 0x2000, 2 + 2^16 * 2 + 2^32 * 9, 100]) with mem := [(0x1000, 5#8), (0x1008, 4#8)] }
    let e : State := s.elapse 0
    (s.Canonical) ∧
    (e.engine 1 0x6D = some c ∧ c.aborted = false ∧ e.wrote = none ∧ e.health = [] ∧ e.ifaces.held = [] ∧ (inOrder (mergeOp true c.mergeDir) (bytesWords (e.bytes (c.addr 1) (8 * c.mergeK)) c.mergeK) || inOrder (mergeOp false c.mergeDir) (bytesWords (e.bytes (c.addr 1) (8 * c.mergeK)) c.mergeK)) = true) := by simp only [State.Canonical]; decide +kernel

theorem witness_ListMerge_2 :
    let x : XList := { coll := 9, rank := 1, k := 1, dir := 0, g := 2, since := 0 }
    let s : State := { blank with ifaces.ready := [{ coll := 9, rank := 1, k := 1, dir := 0, g := 2, since := 0 }] }
    let e : State := s.elapse 5
    (s.Canonical) ∧
    (e.ifaces.ready = x :: [] ∧ e.merging x.coll = none ∧ (e.ifaces.held.any fun y => y.coll == x.coll && y.rank == x.rank) = false ∧ e.ifaces.held.length < 8) := by simp only [State.Canonical]; decide +kernel

theorem witness_ListMerge_3 :
    let x : XList := { coll := 9, rank := 1, k := 1, dir := 0, g := 2, since := 0 }
    let s : State := { blank with ifaces.ready := [{ coll := 9, rank := 1, k := 1, dir := 0, g := 2, since := 0 }], ifaces.held := [{ coll := 9, rank := 1, k := 1, dir := 0, g := 2, since := 0 }] }
    let e : State := s.elapse 5
    (s.Canonical) ∧
    (e.ifaces.ready = x :: [] ∧ e.merging x.coll = none ∧ (e.ifaces.held.any fun y => y.coll == x.coll && y.rank == x.rank) = true) := by simp only [State.Canonical]; decide +kernel

theorem witness_ListMerge_4 :
    let c : Cmd := { cmd 0x6D 5 [0x1000, 0x2000, 2 + 2^16 * 2 + 2^32 * 9, 100] with stage := .waiting, begun := true, limit := some 2500 }
    let s : State := { runs { cmd 0x6D 5 [0x1000, 0x2000, 2 + 2^16 * 2 + 2^32 * 9, 100] with stage := .waiting, begun := true, limit := some 2500 } with tick := 0 }
    let e : State := s.elapse 2500
    (s.Canonical) ∧
    (e.cmd? 1 = some c ∧ c.op = 0x6D ∧ c.stage = .waiting ∧ c.limit = some 2500 ∧ 2500 ≤ e.tick) := by simp only [State.Canonical]; decide +kernel

theorem witness_ListMerge_5 :
    let x : XList := { coll := 9, rank := 1, k := 1, dir := 0, g := 2, since := 0 }
    let s : State := { blank with ifaces.held := [{ coll := 9, rank := 1, k := 1, dir := 0, g := 2, since := 0 }] }
    let e : State := s.elapse (msTicks 1000)
    (s.Canonical) ∧
    (e.ifaces.held = x :: [] ∧ x.since + msTicks 1000 ≤ e.tick) := by simp only [State.Canonical]; decide +kernel

theorem witness_TokenCommands_1 :
    let c : Cmd := cmd 0x70 6 [0x30, 0x1000, 0, 0x2000, 4 + 2^16, 0]
    let s : State := { runs (cmd 0x70 6 [0x30, 0x1000, 0, 0x2000, 4 + 2^16, 0]) with image := some (imageOf [(0xB, mk 144 [(0, 1, 1), (16 + 8, 4, 10), (16 + 0xC, 4, 1), (16 + 0x10, 4, 2), (16 + 0x28, 8, 0x5000), (16 + 0x44, 4, 0x4440)])]), mem := [(0x5020, 16#8)] }
    let e : State := s.elapse 0
    let v : Vocab := (e.vocab 0).getD (vocabOf [])
    ((e.wrote = none ∧ c.aborted = false ∧ (encodeText c v e).2.cmd? 1 = some c ∧ (encodeText c v e).2.wrote = none ∧ e.engine 1 0x70 = some c ∧ e.vocab (bits (c.word 1) 2 0) = some v)) ∧
    (encodeText c v e = (.ok (), (encodeText c v e).2)) := by
  refine ⟨?_, ?_⟩
  · decide +kernel
  · exact ok_pair _ (by decide +kernel)

theorem witness_TokenCommands_2 :
    let c : Cmd := cmd 0x71 6 [0, 0x1000, 1, 0x2000, 8, 0]
    let s : State := { runs (cmd 0x71 6 [0, 0x1000, 1, 0x2000, 8, 0]) with image := some (imageOf [(0xB, mk 144 [(0, 1, 1), (16 + 8, 4, 10), (16 + 0x30, 8, 0x6000), (16 + 0x38, 8, 0x7000), (16 + 0x40, 4, 1), (16 + 0x48, 8, 0x8000)])]), mem := [(0x6004, 1#8), (0x7000, 0x41#8)] }
    let e : State := s.elapse 0
    let v : Vocab := (e.vocab 0).getD (vocabOf [])
    ((e.wrote = none ∧ c.aborted = false ∧ (decodeText c v e).2.cmd? 1 = some c ∧ (decodeText c v e).2.wrote = none ∧ e.engine 1 0x71 = some c ∧ e.vocab (bits (c.word 1) 2 0) = some v)) ∧
    (decodeText c v e = (.ok (), (decodeText c v e).2)) := by
  refine ⟨?_, ?_⟩
  · decide +kernel
  · exact ok_pair _ (by decide +kernel)

theorem witness_TokenCommands_3 :
    let c : Cmd := cmd 0x74 6 [0x2000, 64, 12 + 2^20 * 9 + 2^32, 0x1000, 0x3000]
    let s : State := { (runs (cmd 0x74 6 [0x2000, 64, 12 + 2^20 * 9 + 2^32, 0x1000, 0x3000])).setReg R.TOK_SLOT_RANGE_COUNT 128 0 with image := some (imageOf [(0xB, mk 144 [(0, 1, 1), (16 + 8, 4, 10)])]), slots := [(5, { active := true, epoch := 1 })], mem := [(0x1000, 5#8), (0x1002, 1#8)] }
    let e : State := s.elapse 0
    ((e.wrote = none ∧ c.aborted = false ∧ (maskRows c e).2.cmd? 1 = some c ∧ (maskRows c e).2.wrote = none ∧ e.engine 1 0x74 = some c)) ∧
    (maskRows c e = (.ok (), (maskRows c e).2)) := by
  refine ⟨?_, ?_⟩
  · decide +kernel
  · exact ok_pair _ (by decide +kernel)

theorem witness_TokenCommands_4 :
    let c : Cmd := cmd 0x75 6 [0x2000, 0x1000, 1, 0x3000]
    let s : State := { (runs (cmd 0x75 6 [0x2000, 0x1000, 1, 0x3000])).setReg R.TOK_SLOT_RANGE_COUNT 128 0 with image := some (imageOf [(0xB, mk 144 [(0, 1, 1), (16 + 8, 4, 10), (16 + 0x10, 4, 2)])]), slots := [(5, { active := true, epoch := 1 })], mem := [(0x1000, 5#8), (0x1002, 1#8), (0x2000, 2#8)] }
    let e : State := s.elapse 0
    ((e.wrote = none ∧ c.aborted = false ∧ (stepSlots c e).2.cmd? 1 = some c ∧ (stepSlots c e).2.wrote = none ∧ e.engine 1 0x75 = some c)) ∧
    (stepSlots c e = (.ok (), (stepSlots c e).2)) := by
  refine ⟨?_, ?_⟩
  · decide +kernel
  · exact ok_pair _ (by decide +kernel)

theorem witness_TokenCommands_5 :
    let c : Cmd := cmd 0x70 6 [0x30, 0x1000, 0, 0x2000, 4 + 2^16, 0]
    let s : State := { runs (cmd 0x70 6 [0x30, 0x1000, 0, 0x2000, 4 + 2^16, 0]) with image := some (imageOf [(0xB, mk 144 [(0, 1, 1), (16 + 8, 4, 10), (16 + 0x28, 8, 0x5000), (16 + 0x44, 4, 0x4440)])]) }
    let e : State := s.elapse 0
    let v : Vocab := (e.vocab 0).getD (vocabOf [])
    ((e.wrote = none ∧ c.aborted = false ∧ (encodeText c v e).2.cmd? 1 = some c ∧ (encodeText c v e).2.wrote = none ∧ e.engine 1 0x70 = some c ∧ e.vocab (bits (c.word 1) 2 0) = some v)) ∧
    (encodeText c v e = (.error { status := 0x20, detail := 1 + 2^32 * 8 }, (encodeText c v e).2)) := by
  refine ⟨?_, ?_⟩
  · decide +kernel
  · exact err_pair _ _ (by decide +kernel)

theorem witness_TextSlots_1 :
    let c : Cmd := cmd 0x72 6 [127 + 2^16 * 0x7F + 2^48 * 3, 0x9000, 7, 0x1000]
    let s : State := runs (cmd 0x72 6 [127 + 2^16 * 0x7F + 2^48 * 3, 0x9000, 7, 0x1000])
    let e : State := s.elapse 0
    (s.Canonical) ∧
    (e.wrote = none ∧ c.aborted = false ∧ Sparse.wf ({} : Slot) e.slots = true ∧ e.health = [] ∧ 127 = bits (c.word 1) 6 0 ∧ e.engine 1 0x72 = some c ∧ bits (c.word 1) 10 8 = 0 ∧ c.addr 4 ≠ 0 ∧ (e.slotOf 127).active = false) := by simp only [State.Canonical]; decide +kernel

theorem witness_TextSlots_2 :
    let c : Cmd := cmd 0x72 6 [127 + 2^16 * 0x7F + 2^48 * 3, 0x9000, 7, 0x1000]
    let s : State := { runs (cmd 0x72 6 [127 + 2^16 * 0x7F + 2^48 * 3, 0x9000, 7, 0x1000]) with slots := [(127, { active := true, epoch := 9 })] }
    let e : State := s.elapse 0
    (s.Canonical) ∧
    (e.wrote = none ∧ c.aborted = false ∧ Sparse.wf ({} : Slot) e.slots = true ∧ e.health = [] ∧ 127 = bits (c.word 1) 6 0 ∧ e.engine 1 0x72 = some c ∧ bits (c.word 1) 10 8 = 0 ∧ c.addr 4 ≠ 0 ∧ (e.slotOf 127).active = true) := by simp only [State.Canonical]; decide +kernel

theorem witness_TextSlots_3 :
    let c : Cmd := cmd 0x72 6 [127 + 2^8, 0, 0, 0x1000]
    let s : State := { runs (cmd 0x72 6 [127 + 2^8, 0, 0, 0x1000]) with slots := [(127, { active := true, finished := true, epoch := 9 })] }
    let e : State := s.elapse 0
    (s.Canonical) ∧
    (e.wrote = none ∧ c.aborted = false ∧ Sparse.wf ({} : Slot) e.slots = true ∧ e.health = [] ∧ 127 = bits (c.word 1) 6 0 ∧ e.engine 1 0x72 = some c ∧ bits (c.word 1) 10 8 = 1 ∧ c.addr 4 ≠ 0 ∧ (e.slotOf 127).active = true ∧ (e.slotOf 127).finished = true) := by simp only [State.Canonical]; decide +kernel

theorem witness_TextSlots_4 :
    let c : Cmd := cmd 0x73 6 [0x1000, 0]
    let s : State := { (runs (cmd 0x73 6 [0x1000, 0])).setReg R.TOK_SLOT_RANGE_COUNT 128 0 with slots := [(0, { active := true, epoch := 3 }), (127, { active := true, epoch := 9 })] }
    let e : State := s.elapse 0
    (s.Canonical) ∧
    (e.wrote = none ∧ c.aborted = false ∧ Sparse.wf ({} : Slot) e.slots = true ∧ e.health = [] ∧ e.engine 1 0x73 = some c ∧ c.addr 2 = 0) := by simp only [State.Canonical]; decide +kernel

theorem witness_SamplePathAndMutes_1 :
    let s : State := inService.setReg R.ACU_STATUS_SP_RUN 1
    let e : State := s.elapse 0
    (s.Canonical) ∧
    (e.flag R.ACU_STATUS_SP_RUN = true) := by simp only [State.Canonical]; decide +kernel

theorem witness_SamplePathAndMutes_2 :
    let s : State := inService
    let e : State := s.elapse 0
    (s.Canonical) ∧
    (e.flag R.ACU_STATUS_SP_RUN = false) := by simp only [State.Canonical]; decide +kernel

theorem witness_SamplePathAndMutes_3 :
    let s : State := { inService with acu.block := some ⟨[], []⟩ }
    let e : State := s.elapse 0
    (s.Canonical) ∧
    (e.acu.block = some ⟨[], []⟩ ∧ audSpks e.audio = 0) := by simp only [State.Canonical]; decide +kernel

theorem witness_SamplePathAndMutes_4 :
    let s : State := inService.setReg R.ACU_STATUS_SP_RUN 1
    let e : State := s.elapse 0
    (s.Canonical) ∧
    (e.flag R.ACU_STATUS_SP_RUN = true ∧ e.flag R.ACU_MUTE_MUTED = false) := by simp only [State.Canonical]; decide +kernel

theorem witness_SamplePathAndMutes_5 :
    let s : State := inService.sets [(R.ACU_STATUS_SP_RUN, 0, 1), (R.ACU_MUTE_MUTED, 0, 1), (R.ACU_MUTE_A, 0, 1), (R.ACU_STATUS_ANC_CAUSE, 0, 2)]
    let e : State := s.elapse 0
    (s.Canonical) ∧
    (e.flag R.ACU_STATUS_SP_RUN = true ∧ e.flag R.ACU_MUTE_MUTED = true) := by simp only [State.Canonical]; decide +kernel

theorem witness_SamplePathAndMutes_6 :
    let s : State := { inService with image := some (imageOf [(7, mk 64 [(0xE, 2, 5)])]), acu.disc := some 0 }
    let e : State := s.elapse (msTicks 5)
    let u : State := (e.setReg R.ACU_MUTE_DISC 1).incReg R.ACU_DISC_FAULTS_COUNT
    (s.Canonical) ∧
    (e.acu.disc = some 0 ∧ e.flag R.ACU_MUTE_DISC = false ∧ 0 + msTicks (field e.audio 0xE 2) ≤ e.tick) := by simp only [State.Canonical]; decide +kernel

theorem witness_AudioPorts_1 :
    let s : State := { inService.sets [(R.PWR_DOMAINS_ON, 0, 32), (R.ACU_STATUS_SP_RUN, 0, 1), (R.ACU_PORT_STAT_LOCKED, 5, 1)] with applied := true, image := some (imageOf [(7, mk 256 [(0, 1, 6), (64 + 160, 1, 1)])]) }
    let e : State := s.elapse 0
    let u : State := (((((e.setAcuPort 5 { e.acuPort 5 with since := e.tick }).setReg R.ACU_PORT_STAT_LOCKED 0 5).setReg R.ACU_PORT_STAT_FAULT 1 5).setReg R.ACU_STATUS_SP_RUN 0).acuClock).incReg R.ACU_PORT_FAULTS_COUNT 5
    (s.Canonical) ∧
    (e.portUp 5 = true ∧ e.flag R.ACU_PORT_STAT_FAULT 5 = false) := by simp only [State.Canonical]; decide +kernel

theorem witness_AudioPorts_2 :
    let s : State := { inService.sets [(R.PWR_DOMAINS_ON, 0, 32), (R.ACU_PORT_STAT_FAULT, 5, 1)] with applied := true, image := some (imageOf [(7, mk 256 [(0, 1, 6), (64 + 160, 1, 1)])]) }
    let e : State := s.elapse (msTicks 100)
    (s.Canonical) ∧
    (e.portUp 5 = true ∧ e.flag R.ACU_PORT_STAT_FAULT 5 = true ∧ (e.acuPort 5).since + msTicks 100 ≤ e.tick) := by simp only [State.Canonical]; decide +kernel

theorem witness_AudioPorts_3 :
    let s : State := { inService.sets [(R.PWR_DOMAINS_ON, 0, 32)] with applied := true, image := some (imageOf [(7, mk 256 [(0, 1, 1), (64, 1, 1)])]) }
    let e : State := s.elapse 0
    (s.Canonical) ∧
    (e.portUp 0 = true ∧ field e.audio 0 1 = 0 + 1 ∧ e.flag R.ACU_PORT_STAT_LOCKED 0 = false) := by simp only [State.Canonical]; decide +kernel

theorem witness_AudioPorts_4 :
    let s : State := { inService.sets [(R.PWR_DOMAINS_ON, 0, 32)] with applied := true, image := some (imageOf [(7, mk 256 [(0, 1, 1), (64, 1, 1)])]), acu.ports := [(0, { ramp := Ramp.at 0, change := some true })] }
    let e : State := s.elapse 0
    (s.Canonical) ∧
    (e.portUp 0 = true ∧ (e.acuPort 0).change = some true ∧ (e.acuPort 0).ramp.g = 0 ∧ e.flag R.ACU_PORT_STAT_FAULT 0 = false) := by simp only [State.Canonical]; decide +kernel

theorem witness_AudioPorts_5 :
    let s : State := { inService.sets [(R.PWR_DOMAINS_ON, 0, 32), (R.ACU_PORT_STAT_FAULT, 0, 1), (R.ACU_PORT_STAT_CHANGING, 0, 1)] with applied := true, image := some (imageOf [(7, mk 256 [(0, 1, 1), (64, 1, 0x11)])]) }
    let e : State := s.elapse 0
    (s.Canonical) ∧
    (e.portUp 0 = true ∧ portMaster (audPort e.audio 0) = false ∧ portAlt (audPort e.audio 0) ≠ 3 ∧ e.flag R.ACU_PORT_STAT_FAULT 0 = true) := by simp only [State.Canonical]; decide +kernel

theorem witness_AcousticCommands_1 :
    let c : Cmd := cmd 0x81 7 [3, 9, 0x1000]
    let s : State := { runs (cmd 0x81 7 [3, 9, 0x1000]) with acu.caps := [(3, { items := [(7, 9)], held := [1] })] }
    let e : State := s.elapse 0
    (s.Canonical) ∧
    (e.wrote = none ∧ c.aborted = false ∧ e.health = [] ∧ 3 = bits (c.word 1) 1 0 ∧ e.engine 1 0x81 = some c ∧ ((e.capture 3).items.find? fun i => i.2 == bits (c.word 2) 31 0) = some (7, 9) ∧ (e.capture 3).held.contains 7 = false ∧ c.addr 3 ≠ 0) := by simp only [State.Canonical]; decide +kernel

theorem witness_AcousticCommands_2 :
    let c : Cmd := cmd 0x82 7 [3, 9, 0x1000]
    let s : State := { runs (cmd 0x82 7 [3, 9, 0x1000]) with acu.caps := [(3, { items := [(7, 9)], held := [7, 1] })] }
    let e : State := s.elapse 0
    (s.Canonical) ∧
    (e.wrote = none ∧ c.aborted = false ∧ e.health = [] ∧ 3 = bits (c.word 1) 1 0 ∧ e.engine 1 0x82 = some c ∧ ((e.capture 3).items.find? fun i => i.2 == bits (c.word 2) 31 0) = some (7, 9) ∧ (e.capture 3).held.contains 7 = true ∧ c.addr 3 ≠ 0) := by simp only [State.Canonical]; decide +kernel

theorem witness_AcousticCommands_3 :
    let c : Cmd := cmd 0x83 7 [16384 + 2^16 * 10]
    let s : State := runs (cmd 0x83 7 [16384 + 2^16 * 10])
    let e : State := s.elapse 0
    (s.Canonical) ∧
    (e.wrote = none ∧ c.aborted = false ∧ e.health = [] ∧ e.engine 1 0x83 = some c) := by simp only [State.Canonical]; decide +kernel

theorem witness_AcousticCommands_4 :
    let c : Cmd := cmd 0x85 7 [5 + 2^8, 0x1000]
    let s : State := runs (cmd 0x85 7 [5 + 2^8, 0x1000])
    let e : State := s.elapse 0
    (s.Canonical) ∧
    (e.wrote = none ∧ c.aborted = false ∧ e.health = [] ∧ 5 = bits (c.word 1) 2 0 ∧ true = bit (c.word 1) 8 ∧ e.engine 1 0x85 = some c ∧ c.addr 2 ≠ 0 ∧ e.flag R.ACU_PORT_STAT_CHANGING 5 = false ∧ e.flag R.ACU_PORT_STAT_FAULT 5 = false ∧ e.flag R.ACU_PORT_STAT_ALT 5 ≠ true) := by simp only [State.Canonical]; decide +kernel

theorem witness_AcousticCommands_5 :
    let c : Cmd := cmd 0x85 7 [0, 0x1000]
    let s : State := runs (cmd 0x85 7 [0, 0x1000])
    let e : State := s.elapse 0
    (s.Canonical) ∧
    (e.wrote = none ∧ c.aborted = false ∧ e.health = [] ∧ 0 = bits (c.word 1) 2 0 ∧ false = bit (c.word 1) 8 ∧ e.engine 1 0x85 = some c ∧ c.addr 2 ≠ 0 ∧ e.flag R.ACU_PORT_STAT_CHANGING 0 = false ∧ e.flag R.ACU_PORT_STAT_FAULT 0 = false ∧ e.flag R.ACU_PORT_STAT_ALT 0 = false) := by simp only [State.Canonical]; decide +kernel

theorem witness_AcousticCommands_6 :
    let c : Cmd := cmd 0x80 7 [7 + 2^4 + 2^8 * 3, 0x1000, 2, 0, 0]
    let s : State := { runs (cmd 0x80 7 [7 + 2^4 + 2^8 * 3, 0x1000, 2, 0, 0]) with mem := [(0x1001, 0x40#8)] }
    let e : State := s.elapse 0
    let x : State := e.countRd c.part (c.addr 2) 4
    (s.Canonical) ∧
    (e.wrote = none ∧ c.aborted = false ∧ e.health = [] ∧ 7 = bits (c.word 1) 2 0 ∧ 1 = bits (c.word 1) 7 4 ∧ 3 = bits (c.word 1) 11 8 ∧ 2 = bits (c.word 3) 15 0 ∧ e.engine 1 0x80 = some c ∧ c.addr 5 = 0 ∧ decide (4 ≤ (Sparse.get ({} : PlayChan) x.acu.plays 7).hops.length) = false) := by simp only [State.Canonical]; decide +kernel

theorem witness_AcousticCommands_7 :
    let h : CapHop := { first := 100, quality := 2, buf := some 1, frames := 480, rows := [[5], [6]] }
    let s : State := { inService with image := some (imageOf [(7, mk 320 [(0xA, 1, 1), (256, 1, 3), (256 + 4, 1, 1), (256 + 6, 1, 3), (256 + 7, 1, 2), (256 + 8, 8, 0x4000), (256 + 16, 4, 0x1000)])]), acu.caps := [(3, { seq := 4, ready := [{ first := 100, quality := 2, buf := some 1, frames := 480, rows := [[5], [6]] }] })] }
    let e : State := s.elapse 0
    let ent : List Byte := (e.capEntry 3).getD []
    (s.Canonical) ∧
    (e.wrote = none ∧ e.health = [] ∧ 3 < 4 ∧ e.capEntry 3 = some ent ∧ (e.capture 3).ready = h :: [] ∧ h.buf = some 1 ∧ field ent 2 2 = 0 ∧ ((List.range 32).all fun g => !e.fgOn g) = true) := by simp only [State.Canonical]; decide +kernel

theorem witness_AcousticCommands_8 :
    let c : Cmd := cmd 0x84 7 [0, 0]
    let s : State := (runs (cmd 0x84 7 [0, 0])).setReg R.ACU_STATUS_ANC_CAUSE 0x9F
    let e : State := s.elapse 0
    (s.Canonical) ∧
    (e.wrote = none ∧ c.aborted = false ∧ c.addr 2 = 0 ∧ e.engine 1 0x84 = some c ∧ bits (c.word 1) 1 0 = 0 ∧ bit (c.word 1) 4 = false ∧ e.reg R.ACU_STATUS_ANC_CAUSE &&& 0x60 = 0) := by simp only [State.Canonical]; decide +kernel

theorem witness_AcousticCommands_9 :
    let c : Cmd := cmd 0x84 7 [1, 0]
    let s : State := runs (cmd 0x84 7 [1, 0])
    let e : State := s.elapse 0
    (s.Canonical) ∧
    (e.wrote = none ∧ c.aborted = false ∧ c.addr 2 = 0 ∧ e.engine 1 0x84 = some c ∧ bits (c.word 1) 1 0 = 1) := by simp only [State.Canonical]; decide +kernel

theorem witness_AcousticCommands_10 :
    let c : Cmd := cmd 0x84 7 [2, 0]
    let s : State := runs (cmd 0x84 7 [2, 0])
    let e : State := s.elapse 0
    (s.Canonical) ∧
    (e.wrote = none ∧ c.aborted = false ∧ c.addr 2 = 0 ∧ e.engine 1 0x84 = some c ∧ bits (c.word 1) 1 0 = 2) := by simp only [State.Canonical]; decide +kernel

theorem witness_TideMeasures_1 :
    let s : State := inService.setReg R.MTR_STATUS_RUN 1
    let e : State := s.elapse 0
    (s.Canonical) ∧
    (e.tideRun = true) := by simp only [State.Canonical]; decide +kernel

theorem witness_TideMeasures_2 :
    let s : State := { inService.sets [(R.MTR_STATUS_RUN, 0, 1), (R.MTR_STATUS_MAINS_LOCK, 0, 1)] with tide.cycle := { w := 480 * 2 ^ 40 } }
    let e : State := s.elapse 0
    (s.Canonical) ∧
    (e.tideRun = true ∧ e.flag R.MTR_STATUS_MAINS_LOCK = true ∧ 44500 ≤ 66500 ∧ 66500 ≤ 66500 ∧ tideSample < e.tide.cycle.w + 2 ^ 40) := by simp only [State.Canonical]; decide +kernel

theorem witness_TideMeasures_3 :
    let s : State := { inService.sets [(R.MTR_STATUS_RUN, 0, 1)] with tide.body := mk 512 [(7, 1, 2)] }
    let e : State := s.elapse 0
    (s.Canonical) ∧
    (e.tideRun = true ∧ tideWiring e.tide.body ≠ 0 ∧ e.flag R.MTR_STATUS_MAINS_LOCK = false ∧ 45000 ≤ 45000 ∧ 45000 ≤ 66000) := by simp only [State.Canonical]; decide +kernel

theorem witness_TideMeasures_4 :
    let s : State := { inService.sets [(R.MTR_STATUS_RUN, 0, 1), (R.MTR_STATUS_MAINS_LOCK, 0, 1), (R.MTR_FREQ_MHZ, 0, 50000)] with tide.body := mk 512 [(7, 1, 2)] }
    let e : State := s.elapse 0
    (s.Canonical) ∧
    (e.tideRun = true ∧ tideWiring e.tide.body ≠ 0 ∧ e.flag R.MTR_STATUS_MAINS_LOCK = true) := by simp only [State.Canonical]; decide +kernel

theorem witness_TideMeasures_5 :
    let s : State := { inService.sets [(R.MTR_STATUS_RUN, 0, 1)] with tide.window := 12, tide.body := mk 512 [(6, 1, 2), (7, 1, 1), (0x40, 1, 1)] }
    let e : State := s.elapse 0
    (s.Canonical) ∧
    (e.tideRun = true ∧ (if tide60 e.tide.body then 12 else 10) ≤ e.tide.window ∧ e.tide.windowBad = false) := by simp only [State.Canonical]; decide +kernel

theorem witness_TideLatchesAndSnapshots_1 :
    let s : State := { inService.sets [(R.MTR_STATUS_RUN, 0, 1), (R.MTR_LATCH_SEQ_COUNT, 0, 2 ^ 64 - 1)] with tide.due := some { cycles := 0 } }
    let e : State := s.elapse 0
    (s.Canonical) ∧
    (e.tide.due = some { cycles := 0 } ∧ e.tide.next = none) := by simp only [State.Canonical]; decide +kernel

theorem witness_TideLatchesAndSnapshots_2 :
    let k : TideCommit := { kind := 0, body := List.replicate 492 7#8, begun := some (1, 9, 0) }
    let s : State := { inService with tide.commits := [{ kind := 0, body := List.replicate 492 7#8, begun := some (1, 9, 0) }] }
    let e : State := s.elapse 0
    let b := leBytes 4 0x45444954 ++ leBytes 2 1 ++ leBytes 1 k.kind ++ leBytes 1 0 ++ leBytes 8 9 ++ k.body
    (s.Canonical) ∧
    (e.tide.commits = k :: [] ∧ k.begun = some (1, 9, 0) ∧ k.kind ≠ 1) := by simp only [State.Canonical]; decide +kernel

theorem witness_TideLatchesAndSnapshots_3 :
    let c : Cmd := cmd 0x90 9 [2, 0x1000, 384]
    let s : State := (runs (cmd 0x90 9 [2, 0x1000, 384])).setReg R.MTR_STATUS_RUN 1
    let e : State := s.elapse 0
    let b := if e.tideRun then slice (e.snapshot (c.word 1)).1 0 (snapLength (bits (c.word 1) 3 0)) else List.replicate 32 0#8
    (s.Canonical) ∧
    (e.engine 1 0x90 = some c ∧ e.wrote = none ∧ c.aborted = false ∧ e.health = []) := by simp only [State.Canonical]; decide +kernel

theorem witness_TideLatchesAndSnapshots_4 :
    let c : Cmd := cmd 0x90 9 [2, 0x1000, 384]
    let s : State := runs (cmd 0x90 9 [2, 0x1000, 384])
    let e : State := s.elapse 0
    (s.Canonical) ∧
    (e.engine 1 0x90 = some c ∧ e.wrote = none ∧ c.aborted = false ∧ e.health = [] ∧ e.tideRun = false) := by simp only [State.Canonical]; decide +kernel

theorem witness_TideInputs_1 :
    let s : State := inService.setReg R.MTR_STATUS_RUN 1
    let e : State := s.elapse 0
    (s.Canonical) ∧
    (Sparse.wf ({} : TideIn) e.tide.ins = true ∧ e.tideRun = true) := by simp only [State.Canonical]; decide +kernel

theorem witness_TideInputs_2 :
    let s : State := { inService.setReg R.MTR_STATUS_RUN 1 with tide.body := mk 512 [(0x40 + 144, 1, 6)] }
    let e : State := s.elapse 0
    (s.Canonical) ∧
    (Sparse.wf ({} : TideIn) e.tide.ins = true ∧ e.tideRun = true ∧ 9 < 10 ∧ tideKind e.tide.body 9 ≠ 0) := by simp only [State.Canonical]; decide +kernel

theorem witness_TideInputs_3 :
    let s : State := inService
    let e : State := s.elapse 3
    (s.Canonical) ∧
    (Sparse.wf ({} : TideIn) e.tide.ins = true ∧ 3 < 4) := by simp only [State.Canonical]; decide +kernel

theorem witness_TideInputs_4 :
    let s : State := { inService.setReg R.MTR_STATUS_RUN 1 with tide.body := mk 512 [(0x10C, 1, 1), (0x10D, 1, 2)], tide.ins := [(3, { raw := true })] }
    let e : State := s.elapse (msTicks 2)
    (s.Canonical) ∧
    (Sparse.wf ({} : TideIn) e.tide.ins = true ∧ e.tideRun = true ∧ 3 < 4 ∧ bit (field (tidePin e.tide.body 3) 0 1) 0 = true ∧ (e.tideIn 3).raw ≠ (e.tideIn 3).level ∧ (e.tideIn 3).since + msTicks (field (tidePin e.tide.body 3) 1 1) ≤ e.tick ∧ (e.tideIn 3).raw ≠ bit (field (tidePin e.tide.body 3) 0 1) 1) := by simp only [State.Canonical]; decide +kernel

theorem witness_TideInputs_5 :
    let s : State := { inService.setReg R.MTR_STATUS_RUN 1 with tide.body := mk 512 [(0x10C, 1, 3), (0x10D, 1, 2)], tide.ins := [(3, { raw := true })] }
    let e : State := s.elapse (msTicks 2)
    (s.Canonical) ∧
    (Sparse.wf ({} : TideIn) e.tide.ins = true ∧ e.tideRun = true ∧ 3 < 4 ∧ bit (field (tidePin e.tide.body 3) 0 1) 0 = true ∧ (e.tideIn 3).raw ≠ (e.tideIn 3).level ∧ (e.tideIn 3).since + msTicks (field (tidePin e.tide.body 3) 1 1) ≤ e.tick ∧ (e.tideIn 3).raw = bit (field (tidePin e.tide.body 3) 0 1) 1) := by simp only [State.Canonical]; decide +kernel

theorem witness_TideInputs_6 :
    let s : State := { inService with tide.body := mk 512 [(0x122, 1, 4)], tide.outs := [(1, { low := true, busy := some 0 })] }
    let e : State := s.elapse (msTicks 4)
    (s.Canonical) ∧
    (Sparse.wf ({} : TideIn) e.tide.ins = true ∧ (e.tideOut 1).busy = some 0 ∧ (e.tideOut 1).low = true ∧ 0 + msTicks (field (tidePout e.tide.body 1) 2 1) ≤ e.tick) := by simp only [State.Canonical]; decide +kernel

theorem witness_RegisterAccess_1 :
    let s : State := inService
    let e : State := s.elapse 0
    let a := R.MEMC_SRAM_CE_LIMIT_LIMIT.at 0 0
    (s.Canonical) ∧
    (mapped a = true ∧ a % 4 = 0 ∧ windowOf a ≠ 0x25 ∧ e.svc ≠ 0) := by simp only [State.Canonical]; decide +kernel

theorem witness_RegisterAccess_2 :
    let s : State := blank
    let e : State := s.elapse 0
    let a := R.CLK_TC_MAX_MHZ.at 0 0
    (s.Canonical) ∧
    (mapped a = true ∧ a % 4 = 0 ∧ windowOf a ≠ 0x25 ∧ windowOf a ≠ 7 ∧ e.svc = 0 ∧ 0xFFFFFFFF < 2 ^ 32) := by simp only [State.Canonical]; decide +kernel

theorem witness_RegisterAccess_3 :
    let s : State := blank
    let e : State := s.elapse 0
    (s.Canonical) ∧
    (mapped 0xEFFFFFFFF = false ∧ 0xF00000002 % 4 ≠ 0) := by simp only [State.Canonical]; decide +kernel

theorem witness_RegisterAccess_4 :
    let s : State := blank.setReg R.PART_RD_BYTES_BYTES (2 ^ 40 + 3) 3
    let e : State := s.elapse 0
    let a := R.PART_RD_BYTES_BYTES.at 3 0
    (s.Canonical) ∧
    (wideAt a = some (a, 2, 0) ∧ a ≠ R.RST_PLOG_COUNT_NEXT.at 0 0 ∧ a ≠ R.DBG_FRAM_DATA_DATA.at 0 0) := by simp only [State.Canonical]; decide +kernel

theorem witness_TestAccessPort_1 :
    let s : State := { blank with boot.phase := .idle }
    let e : State := s.elapse 0
    (s.Canonical) ∧
    (e.tapOn = true ∧ e.jtagAllowed 0x03 = true ∧ 0x13 ∉ [0x01, 0x02, 0x03, 0x10, 0x11, 0x12]) := by simp only [State.Canonical]; decide +kernel

theorem witness_TestAccessPort_2 :
    let s : State := { blank.sets [(R.DBG_STATUS_LIFECYCLE, 0, 2), (R.DBG_STATUS_LEVEL, 0, 2)] with boot.phase := .idle }
    let e : State := s.elapse 0
    (s.Canonical) ∧
    (e.tapOn = true ∧ e.jtagAllowed 0x03 = false ∧ e.lifecycle = 2 ∧ e.debugLevel = 2) := by simp only [State.Canonical]; decide +kernel

theorem witness_TestAccessPort_3 :
    let s : State := { blank.sets [(R.DBG_STATUS_LIFECYCLE, 0, 2), (R.DBG_STATUS_LEVEL, 0, 1), (R.DBG_FRAM_SEL_OFFSET, 0, 0x3FFFC)] with boot.phase := .idle }
    let e : State := s.elapse 0
    (s.Canonical) ∧
    (e.tapOn = true ∧ 1 ≤ e.debugLevel ∧ 15 < 16 ∧ 0x0505 < 2 ^ 16 ∧ tmuxDefined 0x0505 = true) := by simp only [State.Canonical]; decide +kernel

theorem witness_UnlockAccessAndFuses_1 :
    let s : State := { blank.sets [(R.DBG_STATUS_LIFECYCLE, 0, 2)] with boot.phase := .idle }
    let e : State := s.elapse 0
    (s.Canonical) ∧
    (e.tapOn = true ∧ e.lifecycle = 2) := by simp only [State.Canonical]; decide +kernel

theorem witness_UnlockAccessAndFuses_2 :
    let resp := mk 200 [(0, 1, 1), (8, 48, 0x7aae520a67d855646d4e97ac7699b098ae95f9f9cf055fc11a5d838fe235a66867e8e654737ddbec26b295e497e9baca), (56, 48, 0xa32a72e4daf4925515d3ef2e3aaca5154b22214256cc50b942025432762ff0ab3a803adb31eced2b4d086085c0758106), (104, 48, 0xf919191374a5d0c4b441f95673e0327e19e19cfa7ee5690ad7ebcabd51fd4a5ec6e42fb109123667f041efd9ec455d55), (152, 48, 0xf919191374a5d0c4b441f95673e0327e19e19cfa7ee5690ad7ebcabd51fd4a5ec6e42fb109123667f041efd9ec455d55)]
    let s : State := { blank.sets [(R.DBG_STATUS_LIFECYCLE, 0, 2)] with boot.phase := .idle, dbg.nonce := some (List.replicate 32 0#8), fuses.debugKey := some (sha384 (slice (mk 200 [(0, 1, 1), (8, 48, 0x7aae520a67d855646d4e97ac7699b098ae95f9f9cf055fc11a5d838fe235a66867e8e654737ddbec26b295e497e9baca), (56, 48, 0xa32a72e4daf4925515d3ef2e3aaca5154b22214256cc50b942025432762ff0ab3a803adb31eced2b4d086085c0758106)]) 8 96)) }
    let e : State := s.elapse 0
    (s.Canonical) ∧
    (e.tapOn = true ∧ e.lifecycle = 2 ∧ e.flag R.DBG_STATUS_AUTH_LOCK = false ∧ e.authOk resp = true) := by simp only [State.Canonical]; decide +kernel

theorem witness_UnlockAccessAndFuses_3 :
    let s : State := { blank.sets [(R.DBG_STATUS_LIFECYCLE, 0, 2)] with boot.phase := .idle, dbg.rejects := 2 }
    let e : State := s.elapse 0
    (s.Canonical) ∧
    (e.tapOn = true ∧ e.lifecycle = 2 ∧ e.authOk [] = false ∧ 2 ≤ e.dbg.rejects) := by simp only [State.Canonical]; decide +kernel

theorem witness_UnlockAccessAndFuses_4 :
    let s : State := { blank.sets [(R.DBG_STATUS_LIFECYCLE, 0, 2), (R.DBG_STATUS_LEVEL, 0, 1)] with boot.phase := .idle, mem := [(0x1000, 7#8)] }
    let e : State := s.elapse 0
    (s.Canonical) ∧
    (e.tapOn = true ∧ 1 ≤ e.debugLevel ∧ 0x1000 % 4 = 0 ∧ 0x1000 < 2 ^ 48 ∧ mapped 0x1000 = false ∧ e.isDram 0x1000 = true ∧ e.badWords 0x1000 4 = []) := by simp only [State.Canonical]; decide +kernel

theorem witness_UnlockAccessAndFuses_5 :
    let s : State := { blank.sets [(R.DBG_STATUS_LIFECYCLE, 0, 2), (R.DBG_STATUS_LEVEL, 0, 2), (R.DBG_STATUS_HOLD, 0, 1)] with boot.phase := .idle }
    let e : State := s.elapse 0
    (s.Canonical) ∧
    (e.tapOn = true ∧ e.debugLevel = 2 ∧ e.inHold = true ∧ 0x1000 % 4 = 0 ∧ 0x1000 < 2 ^ 48 ∧ mapped 0x1000 = false ∧ e.isDram 0x1000 = true ∧ e.badWords 0x1000 4 = [] ∧ 0x1000 ≠ R.DBG_CTRL_HOLD_REQ.at 0 0) := by simp only [State.Canonical]; decide +kernel

theorem witness_UnlockAccessAndFuses_6 :
    let s : State := { blank.sets [(R.DBG_STATUS_LIFECYCLE, 0, 1)] with boot.phase := .idle }
    let e : State := s.elapse 0
    (s.Canonical) ∧
    (e.tapOn = true ∧ e.jtagAllowed 0x12 = true ∧ e.fuseRefused (.keyHash 3) = false ∧ e.fuseRefused .lifecycle = true) := by simp only [State.Canonical]; decide +kernel

theorem witness_InterfaceEvents_1 :
    let s : State := { inService.setReg R.PWR_DOMAINS_ON 1024 with ifaces.cfg := mk 600 [(128, 1, 1)] }
    let e : State := s.elapse 0
    (s.Canonical) ∧
    (1 < 2 ∧ bit (field (e.eth 1) 0 1) 0 = true ∧ e.powered 11 = true) := by simp only [State.Canonical]; decide +kernel

theorem witness_InterfaceEvents_2 :
    let s : State := inService.setReg R.ETH_STATUS_UP 1 1
    let e : State := s.elapse 0
    let x := e.stamp 3 8
    (s.Canonical) ∧
    (1 < 2 ∧ e.ifUp 1 = true ∧ e.netReset = false) := by simp only [State.Canonical]; decide +kernel

theorem witness_InterfaceEvents_3 :
    let s : State := { inService.setReg R.ETH_STATUS_UP 1 1 with hub.reset := .asserted 0 }
    let e : State := s.elapse 0
    let x := e.stamp 3 8
    (s.Canonical) ∧
    (1 < 2 ∧ e.ifUp 1 = true ∧ e.netReset = true ∧ e.ifaces.waiting = [] ∧ [1#8].length ≤ 65536) := by simp only [State.Canonical]; decide +kernel

theorem witness_InterfaceEvents_4 :
    let k : Reasm := { ip := 5, client := 1, reqId := 2, segs := 3, back := {}, first := 0 }
    let s : State := { inService with ifaces.cfg := mk 600 [(128 + 6, 2, 10)], ifaces.reasm1 := [{ ip := 5, client := 1, reqId := 2, segs := 3, back := {}, first := 0 }] }
    let e : State := s.elapse (msTicks 10)
    (s.Canonical) ∧
    (1 < 2 ∧ ((e.reasms 1).find? fun k => decide (k.first + msTicks (field (e.eth 1) 6 2) ≤ e.tick)) = some k) := by simp only [State.Canonical]; decide +kernel

theorem witness_InterfaceEvents_5 :
    let s : State := { inService.setReg R.PWR_DOMAINS_ON 1024 with ifaces.cfg := mk 600 [(320, 1, 3), (328, 4, 0x123)] }
    let e : State := s.elapse 0
    (s.Canonical) ∧
    (3 < 4 ∧ e.ifUp (3 + 3) = true ∧ bit (field (e.can 3) 0 1) 1 = true ∧ 0x123 = field (e.can 3) 8 4 ∧ false = bit (field (e.can 3) 0 1) 2 ∧ e.netReset = false) := by simp only [State.Canonical]; decide +kernel

theorem witness_InterfaceEvents_6 :
    let x : Nat × CanMsg := (3, ⟨[], 1, 0⟩)
    let s : State := { inService with ifaces.cfg := mk 600 [(320, 1, 3), (336, 2, 5)], ifaces.can := [(3, ⟨[], 1, 0⟩)] }
    let e : State := s.elapse (msTicks 5)
    (s.Canonical) ∧
    (3 < 4 ∧ (e.ifaces.can.find? fun x => x.1 == 3) = some x ∧ x.2.last + msTicks (field (e.can 3) 0x10 2) ≤ e.tick) := by simp only [State.Canonical]; decide +kernel

theorem witness_InterfaceEvents_7 :
    let s : State := { inService.setReg R.PWR_DOMAINS_ON 1024 with ifaces.cfg := mk 600 [(320, 1, 1)] }
    let e : State := s.elapse 0
    (s.Canonical) ∧
    (3 < 4 ∧ 2 ≤ 2 ∧ e.canOn 3 = true ∧ e.reg R.CAN_STATUS_STATUS 3 ≠ 2) := by simp only [State.Canonical]; decide +kernel

theorem witness_InterfaceEvents_8 :
    let s : State := { inService with ifaces.unsent := [(6, List.replicate 64 1#8)] }
    let e : State := s.elapse 0
    (s.Canonical) ∧
    (6 < 7 ∧ e.netReset = false ∧ e.boot.phase ≠ .por) := by simp only [State.Canonical]; decide +kernel

theorem witness_InterfaceEvents_9 :
    let s : State := inService.setReg R.PCIE_STATUS_UP 1
    let e : State := s.elapse 0
    (s.Canonical) ∧
    (e.ifUp 2 = true ∧ e.ifaces.reqStatus ≠ 3 ∧ e.netReset = false) := by simp only [State.Canonical]; decide +kernel

theorem witness_InterfaceEvents_10 :
    let s : State := { inService.setReg R.PCIE_STATUS_UP 1 with ifaces.reqStatus := 3 }
    let e : State := s.elapse 0
    (s.Canonical) ∧
    (e.ifUp 2 = true ∧ e.ifaces.reqStatus = 3) := by simp only [State.Canonical]; decide +kernel

theorem witness_InterfaceEvents_11 :
    let s : State := { inService.setReg R.PCIE_STATUS_UP 1 with ifaces.rspW := 1024, ifaces.intr := true }
    let e : State := s.elapse 0
    (s.Canonical) ∧
    (e.ifUp 2 = true ∧ (e.ifaces.rspW + 2048 - 2048 % 2048) % 2048 ≤ 1024) := by simp only [State.Canonical]; decide +kernel

theorem witness_InterfaceEvents_12 :
    let s : State := inService.sets [(R.PCIE_STATUS_UP, 0, 1), (R.PCIE_STATUS_GEN, 0, 4), (R.PCIE_STATUS_WIDTH, 0, 4)]
    let e : State := s.elapse 0
    (s.Canonical) := by simp only [State.Canonical]; decide +kernel

theorem witness_InterfaceEvents_13 :
    let s : State := { inService.setReg R.PWR_DOMAINS_ON 2048 with ifaces.cfg := mk 600 [(192, 1, 1), (193, 1, 4)], power.perstN := true }
    let e : State := s.elapse 0
    (s.Canonical) ∧
    (bit (field e.pcie 0 1) 0 = true ∧ e.powered 12 = true ∧ e.power.perstN = true ∧ 1 ≤ 4 ∧ 4 ≤ 7 ∧ 4 ≤ field e.pcie 1 1) := by simp only [State.Canonical]; decide +kernel

theorem witness_ChipLinks_1 :
    let s : State := { inService.setReg R.PWR_DOMAINS_ON 4096 with ifaces.cfg := mk 600 [(352, 1, 2)] }
    let e : State := s.elapse 0
    (s.Canonical) ∧
    (1 < 2 ∧ e.linkEn 1 = true ∧ e.linkUp 1 = false) := by simp only [State.Canonical]; decide +kernel

theorem witness_ChipLinks_2 :
    let s : State := inService.setReg R.LINK_STATE_STATE 4 1
    let e : State := s.elapse 0
    (s.Canonical) ∧
    (1 < 2 ∧ e.linkUp 1 = true ∧ frameGood [] = false) := by simp only [State.Canonical]; decide +kernel

theorem witness_ChipLinks_3 :
    let s : State := { inService.setReg R.LINK_STATE_STATE 4 1 with ifaces.cfg := mk 600 [(353, 1, 1), (354, 1, 2)] }
    let e : State := s.elapse 0
    let f := linkFrame 1 0 1 0 1 9 0 []
    (s.Canonical) ∧
    (1 < 2 ∧ e.linkUp 1 = true ∧ frameGood f = true ∧ 1 ≤ frameType f ∧ frameType f ≤ 3 ∧ frameLen f ≤ 256 ∧ frameSeq f = (e.port 1).expect ∧ frameDst f = e.linkRank ∧ e.netReset = false) := by simp only [State.Canonical]; decide +kernel

theorem witness_ChipLinks_4 :
    let s : State := { inService.setReg R.LINK_STATE_STATE 4 1 with ifaces.port1 := { replay := [{ seq := 0, frame := [], sent := 0 }] } }
    let e : State := s.elapse (usTicks 10)
    (s.Canonical) ∧
    (1 < 2 ∧ e.linkUp 1 = true ∧ ((e.port 1).replay.any fun x => decide (4 ≤ x.replays ∨ x.sent + usTicks 10 ≤ e.tick)) = true) := by simp only [State.Canonical]; decide +kernel

theorem witness_ChipLinks_5 :
    let c : Cmd := cmd 0x88 8 [0x1000, 257, 2^48, 5]
    let s : State := { runs (cmd 0x88 8 [0x1000, 257, 2^48, 5]) with ifaces.cfg := mk 600 [(352, 1, 1), (354, 1, 2)] }
    let e : State := s.elapse 0
    let x := ({ e with ifaces := { e.ifaces with xfer := (e.ifaces.xfer + 1) % 2 ^ 32 } } : State).putFrames c e.ifaces.xfer 0 (max 1 (ceilDiv (bits (c.word 2) 31 0) 256))
    (s.Canonical) ∧
    (e.engine 1 0x88 = some c ∧ c.aborted = false ∧ e.wrote = none ∧ x.1 = none ∧ x.2.cmd? 1 = some c) := by simp only [State.Canonical]; decide +kernel

theorem witness_ChipLinks_6 :
    let x : PutOut := ⟨1, 7, 1, 0⟩
    let s : State := { runs { cmd 0x88 8 [0x1000, 257, 2^48, 5] with stage := .waiting, begun := true } with ifaces.puts := [⟨1, 7, 1, 0⟩] }
    let e : State := s.elapse (usTicks 5)
    (s.Canonical) ∧
    ((e.ifaces.puts.find? fun x => x.cmd == 1) = some x ∧ e.putLate x = true) := by simp only [State.Canonical]; decide +kernel

theorem witness_ChipLinks_7 :
    let c : Cmd := cmd 0x89 8 [1, 0, 0]
    let s : State := { runs (cmd 0x89 8 [1, 0, 0]) with ifaces.cfg := mk 600 [(2, 1, 2), (464 + 8, 8, 2^16), (464 + 16, 8, 4 + 2^8 * 5 + 2^16)] }
    let e : State := s.elapse 0
    let x := e.runOps none (scriptOps e.ifaces.cfg (bits (c.word 1) 4 0)) 0 []
    (s.Canonical) ∧
    (e.engine 1 0x89 = some c ∧ c.aborted = false ∧ e.wrote = none ∧ c.addr 2 = 0 ∧ x.2.1 = none ∧ x.2.2.cmd? 1 = some c ∧ x.2.2.wrote = none) := by simp only [State.Canonical]; decide +kernel

/-! ### An image that every check passes -/

/-- A whole image, signed: PARTITIONS, QUEUES, EVENTS, REGIONS, INTERFACES and CABIN, each as small as its rules let it be. -/
def goodBytes : List Byte :=
  leBytes 64 0x10001000100000000000100000000078000060000048000000000000700000000010000013130444C4F4E454A ++
  List.replicate 128 0#8 ++
  leBytes 64 0x767AF0980000000000000000000000000000000000000000000000000000000000000000000000000000000000000000000000000000000000000000 ++
  leBytes 64 0x75DE705B7FE7A82F8483324CA674253C19B6FFB085D72A4D691F99BF58F9144AA44013257B26B7F42F577AF6FEA0C1E00000140000003800000000000000002 ++
  leBytes 64 0xA94513D7D3D80F8BB5CEF063E63D1A07FB7B7B067EE1D6992F27B71CD00ABD2D5543D66A64CD0713426D60004F7C1AFC00000020000004C00000000000000003 ++
  leBytes 64 0x5BB99848F1D21AD5FB656FE7BFDE4E27DAE1F663BFC70C4C4307BE1411B7FD216AE3B1B17E32D94C3896AC51A760B03800000000000005000000000000000004 ++
  leBytes 64 0x47079CFAD7BF7A425E56FAA0A733F6325B48E2CA438E99C29927B65196B5037EC63A1FEF3FFE484096BCEAC3DE317AE600000020000005000000000000000005 ++
  leBytes 64 0x951CCA758268033657F0CDE94688C72273D196F84891BF8BC0160CA6284BCAE41834B339C09C8786DF8B05F14BA444F5000001D000000540000000000000000C ++
  leBytes 64 0xFA808E203EE5C3D706875D3DDEFF026D36A10AF881DA92D397EF0AEFDFFA9442E2011AD2029C7F83B4A930AB5DE4E4800000001000000740000000000000000D ++
  leBytes 64 0xCCF8EC3C1ED3DB0247E2F96D1E889525C3C038CEC99ADAB104CE2263E78BC1DA7D34596D95ACF8531CC65D0B1A05A30F79E02418FE06716076D6AE5289CBA771 ++
  leBytes 64 0x14518D52C988BD3127FE59C24E072FBAFDF07B58216F24D9C81580077653FDFF2A0F28F0D3305254E10917F54DD4701FE6261BBE7A297CE72A62B838EEAB04C3 ++
  leBytes 64 0xB1E65C351863F9CD72F9510F1BAF92818A28C6A964C45E9877B0D3A2211F2ECD2B054485350FE62A5A80CCB9218C93B963CCB86A30C7F39AE5F2A21E375F2503 ++
  List.replicate 64 0#8 ++
  leBytes 64 0x1000000000000000000000001 ++
  leBytes 64 0x10000000000000000000000010000000000000000000000010000000000000000000000070000000000010001000F0000 ++
  leBytes 64 0xF4240000000280000000000000000 ++
  List.replicate 128 0#8 ++
  leBytes 64 0x400280000000000100000 ++
  leBytes 64 0x30000000400000000000010000000000000000000000000000100000000 ++
  List.replicate 320 0#8 ++
  leBytes 64 0xFF00000000000100000000000000000000000000000000000000000000000000000000000000000000 ++
  List.replicate 128 0#8 ++
  leBytes 64 0x104

/-- The cells that hold a byte string from offset `a`. -/
def cellsFrom : Nat → List Byte → List Host.Cell
  | _, [] => []
  | a, b :: l => if b = 0#8 then cellsFrom (a + 1) l else (a, b) :: cellsFrom (a + 1) l

theorem cellsFrom_rising (l : List Byte) : ∀ a x : Nat, x < a → Sparse.risingFrom (some x) (cellsFrom a l) = true := by
  induction l with
  | nil => intro a x h; rfl
  | cons b l ih =>
    intro a x h
    unfold cellsFrom
    split
    · exact ih (a + 1) x (by omega)
    · simp only [Sparse.risingFrom, Bool.and_eq_true, decide_eq_true_eq]
      exact ⟨h, ih (a + 1) a (by omega)⟩

theorem cellBytes_past (m : List Host.Cell) (c : Nat) (b : Byte) (n : Nat) :
    ∀ k, c < k → cellBytes ((c, b) :: m) k n = cellBytes m k n := by
  induction n with
  | zero => intro k h; rfl
  | succ n ih =>
    intro k h
    have h1 : c ≠ k := by omega
    have h2 : ¬ k < c := by omega
    simp only [cellBytes, Sparse.get, h1, h2, if_false, ih (k + 1) (by omega)]

/-- Cells of a byte string read back as the byte string. -/
theorem cellBytes_cellsFrom (l : List Byte) : ∀ a, cellBytes (cellsFrom a l) a l.length = l := by
  induction l with
  | nil => intro a; rfl
  | cons b l ih =>
    intro a
    unfold cellsFrom
    split
    · next h =>
      simp only [List.length_cons, cellBytes, ih (a + 1), h]
      rw [Sparse.get_low 0#8 (cellsFrom_rising l (a + 1) a (by omega)) (Nat.le_refl a)]
    · simp only [List.length_cons, cellBytes, Sparse.get, if_true, cellBytes_past _ _ _ _ _ (Nat.lt_succ_self a), ih (a + 1)]

theorem cellBytes_take (m : List Host.Cell) (n : Nat) : ∀ k a, n ≤ k → cellBytes m a n = (cellBytes m a k).take n := by
  induction n with
  | zero => intro k a h; rfl
  | succ n ih =>
    intro k a h
    obtain ⟨j, rfl⟩ : ∃ j, k = j + 1 := ⟨k - 1, by omega⟩
    simp only [cellBytes, List.take_succ_cons, ← ih j (a + 1) (by omega)]

/-- A computation that answers a value. -/
def isOk {ε α : Type} (x : Except ε α) : Bool := match x with
  | .ok _ => true
  | .error _ => false

/-- The sections, if there are any. -/
def okSecs (x : Except Nat (List Section)) : List Section := match x with
  | .ok l => l
  | .error _ => []

theorem okSecs_eq (x : Except Nat (List Section)) (h : isOk x = true) : x = .ok (okSecs x) := by
  cases x with
  | ok l => rfl
  | error e => cases h

/-- The start's step VERIFY, with the image in slot A and its key in fuse slot 0. -/
def verifying : State :=
  { starting 3 with
    flash := cellsFrom 0 goodBytes
    fuses.keyHash := [(0, leBytes 48 0xA2B9285C6BDFA36B34066B4117C95C9D5BDF3CFFEF3B318E7230E2F39F083ACFE014AC86F39DDD27EA6E584D9916C234)] }

def goodHdr : List Byte := goodBytes.take 256
def goodTable : List Byte := slice goodBytes 0x100 (64 * 6)
def goodSecs : List Section := okSecs (openSections verifying.fuses goodBytes goodHdr 0 (tableEntries goodTable))
/-- What VERIFY takes the image to be. -/
def goodImage : Image := ⟨goodHdr, goodTable, goodSecs⟩

theorem good_length : goodBytes.length = 1920 := by decide +kernel
theorem good_header : hdrOk goodHdr = true ∧ min (hdrSize goodHdr) 0x2000000 = 1920 ∧ hdrCount goodHdr = 6 ∧ signAt goodHdr = 640 := by
  decide +kernel
theorem good_outer : (judgeLayout goodHdr (tableEntries goodTable) <|> judgeOuterReserved goodBytes goodHdr (tableEntries goodTable)) = none := by
  decide +kernel
theorem good_key : keyOk verifying.fuses 0 goodHdr (slice goodBytes 640 256) = true := by decide +kernel
theorem good_signature : signatureOk goodBytes goodHdr (slice goodBytes 640 256) = true := by decide +kernel
theorem good_open : isOk (openSections verifying.fuses goodBytes goodHdr 0 (tableEntries goodTable)) = true := by decide +kernel
theorem good_opened : judgeOpened goodImage (tableEntries goodTable) = none := by decide +kernel

theorem judged_good (s : State) (hf : s.flash = verifying.flash) (hu : s.fuses = verifying.fuses) (hr : s.revision = 0) :
    s.judgeImage 0 = .ok goodImage := by
  have hall : s.slotBytes 0 1920 = goodBytes := by
    have h := cellBytes_cellsFrom goodBytes 0
    rw [good_length] at h
    have hf2 : s.flash = cellsFrom 0 goodBytes := hf
    simpa only [State.slotBytes, hf2, Nat.mul_zero] using h
  have hhead : s.slotBytes 0 256 = goodHdr := by
    have h := cellBytes_take s.flash 256 1920 0 (by decide)
    have h2 : cellBytes s.flash 0 1920 = goodBytes := by simpa only [State.slotBytes, Nat.mul_zero] using hall
    rw [h2] at h
    simpa only [State.slotBytes, Nat.mul_zero, goodHdr] using h
  obtain ⟨g1, g2, g3, g4⟩ := good_header
  have ht : slice goodBytes 0x100 (64 * hdrCount goodHdr) = goodTable := by rw [g3]; rfl
  have hearly : (judgeLayout goodHdr (tableEntries goodTable) <|> judgeOuterReserved goodBytes goodHdr (tableEntries goodTable) <|>
      require (keyOk verifying.fuses 0 goodHdr (slice goodBytes 640 256)) failKey <|>
      require (signatureOk goodBytes goodHdr (slice goodBytes 640 256)) failSignature) = none := by
    have ho := good_outer
    rw [good_key, good_signature]
    cases h1 : judgeLayout goodHdr (tableEntries goodTable) with
    | some r => rw [h1] at ho; cases ho
    | none => rw [h1] at ho; cases h2 : judgeOuterReserved goodBytes goodHdr (tableEntries goodTable) with
      | some r => rw [h2] at ho; cases ho
      | none => rfl
  have ho : openSections verifying.fuses goodBytes goodHdr 0 (tableEntries goodTable) = .ok goodSecs := okSecs_eq _ good_open
  have hj : judgeOpened ⟨goodHdr, goodTable, goodSecs⟩ (tableEntries goodTable) = none := good_opened
  simp only [State.judgeImage, hhead, g1, g2, hall, ht, g4, hu, hr, hearly, ho, hj, not_true_eq_false, if_false]
  rfl

/-- The power-ups of VERIFY leave flash, fuses and revision. -/
theorem verifying_kept :
    let e := verifying.elapse 0
    (e.powerAll [1, 2, 3, 4]).flash = verifying.flash ∧ (e.powerAll [1, 2, 3, 4]).fuses = verifying.fuses ∧
    (e.powerAll [1, 2, 3, 4]).revision = 0 ∧ (e.powerAll [1, 2, 3, 4]).reg R.BOOT_STATUS_SLOT = 0 := by decide +kernel

theorem witness_StartStepsPassInOrder_3 :
    let s := verifying
    let e := s.elapse 0
    s.Canonical ∧ e.overLimit = false ∧ e.inStep 3 = true ∧
    ((e.powerAll [1, 2, 3, 4]).judgeImage ((e.powerAll [1, 2, 3, 4]).reg R.BOOT_STATUS_SLOT)) = .ok goodImage := by
  refine ⟨by simp only [State.Canonical]; decide +kernel, by decide +kernel, by decide +kernel, ?_⟩
  obtain ⟨a, b, c, d⟩ := verifying_kept
  rw [d]
  exact judged_good _ a b c

end Sys2Proof.Tests
end

section
/-!
SUPPORT. Reads of wide counters (R24): what a read of the lowest word and of a higher word returns and does.
-/

namespace Sys2Proof.Machine

open Sys2Proof

/-- The lowest word is read as it stands, and the whole counter goes into the snapshot. -/
theorem State.readReg_wide_low (s : State) {a base n : Nat} (hplog : a ≠ R.RST_PLOG_COUNT_NEXT.at 0 0)
    (hfram : a ≠ R.DBG_FRAM_DATA_DATA.at 0 0) (hwide : wideAt a = some (base, n, 0)) :
    s.readReg a = (s.wordValue a, { s with snaps := Sparse.put none s.snaps base (some (s.wordsValue base n)) }) := by
  simp only [State.readReg, if_neg hplog, if_neg hfram, hwide]

/-- A higher word is read from the snapshot that is held, and the read changes nothing. -/
theorem State.readReg_wide_high (s : State) {b base n k v : Nat} (hplog : b ≠ R.RST_PLOG_COUNT_NEXT.at 0 0)
    (hfram : b ≠ R.DBG_FRAM_DATA_DATA.at 0 0) (hwide : wideAt b = some (base, n, k)) (hk : k ≠ 0)
    (hheld : Sparse.get none s.snaps base = some v) : s.readReg b = (bits v (32 * k + 31) (32 * k), s) := by
  cases k with
  | zero => exact absurd rfl hk
  | succ k => simp only [State.readReg, if_neg hplog, if_neg hfram, hwide, hheld]

/-- After a read of the lowest word the snapshot held is the whole counter as it stood. -/
theorem State.snapshot_held_of_readReg_wide_low (s : State) {a base n : Nat} (hwf : Sparse.wf none s.snaps = true)
    (hplog : a ≠ R.RST_PLOG_COUNT_NEXT.at 0 0) (hfram : a ≠ R.DBG_FRAM_DATA_DATA.at 0 0) (hwide : wideAt a = some (base, n, 0)) :
    Sparse.get none (s.readReg a).2.snaps base = some (s.wordsValue base n) := by
  rw [State.readReg_wide_low s hplog hfram hwide]
  exact Sparse.get_put_same base _ hwf

end Sys2Proof.Machine

open Sys2Proof Sys2Proof.Machine

/-- Settles O20: the read of the lowest word leaves the whole counter in the snapshot, and a state that still holds that
snapshot, whatever else it holds, answers a higher word from it. -/
theorem counterSnapshots : Obligations.CounterSnapshots := by
  intro s t a b base n k hwf hlow hhigh hk haPlog haFram hbPlog hbFram
  have htaken := State.snapshot_held_of_readReg_wide_low s hwf haPlog haFram hlow
  constructor
  · rw [State.readReg_wide_low s haPlog haFram hlow]
  · intro hkept
    exact State.readReg_wide_high t hbPlog hbFram hhigh hk (hkept.trans htaken)

end

section
/-!
SUPPORT. Queues (R119, R125, R128, R162): what the writes to a queue's registers change of its ring, when a doorbell is accepted, and the
ring after a doorbell and after a release.
-/

namespace Sys2Proof.Machine

open Sys2Proof

/-! ### Writes of register fields -/

/-- Writing to a register word what it holds, whatever stands above its 32 bits, changes nothing. -/
theorem State.setRegWord_regWord (s : State) (a n : Nat) (hwf : Sparse.wf 0#32 s.regs = true) :
    s.setRegWord a (s.regWord a + 2 ^ 32 * n) = s := by
  have hsame : BitVec.ofNat 32 (s.regWord a + 2 ^ 32 * n) = Sparse.get 0#32 s.regs a := by
    apply BitVec.eq_of_toNat_eq
    rw [BitVec.toNat_ofNat, Nat.add_mul_mod_self_left, State.regWord, Nat.mod_eq_of_lt (BitVec.isLt _)]
  have hregs : Sparse.put 0#32 s.regs a (Sparse.get 0#32 s.regs a) = s.regs := by
    refine Sparse.ext (Sparse.put_wf _ _ hwf) hwf fun x => ?_
    rw [Sparse.get_put _ _ _ hwf]
    split
    · next h => rw [h]
    · rfl
  rw [State.setRegWord, hsame, hregs]

theorem State.setRegWords_regWords (s : State) (a n : Nat) (hwf : Sparse.wf 0#32 s.regs = true) :
    s.setRegWords a (s.regWords a n) n = s := by
  induction n generalizing a with
  | zero => rfl
  | succ n ih =>
    have hlow : s.regWord a < 2 ^ 32 := BitVec.isLt _
    have hrest : (s.regWord a + 2 ^ 32 * s.regWords (a + 4) n) / 2 ^ 32 = s.regWords (a + 4) n := by omega
    rw [State.setRegWords, State.regWords, hrest, State.setRegWord_regWord s a _ hwf, ih]

/-- A field written with the value it holds leaves the state as it is. -/
theorem State.setReg_reg (s : State) (r : RegRow) (i j : Nat) (hwf : Sparse.wf 0#32 s.regs = true) (hw : 0 < r.width) :
    s.setReg r (s.reg r i j) i j = s := by
  have hjoin (x : Nat) :
      x % 2 ^ r.lo + 2 ^ r.lo * (bits x (r.lo + r.width - 1) r.lo % 2 ^ r.width) + 2 ^ (r.lo + r.width) * (x / 2 ^ (r.lo + r.width)) = x := by
    rw [bits, show r.lo + r.width - 1 + 1 - r.lo = r.width by omega, Nat.mod_mod, Nat.shiftRight_eq_div_pow, Nat.pow_add,
      ← Nat.div_div_eq_div_mul, Nat.mul_assoc, Nat.add_assoc, ← Nat.mul_add, Nat.mod_add_div, Nat.mod_add_div]
  rw [State.setReg, State.reg, hjoin, State.setRegWords_regWords s _ _ hwf]

/-- A write of a field leaves the register words of every other field. -/
theorem State.sameRegistersBut_setReg (s : State) {l : List (RegRow × Nat × Nat)} (r : RegRow) (v i j : Nat)
    (hwf : Sparse.wf 0#32 s.regs = true) (hl : (r, i, j) ∈ l) : SameRegistersBut l s (s.setReg r v i j) :=
  fun a ha => s.regWord_setRegWords_other _ _ _ a hwf (ha _ hl)

theorem SameRegistersBut.trans {l : List (RegRow × Nat × Nat)} {s t u : State} (hst : SameRegistersBut l s t)
    (htu : SameRegistersBut l t u) : SameRegistersBut l s u :=
  fun a ha => (htu a ha).trans (hst a ha)

/-- Of one element of a register block, a write of one field leaves a field in other words. -/
theorem State.reg_setReg_sameElement (s : State) (r f : RegRow) (v i : Nat) (hwf : Sparse.wf 0#32 s.regs = true) (hs : f.s1 = r.s1)
    (hd : f.addr + 4 * f.words ≤ r.addr ∨ r.addr + 4 * r.words ≤ f.addr) : (s.setReg r v i).reg f i = s.reg f i := by
  refine s.reg_setReg_other r f v i 0 i 0 hwf ?_
  simp only [RegRow.at, hs]
  omega

/-! ### The ring of a queue -/

/-- What intake of doorbells reads of a queue: its state, its size, its two pointers and its flush generation. -/
structure RingView where
  state : Nat
  size : Nat
  wptr : Nat
  rptr : Nat
  gen : Nat

def State.ring (s : State) (q : Nat) : RingView := ⟨s.qState q, s.qSize q, s.wptr q, s.rptr q, s.gen q⟩

section
variable (s : State) (q v : Nat) (hwf : Sparse.wf 0#32 s.regs = true)
include hwf

theorem State.ring_setWptr (hv : v < 2 ^ 17) : (s.setReg R.QUE_WPTR_WPTR v q).ring q = { s.ring q with wptr := v } := by
  have hother (f : RegRow) := s.reg_setReg_sameElement R.QUE_WPTR_WPTR f v q hwf
  have hsame : (s.setReg R.QUE_WPTR_WPTR v q).reg R.QUE_WPTR_WPTR q = v :=
    (s.reg_setReg_same _ v q 0 hwf (by decide)).trans (Nat.mod_eq_of_lt hv)
  simp only [State.ring, State.qState, State.qSize, State.wptr, State.rptr, State.gen, hsame, hother R.QUE_STATE_STATE rfl (by decide),
    hother R.QUE_CFG_LOG2_SLOTS rfl (by decide), hother R.QUE_RPTR_RPTR rfl (by decide), hother R.QUE_STATE_GEN rfl (by decide)]

theorem State.ring_setRptr (hv : v < 2 ^ 17) : (s.setReg R.QUE_RPTR_RPTR v q).ring q = { s.ring q with rptr := v } := by
  have hother (f : RegRow) := s.reg_setReg_sameElement R.QUE_RPTR_RPTR f v q hwf
  have hsame : (s.setReg R.QUE_RPTR_RPTR v q).reg R.QUE_RPTR_RPTR q = v :=
    (s.reg_setReg_same _ v q 0 hwf (by decide)).trans (Nat.mod_eq_of_lt hv)
  simp only [State.ring, State.qState, State.qSize, State.wptr, State.rptr, State.gen, hsame, hother R.QUE_STATE_STATE rfl (by decide),
    hother R.QUE_CFG_LOG2_SLOTS rfl (by decide), hother R.QUE_WPTR_WPTR rfl (by decide), hother R.QUE_STATE_GEN rfl (by decide)]

/-- The generation stands in the same word as the state, in other bits. -/
theorem State.ring_setQState (hv : v < 2 ^ 3) : (s.setQState q v).ring q = { s.ring q with state := v } := by
  have hother (f : RegRow) := s.reg_setReg_sameElement R.QUE_STATE_STATE f v q hwf
  have hsame : (s.setReg R.QUE_STATE_STATE v q).reg R.QUE_STATE_STATE q = v :=
    (s.reg_setReg_same _ v q 0 hwf (by decide)).trans (Nat.mod_eq_of_lt hv)
  have hgen : (s.setReg R.QUE_STATE_STATE v q).reg R.QUE_STATE_GEN q = s.reg R.QUE_STATE_GEN q :=
    s.reg_setReg_beside R.QUE_STATE_STATE R.QUE_STATE_GEN v q 0 q 0 hwf rfl rfl (by decide) (by decide)
  simp only [State.ring, State.setQState, State.qState, State.qSize, State.wptr, State.rptr, State.gen, hsame, hgen,
    hother R.QUE_CFG_LOG2_SLOTS rfl (by decide), hother R.QUE_WPTR_WPTR rfl (by decide), hother R.QUE_RPTR_RPTR rfl (by decide)]

/-- A field of QUE.REJECT stands in none of the ring's words. -/
theorem State.ring_incReject {r : RegRow} (hr : r = R.QUE_REJECT_RANGE ∨ r = R.QUE_REJECT_GEN) :
    (s.incReg r q).ring q = s.ring q := by
  have hother (f : RegRow) (hs : f.s1 = 0x40) (hf : f.addr + 4 * f.words ≤ R.QUE_REJECT_GEN.addr) :
      (s.incReg r q).reg f q = s.reg f q := by
    obtain rfl | rfl := hr
    · exact s.reg_setReg_sameElement _ f _ q hwf hs (.inl hf)
    · exact s.reg_setReg_sameElement _ f _ q hwf hs (.inl hf)
  simp only [State.ring, State.qState, State.qSize, State.wptr, State.rptr, State.gen, hother R.QUE_STATE_STATE rfl (by decide),
    hother R.QUE_CFG_LOG2_SLOTS rfl (by decide), hother R.QUE_WPTR_WPTR rfl (by decide), hother R.QUE_RPTR_RPTR rfl (by decide),
    hother R.QUE_STATE_GEN rfl (by decide)]

end

/-! ### When a doorbell is accepted (R125) -/

/-- A check that answers a cause other than 0 where it fails, and goes on to the next one where it holds. -/
theorem check_eq_zero_iff {fails : Prop} [Decidable fails] {cause next : Nat} (hcause : cause ≠ 0) :
    (if fails then cause else next) = 0 ↔ ¬ fails ∧ next = 0 := by
  by_cases h : fails
  · rw [if_pos h]
    exact ⟨fun h0 => absurd h0 hcause, fun hn => absurd h hn.1⟩
  · rw [if_neg h]
    exact ⟨fun h0 => ⟨h, h0⟩, fun hn => hn.2⟩

theorem State.doorbellCause_eq_zero_iff (s : State) (q w g : Nat) : s.doorbellCause q w g = 0 ↔
    s.qState q ≠ qFenced ∧ s.qState q ≠ qDisabled ∧ w < 2 * s.qSize q ∧ g = s.gen q ∧
      s.ptrDiff q w (s.rptr q) ≤ s.qSize q ∧ s.ptrDiff q w (s.wptr q) ≤ s.qFree q := by
  rw [State.doorbellCause, check_eq_zero_iff (by decide), check_eq_zero_iff (by decide), check_eq_zero_iff (by decide),
    check_eq_zero_iff (by decide), check_eq_zero_iff (by decide), check_eq_zero_iff (by decide)]
  simp only [Nat.not_le, Nat.not_lt, ne_eq, Decidable.not_not, and_true]

/-- The causes of a rejection are FENCED, DOORBELL_GEN and DOORBELL_RANGE. -/
theorem State.doorbellCause_cases (s : State) (q w g : Nat) : s.doorbellCause q w g = 0 ∨
    s.doorbellCause q w g = 0x31 ∨ s.doorbellCause q w g = 0x32 ∨ s.doorbellCause q w g = 0x33 := by
  rw [State.doorbellCause]
  repeat' split
  all_goals decide

/-- A pointer at or above 2S is out of range whatever generation comes with it. -/
theorem State.doorbellCause_of_two_size_le (s : State) (q w g : Nat) (hf : s.qState q ≠ qFenced) (hw : 2 * s.qSize q ≤ w) :
    s.doorbellCause q w g = 0x33 := by
  rw [State.doorbellCause, if_neg hf, if_pos hw, ite_self]

/-- A pointer that commits more than the free space is out of range. -/
theorem State.doorbellCause_of_qFree_lt (s : State) (q w : Nat) (hf : s.qState q ≠ qFenced)
    (hroom : s.qFree q < s.ptrDiff q w (s.wptr q)) : s.doorbellCause q w (s.gen q) = 0x33 := by
  rw [State.doorbellCause, if_neg hf, if_neg (c := s.gen q ≠ s.gen q) (fun h => h rfl), if_pos hroom, ite_self, ite_self, ite_self]

/-! ### What a doorbell does (R125, R128) -/

theorem State.doorbell_fst (s : State) (q w g : Nat) : (s.doorbell q w g).1 = s.doorbellCause q w g := by
  by_cases h : s.doorbellCause q w g = 0
  · rw [State.doorbell, if_pos h, h]
  · rw [State.doorbell, if_neg h]
    split <;> rfl

/-- An accepted doorbell writes WPTR, and makes an IDLE queue that then holds a slot ACTIVE. -/
theorem State.doorbell_snd_of_accepted (s : State) (q w g : Nat) (h : s.doorbellCause q w g = 0) :
    (s.doorbell q w g).2 =
      if (s.setReg R.QUE_WPTR_WPTR w q).qState q = qIdle ∧ (s.setReg R.QUE_WPTR_WPTR w q).qCount q ≠ 0 then
        (s.setReg R.QUE_WPTR_WPTR w q).setQState q qActive
      else s.setReg R.QUE_WPTR_WPTR w q := by
  rw [State.doorbell, if_pos h]

/-- A rejected doorbell counts itself in QUE.REJECT and does nothing else. -/
theorem State.doorbell_snd_of_rejected (s : State) (q w g : Nat) (h : s.doorbellCause q w g ≠ 0) :
    (s.doorbell q w g).2 = s.incReg (if s.doorbellCause q w g = 0x33 then R.QUE_REJECT_RANGE else R.QUE_REJECT_GEN) q := by
  rw [State.doorbell, if_neg h]
  split <;> rfl

theorem State.doorbell_snd_eq (s : State) (q w g : Nat) : (s.doorbell q w g).2 = { s with regs := (s.doorbell q w g).2.regs } := by
  by_cases h : s.doorbellCause q w g = 0
  · rw [State.doorbell_snd_of_accepted s q w g h]
    split
    · rw [State.setQState, State.setReg_eq (s.setReg _ _ _), State.setReg_eq s]
    · exact State.setReg_eq ..
  · rw [State.doorbell_snd_of_rejected s q w g h]
    exact State.incReg_eq ..

theorem State.doorbell_wf (s : State) (q w g : Nat) (hwf : Sparse.wf 0#32 s.regs = true) :
    Sparse.wf 0#32 (s.doorbell q w g).2.regs = true := by
  by_cases h : s.doorbellCause q w g = 0
  · rw [State.doorbell_snd_of_accepted s q w g h]
    split
    · exact State.setReg_wf _ _ _ _ _ (s.setReg_wf _ _ _ _ hwf)
    · exact s.setReg_wf _ _ _ _ hwf
  · rw [State.doorbell_snd_of_rejected s q w g h]
    exact s.incReg_wf _ _ _ _ hwf

/-- The ring after an accepted doorbell: WPTR is the new one, and the state is the old one but where an IDLE queue became ACTIVE. -/
theorem State.ring_doorbell_of_accepted (s : State) (q w g : Nat) (hwf : Sparse.wf 0#32 s.regs = true) (hw : w < 2 ^ 17)
    (h : s.doorbellCause q w g = 0) :
    ∃ st, (s.doorbell q w g).2.ring q = { s.ring q with wptr := w, state := st } ∧
      (st = s.qState q ∨ s.qState q = qIdle ∧ st = qActive) := by
  have hring := s.ring_setWptr q w hwf hw
  rw [State.doorbell_snd_of_accepted s q w g h]
  split
  next hidle =>
    have hstate : (s.setReg R.QUE_WPTR_WPTR w q).qState q = s.qState q := congrArg RingView.state hring
    refine ⟨qActive, ?_, .inr ⟨hstate ▸ hidle.1, rfl⟩⟩
    rw [State.ring_setQState _ q qActive (s.setReg_wf _ _ _ _ hwf) (by decide), hring]
  next => exact ⟨s.qState q, hring, .inl rfl⟩

theorem State.ring_doorbell_of_rejected (s : State) (q w g : Nat) (hwf : Sparse.wf 0#32 s.regs = true)
    (h : s.doorbellCause q w g ≠ 0) : (s.doorbell q w g).2.ring q = s.ring q := by
  rw [State.doorbell_snd_of_rejected s q w g h]
  refine s.ring_incReject q hwf ?_
  split
  · exact .inl rfl
  · exact .inr rfl

theorem State.sameRegistersBut_doorbell_of_accepted (s : State) (q w g : Nat) (hwf : Sparse.wf 0#32 s.regs = true)
    (h : s.doorbellCause q w g = 0) :
    SameRegistersBut [(R.QUE_WPTR_WPTR, q, 0), (R.QUE_STATE_STATE, q, 0)] s (s.doorbell q w g).2 := by
  have hwptr := s.sameRegistersBut_setReg R.QUE_WPTR_WPTR w q 0 hwf
    (List.mem_cons_self (l := [(R.QUE_STATE_STATE, q, 0)]))
  rw [State.doorbell_snd_of_accepted s q w g h]
  split
  · exact hwptr.trans (State.sameRegistersBut_setReg _ R.QUE_STATE_STATE qActive q 0 (s.setReg_wf _ _ _ _ hwf)
      (List.mem_cons_of_mem _ List.mem_cons_self))
  · exact hwptr

theorem State.sameRegistersBut_doorbell_of_rejected (s : State) (q w g : Nat) (hwf : Sparse.wf 0#32 s.regs = true)
    (h : s.doorbellCause q w g ≠ 0) :
    SameRegistersBut [(R.QUE_REJECT_RANGE, q, 0), (R.QUE_REJECT_GEN, q, 0)] s (s.doorbell q w g).2 := by
  rw [State.doorbell_snd_of_rejected s q w g h]
  refine s.sameRegistersBut_setReg _ _ q 0 hwf ?_
  split
  · exact List.mem_cons_self
  · exact List.mem_cons_of_mem _ List.mem_cons_self

/-- A doorbell equal to WPTR is a no-op, but on an IDLE queue that holds slots, which R128 makes ACTIVE. -/
theorem State.doorbell_snd_of_eq_wptr (s : State) (q g : Nat) (hwf : Sparse.wf 0#32 s.regs = true)
    (h : s.doorbellCause q (s.wptr q) g = 0) (hidle : s.qState q = qIdle → s.qCount q = 0) : (s.doorbell q (s.wptr q) g).2 = s := by
  have hwrite : s.setReg R.QUE_WPTR_WPTR (s.wptr q) q = s := s.setReg_reg R.QUE_WPTR_WPTR q 0 hwf (by decide)
  rw [State.doorbell_snd_of_accepted s q _ g h, hwrite]
  exact if_neg fun hact => hact.2 (hidle hact.1)

/-! ### Pointers (R119) and release (R128) -/

theorem State.ptrDiff_of_lt (s : State) {q a b : Nat} (ha : a < 2 * s.qSize q) (hb : b < 2 * s.qSize q) :
    b ≤ a ∧ s.ptrDiff q a b = a - b ∨ a < b ∧ s.ptrDiff q a b = a + 2 * s.qSize q - b := by
  rw [State.ptrDiff]
  rcases Nat.lt_or_ge a b with h | h
  · exact .inr ⟨h, Nat.mod_eq_of_lt (by omega)⟩
  · refine .inl ⟨h, ?_⟩
    rw [show a + 2 * s.qSize q - b = a - b + 2 * s.qSize q by omega, Nat.add_mod_right, Nat.mod_eq_of_lt (by omega)]

theorem State.ptrAdd_of_lt (s : State) {q p n : Nat} (hp : p < 2 * s.qSize q) (hn : n ≤ 2 * s.qSize q) :
    p + n < 2 * s.qSize q ∧ s.ptrAdd q p n = p + n ∨ 2 * s.qSize q ≤ p + n ∧ s.ptrAdd q p n = p + n - 2 * s.qSize q := by
  rw [State.ptrAdd]
  rcases Nat.lt_or_ge (p + n) (2 * s.qSize q) with h | h
  · exact .inl ⟨h, Nat.mod_eq_of_lt h⟩
  · refine .inr ⟨h, ?_⟩
    rw [Nat.mod_eq_sub_mod h, Nat.mod_eq_of_lt (by omega)]

theorem State.qSize_pos (s : State) (q : Nat) : 0 < s.qSize q := Nat.two_pow_pos _

theorem State.ptrAdd_lt (s : State) (q p n : Nat) : s.ptrAdd q p n < 2 * s.qSize q :=
  Nat.mod_lt _ (by have := s.qSize_pos q; omega)

section
variable (s : State) {q a b n : Nat} (ha : a < 2 * s.qSize q) (hb : b < 2 * s.qSize q)
include ha hb

theorem State.ptrDiff_pos (hne : a ≠ b) : 0 < s.ptrDiff q a b := by
  have hab := s.ptrDiff_of_lt ha hb
  omega

theorem State.ptrDiff_ptrAdd_left (h : s.ptrDiff q a b + n < 2 * s.qSize q) :
    s.ptrDiff q (s.ptrAdd q a n) b = s.ptrDiff q a b + n := by
  have hab := s.ptrDiff_of_lt ha hb
  have hadd := s.ptrAdd_of_lt (n := n) ha (by omega)
  have hnew := s.ptrDiff_of_lt (s.ptrAdd_lt q a n) hb
  omega

theorem State.ptrDiff_ptrAdd_right (h : n ≤ s.ptrDiff q a b) : s.ptrDiff q a (s.ptrAdd q b n) = s.ptrDiff q a b - n := by
  have hab := s.ptrDiff_of_lt ha hb
  have hadd := s.ptrAdd_of_lt (n := n) hb (by omega)
  have hnew := s.ptrDiff_of_lt ha (s.ptrAdd_lt q b n)
  omega

/-- Between `b` and `a` a pointer `c` splits the slots in two. -/
theorem State.ptrDiff_sub {c : Nat} (hc : c < 2 * s.qSize q) (h : s.ptrDiff q c b ≤ s.ptrDiff q a b) :
    s.ptrDiff q a c = s.ptrDiff q a b - s.ptrDiff q c b := by
  have hab := s.ptrDiff_of_lt ha hb
  have hcb := s.ptrDiff_of_lt hc hb
  have hac := s.ptrDiff_of_lt ha hc
  omega

end

/-- Pointer differences depend on the size of the queue only. -/
theorem State.ptrDiff_congr {s t : State} {q : Nat} (h : t.qSize q = s.qSize q) (a b : Nat) : t.ptrDiff q a b = s.ptrDiff q a b := by
  rw [State.ptrDiff, State.ptrDiff, h]

/-- Every pointer of a queue of at most 2^16 slots fits the 17 bits of its register. -/
theorem State.two_qSize_le (s : State) (q : Nat) (h : s.reg R.QUE_CFG_LOG2_SLOTS q ≤ 16) : 2 * s.qSize q ≤ 2 ^ 17 := by
  have : s.qSize q ≤ 2 ^ 16 := Nat.pow_le_pow_right (by decide) h
  omega

/-- The ring after a release: RPTR is advanced, and the state is the old one but where an ACTIVE queue became IDLE. -/
theorem State.ring_release (s : State) (q n : Nat) (hwf : Sparse.wf 0#32 s.regs = true) (hsize : 2 * s.qSize q ≤ 2 ^ 17) :
    ∃ st, (s.release q n).ring q = { s.ring q with rptr := s.ptrAdd q (s.rptr q) n, state := st } ∧
      (st = s.qState q ∨ s.qState q = qActive ∧ st = qIdle) := by
  have hring := s.ring_setRptr q (s.ptrAdd q (s.rptr q) n) hwf (Nat.lt_of_lt_of_le (s.ptrAdd_lt ..) hsize)
  have hstate : (s.setReg R.QUE_RPTR_RPTR (s.ptrAdd q (s.rptr q) n) q).qState q = s.qState q := congrArg RingView.state hring
  have hidle := State.ring_setQState _ q qIdle (s.setReg_wf R.QUE_RPTR_RPTR (s.ptrAdd q (s.rptr q) n) q 0 hwf) (by decide)
  rw [hring] at hidle
  simp only [State.release]
  split
  next hdata => exact ⟨qIdle, hidle, .inr ⟨hstate ▸ hdata.1, rfl⟩⟩
  next =>
    split
    next hsys => exact ⟨qIdle, hidle, .inr ⟨hstate ▸ hsys.1, rfl⟩⟩
    next => exact ⟨s.qState q, hring, .inl rfl⟩

/-! ### The full ring (R162) -/

section
variable (s : State) {q : Nat} (hf : s.qState q ≠ qFenced) (hw : s.wptr q < 2 * s.qSize q)
include hf hw

/-- A full ring has no free space, so every pointer but WPTR commits too much. -/
theorem State.doorbellCause_of_full (hfull : s.qCount q = s.qSize q) {x : Nat} (hx : x < 2 * s.qSize q) (hne : x ≠ s.wptr q) :
    s.doorbellCause q x (s.gen q) = 0x33 := by
  refine s.doorbellCause_of_qFree_lt q x hf ?_
  rw [State.qFree, hfull, Nat.sub_self]
  exact s.ptrDiff_pos hx hw hne

variable (hr : s.rptr q < 2 * s.qSize q)
include hr

/-- A pointer that takes back no slot and commits no more than S in all is accepted. -/
theorem State.doorbellCause_of_fits (hd : s.qState q ≠ qDisabled) {x : Nat} (hx : x < 2 * s.qSize q)
    (hheld : s.qCount q ≤ s.ptrDiff q x (s.rptr q)) (hfit : s.ptrDiff q x (s.rptr q) ≤ s.qSize q) :
    s.doorbellCause q x (s.gen q) = 0 := by
  have hnew : s.ptrDiff q x (s.wptr q) = s.ptrDiff q x (s.rptr q) - s.qCount q := s.ptrDiff_sub hx hr hw hheld
  refine (s.doorbellCause_eq_zero_iff q x _).2 ⟨hf, hd, hx, rfl, hfit, ?_⟩
  rw [hnew, State.qFree]
  omega

/-- When a full ring has released `n` slots, a doorbell that commits one slot is accepted. -/
theorem State.doorbellCause_release_of_full (hd : s.qState q ≠ qDisabled) (hfull : s.qCount q = s.qSize q)
    (hwf : Sparse.wf 0#32 s.regs = true) (hsize : 2 * s.qSize q ≤ 2 ^ 17) {n : Nat} (hn : 1 ≤ n) (hle : n ≤ s.qSize q) :
    (s.release q n).doorbellCause q (s.ptrAdd q (s.wptr q) 1) (s.gen q) = 0 := by
  obtain ⟨st, hring, hst⟩ := s.ring_release q n hwf hsize
  generalize s.release q n = u at hring ⊢
  simp only [State.ring, RingView.mk.injEq] at hring
  obtain ⟨ustate, usize, uwptr, urptr, ugen⟩ := hring
  have hcount : s.ptrDiff q (s.wptr q) (s.rptr q) = s.qSize q := hfull
  have hlast := s.ptrAdd_lt q (s.wptr q) 1
  have hfirst := s.ptrAdd_lt q (s.rptr q) n
  have hheld : s.ptrDiff q (s.wptr q) (s.ptrAdd q (s.rptr q) n) = s.qSize q - n := by
    rw [s.ptrDiff_ptrAdd_right hw hr (by omega), hcount]
  have hnext : s.ptrDiff q (s.ptrAdd q (s.wptr q) 1) (s.ptrAdd q (s.rptr q) n) = s.qSize q - n + 1 := by
    rw [s.ptrDiff_ptrAdd_left hw hfirst (by omega), hheld]
  have hopen : u.qState q ≠ qFenced ∧ u.qState q ≠ qDisabled := by
    obtain rfl | ⟨-, rfl⟩ := hst
    · exact ⟨ustate ▸ hf, ustate ▸ hd⟩
    · exact ⟨ustate ▸ by decide, ustate ▸ by decide⟩
  rw [← ugen]
  refine u.doorbellCause_of_fits hopen.1 ?_ ?_ hopen.2 ?_ ?_ ?_
  · rwa [uwptr, usize]
  · rwa [urptr, usize]
  · rwa [usize]
  · rw [State.qCount, State.ptrDiff_congr usize, State.ptrDiff_congr usize, uwptr, urptr, hheld, hnext]
    omega
  · rw [State.ptrDiff_congr usize, urptr, usize, hnext]
    omega

end

end Sys2Proof.Machine

open Sys2Proof Sys2Proof.Machine

/-- Settles O21: an accepted and a rejected doorbell each change only what R125 and R128 give them. -/
theorem doorbellRule : Obligations.DoorbellRule := by
  intro s t q w g cause hwf _ hstate hslots hbell
  obtain rfl : s.doorbellCause q w g = cause := by rw [← s.doorbell_fst, hbell]
  obtain rfl : (s.doorbell q w g).2 = t := by rw [hbell]
  have hiff := s.doorbellCause_eq_zero_iff q w g
  refine ⟨?_, ?_, ?_, ?_, ?_⟩
  · have hopen : (s.qState q ≠ qFenced ∧ s.qState q ≠ qDisabled) ↔
        (s.qState q = qActive ∨ s.qState q = qIdle ∨ s.qState q = qStopped) := by
      simp only [qFenced, qDisabled, qActive, qIdle, qStopped]
      omega
    rw [hiff, ← and_assoc, hopen]
    rfl
  · intro haccept
    obtain ⟨-, -, hw, -⟩ := hiff.1 haccept
    obtain ⟨st, hring, -⟩ :=
      s.ring_doorbell_of_accepted q w g hwf (Nat.lt_of_lt_of_le hw (s.two_qSize_le q hslots)) haccept
    exact ⟨congrArg RingView.wptr hring, congrArg RingView.rptr hring, congrArg RingView.gen hring, s.doorbell_snd_eq q w g,
      s.sameRegistersBut_doorbell_of_accepted q w g hwf haccept⟩
  · rintro haccept rfl hidle a
    rw [s.doorbell_snd_of_eq_wptr q g hwf haccept hidle]
  · intro hreject
    have hring := s.ring_doorbell_of_rejected q w g hwf hreject
    refine ⟨congrArg RingView.wptr hring, congrArg RingView.rptr hring, congrArg RingView.gen hring, congrArg RingView.state hring,
      s.doorbell_snd_eq q w g, s.sameRegistersBut_doorbell_of_rejected q w g hwf hreject, ?_, ?_,
      (s.doorbellCause_cases q w g).resolve_left hreject⟩
    · intro hrange
      rw [s.doorbell_snd_of_rejected q w g hreject, if_pos hrange]
      exact s.reg_incReg_same _ q 0 1 hwf (by decide)
    · intro hother
      rw [s.doorbell_snd_of_rejected q w g hreject, if_neg hother]
      exact s.reg_incReg_same _ q 0 1 hwf (by decide)
  · exact s.doorbellCause_of_two_size_le q w g

/-- Settles O22: the doorbell that fills the ring fits; a full ring has no free space; and a release of `n` slots leaves room. -/
theorem fullRing : Obligations.FullRing := by
  intro s t q w n hwf _ hslots hstate hwptr hrptr hcount hw hfill ht
  have hopen : s.qState q ≠ qFenced ∧ s.qState q ≠ qDisabled := by
    simp only [qFenced, qDisabled, qActive, qIdle, qStopped] at hstate ⊢
    omega
  have hsize := s.two_qSize_le q hslots
  have haccept : s.doorbellCause q w (s.gen q) = 0 :=
    s.doorbellCause_of_fits hopen.1 hwptr hrptr hopen.2 hw (by omega) (by omega)
  obtain ⟨st, hring, hst⟩ := s.ring_doorbell_of_accepted q w (s.gen q) hwf (by omega) haccept
  have htwf := s.doorbell_wf q w (s.gen q) hwf
  rw [← ht] at hring htwf
  simp only [State.ring, RingView.mk.injEq] at hring
  obtain ⟨tstate, tsize, twptr, trptr, -⟩ := hring
  have topen : t.qState q ≠ qFenced ∧ t.qState q ≠ qDisabled := by
    obtain rfl | ⟨-, rfl⟩ := hst
    · exact ⟨tstate ▸ hopen.1, tstate ▸ hopen.2⟩
    · exact ⟨tstate ▸ by decide, tstate ▸ by decide⟩
  have tfull : t.qCount q = t.qSize q := by
    rw [State.qCount, State.ptrDiff_congr tsize, twptr, trptr, tsize, hfill]
  rw [← tsize] at hw hrptr hsize
  rw [← twptr] at hw
  rw [← trptr] at hrptr
  refine ⟨s.doorbell_fst q w _ ▸ haccept, tfull.trans tsize, ?_, ?_⟩
  · intro x hx hne
    rw [State.doorbell_fst]
    exact t.doorbellCause_of_full topen.1 hw tfull (tsize ▸ hx) (twptr ▸ hne)
  · intro hn hle
    rw [State.doorbell_fst, ← twptr]
    exact t.doorbellCause_release_of_full topen.1 hw hrptr topen.2 tfull htwf hsize hn (tsize ▸ hle)

end

section
/-!
SUPPORT. What every operation of the block leaves alone: the reference tick, the queue of waiting commands, the boot flash, the
    UFS
model store and the fuses, and the canonical form of every sparse store.  One lemma per operation, in the order of the model.
-/

namespace Sys2Proof.Machine

open Sys2Proof

/-! ### The relation, and how it passes through the constructs of the model -/

/-- From `s` to `t` no time has passed, no waiting command, byte of flash or of UFS, or fuse has changed, and stores that were in
canonical form still are. -/
structure Keeps (s t : State) : Prop where
  tick : t.tick = s.tick
  pending : t.pending = s.pending
  flash : t.flash = s.flash
  ufs : t.ufs = s.ufs
  fuses : t.fuses = s.fuses
  canonical : s.Canonical → t.Canonical

theorem Keeps.refl (s : State) : Keeps s s := ⟨rfl, rfl, rfl, rfl, rfl, id⟩

section

variable {s₀ s t : State}

theorem Keeps.trans {u : State} (h : Keeps s t) (h' : Keeps t u) : Keeps s u :=
  ⟨h'.tick.trans h.tick, h'.pending.trans h.pending, h'.flash.trans h.flash, h'.ufs.trans h.ufs, h'.fuses.trans h.fuses,
    fun hc => h'.canonical (h.canonical hc)⟩

/-- What `Keeps` speaks of beside the sparse stores that a command may write. -/
def State.fixed (s : State) : Nat × List Instr × List Host.Cell × List Host.Cell × Fuses :=
  (s.tick, s.pending, s.flash, s.ufs, s.fuses)

/-- An update of the stores that keeps their canonical form. -/
theorem Keeps.update (h : Keeps s₀ s) (hc : s.Canonical → t.Canonical) (e : t.fixed = s.fixed := by rfl) : Keeps s₀ t := by
  simp only [State.fixed, Prod.mk.injEq] at e
  obtain ⟨htick, hpending, hflash, hufs, hfuses⟩ := e
  exact ⟨htick.trans h.tick, hpending.trans h.pending, hflash.trans h.flash, hufs.trans h.ufs, hfuses.trans h.fuses,
    fun hs => hc (h.canonical hs)⟩

/-- An update of fields that `Keeps` does not speak of. -/
theorem Keeps.same {freeCtr out snaps orbit groups boot scrubbers patrolAt image applied queuesLost queues cmds nextId held
    threads
    running grants jobs regulators windows deadlocks hub ifaces power dbg acu tide embFile streams slots vis wrote} (h : Keeps s₀
        s) : Keeps s₀ { s with
      freeCtr := freeCtr, out := out, snaps := snaps, orbit := orbit, groups := groups, boot := boot, scrubbers :=
      scrubbers, patrolAt := patrolAt, image := image, applied := applied, queuesLost := queuesLost, queues := queues, cmds
      := cmds, nextId := nextId, held := held, threads := threads, running := running, grants := grants, jobs := jobs,
      regulators := regulators, windows := windows, deadlocks := deadlocks, hub := hub, ifaces := ifaces, power := power,
      dbg := dbg, acu := acu, tide := tide, embFile := embFile, streams := streams, slots := slots, vis := vis, wrote :=
      wrote } :=
  ⟨h.tick, h.pending, h.flash, h.ufs, h.fuses, h.canonical⟩

theorem Keeps.ite {c : Prop} {_ : Decidable c} {a b : State} (ha : Keeps s₀ a) (hb : Keeps s₀ b) : Keeps s₀ (if c then a else b)
    := by
  split
  · exact ha
  · exact hb

theorem Keeps.ite_snd {α : Type} {c : Prop} {_ : Decidable c} {a b : α × State} (ha : Keeps s₀ a.2) (hb : Keeps s₀ b.2) :
    Keeps s₀ (if c then a else b).2 := by
  split
  · exact ha
  · exact hb

theorem Keeps.fold {α : Type} {f : State → α → State} {l : List α} (hf : ∀ x a, Keeps s₀ x → Keeps s₀ (f x a)) (h : Keeps s₀ s) :
    Keeps s₀ (l.foldl f s) := foldl_keeps (Keeps s₀ ·) hf l h

theorem Keeps.foldr {α : Type} {f : α → State → State} {l : List α} (hf : ∀ a x, Keeps s₀ x → Keeps s₀ (f a x)) (h : Keeps s₀ s) :
    Keeps s₀ (l.foldr f s) := by
  induction l with
  | nil => exact h
  | cons a l ih => exact hf _ _ ih

theorem Keeps.fold_snd {α β : Type} {f : β × State → α → β × State} {l : List α} {x : β × State}
    (hf : ∀ x a, Keeps s₀ x.2 → Keeps s₀ (f x a).2) (h : Keeps s₀ x.2) : Keeps s₀ (l.foldl f x).2 :=
  foldl_keeps (fun x : β × State => Keeps s₀ x.2) hf l h

/-- The state of a pair taken apart. -/
theorem Keeps.of_eq {α : Type} {p : α × State} {a : α} (e : p = (a, s)) (h : Keeps s₀ p.2) : Keeps s₀ s := by
  rw [e] at h
  exact h

theorem foldl_put_wf {β : Type} [DecidableEq β] {d : β} (l m : List (Nat × β)) (hm : Sparse.wf d m = true) :
    Sparse.wf d (l.foldl (fun m p => Sparse.put d m p.1 p.2) m) = true :=
  foldl_keeps (Sparse.wf d · = true) (fun _ _ => Sparse.put_wf _ _) l hm

theorem setCellBytes_wf (bs : List Byte) (m : List Host.Cell) (a : Nat) (hm : Sparse.wf 0#8 m = true) :
    Sparse.wf 0#8 (setCellBytes m a bs) = true := by
  induction bs generalizing m a with
  | nil => exact hm
  | cons b bs ih => exact ih _ _ (Sparse.put_wf _ _ hm)

/-- The register file replaced by another in canonical form. -/
theorem Keeps.writeRegs {r : List (Nat × Word32)} {snaps} (h : Keeps s₀ s)
    (hr : Sparse.wf 0#32 s.regs = true → Sparse.wf 0#32 r = true) : Keeps s₀ { s with regs := r, snaps := snaps } :=
  h.update fun ⟨hregs, hrest⟩ => ⟨hr hregs, hrest⟩

theorem Keeps.writeMemory {m : List Host.Cell} {l : List (Nat × Health)} (h : Keeps s₀ s)
    (hm : Sparse.wf 0#8 s.mem = true → Sparse.wf 0#8 m = true)
    (hl : Sparse.wf Health.good s.health = true → Sparse.wf Health.good l = true) : Keeps s₀ { s with mem := m, health := l } :=
  h.update fun ⟨hregs, hmem, hhealth, hrest⟩ => ⟨hregs, hm hmem, hl hhealth, hrest⟩

theorem Keeps.putHealth {w : Nat} {x : Health} (h : Keeps s₀ s) (ht : Keeps s₀ t) :
    Keeps s₀ { t with health := Sparse.put .good s.health w x } :=
  ⟨ht.tick, ht.pending, ht.flash, ht.ufs, ht.fuses, fun hc =>
    have ⟨hregs, hmem, _, hrest⟩ := ht.canonical hc
    ⟨hregs, hmem, Sparse.put_wf _ _ (h.canonical hc).2.2.1, hrest⟩⟩

theorem Keeps.writeFram {a : Nat} {bs : List Byte} {freeCtr hub tide} (h : Keeps s₀ s) :
    Keeps s₀ { s with fram := setCellBytes s.fram a bs, freeCtr := freeCtr, hub := hub, tide := tide } :=
  h.update fun ⟨hregs, hmem, hhealth, hfram, hrest⟩ => ⟨hregs, hmem, hhealth, setCellBytes_wf _ _ _ hfram, hrest⟩

theorem Keeps.writeEvents {l : List (Nat × Word32)} (h : Keeps s₀ s)
    (hl : Sparse.wf 0#32 s.events = true → Sparse.wf 0#32 l = true) : Keeps s₀ { s with events := l } :=
  h.update fun ⟨hregs, hmem, hhealth, hfram, hflash, hufs, hevents⟩ => ⟨hregs, hmem, hhealth, hfram, hflash, hufs, hl hevents⟩

/-- A computation of a command that keeps what `Keeps` speaks of, however it ends. -/
def Eff.Keeps {α : Type} (m : Eff α) : Prop := ∀ ⦃s₀ s : State⦄, Machine.Keeps s₀ s → Machine.Keeps s₀ (m s).2

theorem Eff.Keeps.ite {α : Type} {c : Prop} {_ : Decidable c} {a b : Eff α} (ha : a.Keeps) (hb : b.Keeps) :
    (if c then a else b).Keeps := by
  split
  · exact ha
  · exact hb

theorem Eff.Keeps.fold {α β : Type} {f : Eff β → α → Eff β} {l : List α} {m : Eff β} (hf : ∀ m a, m.Keeps → (f m a).Keeps)
    (hm : m.Keeps) : (l.foldl f m).Keeps := foldl_keeps Eff.Keeps hf l hm

/-- A command runs for the ticks it carries, and keeps from then on what `Keeps` speaks of. -/
def RunsFor (dt : Nat) (s : State) (o : Host.Outcome State Fault Refusal) : Prop := ∃ t, o = .next t ∧ Keeps (s.elapse dt) t

theorem RunsFor.next {dt : Nat} (h : Keeps (s.elapse dt) t) : RunsFor dt s (.next t) := ⟨t, rfl, h⟩

theorem Keeps.setRegWord {a v} (h : Keeps s₀ s) : Keeps s₀ (s.setRegWord a v) := h.writeRegs (Sparse.put_wf _ _)

theorem Keeps.setRegWords {a v n} (h : Keeps s₀ s) : Keeps s₀ (s.setRegWords a v n) := by
  induction n generalizing s a v with
  | zero => exact h
  | succ n ih => exact ih h.setRegWord

theorem Keeps.setReg {r v i j} (h : Keeps s₀ s) : Keeps s₀ (s.setReg r v i j) := h.setRegWords

theorem Keeps.incReg {r i j n} (h : Keeps s₀ s) : Keeps s₀ (s.incReg r i j n) := h.setReg

theorem Keeps.resetRegs {lo hi} (h : Keeps s₀ s) : Keeps s₀ (s.resetRegs lo hi) :=
  h.writeRegs fun hr => foldl_put_wf _ _ (Sparse.clear_wf lo hi hr)

theorem Keeps.setByte {a v} (h : Keeps s₀ s) : Keeps s₀ (s.setByte a v) := h.writeMemory (Sparse.put_wf _ _) id

theorem Keeps.setBytes {a bs} (h : Keeps s₀ s) : Keeps s₀ (s.setBytes a bs) := by
  induction bs generalizing s a with
  | nil => exact h
  | cons b bs ih => exact ih h.setByte

theorem Keeps.store {a n v} (h : Keeps s₀ s) : Keeps s₀ (s.store a n v) := h.setBytes

theorem Keeps.clearMem {lo hi} (h : Keeps s₀ s) : Keeps s₀ (s.clearMem lo hi) :=
  h.writeMemory (Sparse.clear_wf _ _) (Sparse.clear_wf _ _)

theorem Keeps.setThread {t x} (h : Keeps s₀ s) : Keeps s₀ (s.setThread t x) := h.same

theorem Keeps.setQueueX {q x} (h : Keeps s₀ s) : Keeps s₀ (s.setQueueX q x) := h.same

theorem Keeps.setEvent {e v} (h : Keeps s₀ s) : Keeps s₀ (s.setEvent e v) := h.writeEvents (Sparse.put_wf _ _)

theorem Keeps.setCmd {x} (h : Keeps s₀ s) : Keeps s₀ (s.setCmd x) := h.same

theorem Keeps.dropCmd {c} (h : Keeps s₀ s) : Keeps s₀ (s.dropCmd c) := h.same

theorem Keeps.freeBelow (h : Keeps s₀ s) (n : Nat := 0) : Keeps s₀ (s.freeBelow n).2 := h.same

theorem Keeps.freeWithin (h : Keeps s₀ s) (m : Nat := 0) : Keeps s₀ (s.freeWithin m).2 := h.same

theorem Keeps.scramble {a n} (h : Keeps s₀ s) : Keeps s₀ (s.scramble a n) := h.setBytes.same

theorem Keeps.stamp {sub bound} (h : Keeps s₀ s) : Keeps s₀ (s.stamp sub bound).2 := h.freeWithin

theorem Keeps.emit {o} (h : Keeps s₀ s) : Keeps s₀ (s.emit o) := h.same

theorem Keeps.tmuxPulse {sig arg} (h : Keeps s₀ s) : Keeps s₀ (s.tmuxPulse sig arg) := h.same

theorem Keeps.setSvc {c} (h : Keeps s₀ s) : Keeps s₀ (s.setSvc c) := h.setReg.setReg

theorem Keeps.setQState {q v} (h : Keeps s₀ s) : Keeps s₀ (s.setQState q v) := h.setReg

theorem Keeps.putSlots {q p l} (h : Keeps s₀ s) : Keeps s₀ (s.putSlots q p l) := by
  induction l generalizing s p with
  | nil => exact h
  | cons b bs ih => exact ih h.setBytes

theorem Keeps.doorbell {q wptr gen} (h : Keeps s₀ s) : Keeps s₀ (s.doorbell q wptr gen).2 :=
  .ite_snd (.ite h.setReg.setQState h.setReg) (.ite_snd h.incReg h.incReg)

theorem Keeps.produce {q item} (h : Keeps s₀ s) : Keeps s₀ (s.produce q item).2 :=
  .ite_snd (.doorbell (.ite h.putSlots h)) (.incReg (.doorbell (.ite h.putSlots h)))

theorem Keeps.release {q n} (h : Keeps s₀ s) : Keeps s₀ (s.release q n) :=
  .ite h.setReg.setQState (.ite h.setReg.setQState h.setReg)

theorem Keeps.record {q words} (h : Keeps s₀ s) : Keeps s₀ (s.record q words) := .produce (.ite h.release h)

theorem Keeps.q2 {w0 w2 w3 w4} (h : Keeps s₀ s) : Keeps s₀ (s.q2 w0 w2 w3 w4) := h.record

theorem Keeps.answer {iface word0 status dup detail body} (h : Keeps s₀ s) : Keeps s₀ (s.answer iface word0 status dup detail
    body) :=
  .ite h.produce h.same

theorem Keeps.setWindow {i w} (h : Keeps s₀ s) : Keeps s₀ (s.setWindow i w) := h.same

theorem Keeps.closeEntry {i e status detail} (h : Keeps s₀ s) : Keeps s₀ (s.closeEntry i e status detail) := h.answer.setWindow

theorem Keeps.closeAll (h : Keeps s₀ s) : Keeps s₀ s.closeAll :=
  .fold (fun _ _ h1 => .fold (fun _ _ h2 => .ite h2.closeEntry h2) h1) h

theorem Keeps.zeroDomain {d} (h : Keeps s₀ s) : Keeps s₀ (s.zeroDomain d) := by
  unfold State.zeroDomain
  extract_lets s1 s2 s3
  have h1 : Keeps s₀ s1 := .fold (fun _ _ h1 => h1.clearMem) h
  have h2 : Keeps s₀ s2 := .ite h1.same h1
  have h3 : Keeps s₀ s3 := .ite h2.same.setReg.setReg h2
  exact h3.same

theorem Keeps.setBit {r n v i j} (h : Keeps s₀ s) : Keeps s₀ (s.setBit r n v i j) := h.setReg

theorem Keeps.powerCore {n on} (h : Keeps s₀ s) : Keeps s₀ (s.powerCore n on) := h.setBit.setReg

theorem Keeps.powerOn {d} (h : Keeps s₀ s) : Keeps s₀ (s.powerOn d) := by
  unfold State.powerOn
  extract_lets s1 _ s2 s3
  have h1 : Keeps s₀ s1 := h.setBit.zeroDomain
  have h2 : Keeps s₀ s2 := h1.same
  have h3 : Keeps s₀ s3 := .fold (fun _ _ h3 => h3.powerCore) h2
  split
  · exact h
  · split
    · exact h3.setBit
    · split
      · exact h2.setBit.setBit
      · split
        · exact h2.setBit
        · split
          · exact h2.setBit
          · exact h2

theorem Keeps.dropIface {d} (h : Keeps s₀ s) : Keeps s₀ (s.dropIface d) :=
  .ite (.same (.fold (fun _ _ h1 => h1.setReg) h)) (.ite h.setReg.setReg.setReg (.ite (.same (.fold (fun _ _ h1 => .ite h1.setReg
      h1) h)) h))

theorem Keeps.powerOff {d} (h : Keeps s₀ s) : Keeps s₀ (s.powerOff d) :=
  .ite h (.fold (fun _ _ h1 => .ite h1.setBit h1) (.dropIface (.ite (.fold (fun _ _ h1 => h1.powerCore) h.setBit.zeroDomain.same)
      h.setBit.zeroDomain.same)))

theorem Keeps.takeResponse {q} (h : Keeps s₀ s) : Keeps s₀ (s.takeResponse q) := by
  unfold State.takeResponse
  extract_lets
  split
  · extract_lets s1
    have h1 : Keeps s₀ s1 := h.release
    split
    · exact h1.incReg
    · split
      · exact h1.incReg
      · extract_lets s2
        have h2 : Keeps s₀ s2 := h1.answer
        split
        · exact h2.setWindow
        · exact h1.incReg
  · exact h

theorem Keeps.takeResponses {q n} (h : Keeps s₀ s) : Keeps s₀ (s.takeResponses q n) := by
  induction n generalizing s with
  | zero => exact h
  | succ n ih => exact .ite (ih h.takeResponse) h

theorem Keeps.saveQueue {i n} (h : Keeps s₀ s) : Keeps s₀ (s.saveQueue i n) := by
  induction n generalizing s with
  | zero => exact h
  | succ n ih =>
    unfold State.saveQueue
    split
    · exact ih h.release.same
    · exact h

theorem Keeps.saveAnswers (h : Keeps s₀ s) : Keeps s₀ s.saveAnswers := .same (.fold (fun _ _ h1 => .ite h1 h1.saveQueue) h)

theorem Keeps.sendCommitted (h : Keeps s₀ s) : Keeps s₀ s.sendCommitted := .fold (fun _ _ h1 => h1.takeResponses) h

theorem Keeps.setVisSource {kind n x} (h : Keeps s₀ s) : Keeps s₀ (s.setVisSource kind n x) := h.same

theorem Keeps.visLose {kind n b} (h : Keeps s₀ s) : Keeps s₀ (s.visLose kind n b) := by
  unfold State.visLose
  extract_lets _ s1
  have h1 : Keeps s₀ s1 := h.setVisSource
  split
  · exact h1.scramble
  · exact h1

theorem Keeps.visAbandon {kind n} (h : Keeps s₀ s) : Keeps s₀ (s.visAbandon kind n) := by
  unfold State.visAbandon
  extract_lets
  split
  · exact h.same.visLose
  · exact h

theorem Keeps.stopVision (h : Keeps s₀ s) : Keeps s₀ s.stopVision :=
  .setReg (.same (.fold (fun _ _ h1 => .fold (fun _ _ h2 => h2.visLose) h1) h))

theorem Keeps.Ramp_next {r} (h : Keeps s₀ s) : Keeps s₀ (Ramp.next r s).2 := .ite_snd h h.freeBelow

theorem Keeps.acuShow (h : Keeps s₀ s) : Keeps s₀ s.acuShow := h.setReg.setReg.setReg

theorem Keeps.ancCause {on off} (h : Keeps s₀ s) : Keeps s₀ (s.ancCause on off) :=
  .acuShow (.ite (.ite h.setReg.same (.ite h.setReg h.setReg.same)) (.ite h.setReg.same h.setReg))

theorem Keeps.acuClock (h : Keeps s₀ s) : Keeps s₀ s.acuClock := .ite h.ancCause h.ancCause

theorem Keeps.setAcuPort {n x} (h : Keeps s₀ s) : Keeps s₀ (s.setAcuPort n x) := h.same

theorem Keeps.setCapture {c x} (h : Keeps s₀ s) : Keeps s₀ (s.setCapture c x) := h.same

theorem Keeps.capLose {c k} (h : Keeps s₀ s) : Keeps s₀ (s.capLose c k) := by
  unfold State.capLose
  split
  · exact h.scramble
  · exact h

theorem Keeps.capAbandon {c} (h : Keeps s₀ s) : Keeps s₀ (s.capAbandon c) := by
  unfold State.capAbandon
  extract_lets
  split
  · exact h.setCapture.capLose
  · exact h

theorem Keeps.acuNotInService (h : Keeps s₀ s) : Keeps s₀ s.acuNotInService :=
  .setReg (.same (.fold (fun _ _ h1 => .fold (fun _ _ h2 => h2.capLose) (by split; exact h1.capLose; exact h1)) h.ancCause))

theorem Keeps.plogWrite {e} (h : Keeps s₀ s) : Keeps s₀ (s.plogWrite e) := .setReg h.writeFram

theorem Keeps.plog {e} (h : Keeps s₀ s) : Keeps s₀ (s.plog e) := .ite h.same h.plogWrite

theorem Keeps.plogFlush (h : Keeps s₀ s) : Keeps s₀ s.plogFlush := .ite h (.fold (fun _ _ h1 => h1.plogWrite) h.same)

theorem Keeps.stopEngines (h : Keeps s₀ s) : Keeps s₀ s.stopEngines := .same (.fold (fun _ _ h1 => h1.setReg) h.stopVision)

theorem Keeps.stopGroups (h : Keeps s₀ s) : Keeps s₀ s.stopGroups := .setReg (.same (.fold (fun _ _ h1 => h1.incReg) h))

theorem Keeps.supersede {mech addr attempts} (h : Keeps s₀ s) : Keeps s₀ (s.supersede mech addr attempts) := h.q2.plog.incReg

theorem Keeps.supersedeReissue (h : Keeps s₀ s) : Keeps s₀ s.supersedeReissue := .fold (fun _ _ h1 => h1.supersede) h.same

theorem Keeps.enterSafe {src inst} (h : Keeps s₀ s) : Keeps s₀ (s.enterSafe src inst) := by
  unfold State.enterSafe
  extract_lets s1 _ s2 s3 s4 s5 s6 s7
  have h1 : Keeps s₀ s1 := .fold (fun _ _ h1 => h1.setReg.setReg.setReg) h
  have h2 : Keeps s₀ s2 := h1.same
  have h3 : Keeps s₀ s3 := h2.setReg
  have h4 : Keeps s₀ s4 := h3.setSvc.incReg
  have h5 : Keeps s₀ s5 := h4.setReg.setReg
  have h6 : Keeps s₀ s6 := h5.setReg
  have h7 : Keeps s₀ s7 := h6.sendCommitted.closeAll
  exact h7.supersedeReissue.stopEngines.stopGroups.acuNotInService

theorem Keeps.writeBootRec {r} (h : Keeps s₀ s) : Keeps s₀ (s.writeBootRec r) := by
  unfold State.writeBootRec
  extract_lets
  split
  · split
    · exact h.same
    · exact h.same
  · exact h.same
  · exact h.same
  · exact h.same

theorem Keeps.startRecord {outcome code section_} (h : Keeps s₀ s) : Keeps s₀ (s.startRecord outcome code section_) := h.same

theorem Keeps.enterConfigFault (h : Keeps s₀ s) : Keeps s₀ s.enterConfigFault :=
  .setSvc (.same (.fold (fun _ _ h1 => .ite h1.powerOn h1.powerOff) h))

theorem Keeps.unseal (h : Keeps s₀ s) : Keeps s₀ s.unseal := by
  unfold State.unseal
  extract_lets
  split
  · exact h.same
  · exact h

theorem Keeps.attemptFail {code section_} (h : Keeps s₀ s) : Keeps s₀ (s.attemptFail code section_) := by
  unfold State.attemptFail
  extract_lets _ _ s1 s2 s3 _ s4 s5 s6 s7 _ _ _ s8 s9 _ _ s10 s11
  have h1 : Keeps s₀ s1 := h.unseal.supersedeReissue.stopEngines.stopGroups
  have h2 : Keeps s₀ s2 := h1.setReg.setReg.setReg.setReg
  have h3 : Keeps s₀ s3 := h2.setReg
  have h4 : Keeps s₀ s4 := h3.same
  have h5 : Keeps s₀ s5 := h4.startRecord
  have h6 : Keeps s₀ s6 := h5.plog
  have h7 : Keeps s₀ s7 := h4.setReg
  have h8 : Keeps s₀ s8 := h7.setReg
  have h9 : Keeps s₀ s9 := h8.setReg.setReg
  have h10 : Keeps s₀ s10 := h7.startRecord.writeBootRec
  have h11 : Keeps s₀ s11 := h10.plog
  split
  · exact h
  · split
    · exact h6.writeBootRec
    · split
      · exact h9.startRecord.writeBootRec
      · split
        · exact h11.enterConfigFault
        · exact h7.startRecord.writeBootRec

theorem Keeps.react {src inst react} (h : Keeps s₀ s) : Keeps s₀ (s.react src inst react) := by
  unfold State.react
  extract_lets s1 _ _ s2 s3
  have h1 : Keeps s₀ s1 := h.setReg.setReg.setReg
  have h2 : Keeps s₀ s2 := .ite h1.same.setReg h1
  have h3 : Keeps s₀ s3 := h2.unseal.stopEngines.stopGroups
  split
  · exact h
  · split
    · exact h2.enterSafe
    · split
      · split
        · exact h3.same
        · split
          · exact h2
          · split
            · exact h2.same.attemptFail
            · exact h2
      · exact h2

theorem Keeps.raise {src inst detail} (h : Keeps s₀ s) : Keeps s₀ (s.raise src inst detail) :=
  .ite h.incReg (.ite h.incReg.same.react.same h.incReg.same.react)

theorem Keeps.excursion {m i found src inst detail} (h : Keeps s₀ s) : Keeps s₀ (s.excursion m i found src inst detail) :=
  .ite (.ite h h.same.raise) h.same

theorem Keeps.countCe {a} (h : Keeps s₀ s) : Keeps s₀ (s.countCe a) := by
  unfold State.countCe
  split
  · exact h.incReg
  · extract_lets s1 _ _ _ _ s2
    have h1 : Keeps s₀ s1 := .ite h.incReg h.incReg
    have h2 : Keeps s₀ s2 := h1.same
    split
    · exact h2.raise
    · exact h2

theorem Keeps.foundBad {w} (h : Keeps s₀ s) : Keeps s₀ (s.foundBad w) := by
  unfold State.foundBad
  extract_lets s1
  have h1 : Keeps s₀ s1 := h.putHealth h
  split
  · exact h1.incReg.setReg.raise
  · extract_lets s2 s3
    have h2 : Keeps s₀ s2 := h1.incReg.setReg
    have h3 : Keeps s₀ s3 := .ite h2.ancCause h2
    split
    · exact h1.incReg.setReg.raise
    · split
      · exact h3.raise
      · exact h3.raise

theorem Keeps.readWords {l} (h : Keeps s₀ s) : Keeps s₀ (s.readWords l).2 := by
  induction l generalizing s with
  | nil => exact h
  | cons x l ih =>
    obtain ⟨w, x⟩ := x
    cases x with
    | good => exact ih h
    | correctable => exact ih (h.putHealth h.countCe)
    | uncorrectable => exact h.foundBad
    | poisoned => exact h.foundBad

theorem Keeps.readMem {a n} (h : Keeps s₀ s) : Keeps s₀ (s.readMem a n).2 := h.readWords

theorem Keeps.writeWords {a n l} (h : Keeps s₀ s) : Keeps s₀ (s.writeWords a n l).2 := by
  induction l generalizing s with
  | nil => exact h
  | cons x l ih => exact .ite_snd (ih (h.putHealth h)) (.ite_snd h.foundBad (.ite_snd (ih (h.putHealth h.countCe)) (ih h)))

theorem Keeps.writeMem {a bs} (h : Keeps s₀ s) : Keeps s₀ (s.writeMem a bs).2 := by
  unfold State.writeMem
  extract_lets
  split
  · have h1 := Keeps.of_eq ‹_› h.writeWords
    exact h1.setBytes.same
  · have h1 := Keeps.of_eq ‹_› h.writeWords
    exact h1.setBytes.same

theorem Keeps.forget (h : Keeps s₀ s) : Keeps s₀ s.forget := by
  unfold State.forget
  split
  · extract_lets s1
    have h1 : Keeps s₀ s1 := .fold (fun _ _ h1 => h1.scramble) h
    exact h1.same
  · exact h

theorem Keeps.grantBytes {i n} (h : Keeps s₀ s) : Keeps s₀ (s.grantBytes i n) := h.same

theorem Keeps.countRd {p a n} (h : Keeps s₀ s) : Keeps s₀ (s.countRd p a n) := .ite h.incReg.grantBytes h

theorem Keeps.countWr {p a n} (h : Keeps s₀ s) : Keeps s₀ (s.countWr p a n) := .ite h.incReg.grantBytes h

theorem Eff.Keeps.pure {α : Type} {a : α} : (Eff.pure a).Keeps := fun _ _ h => h

theorem Eff.Keeps.bind {α β : Type} {m : Eff α} {f : α → Eff β} (hm : m.Keeps) (hf : ∀ a, (f a).Keeps) : (m.bind f).Keeps :=
  fun _ s h => by
  have hs := hm h
  simp only [Eff.bind]
  split
  · next e => exact hf _ (.of_eq e hs)
  · next e => exact .of_eq e hs

theorem Eff.Keeps.fail {α : Type} {status detail} : (Eff.fail status detail : Eff α).Keeps := fun _ _ h => h

theorem Eff.Keeps.when {α : Type} {n} {m : Eff α} (hm : m.Keeps) : (Eff.when n m).Keeps := fun _ s h => by
  have hs := hm h
  simp only [Eff.when]
  split
  · next e => exact .of_eq e hs
  · exact hs

theorem Eff.Keeps.get : Eff.Keeps Eff.get := fun s₀ s h => by
  unfold Eff.get
  exact h

theorem Eff.Keeps.modify {f} (hf : ∀ {s₀} x, Machine.Keeps s₀ x → Machine.Keeps s₀ (f x)) : Eff.Keeps (Eff.modify f) :=
  fun _ _ h => hf _ h

theorem Eff.Keeps.each {α : Type} {f : α → Eff Unit} {l : List α} (hf : ∀ a, (f a).Keeps) : (Eff.each f l).Keeps := by
  induction l with
  | nil => exact .pure
  | cons a l ih => exact .bind (hf a) fun _ => ih

theorem Eff.Keeps.map {α β : Type} {f : α → Eff β} {l : List α} (hf : ∀ a, (f a).Keeps) : (Eff.map f l).Keeps := by
  induction l with
  | nil => exact .pure
  | cons a l ih => exact .bind (hf a) fun _ => .bind ih fun _ => .pure

theorem Eff.Keeps.read {p a n} : Eff.Keeps (Eff.read p a n) := fun s₀ s h => by
  unfold Eff.read
  split
  · have h1 := Keeps.of_eq ‹_› h.countRd.readMem
    exact h1
  · have h1 := Keeps.of_eq ‹_› h.countRd.readMem
    exact h1

theorem Eff.Keeps.reread {a n} : Eff.Keeps (Eff.reread a n) := fun s₀ s h => by
  unfold Eff.reread
  split
  · have h1 := Keeps.of_eq ‹_› h.readMem
    exact h1
  · have h1 := Keeps.of_eq ‹_› h.readMem
    exact h1

theorem Eff.Keeps.load {p a n} : Eff.Keeps (Eff.load p a n) := .bind .read (fun _ => .pure)

theorem Eff.Keeps.write {p a bs} : Eff.Keeps (Eff.write p a bs) := fun s₀ s h => by
  unfold Eff.write
  split
  · have h1 := Keeps.of_eq ‹_› h.countWr.writeMem
    exact h1
  · have h1 := Keeps.of_eq ‹_› h.countWr.writeMem
    exact h1

theorem Eff.Keeps.inBounds {p a n write} : Eff.Keeps (Eff.inBounds p a n write) := fun s₀ s h => by
  unfold Eff.inBounds
  split
  · exact h
  · exact h

theorem Keeps.boundary {t} (h : Keeps s₀ s) : Keeps s₀ (s.boundary t) := h.setThread

theorem Keeps.satisfy {e l} (h : Keeps s₀ s) : Keeps s₀ (s.satisfy e l) := by
  induction l generalizing s with
  | nil => exact h
  | cons c l ih => exact .ite (ih (.boundary (.setCmd (.ite h.setEvent h)))) (ih h)

theorem Keeps.addEvent {e n} (h : Keeps s₀ s) : Keeps s₀ (s.addEvent e n) := by
  unfold State.addEvent
  extract_lets _ s1 _ s2 s3 s4 s5
  have h1 : Keeps s₀ s1 := h.setEvent
  have h2 : Keeps s₀ s2 := .ite h1.setReg h1.setBit
  have h3 : Keeps s₀ s3 := h2.setReg
  have h4 : Keeps s₀ s4 := .ite h2 (.ite h3.setReg.setReg h3.setReg.setReg)
  have h5 : Keeps s₀ s5 := .ite h.setEvent h4.raise
  split
  · exact h
  · exact h5.satisfy

theorem Keeps.answerJob {q n status} (h : Keeps s₀ s) : Keeps s₀ (s.answerJob q n status) := by
  unfold State.answerJob
  split
  · exact h
  · split
    · exact h.closeEntry
    · exact h.closeEntry

theorem Keeps.jobEnd {p status} (h : Keeps s₀ s) : Keeps s₀ (s.jobEnd p status) := by
  unfold State.jobEnd
  split
  · exact h
  · extract_lets s1 s2
    have h1 : Keeps s₀ s1 := .ite h h.answerJob.incReg
    have h2 : Keeps s₀ s2 := h1.setReg.setReg.setReg.setReg
    exact h2.same

theorem Keeps.jobGrant {c} (h : Keeps s₀ s) : Keeps s₀ (s.jobGrant c) := h.same.setReg.setReg.setReg.setReg

theorem Keeps.enterExec {c} (h : Keeps s₀ s) : Keeps s₀ (s.enterExec c) :=
  .same (.ite h.setCmd.boundary.setThread h.setCmd.boundary)

theorem Keeps.releaseFences (h : Keeps s₀ s) : Keeps s₀ s.releaseFences := .fold (fun _ _ h1 => .ite h1.enterExec h1) h

theorem Keeps.cutFrames {t l} (h : Keeps s₀ s) : Keeps s₀ (s.cutFrames t l) := by
  induction l generalizing s with
  | nil => exact h
  | cons f l ih =>
    refine .ite (.ite h.setThread ?_) h
    split
    · exact h
    · exact ih h.same

theorem Keeps.returnList {t} (h : Keeps s₀ s) : Keeps s₀ (s.returnList t) := by
  unfold State.returnList
  extract_lets s1
  have h1 : Keeps s₀ s1 := .ite h.cutFrames h
  split
  · split
    · split
      · exact h1.setCmd.setThread
      · exact h1.setThread
    · exact h1
  · exact h1

theorem Keeps.returnLists (h : Keeps s₀ s) : Keeps s₀ s.returnLists := .fold (fun _ _ h1 => h1.returnList) h

theorem Keeps.idleCheck {q} (h : Keeps s₀ s) : Keeps s₀ (s.idleCheck q) := .ite h.setQState h

theorem Keeps.retire {c} (h : Keeps s₀ s) : Keeps s₀ (s.retire c) := by
  unfold State.retire
  extract_lets s1 s2 s3
  have h2 : Keeps s₀ s2 := .ite h.dropCmd.addEvent h.dropCmd
  have h3 : Keeps s₀ s3 := by
    unfold s3
    split
    · exact .ite h2.jobEnd h2
    · exact h2
  exact h3.idleCheck.releaseFences.returnLists

theorem Keeps.commitRec {r} (h : Keeps s₀ s) : Keeps s₀ (s.commitRec r) := by
  unfold State.commitRec
  extract_lets s1 s2
  have h1 : Keeps s₀ s1 := h.same
  have h2 : Keeps s₀ s2 := .ite h1 h1.countWr.produce
  split
  · split
    · exact h2.retire
    · exact h2.setCmd
  · exact h2

theorem Keeps.drain {n} (h : Keeps s₀ s) : Keeps s₀ (s.drain n) := by
  induction n generalizing s with
  | zero => exact h
  | succ n ih =>
    unfold State.drain
    split
    · exact ih h.commitRec
    · exact .fold (fun _ _ h => .incReg h.same) h

theorem Keeps.drainAll (h : Keeps s₀ s) : Keeps s₀ s.drainAll := h.drain

theorem Keeps.post {r} (h : Keeps s₀ s) : Keeps s₀ (s.post r) := h.same.drainAll

theorem Keeps.setFetch {q x} (h : Keeps s₀ s) : Keeps s₀ (s.setFetch q x) := h.setQueueX.setReg

theorem Keeps.stopQueue {c status slot} (h : Keeps s₀ s) : Keeps s₀ (s.stopQueue c status slot).2 := by
  unfold State.stopQueue
  extract_lets _ s1 _ _ s2 _ s3 _ s4
  have h1 : Keeps s₀ s1 := by
    unfold s1
    split
    · exact .ite h.jobEnd h
    · exact h
  have h2 : Keeps s₀ s2 := h1.same
  have h3 : Keeps s₀ s3 := .ite h2 h2.setThread
  have h4 : Keeps s₀ s4 := .ite h3 h3.setQState
  split
  · exact h3
  · split
    · extract_lets _ s5 s6
      have h5 : Keeps s₀ s5 := h4.setFetch
      have h6 : Keeps s₀ s6 := h5.setReg.setReg.setReg
      exact h6.setReg
    · exact h3

theorem Keeps.raiseQueueStop {q} (h : Keeps s₀ s) : Keeps s₀ (s.raiseQueueStop q) := .ite h.attemptFail h.raise

theorem Keeps.progressWord {c final} (h : Keeps s₀ s) : Keeps s₀ (s.progressWord c final) := h.countWr.writeMem

theorem Keeps.releaseThread {c} (h : Keeps s₀ s) : Keeps s₀ (s.releaseThread c) := .ite h.setThread h

theorem Keeps.complete {c slot} (h : Keeps s₀ s) : Keeps s₀ (s.complete c slot) := by
  unfold State.complete
  extract_lets s1 _ _ r2 s3 s4 s5 s6
  have h1 : Keeps s₀ s1 := h.releaseThread
  have h2 : Keeps s₀ r2.2 := .ite_snd h1.stopQueue h1
  have h3 : Keeps s₀ s3 := h2
  have h4 : Keeps s₀ s4 := .ite h3.progressWord (.ite h3.progressWord h3)
  have h5 : Keeps s₀ s5 := h4.setCmd
  have h6 : Keeps s₀ s6 := .ite h5.post h4.retire.drainAll
  split
  · exact h6.raiseQueueStop
  · exact h6

theorem Keeps.beginWork {c} (h : Keeps s₀ s) : Keeps s₀ (s.beginWork c) := h.same

theorem Keeps.finish {id d units} (h : Keeps s₀ s) : Keeps s₀ (s.finish id d units) := by
  unfold State.finish
  extract_lets s1
  have h1 : Keeps s₀ s1 := h.forget
  split
  · exact h1.setCmd
  · exact h1

theorem Keeps.abortTaken {c} (h : Keeps s₀ s) : Keeps s₀ (s.abortTaken c) :=
  .returnLists (.same (.fold (fun _ _ h1 => h1.releaseThread) h))

theorem Keeps.arbiter {q n} (h : Keeps s₀ s) : Keeps s₀ (s.arbiter q n).2 := by
  unfold State.arbiter
  extract_lets x mark r1
  have h1 : Keeps s₀ r1.2 := by
    unfold r1
    split
    · rename_i c _
      have hc : Keeps s₀ (s.abortTaken c) := h.abortTaken
      split
      · exact h
      · dsimp only; exact hc
    · repeat' apply Keeps.ite_snd
      all_goals first | exact h | exact h.setQueueX
  exact .ite_snd h1.answerJob h1

theorem Keeps.watchDeadlock (h : Keeps s₀ s) : Keeps s₀ s.watchDeadlock := .ite h h.same

theorem Keeps.plogSnapshot (h : Keeps s₀ s) : Keeps s₀ s.plogSnapshot := .fold (fun _ _ h1 => h1.setRegWords) h

theorem Keeps.readReg {a} (h : Keeps s₀ s) : Keeps s₀ (s.readReg a).2 :=
  .ite_snd h.plogSnapshot (.ite_snd h.setReg (by split; exact h; exact h.same; exact (by split; exact h; exact h)))

theorem Keeps.readRegs {a n} (h : Keeps s₀ s) : Keeps s₀ (s.readRegs a n).2 := by
  induction n generalizing s a with
  | zero => exact h
  | succ n ih => exact ih h.readReg

theorem Keeps.writeReg {a v m} (h : Keeps s₀ s) : Keeps s₀ (s.writeReg a v m) := .ite h (.ite h h.setRegWord)

theorem Keeps.runSeq {id op f} (h : Keeps s₀ s) (hf : ∀ x0 x1, Keeps s₀ x1 → Keeps s₀ (f x0 x1).2) : Keeps s₀ (s.runSeq id op f)
    := by
  unfold State.runSeq
  split
  · extract_lets r2
    have h2 : Keeps s₀ r2.2 := hf _ _ h.beginWork
    exact h2.finish
  · exact h

theorem Keeps.seqWrite {c a bs} (h : Keeps s₀ s) : Keeps s₀ (s.seqWrite c a bs).2 := by
  unfold State.seqWrite
  split
  · have h1 := Keeps.of_eq ‹_› (Eff.Keeps.write h)
    exact h1
  · have h1 := Keeps.of_eq ‹_› (Eff.Keeps.write h)
    exact h1

theorem Keeps.jumpTo {t n} (h : Keeps s₀ s) : Keeps s₀ (s.jumpTo t n) := by
  unfold State.jumpTo
  extract_lets
  split
  · exact h.setThread
  · exact h

theorem Keeps.queueCtl {id action f} (h : Keeps s₀ s) (hf : ∀ x0 x1 x2, Keeps s₀ x2 → Keeps s₀ (f x0 x1 x2).2) : Keeps s₀
    (s.queueCtl id action f) := by
  unfold State.queueCtl
  split
  · extract_lets r2
    have h2 : Keeps s₀ r2.2 := hf _ _ _ h
    split
    · exact h2.finish
    · exact h
  · exact h

theorem Keeps.stopTarget {q} (h : Keeps s₀ s) : Keeps s₀ (s.stopTarget q) := .ite h.setQState.same h

theorem Keeps.started {q} (h : Keeps s₀ s) : Keeps s₀ (s.started q) := h.same.setQueueX.setQState

theorem Keeps.startTarget {q} (h : Keeps s₀ s) : Keeps s₀ (s.startTarget q) := .ite h.started h

theorem Keeps.skipTarget {q} (h : Keeps s₀ s) : Keeps s₀ (s.skipTarget q) := .ite h.setFetch.started h

theorem Keeps.lose {i e} (h : Keeps s₀ s) : Keeps s₀ (s.lose i e) := h.closeEntry.incReg

theorem Keeps.loseEntries {p} (h : Keeps s₀ s) : Keeps s₀ (s.loseEntries p) :=
  .fold (fun _ _ h1 => .fold (fun _ _ h2 => .ite h2.lose h2) h1) h

theorem Keeps.postFlushed {q status k seqno n} (h : Keeps s₀ s) : Keeps s₀ (s.postFlushed q status k seqno n) := .ite h h.post

theorem Keeps.discardCommands {q} (h : Keeps s₀ s) : Keeps s₀ (s.discardCommands q) := by
  unfold State.discardCommands
  extract_lets _ _ _ _ _ kept _ _ s1 s2 s3 s4 s5
  have h1 : Keeps s₀ s1 := h.setReg
  have h2 : Keeps s₀ s2 := h1.setFetch
  have h3 : Keeps s₀ s3 := .fold (fun _ _ h3 => .ite h3.postFlushed h3.postFlushed) h2
  have h4 : Keeps s₀ s4 := by
    unfold s4
    clear_value kept
    split
    · exact h3
    · exact h3.postFlushed
  have h5 : Keeps s₀ s5 := .fold (fun _ _ h5 => h5.postFlushed) h4
  exact h5.loseEntries

theorem Keeps.flush {q discard} (h : Keeps s₀ s) : Keeps s₀ (s.flush q discard) :=
  .ite (.setQState (.ite (.ite h.setReg.incReg.discardCommands h.setReg.incReg.loseEntries.setReg) h.setReg)) (.ite (.ite
      h.setReg.incReg.discardCommands h.setReg.incReg.loseEntries.setReg) h.setReg)

theorem Keeps.suspend {c} (h : Keeps s₀ s) : Keeps s₀ (s.suspend c) := h.dropCmd.setFetch

theorem Keeps.runEngine {id op f} (h : Keeps s₀ s) (hf : ∀ x0, Eff.Keeps (f x0)) : Keeps s₀ (s.runEngine id op f) := by
  unfold State.runEngine
  split
  · split
    · have h2 := Keeps.of_eq ‹_› ((hf _) h.beginWork)
      exact h2.finish
    · have h2 := Keeps.of_eq ‹_› ((hf _) h.beginWork)
      exact h2.finish
  · exact h

theorem Keeps.resume {c total} (h : Keeps s₀ s) : Keeps s₀ (s.resume c total).2 := by
  unfold State.resume
  split
  · exact h
  · split
    · exact h
    · split
      · have h1 := Keeps.of_eq ‹_› (Eff.Keeps.load h)
        exact h1
      · have h1 := Keeps.of_eq ‹_› (Eff.Keeps.load h)
        extract_lets
        split
        · exact h1
        · split
          · exact h1
          · split
            · exact h1
            · exact h1

theorem Keeps.runLong {id op total step seg} (h : Keeps s₀ s) (hseg : ∀ x0 x1 x2 x3, Keeps s₀ x3 → Keeps s₀ (seg x0 x1 x2
    x3).2.2) : Keeps s₀ (s.runLong id op total step seg) := by
  unfold State.runLong
  split
  · exact h
  · split
    · have h2 := Keeps.of_eq ‹_› h.resume
      exact h2.finish
    · have h2 := Keeps.of_eq ‹_› h.resume
      extract_lets
      exact .ite (hseg _ _ _ _ h2.beginWork).finish (hseg _ _ _ _ h2.beginWork).setCmd

theorem Eff.Keeps.checked {α : Type} {bad : Option (Eff Unit)} {m : Eff α} {k : α → Eff Unit} (hbad : ∀ f, bad = some f → f.Keeps)
    (hm : m.Keeps) (hk : ∀ a, (k a).Keeps) : (Eff.checked bad m k).Keeps := fun _ s h => by
  have hs := hm h
  unfold Eff.checked
  split
  · next e => exact hbad _ rfl (.of_eq e hs)
  · next e => exact hk _ (.of_eq e hs)
  · next e => exact .of_eq e hs

theorem Keeps.looseRows {f : Nat → Eff Unit} {r n} (hf : ∀ r, (f r).Keeps) (h : Keeps s₀ s) : Keeps s₀ (looseRows f r n s) := by
  induction n generalizing s r with
  | zero => exact h
  | succ n ih => exact ih (.ite (hf r h.freeBelow) h.freeBelow)

theorem Keeps.runRows {f : Option (Eff Unit) → Nat → Eff Unit} {bad : Nat → Option (Eff Unit)} {total r n}
    (hf : ∀ x r, (∀ m, x = some m → m.Keeps) → (f x r).Keeps) (hbad : ∀ r m, bad r = some m → m.Keeps) (h : Keeps s₀ s) :
    Keeps s₀ (runRows f bad total r n s).2.2 := by
  induction n generalizing s r with
  | zero => exact h
  | succ n ih =>
    have hr := hf (bad r) r (hbad r) h
    unfold Machine.runRows
    split
    · next e => exact ih (.of_eq e hr)
    · next e => exact .looseRows (fun r => hf none r fun _ h => nomatch h) (.of_eq e hr)

theorem Eff.Keeps.staging {base size} : Eff.Keeps (Eff.staging base size) := fun s₀ s h => by
  unfold Eff.staging
  split
  · exact h
  · dsimp only
    split
    · exact h.freeBelow.foundBad
    · exact h.freeBelow

theorem Keeps.setSyncPort {port x} (h : Keeps s₀ s) : Keeps s₀ (s.setSyncPort port x) := .ite h.same h.same

theorem Keeps.servo (h : Keeps s₀ s) : Keeps s₀ s.servo := h.freeWithin.freeWithin.setReg.same

theorem Keeps.setOrbit {v} (h : Keeps s₀ s) : Keeps s₀ (s.setOrbit v) := h.setReg.same

theorem Keeps.measure {m} (h : Keeps s₀ s) : Keeps s₀ (s.measure m).2 := by
  unfold State.measure
  split
  rename_i st s1 e
  have h1 : Keeps s₀ s1 := .of_eq e h.stamp
  exact .ite_snd h1.setReg.same.setReg.setReg h1.setReg.setReg

theorem Keeps.sync {m} (h : Keeps s₀ s) : Keeps s₀ (s.sync m) := by
  unfold State.sync
  extract_lets s1 _ s2
  have h1 : Keeps s₀ s1 := h.setSyncPort
  have h2 : Keeps s₀ s2 := h1.setReg
  split
  · exact h
  · split
    · split
      · exact h1
      · exact .servo (.ite h1.measure.same.setOrbit (.ite h1.measure.same.setOrbit h1.measure.same))
    · exact h2.measure.setOrbit.servo

theorem Keeps.setGroup {g x} (h : Keeps s₀ s) : Keeps s₀ (s.setGroup g x) := h.same

theorem Keeps.armGroups (h : Keeps s₀ s) : Keeps s₀ s.armGroups :=
  .same (.setReg (.fold (fun _ _ h1 => .ite h1.setGroup h1) h))

theorem Keeps.fgReady {g t early} (h : Keeps s₀ s) : Keeps s₀ (s.fgReady g t early) := h.setGroup

theorem Keeps.fgCheck {g t} (h : Keeps s₀ s) : Keeps s₀ (s.fgCheck g t) := by
  unfold State.fgCheck
  split
  · split
    · exact h.fgReady
    · exact h
  · exact h

theorem Keeps.fgItem {g m i} (h : Keeps s₀ s) : Keeps s₀ (s.fgItem g m i) := by
  unfold State.fgItem
  extract_lets
  split
  · exact h.incReg
  · split
    · exact h.incReg
    · split
      · exact h.setGroup
      · split
        · extract_lets _ s1
          have h1 : Keeps s₀ s1 := h.setGroup
          split
          · exact h.incReg
          · exact .fgCheck (.ite h1.incReg h1)
        · exact h.incReg

theorem Keeps.fgComplete {kind source stamp addr pseq} (h : Keeps s₀ s) : Keeps s₀ (s.fgComplete kind source stamp addr pseq) :=
  .fold (fun _ _ h1 => .ite (.fold (fun _ _ h2 => .ite h2.fgItem h2) h1) h1) h

theorem Keeps.fgAbsences {g f} (h : Keeps s₀ s) : Keeps s₀ (s.fgAbsences g f) :=
  .fold (fun _ _ h1 => .ite h1.setGroup (.ite h1.setGroup.raise h1.setGroup)) h

theorem Keeps.pushRefs {b inputs n} (h : Keeps s₀ s) : Keeps s₀ (s.pushRefs b inputs n) :=
  .fold (fun _ _ h1 => .fold (fun _ _ h2 => .fold (fun _ _ h3 => h3.store) h2) h1) (.fold (fun _ _ h1 => h1.store) h)

theorem Keeps.adapt {b inputs n} (h : Keeps s₀ s) : Keeps s₀ (s.adapt b inputs n) :=
  .fold (fun _ _ h1 => .fold (fun _ _ h2 => .fold (fun _ _ h3 => h3.store) h2) h1) h

theorem Keeps.soundFault {counter} (h : Keeps s₀ s) : Keeps s₀ (s.soundFault counter) := h.ancCause.incReg.raise

theorem Keeps.readback {n differs} (h : Keeps s₀ s) : Keeps s₀ (s.readback n differs) :=
  .ite (.raise (.incReg (.ite h.setAcuPort.ancCause h.setAcuPort))) h.setAcuPort

theorem Keeps.govTrip {o mid} (h : Keeps s₀ s) : Keeps s₀ (s.govTrip o mid) := .raise (.incReg (.ite h.same.ancCause h.same))

theorem Keeps.govern {o v} (h : Keeps s₀ s) : Keeps s₀ (s.govern o v).2 :=
  .ite (.govTrip (.same (.setReg (.ite h.incReg h)))) (.same (.setReg (.ite h.incReg h)))

theorem Keeps.playDone {n} (h : Keeps s₀ s) : Keeps s₀ (s.playDone n) := h.same

theorem Keeps.sendOut {n o v} (h : Keeps s₀ s) : Keeps s₀ (s.sendOut n o v) :=
  .ite h.emit (.ite h.emit.tmuxPulse (.ite h.freeWithin.emit.tmuxPulse h))

theorem Keeps.sendFrame {n f} (h : Keeps s₀ s) : Keeps s₀ (s.sendFrame n f) :=
  .playDone (.fold (fun _ _ h1 => h1.govern.sendOut) h)

theorem Keeps.muteLevels {a b} (h : Keeps s₀ s) : Keeps s₀ (s.muteLevels a b) := by
  unfold State.muteLevels
  extract_lets _ _ _ s1 _ s2 s3 _ s4
  have h1 : Keeps s₀ s1 := h.setReg.setReg
  have h2 : Keeps s₀ s2 := .ite h1.same.setReg (.ite h1 h1.same.setReg)
  have h3 : Keeps s₀ s3 := h2.setReg.incReg
  have h4 : Keeps s₀ s4 := h2.setReg
  split
  · exact h3.same.ancCause
  · split
    · exact h4.same.ancCause
    · exact h2

theorem Keeps.samplePads {padA padB} (h : Keeps s₀ s) : Keeps s₀ (s.samplePads padA padB) := h.same.muteLevels

theorem Keeps.hopStart {e} (h : Keeps s₀ s) : Keeps s₀ (s.hopStart e) := by
  unfold State.hopStart
  extract_lets c x nb buf
  clear_value buf
  split
  rename_i t s1 e1
  have h1 : Keeps s₀ s1 := .of_eq e1 h.stamp
  cases buf with
  | some b => exact h1.setCapture
  | none => exact h1.setCapture.incReg

theorem Keeps.freeRows {n ch} (h : Keeps s₀ s) : Keeps s₀ (s.freeRows n ch).2 := h.same

theorem Keeps.captureFrame {n f e} (h : Keeps s₀ s) : Keeps s₀ (s.captureFrame n f e) := by
  unfold State.captureFrame
  extract_lets _ s1
  have h1 : Keeps s₀ s1 := .ite h.hopStart h
  split
  · exact h1
  · extract_lets _ r2
    have h2 : Keeps s₀ r2.2 := .ite_snd h1 h1.freeRows
    split
    · exact h1.setCapture
    · exact h2.setCapture

theorem Keeps.hopStaging {rows} (h : Keeps s₀ s) : Keeps s₀ (s.hopStaging rows).2.2 := by
  unfold State.hopStaging
  split
  · have h1 := Keeps.of_eq ‹_› (Eff.Keeps.staging h)
    exact h1
  · have h1 := Keeps.of_eq ‹_› (Eff.Keeps.staging h)
    exact h1.freeBelow

theorem Keeps.acuRamps (h : Keeps s₀ s) : Keeps s₀ s.acuRamps := by
  unfold State.acuRamps
  split
  rename_i s1 e1
  have h1 : Keeps s₀ s1 := .of_eq e1 h.Ramp_next
  split
  rename_i s2 e2
  have h2 : Keeps s₀ s2 := .of_eq e2 h1.Ramp_next
  split
  rename_i s3 e3
  have h3 : Keeps s₀ s3 := .of_eq e3 h2.Ramp_next
  refine .acuShow (.fold (fun u n hu => ?_) h3.same)
  dsimp only
  exact .ite hu.Ramp_next.setAcuPort.setReg hu.Ramp_next.setAcuPort

theorem Keeps.computeFrame {n given residue} (h : Keeps s₀ s) : Keeps s₀ (s.computeFrame n given residue) := by
  unfold State.computeFrame
  extract_lets s1 _ _ _ s2 s3 _ _ s4 s5 _ _ s6
  have h1 : Keeps s₀ s1 := h.acuRamps
  have h2 : Keeps s₀ s2 := .ite h1 (.fold (fun _ _ h2 => h2.readMem) h1)
  have h3 : Keeps s₀ s3 := .ite h2 h2.pushRefs
  have h4 : Keeps s₀ s4 := .ite h3.adapt h3
  have h5 : Keeps s₀ s5 := .ite h4.soundFault h4
  have h6 : Keeps s₀ s6 := h5.same
  split
  · exact .fold (fun _ _ h7 => h7.captureFrame) h6
  · exact h6

theorem Keeps.blockEnd {n} (h : Keeps s₀ s) : Keeps s₀ (s.blockEnd n) := .ite h.same h

theorem Keeps.judgeClamps {k} (h : Keeps s₀ s) : Keeps s₀ (s.judgeClamps k) :=
  .fold (fun _ _ h1 => .ite (.ite h1.govTrip h1) h1.same) h

theorem Keeps.judgeEnergy {k} (h : Keeps s₀ s) : Keeps s₀ (s.judgeEnergy k) :=
  .excursion (.ite (.incReg (.ite h.same.ancCause h.same)) (.ite h.same.ancCause h.same))

theorem Keeps.clockStart {n} (h : Keeps s₀ s) : Keeps s₀ (s.clockStart n) :=
  .ite (.fold (fun _ _ h1 => .ite h1.setReg h1) h.setReg) h

theorem Keeps.restoreW (h : Keeps s₀ s) : Keeps s₀ s.restoreW.2 :=
  .ite_snd h (by split; exact (Keeps.of_eq ‹_› h.readMem).same; exact (Keeps.of_eq ‹_› h.readMem).writeMem)

theorem Keeps.ancClear {causes restore} (h : Keeps s₀ s) : Keeps s₀ (s.ancClear causes restore) :=
  .ite (by split; exact (Keeps.of_eq ‹_› h.restoreW).ancCause; exact (Keeps.of_eq ‹_› h.restoreW).ancCause) h.ancCause

theorem Keeps.acuDone (h : Keeps s₀ s) : Keeps s₀ s.acuDone := .ite h.ancClear h

theorem Keeps.acuLoad (h : Keeps s₀ s) : Keeps s₀ s.acuLoad :=
  .acuClock (.fold (fun _ _ h1 => .ite h1 (.ite h1.setReg h1.setReg.setAcuPort))
      h.resetRegs.clearMem.setBytes.setBytes.setBytes.same.setReg.setReg)

theorem Keeps.acuBringup (h : Keeps s₀ s) : Keeps s₀ s.acuBringup :=
  .ite h (.acuShow (.setReg (.same (.clearMem (.resetRegs (.ite h.ancCause h.acuLoad))))))

theorem Keeps.playOut {p l} (h : Keeps s₀ s) : Keeps s₀ (s.playOut p l).2 := by
  unfold State.playOut
  extract_lets r1
  have h1 : Keeps s₀ r1.2 := h.freeRows
  split
  · split
    · exact h
    · exact h1
  · exact h

theorem Keeps.playPlace {p d l} (h : Keeps s₀ s) : Keeps s₀ (s.playPlace p d l) := by
  unfold State.playPlace
  exact .ite h.playOut.incReg (.ite (.ite h.playOut.incReg.incReg (.ite h.playOut.incReg.incReg h.playOut.incReg)) (.incReg
      (.same (.ite h.playOut.incReg.incReg (.ite h.playOut.incReg.incReg h.playOut.incReg)))))

theorem Eff.Keeps.acuResult {c w code} : Eff.Keeps (acuResult c w code) := .ite .pure .write

theorem Keeps.setCapHeld {c l} (h : Keeps s₀ s) : Keeps s₀ (s.setCapHeld c l) := h.setCapture.setReg

theorem Eff.Keeps.ancResult {c} : Eff.Keeps (ancResult c) := .bind .get (fun _ => .acuResult)

theorem Keeps.runAnc {id action f} (h : Keeps s₀ s) (hf : ∀ c {s₀} x, Keeps s₀ x → Keeps s₀ (f c x)) : Keeps s₀ (s.runAnc id
    action f) := by
  unfold State.runAnc
  split
  · exact .ite (h.runEngine fun c => .bind (.modify (hf c)) fun _ => .ancResult) h
  · exact h

theorem Eff.Keeps.tcFail {α : Type} {source cause core pass row at_} : (Eff.tcFail source cause core pass row at_ : Eff α).Keeps
    :=
  fun _ _ h => h.setReg.raise

theorem Keeps.runCores {f : Nat → Eff Unit} {l} (hf : ∀ n, (f n).Keeps) (h : Keeps s₀ s) : Keeps s₀ (s.runCores f l).2 := by
  induction l generalizing s with
  | nil => exact h
  | cons n l ih =>
    unfold State.runCores
    dsimp only
    split <;> exact ih (hf n h)

theorem Keeps.runTensor {id op f} (h : Keeps s₀ s) (hf : ∀ c core, Eff.Keeps (f c core)) : Keeps s₀ (s.runTensor id op f) := by
  unfold State.runTensor
  split
  · exact (h.beginWork.runCores (hf _)).finish
  · exact h

theorem Keeps.countRow {core v} (h : Keeps s₀ s) : Keeps s₀ (s.countRow core v) := by
  unfold State.countRow
  extract_lets s1 s2
  have h1 : Keeps s₀ s1 := h.incReg
  have h2 : Keeps s₀ s2 := .ite h1.incReg h1
  split
  · split
    · exact h2.setReg
    · exact h2
  · exact h2

theorem Eff.Keeps.MatJob_check {j pass m at_ v} : Eff.Keeps (MatJob.check j pass m at_ v) :=
  .bind (.modify (fun _ h0 => h0.countRow)) (fun _ => .ite .pure (.bind (.modify (fun _ h0 => .incReg (.ite h0.incReg h0))) (fun
    _ => .tcFail)))

theorem Eff.Keeps.MatJob_pass {j : MatJob} {t i bias qs} (hj : ∀ a b n, (j.readA a b n).Keeps) : Eff.Keeps (MatJob.pass j t i
    bias qs) := .bind (.when (.map (fun _ => .bind .read (fun _ => .pure)))) (fun _ => .each (fun _ => .bind (.when (hj _ _ _))
    (fun _ => .bind (.when (.ite (.bind .read (fun _ => .pure)) (.ite .pure (.ite .pure (.bind .read (fun _ => .pure)))))) (fun _
    => .bind .get (fun _ => .bind .MatJob_check (fun _ => .when (.ite .write .write)))))))

theorem Eff.Keeps.scramble {a n} : Eff.Keeps (Eff.scramble a n) := fun s₀ s h => by
  unfold Eff.scramble
  exact h.scramble

theorem Eff.Keeps.MatJob_loseAcc {j} : Eff.Keeps (MatJob.loseAcc j) := .ite .pure (.each (fun _ => .scramble))

theorem Eff.Keeps.MatJob_tileParams {j n0 nt} : Eff.Keeps (MatJob.tileParams j n0 nt) :=
  .bind (.ite (.bind .read (fun _ => .pure)) .pure) (fun _ => .bind (.ite (.bind .read (fun _ => .pure)) .pure) (fun _ => .ite
    .pure .fail))

theorem Eff.Keeps.MatJob_run {j : MatJob} (hj : ∀ a b n, (j.readA a b n).Keeps) : Eff.Keeps (MatJob.run j) :=
  .ite .pure (.bind (.each (fun _ => .bind (.when .MatJob_tileParams) (fun _ => .each (fun _ => .MatJob_pass hj)))) (fun _ =>
    .MatJob_loseAcc))

theorem Eff.Keeps.selftestCore {c faults core} : Eff.Keeps (selftestCore c faults core) := fun s₀ s h => by
  unfold Machine.selftestCore
  extract_lets _ _ _ _ _ _ clean injected s1
  have h1 : Machine.Keeps s₀ s1 := h.incReg
  clear_value clean injected s1
  split
  · exact h1
  · exact (Eff.Keeps.tcFail h1.incReg)
  · exact (Eff.Keeps.tcFail h1.incReg)

theorem Eff.Keeps.tableErr {α : Type} {kind owner entry} : (tableErr kind owner entry : Eff α).Keeps := fun _ _ h => h.incReg

theorem Eff.Keeps.tableOk {ok kind owner entry} : Eff.Keeps (tableOk ok kind owner entry) := .ite .pure .tableErr

theorem Eff.Keeps.Vocab_attrOf {v p t} : Eff.Keeps (Vocab.attrOf v p t) := .bind .load (fun _ => .bind .tableOk (fun _ => .pure))

theorem Eff.Keeps.Vocab_piece {v p t} : Eff.Keeps (Vocab.piece v p t) :=
  .bind .load (fun _ => .bind .load (fun _ => .bind .tableOk (fun _ => .read)))

theorem Eff.Keeps.Vocab_findPiece {v p k bs n i} : (Vocab.findPiece v p k bs n i).Keeps := by
  induction n generalizing i with
  | zero => exact .tableErr
  | succ n ih =>
    exact .bind .load fun _ => .ite .pure (.bind .tableOk fun _ => .ite ih (.bind .Vocab_attrOf fun _ => .bind .Vocab_piece fun _
        =>
      .bind .tableOk fun _ => .ite .pure ih))

theorem Eff.Keeps.Vocab_lookup {v p bs} : Eff.Keeps (Vocab.lookup v p bs) := .Vocab_findPiece

theorem Eff.Keeps.Vocab_findMerge {v p l r n i} : (Vocab.findMerge v p l r n i).Keeps := by
  induction n generalizing i with
  | zero => exact .tableErr
  | succ n ih => exact .bind .load fun _ => .bind .load fun _ => .ite .pure (.bind .tableOk fun _ => .ite .pure ih)

theorem Eff.Keeps.Vocab_mergeOf {v p l r} : Eff.Keeps (Vocab.mergeOf v p l r) := .Vocab_findMerge

theorem Eff.Keeps.Vocab_normOf {v p pages words c} : Eff.Keeps (Vocab.normOf v p pages words c) := by
  refine .bind .load fun d => .bind .tableOk fun _ => .ite .pure (.bind .load fun e => .bind .tableOk fun _ => ?_)
  split
  · exact .pure
  · exact .pure
  · exact .bind .load fun _ => .bind .tableOk fun _ =>
      .bind (.map fun _ => .bind .load fun _ => .bind .tableOk fun _ => .pure) fun _ => .pure
  · exact .pure

theorem Eff.Keeps.Vocab_normal {v p cps} : Eff.Keeps (Vocab.normal v p cps) :=
  .bind .load (fun _ => .bind .load (fun _ => .bind .read (fun _ => .bind .tableOk (fun _ => .bind (.map (fun _ => .bind
    .Vocab_normOf (fun _ => .pure))) (fun _ => .ite (.bind .Vocab_normOf (fun _ => .pure)) .pure)))))

theorem Eff.Keeps.Vocab_words {v p cps} : Eff.Keeps (Vocab.words v p cps) :=
  .bind .Vocab_normal (fun _ => .bind .read (fun _ => .bind .load (fun _ => .pure)))

theorem Eff.Keeps.Vocab_symbols {v p word} : Eff.Keeps (Vocab.symbols v p word) :=
  .ite (.map (fun _ => .bind .load (fun _ => .bind .tableOk (fun _ => .pure)))) (.bind (.map (fun _ => .bind .Vocab_lookup (fun _
    => .pure))) (fun _ => .pure))

theorem Eff.Keeps.Vocab_bestPair {v p i l best} : (Vocab.bestPair v p i l best).Keeps := by
  induction l generalizing i best with
  | nil => exact .pure
  | cons a l ih =>
    cases l with
    | nil => exact .pure
    | cons b l => exact .bind .Vocab_mergeOf fun _ => ih

theorem Eff.Keeps.Vocab_merges {v p n l} : (Vocab.merges v p n l).Keeps := by
  induction n generalizing l with
  | zero => exact .pure
  | succ n ih =>
    refine .bind .Vocab_bestPair fun _ => ?_
    split
    · exact .pure
    · exact ih

theorem Eff.Keeps.Vocab_pathTo {v p word best e l x} : (Vocab.pathTo v p word best e l x).Keeps := by
  induction l generalizing x with
  | nil => exact .pure
  | cons a l ih =>
    refine .bind .Vocab_lookup fun _ => ?_
    split
    · exact .bind .load fun _ => .bind .tableOk fun _ => ih
    · exact ih

theorem Eff.Keeps.Vocab_paths {v p word n e best} : (Vocab.paths v p word n e best).Keeps := by
  induction n generalizing e best with
  | zero => exact .pure
  | succ n ih => exact .bind .Vocab_pathTo fun _ => ih

theorem Eff.Keeps.Vocab_wordTokens {v p word} : Eff.Keeps (Vocab.wordTokens v p word) :=
  .ite (.bind .Vocab_paths (fun _ => .pure)) (.bind .Vocab_symbols (fun _ => .bind .Vocab_merges (fun _ => .pure)))

theorem Eff.Keeps.laneResult {c w0 w1} : Eff.Keeps (laneResult c w0 w1) := .ite .pure .write

theorem Eff.Keeps.encodeText {c v} : Eff.Keeps (encodeText c v) :=
  .bind .read (fun _ => .bind .Vocab_words (fun _ => .bind (.map (fun _ => .Vocab_wordTokens)) (fun _ => .bind .write (fun _ =>
    .bind .laneResult (fun _ => .modify (fun _ h0 => h0.incReg.incReg.incReg.incReg.incReg))))))

theorem Eff.Keeps.Vocab_tokenRuns {v p emit hold t} : Eff.Keeps (Vocab.tokenRuns v p emit hold t) :=
  .bind .Vocab_attrOf (fun _ => .ite .pure (.bind .Vocab_piece (fun _ => .ite .pure .pure)))

theorem Eff.Keeps.Vocab_decodeTokens {v p size emit i l d} : (Vocab.decodeTokens v p size emit i l d).Keeps := by
  induction l generalizing i d with
  | nil => exact .ite .pure .pure
  | cons t l ih => exact .ite .pure (.ite ih (.bind .Vocab_tokenRuns fun _ => ih))

theorem Eff.Keeps.decodeText {c v} : Eff.Keeps (decodeText c v) :=
  .bind .read (fun _ => .bind .Vocab_decodeTokens (fun _ => .bind .write (fun _ => .bind .laneResult (fun _ => .modify (fun _ h0
    => h0.incReg)))))

theorem Keeps.setSlot {n x} (h : Keeps s₀ s) : Keeps s₀ (s.setSlot n x) := h.same

theorem Eff.Keeps.slotResult {c i code} : Eff.Keeps (slotResult c i code) := .ite .pure .write

theorem Keeps.runSlot {id action f} (h : Keeps s₀ s) (hf : ∀ x0 x1, Eff.Keeps (f x0 x1)) : Keeps s₀ (s.runSlot id action f) := by
  unfold State.runSlot
  split
  · split
    · exact (h.runEngine (fun _ => hf _ _))
    · exact h
  · exact h

theorem Eff.Keeps.Grammar_stateOf {g p i} : Eff.Keeps (Grammar.stateOf g p i) :=
  .bind .load (fun _ => .bind .load (fun _ => .bind .tableOk (fun _ => .pure)))

theorem Eff.Keeps.Grammar_maskOf {g v p m} : Eff.Keeps (Grammar.maskOf g v p m) :=
  .ite .pure (.bind .load (fun _ => .bind .tableOk (fun _ => .pure)))

theorem Eff.Keeps.Grammar_search {g v p t dflt n lo hi above below} : (Grammar.search g v p t dflt n lo hi above below).Keeps :=
  by
  induction n generalizing lo hi above below with
  | zero => exact .pure
  | succ n ih => exact .ite .pure (.bind .load fun _ => .bind .tableOk fun _ => .ite ih (.ite ih .pure))

theorem Eff.Keeps.listEntries {p a n} : Eff.Keeps (listEntries p a n) := .bind .read (fun _ => .pure)

theorem Eff.Keeps.maskRow {c e i} : Eff.Keeps (maskRow c e i) := by
  refine .bind .get fun s => ?_
  refine .ite (.bind (.modify fun _ h => h.incReg) fun _ => .pure) (.ite .pure ?_)
  split
  · exact .pure
  · exact .bind (.each fun _ => .write) fun _ => .pure
  · refine .bind .Grammar_stateOf fun _ => .bind .Grammar_maskOf fun _ => .ite ?_ ?_
    · exact .bind (.each fun _ => .write) fun _ => .bind .write fun _ => .bind (.modify fun _ h => h.incReg) fun _ => .pure
    · exact .bind (.each fun _ => .write) fun _ => .pure

theorem Eff.Keeps.maskRows {c} : Eff.Keeps (maskRows c) :=
  .bind .listEntries (fun _ => .bind .get (fun _ => .ite .fail (.each (fun _ => .bind .maskRow (fun _ => .ite .pure .write)))))

theorem Eff.Keeps.slotAllowed {p v g state} : Eff.Keeps (slotAllowed p v g state) := by
  unfold Machine.slotAllowed
  split
  · exact .pure
  · exact .bind .Grammar_stateOf fun _ => .Grammar_maskOf

theorem Eff.Keeps.takeToken {p v g x pick} : Eff.Keeps (takeToken p v g x pick) := by
  refine .bind .slotAllowed fun m => .bind (.modify fun _ h => ?_) fun _ =>
    .ite .pure (.bind .Vocab_tokenRuns fun _ => .ite .pure (.bind ?_ fun _ => .ite .pure .pure))
  · exact .ite (.incReg (.ite h h.incReg)) (.ite h h.incReg)
  · split
    · exact .pure
    · exact .bind .Grammar_stateOf fun _ => .Grammar_search

theorem Eff.Keeps.stepEntry {c e pick} : Eff.Keeps (stepEntry c e pick) := by
  refine .bind .get fun s => ?_
  refine .ite (.bind (.modify fun _ h => h.incReg) fun _ => .pure) ?_
  split
  · exact .pure
  · refine .ite ?_ (.bind .takeToken fun _ => .bind (.ite .pure .write) fun _ => .bind (.modify fun _ h => h.setSlot) fun _ => ?_)
    · exact .bind (.ite (.bind .slotAllowed fun _ => .pure) .pure) fun _ => .pure
    · exact .bind (.ite (.bind .slotAllowed fun _ => .pure) .pure) fun _ => .pure

theorem Eff.Keeps.stepSlots {c} : Eff.Keeps (stepSlots c) :=
  .bind .listEntries (fun _ => .bind .get (fun _ => .ite .fail (.each (fun _ => .bind .load (fun _ => .bind .stepEntry (fun _ =>
    .ite .pure .write))))))

theorem Keeps.copyOut {p dst bs} (h : Keeps s₀ s) : Keeps s₀ (s.copyOut p dst bs).2.2 := by
  unfold State.copyOut
  split
  · have h1 := Keeps.of_eq ‹_› h.countWr.writeMem
    exact h1
  · have h1 := Keeps.of_eq ‹_› h.countWr.writeMem
    exact h1

theorem Keeps.copyIn {p l} (h : Keeps s₀ s) : Keeps s₀ (s.copyIn p l).2.2 := by
  induction l generalizing s with
  | nil => exact h
  | cons x l ih =>
    have hr : Keeps s₀ ((s.countRd p x.1 x.2).readMem x.1 x.2).2 := h.countRd.readMem
    unfold State.copyIn
    split
    · next e => exact .of_eq e hr
    · next e => exact ih (.of_eq e hr)

theorem Keeps.copyRun {p dst src} (h : Keeps s₀ s) : Keeps s₀ (s.copyRun p dst src).2.2 := h.copyIn.copyOut

theorem Keeps.copyRuns {p l} (h : Keeps s₀ s) : Keeps s₀ (s.copyRuns p l).2.2 := by
  induction l generalizing s with
  | nil => exact h
  | cons x l ih =>
    unfold State.copyRuns
    dsimp only
    split
    · exact h.copyRun
    · exact ih h.copyRun

theorem Keeps.scrubWords {l} (h : Keeps s₀ s) : Keeps s₀ (s.scrubWords l) := by
  induction l generalizing s with
  | nil => exact h
  | cons x l ih =>
    obtain ⟨w, x⟩ := x
    cases x with
    | correctable => exact ih (h.putHealth h.countCe)
    | good => exact ih h.foundBad
    | uncorrectable => exact ih h.foundBad
    | poisoned => exact ih h.foundBad

theorem Keeps.setScrub {i x} (h : Keeps s₀ s) : Keeps s₀ (s.setScrub i x) := h.same

theorem Keeps.countPass {i} (h : Keeps s₀ s) : Keeps s₀ (s.countPass i) := .ite h.incReg h.incReg

theorem Keeps.setRate {i g} (h : Keeps s₀ s) : Keeps s₀ (s.setRate i g) := h.same

theorem Keeps.recomputeBw (h : Keeps s₀ s) : Keeps s₀ s.recomputeBw := by
  unfold State.recomputeBw
  extract_lets _ s1 _ _ _ s2
  have h1 : Keeps s₀ s1 := h.setReg.setReg
  have h2 : Keeps s₀ s2 := .fold (fun _ _ h2 => .ite (.raise (.incReg (.setBit (.ite h2.setReg.setReg.setRate.setRate.setBit
      h2.setReg.setReg.setRate.setRate)))) (.ite h2.setReg.setReg.setRate.setRate.setBit h2.setReg.setReg.setRate.setRate)) h1
  split
  · split
    · exact h2
    · exact h2.setReg.raise
  · exact h2.setReg

theorem Keeps.applyLoad {e} (h : Keeps s₀ s) : Keeps s₀ (s.applyLoad e) := h.setRegWord

theorem Keeps.applyLoads {step} (h : Keeps s₀ s) : Keeps s₀ (s.applyLoads step) := .fold (fun _ _ h1 => h1.applyLoad) h

theorem Keeps.waitRecord {p t} (h : Keeps s₀ s) : Keeps s₀ (s.waitRecord p t) := by
  unfold State.waitRecord
  extract_lets
  split
  · exact h.q2
  · exact h.q2

theorem Keeps.reply {r status dup body} (h : Keeps s₀ s) : Keeps s₀ (s.reply r status dup body) := h.answer

theorem Keeps.refuse {r status} (h : Keeps s₀ s) : Keeps s₀ (s.refuse r status) := h.incReg.reply

/-- What intake takes leaves the rest alone. -/
theorem Keeps.intakeTake {r} (h : Keeps s₀ s) (e : s.intakeTake = some r) : Keeps s₀ r.2 := by
  unfold State.intakeTake at e
  dsimp only at e
  split at e
  · cases e
  · split at e
    · cases e
      exact h.same
    · cases e
    · split at e
      · cases e
        exact h.release
      · cases e

theorem Keeps.intake {type f} (h : Keeps s₀ s) (hf : ∀ r i x, Keeps s₀ x → Keeps s₀ (f r i x)) : Keeps s₀ (s.intake type f) := by
  unfold State.intake
  split
  · exact h
  · next e =>
    have h' := h.intakeTake e
    exact .ite h (.ite h'.refuse (hf _ _ _ h'))

theorem Keeps.withRights {r f} (h : Keeps s₀ s) (hf : ∀ x0, Keeps s₀ x0 → Keeps s₀ (f x0)) : Keeps s₀ (s.withRights r f) :=
  .ite h.refuse (hf _ h)

theorem Keeps.unlessDuplicate {r i f} (h : Keeps s₀ s) (hf : ∀ x0, Keeps s₀ x0 → Keeps s₀ (f x0)) : Keeps s₀ (s.unlessDuplicate r
    i f) := by
  unfold State.unlessDuplicate
  split
  · exact h.incReg.reply
  · exact (hf _ h)

theorem Keeps.openEntry {i e} (h : Keeps s₀ s) : Keeps s₀ (s.openEntry i e) := h.setWindow

theorem Keeps.loseRequest {i req} (h : Keeps s₀ s) : Keeps s₀ (s.loseRequest i req) := by
  unfold State.loseRequest
  split
  · exact h.closeEntry.incReg
  · exact h

theorem Keeps.submit {r i e} (h : Keeps s₀ s) : Keeps s₀ (s.submit r i e) :=
  .ite h.incReg.openEntry.produce.loseRequest (.ite (.ite h.incReg.openEntry.produce.produce
      h.incReg.openEntry.produce.produce.loseRequest) h.incReg.openEntry.produce)

theorem Keeps.tideWrite {e} (h : Keeps s₀ s) : Keeps s₀ (s.tideWrite e) := .setReg h.writeFram

theorem Keeps.tideLog {code ch value aux} (h : Keeps s₀ s) : Keeps s₀ (s.tideLog code ch value aux) :=
  .ite h (.ite h.same h.tideWrite)

theorem Keeps.tideRound {num den} (h : Keeps s₀ s) : Keeps s₀ (s.tideRound num den).2 := .ite_snd h h.freeBelow

theorem Keeps.tideCond {code ch on value} (h : Keeps s₀ s) : Keeps s₀ (s.tideCond code ch on value) := by
  unfold State.tideCond
  extract_lets
  split
  · split
    · exact h.same.tideLog
    · exact h
  · split
    · exact h
    · exact h.same.tideRound.tideLog

theorem Keeps.tideBegin (h : Keeps s₀ s) : Keeps s₀ s.tideBegin := by
  unfold State.tideBegin
  extract_lets
  split
  · split
    · exact h
    · exact h.same
  · exact h

theorem Keeps.tideCommit {kind e pcnt} (h : Keeps s₀ s) : Keeps s₀ (s.tideCommit kind e pcnt) := h.same.tideBegin

theorem Keeps.setTideOut {j x} (h : Keeps s₀ s) : Keeps s₀ (s.setTideOut j x) := h.same

theorem Keeps.tideBacklog {j} (h : Keeps s₀ s) : Keeps s₀ (s.tideBacklog j) := .ite h.setBit (.ite h.setBit.tideLog h)

theorem Keeps.tideEmit {j} (h : Keeps s₀ s) : Keeps s₀ (s.tideEmit j) := .tideBacklog (.ite h.setTideOut.emit h)

theorem Keeps.tideShare {j restart} (h : Keeps s₀ s) : Keeps s₀ (s.tideShare j restart) := .ite h (.ite h h.setTideOut)

theorem Keeps.tideLoose {j products} (h : Keeps s₀ s) : Keeps s₀ (s.tideLoose j products) := .ite h.freeBelow.setTideOut h

theorem Keeps.tideCals {xs} (h : Keeps s₀ s) : Keeps s₀ (s.tideCals xs).2 :=
  .fold_snd (fun _ _ h1 => .ite_snd h1 (.ite_snd h1.freeWithin h1)) h

theorem Keeps.setTidePair {j x} (h : Keeps s₀ s) : Keeps s₀ (s.setTidePair j x) := h.same.setBit

theorem Keeps.tideSwitch {j cal} (h : Keeps s₀ s) : Keeps s₀ (s.tideSwitch j cal) :=
  .ite h (.ite h.setTidePair.incReg (.ite h.setTidePair.tideRound.incReg.tideLog h.setTidePair))

theorem Keeps.tideVa {a p} (h : Keeps s₀ s) : Keeps s₀ (s.tideVa a p).2 := h.freeWithin

theorem Keeps.tideIncs {a ph} (h : Keeps s₀ s) : Keeps s₀ (s.tideIncs a ph).2 := by
  unfold State.tideIncs
  extract_lets n p1 q1 quad p
  split
  rename_i va s1 e1
  have h1 : Keeps s₀ (va, s1).2 := e1 ▸ .fold_snd (fun x k hx => hx.tideVa (a := a) (p := k)) h
  exact h1

theorem Keeps.tideFold {ph} (h : Keeps s₀ s) : Keeps s₀ (s.tideFold ph) := by
  unfold State.tideFold
  extract_lets s1
  have h1 : Keeps s₀ s1 := .fold (fun _ _ h => h.tideShare) h
  clear_value s1
  split
  rename_i l s2 e2
  have h2 : Keeps s₀ s2 := .of_eq e2 h1.tideIncs
  exact h2.same

theorem Keeps.tideVolt {p v2 w} (h : Keeps s₀ s) : Keeps s₀ (s.tideVolt p v2 w) := by
  unfold State.tideVolt
  extract_lets
  exact .ite (.ite (.tideCond (.ite (.ite (.tideCond (.ite (.ite h.freeBelow.tideCond h.freeBelow) (.ite h.freeBelow.tideCond
      h.freeBelow))) (.ite (.ite h.freeBelow.tideCond h.freeBelow) (.ite h.freeBelow.tideCond h.freeBelow))) (.ite (.tideCond
      (.ite (.ite h.freeBelow.tideCond h.freeBelow) (.ite h.freeBelow.tideCond h.freeBelow))) (.ite (.ite h.freeBelow.tideCond
      h.freeBelow) (.ite h.freeBelow.tideCond h.freeBelow))))) (.ite (.ite (.tideCond (.ite (.ite h.freeBelow.tideCond
      h.freeBelow) (.ite h.freeBelow.tideCond h.freeBelow))) (.ite (.ite h.freeBelow.tideCond h.freeBelow) (.ite
      h.freeBelow.tideCond h.freeBelow))) (.ite (.tideCond (.ite (.ite h.freeBelow.tideCond h.freeBelow) (.ite
      h.freeBelow.tideCond h.freeBelow))) (.ite (.ite h.freeBelow.tideCond h.freeBelow) (.ite h.freeBelow.tideCond
      h.freeBelow))))) (.ite (.tideCond (.ite (.ite (.tideCond (.ite (.ite h.freeBelow.tideCond h.freeBelow) (.ite
      h.freeBelow.tideCond h.freeBelow))) (.ite (.ite h.freeBelow.tideCond h.freeBelow) (.ite h.freeBelow.tideCond h.freeBelow)))
      (.ite (.tideCond (.ite (.ite h.freeBelow.tideCond h.freeBelow) (.ite h.freeBelow.tideCond h.freeBelow))) (.ite (.ite
      h.freeBelow.tideCond h.freeBelow) (.ite h.freeBelow.tideCond h.freeBelow))))) (.ite (.ite (.tideCond (.ite (.ite
      h.freeBelow.tideCond h.freeBelow) (.ite h.freeBelow.tideCond h.freeBelow))) (.ite (.ite h.freeBelow.tideCond h.freeBelow)
      (.ite h.freeBelow.tideCond h.freeBelow))) (.ite (.tideCond (.ite (.ite h.freeBelow.tideCond h.freeBelow) (.ite
      h.freeBelow.tideCond h.freeBelow))) (.ite (.ite h.freeBelow.tideCond h.freeBelow) (.ite h.freeBelow.tideCond
      h.freeBelow)))))

theorem Keeps.tideSequence {ph} (h : Keeps s₀ s) : Keeps s₀ (s.tideSequence ph) :=
  .ite h (.ite h.same (.ite h.same h.same.tideCond))

theorem Keeps.tideDown {j a} (h : Keeps s₀ s) : Keeps s₀ (s.tideDown j a) := .ite h (.ite h (.ite h.setTidePair h.setTidePair))

theorem Keeps.tideShow (h : Keeps s₀ s) : Keeps s₀ s.tideShow := .same (.fold (fun _ _ h1 => h1.setReg) h)

theorem Keeps.tideClose {frac mhz ph} (h : Keeps s₀ s) : Keeps s₀ (s.tideClose frac mhz ph) := by
  unfold State.tideClose
  extract_lets _ _ _ _ s1 _ s2 s3 s4 s5 s6
  have h1 : Keeps s₀ s1 := h.same.tideFold
  have h2 : Keeps s₀ s2 := h1.same
  have h3 : Keeps s₀ s3 := .fold (fun _ _ h3 => h3.tideShare.tideDown) h2
  have h4 : Keeps s₀ s4 := .fold (fun _ _ h4 => h4.tideVolt) h3
  have h5 : Keeps s₀ s5 := h4.tideSequence.tideShow.tmuxPulse
  have h6 : Keeps s₀ s6 := h5.setReg
  split
  · exact h6.same
  · exact h6

theorem Keeps.tideTake {d} (h : Keeps s₀ s) : Keeps s₀ (s.tideTake d) := h.setReg.same.setReg

theorem Keeps.tideAdopt {b crc} (h : Keeps s₀ s) : Keeps s₀ (s.tideAdopt b crc) := by
  unfold State.tideAdopt
  extract_lets _ _ _ s1 s2 s3 s4 s5
  have h1 : Keeps s₀ s1 := h.same
  have h2 : Keeps s₀ s2 := h1.setReg.setReg
  have h3 : Keeps s₀ s3 := h2.setReg.setReg.setReg
  have h4 : Keeps s₀ s4 := h3.setReg
  have h5 : Keeps s₀ s5 := .fold (fun _ _ h5 => h5.setBit.setTideOut) h4
  split
  · exact h5.setReg.setReg
  · exact h5

theorem Keeps.tideLoss (h : Keeps s₀ s) : Keeps s₀ s.tideLoss := by
  unfold State.tideLoss
  extract_lets s1 _ s2
  have h1 : Keeps s₀ s1 := by
    unfold s1
    split
    · exact h.tideTake
    · exact h
  have h2 : Keeps s₀ s2 := h1.tideFold
  split
  · exact h
  · split
    · split
      · exact h2.same
      · exact h2.same.tideBegin
    · exact h2.same.tideBegin

theorem Keeps.setTideIn {k x} (h : Keeps s₀ s) : Keeps s₀ (s.setTideIn k x) := h.same

theorem Keeps.tideStart {b crc} (h : Keeps s₀ s) : Keeps s₀ (s.tideStart b crc) := by
  unfold State.tideStart
  extract_lets
  exact .setReg (.tideLog (.tideCommit (.tideShow (.setReg (.setReg (.setReg (.setReg (.fold (fun _ _ h3 => h3.setTideOut) (.fold
      (fun _ _ h3 => h3.setReg) h.freeBelow.freeBelow.same.setReg.setReg.tideAdopt.same)))))))))

theorem Keeps.tideSeal {sec} (h : Keeps s₀ s) : Keeps s₀ (s.tideSeal sec) := .ite h (.ite h.tideStart (.ite h.same h.same))

theorem Keeps.tideQuant (h : Keeps s₀ s) : Keeps s₀ s.tideQuant.2 := by
  unfold State.tideQuant
  extract_lets
  split
  · exact h
  · extract_lets
    exact h.same

theorem Keeps.snapshot {sel} (h : Keeps s₀ s) : Keeps s₀ (s.snapshot sel).2 :=
  .ite_snd h (by split; exact h; exact h; exact h; exact h.tideQuant; exact h; exact h)

theorem Keeps.jtag {code} (h : Keeps s₀ s) : Keeps s₀ (s.jtag code) := .ite h.same h.same.incReg

theorem Keeps.tap {code f} (h : Keeps s₀ s) (hf : ∀ x0, Keeps s₀ x0 → Keeps s₀ (f x0)) : Keeps s₀ (s.tap code f) :=
  .ite h (.ite (hf _ h.jtag) h.jtag)

theorem Keeps.denied (h : Keeps s₀ s) : Keeps s₀ s.denied.2.2 := h.incReg

theorem Keeps.debugRead {a} (h : Keeps s₀ s) : Keeps s₀ (s.debugRead a).2.2 := by
  unfold State.debugRead
  extract_lets r1
  have h1 : Keeps s₀ r1.2 := h.readReg
  split
  · exact h1
  · split
    · split
      · exact h
      · exact h
    · exact h.denied

theorem Keeps.mismatch {p} (h : Keeps s₀ s) : Keeps s₀ (s.mismatch p) := h.setReg.raise

theorem Keeps.fence {q} (h : Keeps s₀ s) : Keeps s₀ (s.fence q) := .ite h h.setQState

theorem Keeps.compareUnit {u} (h : Keeps s₀ s) : Keeps s₀ (s.compareUnit u) :=
  .ite h (.raise (.q2 (.fold (fun _ _ h1 => h1.fence) h)))

theorem Keeps.computeLoss (h : Keeps s₀ s) : Keeps s₀ s.computeLoss :=
  .fold (fun _ _ h1 => h1.zeroDomain) (.fold (fun _ _ h1 => .ite h1 h1.resetRegs) (.fold (fun _ _ h1 => h1.resetRegs) (.resetRegs
      (.resetRegs (.fold (fun _ _ h1 => h1.setReg) h.resetRegs)))))

theorem Keeps.assertReset (h : Keeps s₀ s) : Keeps s₀ s.assertReset := h.saveAnswers.same.stopEngines.computeLoss.setReg.incReg

theorem Keeps.enterOut (h : Keeps s₀ s) : Keeps s₀ s.enterOut :=
  .setSvc (.same (.setReg (.plog (.fold (fun _ _ h1 => h1.powerOff) (.ite h h.assertReset)))))

theorem Keeps.countEntry (h : Keeps s₀ s) : Keeps s₀ s.countEntry := .setReg (.setReg (.foldr (fun _ _ h1 => h1.setReg) h))

theorem Keeps.escalate (h : Keeps s₀ s) : Keeps s₀ s.escalate := by
  unfold State.escalate
  extract_lets s1 n s2
  have h1 : Keeps s₀ s1 := h.countEntry
  have h2 : Keeps s₀ s2 := h1.plog
  clear_value s1 s2
  exact .ite h1.enterOut (.ite h2.same h2.same)

theorem Keeps.writeFaultRecord {l} (h : Keeps s₀ s) : Keeps s₀ (s.writeFaultRecord l) :=
  .ite h.same.record.incReg h.same.record.incReg.plog

theorem Keeps.netLoss {w} (h : Keeps s₀ s) : Keeps s₀ (s.netLoss w) := by
  cases w with
  | command id =>
    simp only [State.netLoss]
    split
    · exact h.finish
    · exact h
  | request =>
    simp only [State.netLoss]
    split
    · next e => exact (h.intakeTake e).incReg.reply
    · exact h
  | response i =>
    simp only [State.netLoss]
    split
    · exact .ite h.release.incReg (.ite h.release.incReg h.release.incReg)
    · exact h
  | item q n => exact h.incReg
  | record n => exact h.visAbandon.incReg
  | channel n => exact h.visAbandon.incReg
  | lidar n => exact h.visAbandon.incReg
  | capture n => exact h.capAbandon.incReg
  | island => exact h

theorem Keeps.keepRegs {old lo hi} (h : Keeps s₀ s) : Keeps s₀ (s.keepRegs old lo hi) :=
  h.writeRegs fun hr => foldl_put_wf _ _ (Sparse.clear_wf lo hi hr)

theorem Keeps.aonSwitch {bak} (h : Keeps s₀ s) : Keeps s₀ (s.aonSwitch bak) :=
  .raise (.ite h.setReg.incReg.setReg.tideLog h.setReg.incReg)

theorem Keeps.setAonValid {bak v} (h : Keeps s₀ s) : Keeps s₀ (s.setAonValid bak v) := h.setReg

theorem Keeps.loseDram (h : Keeps s₀ s) : Keeps s₀ s.loseDram := h.writeMemory (Sparse.clear_wf _ _) (Sparse.clear_wf _ _)

theorem Keeps.beginSelect (h : Keeps s₀ s) : Keeps s₀ s.beginSelect := h.setReg.same

theorem Keeps.judgeClock {c} (h : Keeps s₀ s) : Keeps s₀ (s.judgeClock c) := h.setBit.excursion

theorem Keeps.setLevel {c level} (h : Keeps s₀ s) : Keeps s₀ (s.setLevel c level) := h.setReg.setReg

theorem Keeps.noteStep {k} (h : Keeps s₀ s) : Keeps s₀ (s.noteStep k) := h.same

theorem Keeps.throttle {c t} (h : Keeps s₀ s) : Keeps s₀ (s.throttle c t) :=
  .ite h.same (.ite h.same.setLevel.incReg.noteStep (.ite h.same.setLevel.noteStep h.same))

theorem Keeps.trip {n t} (h : Keeps s₀ s) : Keeps s₀ (s.trip n t) := .ite h.same.excursion (.ite h.same.excursion h.same)

theorem Keeps.readSensor {n t} (h : Keeps s₀ s) : Keeps s₀ (s.readSensor n t) :=
  .ite h.setReg (.trip (.ite h.setReg.setReg.same.throttle h.setReg.setReg.same))

theorem Keeps.countMalformed {i} (h : Keeps s₀ s) : Keeps s₀ (s.countMalformed i) := .ite h.incReg (.ite h h.incReg)

theorem Keeps.countBusy {i} (h : Keeps s₀ s) : Keeps s₀ (s.countBusy i) := .ite h.incReg (.ite h h.incReg)

theorem Keeps.landMsg {i m} (h : Keeps s₀ s) : Keeps s₀ (s.landMsg i m).2 :=
  .ite_snd h.countMalformed (.ite_snd h.same (.ite_snd h.countBusy.answer (.ite_snd h.produce h.produce.incReg.answer)))

theorem Keeps.setReasms {p l} (h : Keeps s₀ s) : Keeps s₀ (s.setReasms p l) := .ite h.same h.same

theorem Keeps.ethMessage {p m back} (h : Keeps s₀ s) : Keeps s₀ (s.ethMessage p m back) := h.same.landMsg

theorem Keeps.segment {p d} (h : Keeps s₀ s) : Keeps s₀ (s.segment p d) := by
  unfold State.segment
  extract_lets
  split
  · exact h.countMalformed
  · split
    · split
      · exact h.countMalformed
      · exact h.ethMessage
    · split
      · exact h.incReg
      · split
        · split
          · exact h.incReg
          · split
            · exact h.countMalformed
            · exact h.setReasms
        · extract_lets
          split
          · exact h
          · split
            · exact h.setReasms.countMalformed
            · split
              · exact h.setReasms.ethMessage
              · exact h.setReasms

theorem Keeps.landLidar {p i d stamp quality} (h : Keeps s₀ s) : Keeps s₀ (s.landLidar p i d stamp quality) := by
  unfold State.landLidar
  extract_lets s1
  have h1 : Keeps s₀ s1 := h.incReg
  split
  · exact h1
  · extract_lets _ r2 s3
    have h2 : Keeps s₀ r2.2 := h.produce
    have h3 : Keeps s₀ s3 := h2
    split
    · exact h1
    · split
      · exact h3.same
      · exact h2.incReg

theorem Keeps.ethFrame {p f stamp quality} (h : Keeps s₀ s) : Keeps s₀ (s.ethFrame p f stamp quality) := by
  unfold State.ethFrame
  extract_lets s1
  have h1 : Keeps s₀ s1 := h.incReg
  split
  · exact h1
  · exact h
  · split
    · exact h.emit
    · exact h1
  · split
    · exact h.segment
    · split
      · exact h.landLidar
      · exact h1

theorem Keeps.takeBell {first slots} (h : Keeps s₀ s) : Keeps s₀ (s.takeBell first slots) := .same (.ite_snd h.landMsg h)

theorem Keeps.canFrame {k d} (h : Keeps s₀ s) : Keeps s₀ (s.canFrame k d) := by
  unfold State.canFrame
  extract_lets old _ _ _ s1 _ s2 _ s3
  have h1 : Keeps s₀ s1 := h.countMalformed
  have h2 : Keeps s₀ s2 := h1.same
  have h3 : Keeps s₀ s3 := .ite h2 h
  clear_value old s1 s2 s3
  split
  · split
    · exact h2
    · exact h
  · split
    · split
      · exact .ite h3.same (.ite h3.same.landMsg h3.same.countMalformed)
      · exact h3.countMalformed
    · split
      · exact h
      · split
        · exact .ite h.same (.ite h.same.landMsg h.same.countMalformed)
        · exact h2

theorem Keeps.countTxDrop {i} (h : Keeps s₀ s) : Keeps s₀ (s.countTxDrop i) := .ite h.incReg (.ite h.incReg h.incReg)

theorem Keeps.sendMsg {i m} (h : Keeps s₀ s) : Keeps s₀ (s.sendMsg i m) := by
  refine .ite h.countTxDrop (.ite ?_ (.ite (.ite h.countTxDrop h.same.emit) (.fold (fun _ _ h1 => h1.emit) h)))
  split
  · exact .fold (fun _ _ h1 => h1.emit) h
  · exact h.countTxDrop

theorem Keeps.releaseSnapshot {i word0} (h : Keeps s₀ s) : Keeps s₀ (s.releaseSnapshot i word0) := by
  unfold State.releaseSnapshot
  extract_lets
  split
  · exact h
  · extract_lets s1
    have h1 : Keeps s₀ s1 := h.same
    split
    · exact h1.release
    · exact h1

theorem Keeps.sendNext {i} (h : Keeps s₀ s) : Keeps s₀ (s.sendNext i) := by
  unfold State.sendNext
  extract_lets
  split
  · split
    · exact h
    · exact h.same.sendMsg.releaseSnapshot
  · split
    · exact h
    · split
      · exact h
      · split
        · exact h
        · exact h.release.sendMsg.releaseSnapshot

theorem Keeps.setPort {p x} (h : Keeps s₀ s) : Keeps s₀ (s.setPort p x) := .ite h.same h.same

theorem Keeps.pump {p n} (h : Keeps s₀ s) : Keeps s₀ (s.pump p n) := by
  induction n generalizing s with
  | zero => exact h
  | succ n ih =>
    unfold State.pump
    dsimp only
    split
    · exact .ite (ih h.setPort.emit) h
    · exact h

theorem Keeps.pumpAll {p} (h : Keeps s₀ s) : Keeps s₀ (s.pumpAll p) := h.pump

theorem Keeps.linkSend {f} (h : Keeps s₀ s) : Keeps s₀ (s.linkSend f) := .ite h.incReg h.setPort.pumpAll

theorem Keeps.sendAck {p credits} (h : Keeps s₀ s) : Keeps s₀ (s.sendAck p credits) := h.emit

theorem Keeps.sendNack {p} (h : Keeps s₀ s) : Keeps s₀ (s.sendNack p) := h.emit

theorem Keeps.putAck {rank xfer status} (h : Keeps s₀ s) : Keeps s₀ (s.putAck rank xfer status) := h.linkSend

theorem Keeps.takePut {f} (h : Keeps s₀ s) : Keeps s₀ (s.takePut f) := by
  refine .ite (.ite h.same h) ?_
  split
  · refine .ite (.ite (.putAck ?_) h.writeMem) (.putAck (.ite h h.same))
    split
    · exact h.writeMem.addEvent
    · exact h.writeMem
  · exact .putAck (.ite h h.same)

theorem Keeps.takeAck {f} (h : Keeps s₀ s) : Keeps s₀ (s.takeAck f) := by
  unfold State.takeAck
  extract_lets
  split
  · exact h
  · extract_lets s1
    have h1 : Keeps s₀ s1 := h.same
    split
    · exact h
    · split
      · exact h1.finish
      · exact h1.finish

theorem Keeps.takeMerge {f} (h : Keeps s₀ s) : Keeps s₀ (s.takeMerge f) := .ite h.incReg (.ite h.same h.same)

theorem Keeps.takeFrame {f} (h : Keeps s₀ s) : Keeps s₀ (s.takeFrame f) := by
  unfold State.takeFrame
  split
  · exact h.takePut
  · exact h.takeAck
  · exact h.takeMerge

theorem Keeps.goOn {x} (h : Keeps s₀ s) : Keeps s₀ (s.goOn x) := .ite h.ethFrame (.ite h.canFrame h.sendAck.takeFrame)

theorem Keeps.releaseHeld (h : Keeps s₀ s) : Keeps s₀ s.releaseHeld := by
  unfold State.releaseHeld
  extract_lets _ s1
  have h1 : Keeps s₀ s1 := .fold (fun _ _ h1 => h1.goOn) h.same
  split
  · exact h1.takeBell
  · exact h1

theorem Keeps.putFrames {c xfer o n} (h : Keeps s₀ s) : Keeps s₀ (s.putFrames c xfer o n).2 := by
  induction n generalizing s o with
  | zero => exact h
  | succ n ih =>
    have hr : Keeps s₀ ((s.countRd c.part (c.addr 1 + o) (min 256 (bits (c.word 2) 31 0 - o))).readMem (c.addr 1 + o)
      (min 256 (bits (c.word 2) 31 0 - o))).2 := h.countRd.readMem
    unfold State.putFrames
    dsimp only
    split
    · exact hr
    · exact ih hr.grantBytes.linkSend

theorem Keeps.supersedeReplay {type xfer addr} (h : Keeps s₀ s) : Keeps s₀ (s.supersedeReplay type xfer addr) := by
  refine .fold (fun u p hu => ?_) h
  dsimp only
  split
  · exact hu
  · exact hu.setPort.supersede

theorem Keeps.runOps {fail l i reads} (h : Keeps s₀ s) : Keeps s₀ (s.runOps fail l i reads).2.2 := by
  induction l generalizing s i reads with
  | nil => exact h
  | cons op l ih =>
    unfold State.runOps
    dsimp only
    split
    · exact .ite h.emit.incReg h.emit
    · exact ih (.ite h.emit.same h.emit)

theorem Keeps.stepTimeout (h : Keeps s₀ s) : Keeps s₀ s.stepTimeout := h.attemptFail

theorem Keeps.runStep {k f} (h : Keeps s₀ s) (hf : ∀ x0, Keeps s₀ x0 → Keeps s₀ (f x0)) : Keeps s₀ (s.runStep k f) :=
  .ite h (.ite h.stepTimeout (hf _ h))

theorem Keeps.stepTime (h : Keeps s₀ s) : Keeps s₀ s.stepTime := h.setReg

theorem Keeps.nextStep {k} (h : Keeps s₀ s) : Keeps s₀ (s.nextStep k) := h.stepTime.setReg.same

theorem Keeps.powerAll {ds} (h : Keeps s₀ s) : Keeps s₀ (s.powerAll ds) := .fold (fun _ _ h1 => h1.powerOn) h

theorem Keeps.selectSlot {strobe} (h : Keeps s₀ s) : Keeps s₀ (s.selectSlot strobe) :=
  .ite h.attemptFail (.ite (.attemptFail (.ite h.same.setReg.setReg.setReg h.same.setReg.setReg)) (.nextStep (.ite
      h.same.setReg.setReg.setReg h.same.setReg.setReg)))

theorem Keeps.accept {slot m} (h : Keeps s₀ s) : Keeps s₀ (s.accept slot m) :=
  .writeBootRec (.same (.fold (fun _ _ h1 => h1.setRegWord) h.same.setReg.setReg.setReg))

theorem Keeps.copyImage {m slot} (h : Keeps s₀ s) : Keeps s₀ (s.copyImage m slot) :=
  .fold (fun _ _ h1 => .ite h1.setBytes.scramble h1) h.clearMem.setBytes

theorem Keeps.readCopy {home i l} (h : Keeps s₀ s) : Keeps s₀ (s.readCopy home i l).2 := by
  induction l generalizing s i with
  | nil => exact h
  | cons e l ih =>
    have hr : Keeps s₀ (s.readMem (home + entOffset e) (entLength e)).2 := h.readMem
    unfold State.readCopy
    split
    · next e => exact .of_eq e hr
    · next e =>
      have hs := Keeps.of_eq e hr
      refine .ite_snd hs ?_
      split
      · next e => exact .of_eq e (ih hs)
      · next e => exact .of_eq e (ih hs)

theorem Keeps.initDram (h : Keeps s₀ s) : Keeps s₀ s.initDram := by
  unfold State.initDram
  extract_lets _ s1 s2
  have h1 : Keeps s₀ s1 := h.setReg.setReg
  have h2 : Keeps s₀ s2 := .fold (fun _ _ h2 => h2.clearMem) h1
  split
  · extract_lets s3
    have h3 : Keeps s₀ s3 := h2.copyImage
    exact h3.same
  · exact h2

theorem Keeps.loadWeights {fails i l} (h : Keeps s₀ s) : Keeps s₀ (s.loadWeights fails i l) := by
  induction l generalizing s i with
  | nil => exact h.nextStep
  | cons e l ih => exact .ite h.incReg.attemptFail (.ite (ih h.incReg.incReg.clearMem.setBytes)
      h.incReg.incReg.clearMem.setBytes.attemptFail)

theorem Keeps.checkWeights {l} (h : Keeps s₀ s) : Keeps s₀ (s.checkWeights l) := by
  induction l generalizing s with
  | nil => exact h.nextStep
  | cons e l ih =>
    have hr : Keeps s₀ (s.readMem (field e 0x18 8) (field e 0x10 8)).2 := h.readMem
    unfold State.checkWeights
    split
    · next e => exact .attemptFail (.of_eq e hr)
    · next e => exact .ite (ih (.of_eq e hr)) (.attemptFail (.of_eq e hr))

theorem Keeps.applyLinks (h : Keeps s₀ s) : Keeps s₀ s.applyLinks :=
  .fold (fun _ _ h1 => .ite (.ite h1.setReg h1) h1.setReg) (.fold (fun _ _ h1 => h1.setReg) h.powerAll.applyLoads.same)

theorem Keeps.arm (h : Keeps s₀ s) : Keeps s₀ s.arm := by
  unfold State.arm
  extract_lets s1
  have h1 : Keeps s₀ s1 := h.stepTime.armGroups
  clear_value s1
  exact .ite h1.setReg.startRecord h1

theorem Keeps.writeLastGood (h : Keeps s₀ s) : Keeps s₀ s.writeLastGood := h.writeFram

theorem Eff.Keeps.embMismatch {faults} : Eff.Keeps (embMismatch faults) := fun s₀ s h => by
  unfold Machine.embMismatch
  extract_lets s1 best
  have h1 : Machine.Keeps s₀ s1 := .fold (fun _ _ h => h.incReg.raise) h
  cases best with
  | none => exact h1
  | some f => exact h1

theorem Eff.Keeps.embRow {p t i} : Eff.Keeps (Eff.embRow p t i) := fun s₀ s h => by
  unfold Eff.embRow
  extract_lets _ _ _ s1
  have h1 : Machine.Keeps s₀ s1 := .ite h.incReg (.ite h.incReg h)
  split
  · have h2 := Keeps.of_eq ‹_› h1.countRd.readMem
    exact h2
  · have h2 := Keeps.of_eq ‹_› h1.countRd.readMem
    exact h2

theorem Eff.Keeps.gatherAt {c o t pos} : Eff.Keeps (gatherAt c o t pos) :=
  .bind .load (fun _ => .ite (.ite (.bind (.modify (fun _ h0 => h0.incReg)) (fun _ => .pure)) .fail) (.bind .embRow (fun _ =>
    .pure)))

theorem Eff.Keeps.gatherPool {c o t first n acc} : (gatherPool c o t first n acc).Keeps := by
  induction n generalizing first acc with
  | zero => exact .pure
  | succ n ih => exact .bind .gatherAt fun _ => .bind (.ite .load .pure) fun _ => ih

theorem Eff.Keeps.gatherBytes {c o t from_ r} : Eff.Keeps (gatherBytes c o t from_ r) :=
  .bind .staging (fun _ => .ite (.bind .gatherAt (fun _ => .pure)) (.bind (.modify (fun _ h0 => .ite h0.countRd h0)) (fun _ =>
    .bind .reread (fun _ => .bind .load (fun _ => .ite .fail (.bind .gatherPool (fun _ => .pure)))))))

theorem Eff.Keeps.gatherRow {c o t from_ bad r} (hbad : ∀ f, bad = some f → f.Keeps) : Eff.Keeps (gatherRow c o t from_ bad r) :=
  .checked hbad .gatherBytes fun _ => .write

theorem Eff.Keeps.putWrite {p a bs} : Eff.Keeps (putWrite p a bs) := .bind .inBounds (fun _ => .write)

theorem Eff.Keeps.putBytes {c t r} : Eff.Keeps (putBytes c t r) := by
  refine .bind .load fun _ => .ite .fail (.bind .read fun _ => ?_)
  split
  · exact .fail
  · exact .bind .staging fun _ => .pure

theorem Eff.Keeps.putAt {c t bad r} (hbad : ∀ f, bad = some f → f.Keeps) : Eff.Keeps (putAt c t bad r) :=
  .checked hbad .putBytes fun _ => .bind .putWrite fun _ => .ite .putWrite .pure

theorem Keeps.setVisStr {n x} (h : Keeps s₀ s) : Keeps s₀ (s.setVisStr n x) := h.same

theorem Keeps.visEcc {port corrected} (h : Keeps s₀ s) : Keeps s₀ (s.visEcc port corrected) := .ite h.incReg h

theorem Keeps.visPick {kind n} (h : Keeps s₀ s) : Keeps s₀ (s.visPick kind n).2 := by
  unfold State.visPick
  extract_lets
  split
  · exact h
  · split
    · exact h.setVisSource
    · exact h

theorem Keeps.visDrop {kind n} (h : Keeps s₀ s) : Keeps s₀ (s.visDrop kind n) := .ite h.incReg (.ite h.incReg h.incReg)

theorem Keeps.visStart {kind n} (h : Keeps s₀ s) : Keeps s₀ (s.visStart kind n).2 := by
  unfold State.visStart
  split
  · have h1 := Keeps.of_eq ‹_› h.visPick
    exact h1
  · have h1 := Keeps.of_eq ‹_› h.visPick
    exact h1.visDrop

theorem Keeps.visStarts {l} (h : Keeps s₀ s) : Keeps s₀ (s.visStarts l).2 := by
  induction l generalizing s with
  | nil => exact h
  | cons c l ih => exact ih h.visStart

theorem Keeps.visGiveUp {kind n f} (h : Keeps s₀ s) : Keeps s₀ (s.visGiveUp kind n f) :=
  .fold (fun _ _ h1 => h1.visLose) (by split; exact h.visLose; exact h)

theorem Keeps.setCropNow {k c} (h : Keeps s₀ s) : Keeps s₀ (s.setCropNow k c) := h.setReg.setReg.setReg.setReg

theorem Keeps.applyCrops {n} (h : Keeps s₀ s) : Keeps s₀ (s.applyCrops n) := by
  refine .fold (fun u c hu => ?_) h
  dsimp only
  split
  · exact hu.setCropNow.same
  · exact hu

theorem Keeps.frameRef {f} (h : Keeps s₀ s) : Keeps s₀ (s.frameRef f).2 := by
  unfold State.frameRef
  split
  · exact h
  · exact h.freeBelow

theorem Keeps.stampTable {groups f} (h : Keeps s₀ s) : Keeps s₀ (s.stampTable groups f).2 := h.same

theorem Keeps.channelItems {e f bad flags ref planes} (h : Keeps s₀ s) : Keeps s₀ (s.channelItems e f bad flags ref planes) :=
  .fold (fun _ _ h1 => by split; exact h1; exact h1.same) h

theorem Keeps.frameItems {n e f bad flags rows} (h : Keeps s₀ s) : Keeps s₀ (s.frameItems n e f bad flags rows) :=
  .channelItems (by split; exact h.frameRef; exact h.frameRef.stampTable.same)

theorem Keeps.depthItems {n e t rows} (h : Keeps s₀ s) : Keeps s₀ (s.depthItems n e t rows) :=
  .channelItems (.frameRef (by split; exact h; exact h.stampTable.same))

theorem Keeps.tofBreak {n} (h : Keeps s₀ s) : Keeps s₀ (s.tofBreak n) := by
  unfold State.tofBreak
  extract_lets
  split
  · exact h
  · exact h.setVisStr.visGiveUp.incReg

theorem Keeps.closePhase {n e f bad marked broken} (h : Keeps s₀ s) : Keeps s₀ (s.closePhase n e f bad marked broken) := by
  unfold State.closePhase
  extract_lets
  split
  · exact h
  · extract_lets _ _ s1
    have h1 : Keeps s₀ s1 := h.setVisStr
    split
    · exact h.tofBreak
    · split
      · exact h1.writeMem
      · exact h.setVisStr.depthItems

theorem Keeps.closeFrame {n e short dog} (h : Keeps s₀ s) : Keeps s₀ (s.closeFrame n e short dog) := by
  unfold State.closeFrame
  extract_lets _ s1
  have h1 : Keeps s₀ s1 := h.setVisStr.incReg
  split
  · exact h
  · extract_lets _ _ _ _ s2 s3
    have h2 : Keeps s₀ s2 := .ite h1.closePhase h1.frameItems
    have h3 : Keeps s₀ s3 := h2.incReg
    split
    · split
      · exact h3.raise
      · exact h3
    · exact h2

theorem Keeps.openFrame {n e fn sub} (h : Keeps s₀ s) : Keeps s₀ (s.openFrame n e fn sub) := by
  unfold State.openFrame
  extract_lets s1 q tof phase
  have h1 : Keeps s₀ s1 := h.closeFrame.applyCrops
  clear_value s1 q
  split
  rename_i fs s2 e2
  have h2 : Keeps s₀ s2 := .of_eq e2 h1.stamp
  extract_lets s3 expect s4 picks
  have h3 : Keeps s₀ s3 := h2.setReg
  have h4 : Keeps s₀ s4 := .ite (.ite h3 h3.tofBreak) h3
  clear_value s3 s4 picks
  split
  · exact h4.setVisStr
  · split
    rename_i r s5 e5
    have h5 : Keeps s₀ s5 := .of_eq e5 (.ite_snd h4.visStart h4)
    split
    rename_i chans s6 e6
    have h6 : Keeps s₀ s6 := .of_eq e6 (.ite_snd h5.visStarts h5)
    exact h6.setVisStr

theorem Keeps.frameLine {n e line crcOk sub} (h : Keeps s₀ s) : Keeps s₀ (s.frameLine n e line crcOk sub) := by
  unfold State.frameLine
  extract_lets x
  split
  · exact h
  · next f _ =>
    extract_lets k starts q
    refine .ite h.setVisStr ?_
    split
    rename_i t s1 e1
    have h1 : Keeps s₀ s1 := .of_eq e1 (.ite_snd h.stamp h)
    have h2 : Keeps s₀ (Eff.staging visionMem 0x400000 s1).2 := Eff.Keeps.staging h1
    generalize Eff.staging visionMem 0x400000 s1 = r at h2 ⊢
    obtain ⟨x | x, s2⟩ := r
    · exact .setVisStr (.ite h2.same h2)
    · exact .setVisStr (.ite h2.same h2)

theorem Keeps.setVisLid {i x} (h : Keeps s₀ s) : Keeps s₀ (s.setVisLid i x) := h.same

theorem Keeps.closeScan {i e} (h : Keeps s₀ s) : Keeps s₀ (s.closeScan i e) := by
  unfold State.closeScan
  extract_lets _ s1
  have h1 : Keeps s₀ s1 := h.setVisLid
  split
  · exact h
  · extract_lets _ _ s2
    have h2 : Keeps s₀ s2 := by
      unfold s2
      split
      · exact h1
      · exact h1.same
    split
    · exact h2.raise
    · exact h2

theorem Keeps.lidarPacket {i e payload stamp quality} (h : Keeps s₀ s) : Keeps s₀ (s.lidarPacket i e payload stamp quality) := by
  unfold State.lidarPacket
  extract_lets _ _ _ _ s1 s2
  have h1 : Keeps s₀ s1 := h.closeScan
  have h2 : Keeps s₀ s2 := .ite h1.visStart.setVisLid h
  split
  · exact h.incReg
  · split
    · exact h2.incReg
    · extract_lets _ s3 s4
      have h3 : Keeps s₀ s3 := h2.setVisLid
      have h4 : Keeps s₀ s4 := .ite h3.incReg h3
      split
      · exact h4.closeScan
      · exact h4

theorem Eff.Keeps.visResult {c code} : Eff.Keeps (visResult c code) := .ite .pure .write

theorem Keeps.setHeld {kind n l} (h : Keeps s₀ s) : Keeps s₀ (s.setHeld kind n l) := .ite h.setVisSource.setReg h.setVisSource

theorem Eff.Keeps.roiBox {c k} : Eff.Keeps (roiBox c k) :=
  .bind .read (fun _ => .ite .fail (.bind .get (fun _ => .ite .fail (.bind (.map (fun _ => .read)) (fun _ => .write)))))

theorem Keeps.trimCores (h : Keeps s₀ s) : Keeps s₀ s.trimCores := .fold (fun _ _ h1 => .ite h1.setReg h1.setReg.powerCore) h

theorem Keeps.applyRegs (h : Keeps s₀ s) : Keeps s₀ s.applyRegs :=
  .same (.ite h.resetRegs.resetRegs.applyLoads (.fold (fun _ _ h1 => h1.setLevel) h.resetRegs.resetRegs.applyLoads))

theorem Keeps.initQueue {e} (h : Keeps s₀ s) : Keeps s₀ (s.initQueue e) :=
  h.setReg.setReg.setReg.setReg.setReg.setReg.setReg.setQState.setQueueX

theorem Keeps.initQueues (h : Keeps s₀ s) : Keeps s₀ s.initQueues := by
  have h1 : Keeps s₀ { s with events := [] } := h.writeEvents fun _ => rfl
  exact .fold (fun _ _ hu => hu.setEvent) (.fold (fun _ _ hu => hu.initQueue) h1.same)

theorem Keeps.initRegulator {i g c depth} (h : Keeps s₀ s) : Keeps s₀ (s.initRegulator i g c depth) := h.same

theorem Keeps.initPart {e} (h : Keeps s₀ s) : Keeps s₀ (s.initPart e) :=
  .fold (fun _ _ h1 => h1.initRegulator) h.setReg.setReg.setReg.setReg.setReg.setReg.setReg.setReg

theorem Keeps.initParts (h : Keeps s₀ s) : Keeps s₀ s.initParts :=
  .fold (fun _ _ h1 => h1.setReg) (.recomputeBw (.setReg (.setReg (.setReg (.initRegulator (.initRegulator (.fold (fun _ _ h1 =>
      h1.initPart) h.same)))))))

theorem Keeps.placeAll {home i l} (h : Keeps s₀ s) : Keeps s₀ (s.placeAll home i l) := by
  induction l generalizing s i with
  | nil => exact h
  | cons e l ih => exact .ite (ih h) (ih h.readMem.writeMem)

theorem Keeps.initEmb (h : Keeps s₀ s) : Keeps s₀ s.initEmb := .fold (fun _ _ h1 => h1.readMem.same) h.same

theorem Keeps.initVision (h : Keeps s₀ s) : Keeps s₀ s.initVision :=
  .ite h.same (.setReg (.setReg (.setReg (.fold (fun _ _ h1 => h1.setCropNow) (.fold (fun _ _ h1 => h1.setBytes) (.fold (fun _ _
      h1 => h1.setBytes) h.same))))))

theorem Keeps.knownAnswers {kats drbg} (h : Keeps s₀ s) : Keeps s₀ (s.knownAnswers kats drbg) :=
  .ite (.attemptFail (.fold (fun _ _ h1 => .ite h1.incReg.attemptFail.raise h1) h)) (.fold (fun _ _ h1 => .ite
      h1.incReg.attemptFail.raise h1) h)

theorem Keeps.initSio {sio} (h : Keeps s₀ s) : Keeps s₀ (s.initSio sio) :=
  .ite h.same (.ite h.same.runOps.attemptFail h.same.runOps)

theorem Keeps.callInit {e} (h : Keeps s₀ s) : Keeps s₀ (s.callInit e) := .ite h h.same.setReg.setThread

theorem Keeps.bringupTables (h : Keeps s₀ s) : Keeps s₀ s.bringupTables := by
  unfold State.bringupTables
  extract_lets s1 s2 _ s3
  have h1 : Keeps s₀ s1 := h.powerAll
  have h2 : Keeps s₀ s2 := h1.applyRegs.trimCores.initQueues.initParts
  have h3 : Keeps s₀ s3 := h2.same
  split
  · exact h3.placeAll.initEmb.initVision.acuBringup
  · exact h3

theorem Keeps.onward {f} (h : Keeps s₀ s) (hf : ∀ x0, Keeps s₀ x0 → Keeps s₀ (f x0)) : Keeps s₀ (s.onward f) := .ite (hf _ h) h

theorem Keeps.beginLists (h : Keeps s₀ s) : Keeps s₀ s.beginLists := .fold (fun _ _ h1 => h1.callInit) h.same

theorem Keeps.endBringup (h : Keeps s₀ s) : Keeps s₀ s.endBringup := h.same.nextStep

theorem Eff.Keeps.readRow {p core w t i n} : Eff.Keeps (readRow p core w t i n) := .bind .read (fun _ => .pure)

theorem Eff.Keeps.readVec {p core w t n} : Eff.Keeps (readVec p core w t n) := .bind .read (fun _ => .pure)

theorem Eff.Keeps.writeRow {faults p core row addr bs} : Eff.Keeps (writeRow faults p core row addr bs) :=
  .ite (.bind (.modify (fun _ h0 => h0.incReg)) (fun _ => .tcFail)) (.when .write)

theorem Eff.Keeps.vopCore {c faults core} : Eff.Keeps (vopCore c faults core) :=
  .ite .pure (.bind (.when (.ite .readVec (.ite .readVec .pure))) (fun _ => .each (fun _ => .bind (.when .readRow) (fun _ =>
    .bind (.when (.ite .readRow (.ite .pure .pure))) (fun _ => .writeRow)))))

theorem Eff.Keeps.rowsCore {c faults core f} (hf : ∀ x0 x1, Eff.Keeps (f x0 x1)) : Eff.Keeps (rowsCore c faults core f) :=
  .ite .pure (.each (fun _ => .bind (.when .readRow) (fun _ => .bind (.when (hf _ _)) (fun _ => .writeRow))))

theorem Eff.Keeps.reduceCore {c faults core} : Eff.Keeps (reduceCore c faults core) := .rowsCore (fun _ => fun _ => .pure)

theorem Eff.Keeps.softmaxCore {c faults core} : Eff.Keeps (softmaxCore c faults core) :=
  .rowsCore (fun _ => fun _ => .bind (.ite .readRow .pure) (fun _ => .pure))

theorem Eff.Keeps.normCore {c faults core} : Eff.Keeps (normCore c faults core) :=
  .bind (.when (.ite .readVec .pure)) (fun _ => .bind (.when (.ite .readVec .pure)) (fun _ => .rowsCore (fun _ => fun _ =>
    .pure)))

theorem Eff.Keeps.readElem {p core w t i j} : Eff.Keeps (readElem p core w t i j) := .bind .read (fun _ => .pure)

theorem Eff.Keeps.transposeCore {c faults core} : Eff.Keeps (transposeCore c faults core) :=
  .ite .pure (.each (fun _ => .bind (.when (.map (fun _ => .readElem))) (fun _ => .writeRow)))

theorem Eff.Keeps.Geo_pixel {g p core w y x lo n} : Eff.Keeps (Geo.pixel g p core w y x lo n) :=
  .ite (.bind .read (fun _ => .pure)) .pure

theorem Eff.Keeps.Geo_feed {g p core w m k n} : Eff.Keeps (Geo.feed g p core w m k n) :=
  .bind (.map (fun _ => .Geo_pixel)) (fun _ => .pure)

theorem Eff.Keeps.winoKat {faults core} : Eff.Keeps (winoKat faults core) := fun s₀ s h => by
  unfold Machine.winoKat
  extract_lets s1
  have h1 : Machine.Keeps s₀ s1 := h.incReg
  split
  · exact (Eff.Keeps.tcFail h1.incReg.incReg)
  · exact h1

theorem Eff.Keeps.parityCheck {faults core place at_} : Eff.Keeps (parityCheck faults core place at_) := fun s₀ s h => by
  unfold Machine.parityCheck
  split
  · exact (Eff.Keeps.tcFail h.incReg.incReg)
  · exact h

theorem Eff.Keeps.winoProduct {j mode t2 block t tiles v} : Eff.Keeps (winoProduct j mode t2 block t tiles v) :=
  .map fun _ => .fold
    (fun _ _ hm => .bind hm fun _ =>
      .bind (.when (.map fun _ => .bind .read fun _ => .ite .pure .fail)) fun _ =>
        .bind (.map fun _ => .bind .get fun _ => .bind .MatJob_check fun _ => .pure) fun _ => .pure)
    .pure

theorem Eff.Keeps.winoBlock {c g j mode block tiles} : Eff.Keeps (winoBlock c g j mode block tiles) :=
  .bind (.when (.map (fun _ => .bind (.map (fun _ => .map (fun _ => .Geo_pixel))) (fun _ => .pure)))) (fun _ => .bind
    .parityCheck (fun _ => .each (fun _ => .bind (.when .MatJob_tileParams) (fun _ => .bind .winoProduct (fun _ => .each (fun _
    => .each (fun _ => .each (fun _ => .ite .pure (.bind (.when (.ite (.bind .read (fun _ => .pure)) (.ite .pure .pure))) (fun _
    => .when .write))))))))))

theorem Eff.Keeps.wconvCore {c faults core} : Eff.Keeps (wconvCore c faults core) :=
  .ite .pure (.bind .winoKat (fun _ => .bind .scramble (fun _ => .each (fun _ => .winoBlock))))

theorem Eff.Keeps.wxformCore {c faults core} : Eff.Keeps (wxformCore c faults core) :=
  .ite .pure (.bind .winoKat (fun _ => .bind (.map (fun _ => .bind (.map (fun _ => .readRow)) (fun _ => .pure))) (fun _ => .each
    (fun _ => .bind .parityCheck (fun _ => .writeRow)))))

theorem Eff.Keeps.Fold_pixel {f s2d p core x y xx} : Eff.Keeps (Fold.pixel f s2d p core x y xx) :=
  .ite (.bind (.map (fun _ => .ite .read .pure)) (fun _ => .pure)) .read

theorem Eff.Keeps.foldCore {s2d c faults core} : Eff.Keeps (foldCore s2d c faults core) :=
  .ite .pure (.each (fun _ => .bind (.when (.map (fun _ => .Fold_pixel))) (fun _ => .ite .writeRow (.when (.each (fun _ =>
    .write))))))

theorem Eff.Keeps.haloCore {c core} : Eff.Keeps (haloCore c core) := by
  unfold Machine.haloCore
  extract_lets h cores r take
  have htake (from_ g : Nat) : (take from_ g).Keeps := .bind .read fun _ => .bind .write fun _ => .modify fun _ h => h.incReg
  exact .ite .pure (.bind (.each fun _ => htake _ _) fun _ => .each fun _ => htake _ _)

theorem Eff.Keeps.SelOp_readRow {o p r} : Eff.Keeps (SelOp.readRow o p r) :=
  .bind (.map (fun _ => .bind .read (fun _ => .pure))) (fun _ => .bind (.modify (fun _ h0 => .ite h0.incReg.incReg h0.incReg))
    (fun _ => .bind .staging (fun _ => .pure)))

theorem Eff.Keeps.ties {n} : Eff.Keeps (Eff.ties n) := fun s₀ s h => by
  unfold Eff.ties
  extract_lets
  exact h.same

theorem Eff.Keeps.selError {α : Type} {cause row} : Eff.Keeps (selError (α := α) cause row) := .fail

theorem Eff.Keeps.selCheckFail {row} : Eff.Keeps (selCheckFail row) := fun s₀ s h => by
  unfold Machine.selCheckFail
  extract_lets
  exact h.incReg.raise

theorem Eff.Keeps.selFirst {c k r} : Eff.Keeps (selFirst c k r) := .bind .SelOp_readRow (fun _ => .bind .ties (fun _ => .pure))

theorem Eff.Keeps.selRow {c k bad r} (hbad : ∀ f, bad = some f → f.Keeps) : Eff.Keeps (selRow c k bad r) :=
  .checked hbad .selFirst fun _ => .write

theorem Eff.Keeps.selPass0 {c bad r} (hbad : ∀ f, bad = some f → f.Keeps) : Eff.Keeps (selPass0 c bad r) :=
  .checked hbad (.bind .SelOp_readRow fun _ => .bind .ties fun _ => .pure) fun _ => .write

theorem Eff.Keeps.selPass1 {c k bad r} (hbad : ∀ f, bad = some f → f.Keeps) : Eff.Keeps (selPass1 c k bad r) :=
  .checked hbad (.bind .read fun _ => .bind .ties fun _ => .pure) fun _ => .bind .get fun _ =>
    .ite (.bind .write fun _ => .modify fun _ h => h.scramble) .selCheckFail

theorem Eff.Keeps.selLong {c k bad r} (hbad : ∀ f, bad = some f → f.Keeps) : Eff.Keeps (selLong c k bad r) :=
  .ite (.selRow hbad) (.bind (.selPass0 fun _ h => nomatch h) fun _ => .selPass1 hbad)

theorem Eff.Keeps.selPass {c k bad x} (hbad : ∀ f, bad = some f → f.Keeps) : Eff.Keeps (selPass c k bad x) :=
  .ite (.selRow hbad) (.ite (.selPass0 hbad) (.selPass1 hbad))

theorem Eff.Keeps.of_selBad {bad r f} (e : selBad bad r = some f) : f.Keeps := by
  unfold selBad at e
  split at e
  · cases e
    exact .selCheckFail
  · cases e

theorem Eff.Keeps.of_embBad {faults r f} (e : embBad faults r = some f) : f.Keeps := by
  unfold embBad at e
  split at e
  · cases e
    exact .embMismatch
  · cases e

theorem Keeps.runSort {id op k bad} (h : Machine.Keeps s₀ s) : Machine.Keeps s₀ (s.runSort id op k bad) := by
  unfold State.runSort
  refine h.runLong fun c a b x hx => ?_
  dsimp only
  split
  · exact hx.runRows (fun _ _ hbad => .selPass hbad) fun _ _ e => .of_selBad e
  · exact hx.runRows (fun _ _ hbad => .selLong hbad) fun _ _ e => .of_selBad e

theorem Keeps.setStream {n x} (h : Keeps s₀ s) : Keeps s₀ (s.setStream n x) := h.same.setBit

theorem Eff.Keeps.selDraw {n row} : Eff.Keeps (selDraw n row) := fun s₀ s h => by
  unfold Machine.selDraw
  split
  · exact Eff.Keeps.selError h
  · split
    · exact Eff.Keeps.selError h
    · exact h.setStream.incReg

theorem Keeps.runStream {id action f} (h : Keeps s₀ s) (hf : ∀ x0 x1, Eff.Keeps (f x0 x1)) : Keeps s₀ (s.runStream id action f)
    := by
  unfold State.runStream
  split
  · split
    · exact (h.runEngine (fun _ => .bind .staging (fun _ => hf _ _)))
    · exact h
  · exact h

theorem Eff.Keeps.selSampleRow {o w0 w1 row vals} : Eff.Keeps (selSampleRow o w0 w1 row vals) := by
  unfold Machine.selSampleRow
  extract_lets tinv k p all l nan greedy k' cand top
  clear_value top
  split
  · exact .bind (.modify fun _ h => h.incReg) fun _ => .pure
  · exact .ite (.bind (.modify fun _ h => h.incReg) fun _ => .pure) (.ite .pure (.bind .selDraw fun _ => .pure))

theorem Eff.Keeps.sampleBytes {c r} : Eff.Keeps (sampleBytes c r) :=
  .bind .read (fun _ => .bind .get (fun _ => .ite .fail (.bind .SelOp_readRow (fun _ => .bind .selSampleRow (fun _ => .pure)))))

theorem Eff.Keeps.sampleRow {c bad r} (hbad : ∀ f, bad = some f → f.Keeps) : Eff.Keeps (sampleRow c bad r) :=
  .checked hbad .sampleBytes fun _ => .write

theorem Keeps.mergeFail {c cause} (h : Keeps s₀ s) : Keeps s₀ (s.mergeFail c cause) := h.same.finish

theorem Keeps.mergeIfComplete {c bad} (h : Keeps s₀ s) : Keeps s₀ (s.mergeIfComplete c bad) := by
  unfold State.mergeIfComplete
  extract_lets others own ls matched s1
  have h1 : Keeps s₀ s1 := h.same
  have hb (f : Eff Unit) (e : (if bad then some (selCheckFail 0) else none) = some f) : f.Keeps := by
    split at e
    · cases e
      exact .selCheckFail
    · cases e
  have hm := Eff.Keeps.checked hb (.staging (base := selectMem) (size := 0x200000))
    (fun _ => .write (p := c.part) (a := c.addr 2) (bs := mergeLists c.mergeK c.mergeDir ls)) h1
  split
  · exact h
  · split
    · next e => exact (Keeps.of_eq e hm).incReg.finish
    · next e => exact (Keeps.of_eq e hm).finish

theorem Keeps.matchList {c x bad} (h : Keeps s₀ s) : Keeps s₀ (s.matchList c x bad) :=
  .ite h.incReg (.ite h.mergeFail h.same.mergeIfComplete)

theorem Keeps.sendLocal {c recs} (h : Keeps s₀ s) : Keeps s₀ (s.sendLocal c recs) :=
  .fold (fun _ _ h1 => h1.grantBytes.linkSend) h

theorem Keeps.fetchSlots {p l} (h : Keeps s₀ s) : Keeps s₀ (s.fetchSlots p l).2 := by
  induction l generalizing s with
  | nil => exact h
  | cons a l ih =>
    have hr : Keeps s₀ ((s.countRd p a 64).readMem a 64).2 := h.countRd.readMem
    unfold State.fetchSlots
    split
    · next e => exact .of_eq e hr
    · next e =>
      dsimp only
      split <;> exact ih (.of_eq e hr)

theorem Keeps.fetch {f slots} (h : Keeps s₀ s) : Keeps s₀ (s.fetch f slots).2.2 := by
  unfold State.fetch
  split
  · have h1 := Keeps.of_eq ‹_› h.fetchSlots
    exact h1
  · have h1 := Keeps.of_eq ‹_› h.fetchSlots
    exact h1

theorem Keeps.addCmd {c} (h : Keeps s₀ s) : Keeps s₀ (s.addCmd c).2 := h.same

theorem Keeps.failFetch {c e} (h : Keeps s₀ s) : Keeps s₀ (s.failFetch c e) := h.setCmd.complete

theorem Keeps.startCmd {c} (h : Keeps s₀ s) : Keeps s₀ (s.startCmd c) := .ite h.setThread h.setThread.enterExec

theorem Keeps.consumeWait {p k} (h : Keeps s₀ s) : Keeps s₀ (s.consumeWait p k) := .ite h.setEvent h

theorem Keeps.takeRing {t q ptr slots seqno again words} (h : Keeps s₀ s) : Keeps s₀ (s.takeRing t q ptr slots seqno again
    words).2 :=
  .setCmd (.addCmd (.ite h.setFetch h.setFetch.setReg))

theorem Keeps.pickRing {t q} (h : Keeps s₀ s) : Keeps s₀ (s.pickRing t q) := by
  unfold State.pickRing
  extract_lets
  split
  · exact h
  · extract_lets _ r1 _ _ r2 r3 s4
    have h1 : Keeps s₀ r1.2 := h.takeRing
    have h2 : Keeps s₀ r2.2.2 := h.fetch
    have h3 : Keeps s₀ r3.2 := h2.takeRing
    have h4 : Keeps s₀ s4 := h3.consumeWait
    split
    · exact h1.setCmd.complete
    · split
      · extract_lets s5
        have h5 : Keeps s₀ s5 := h3.failFetch
        split
        · exact h5.answerJob
        · exact h5
      · exact .startCmd (.ite h4.jobGrant h4)

theorem Keeps.pickList {t f l} (h : Keeps s₀ s) : Keeps s₀ (s.pickList t f l) := by
  unfold State.pickList
  extract_lets
  split
  · exact h
  · extract_lets r1 _ r2
    have h1 : Keeps s₀ r1.2.2 := h.fetch
    have h2 : Keeps s₀ r2.2 := h1.setThread.addCmd
    split
    · exact h
    · split
      · exact h2.failFetch
      · split
        · exact h2.consumeWait.startCmd
        · exact h

theorem Keeps.pickOne {win t} (h : Keeps s₀ s) : Keeps s₀ (s.pickOne win t) :=
  .ite h (by split; exact h.pickList; exact (by split; exact h.pickRing; exact h))

theorem execSeqNop_runsFor {dt id s} : RunsFor dt s (execSeqNop dt id s) :=
  .next ((Keeps.refl _).runSeq (fun _ _ h0 => h0))

theorem execSeqSignal_runsFor {dt id s} : RunsFor dt s (execSeqSignal dt id s) :=
  .next ((Keeps.refl _).runSeq (fun _ _ h0 => .fold (fun _ _ h1 => h1.addEvent) h0))

theorem execSeqWait_runsFor {dt id s} : RunsFor dt s (execSeqWait dt id s) := by
  unfold execSeqWait
  extract_lets s0
  have h0 : Keeps s0 s0 := .refl _
  refine .next ?_
  split
  · exact h0
  · extract_lets
    split
    · exact .finish (.ite h0.setEvent h0)
    · exact h0.setCmd

theorem execSeqWaitTimeout_runsFor {dt id s} : RunsFor dt s (execSeqWaitTimeout dt id s) := by
  unfold execSeqWaitTimeout
  extract_lets s0
  have h0 : Keeps s0 s0 := .refl _
  refine .next ?_
  split
  · exact h0
  · split
    · exact h0.finish
    · exact h0

theorem execSeqSetEvent_runsFor {dt id s} : RunsFor dt s (execSeqSetEvent dt id s) :=
  .next ((Keeps.refl _).runSeq (fun _ _ h0 => h0.setEvent.satisfy))

theorem execSeqTimer_runsFor {dt id s} : RunsFor dt s (execSeqTimer dt id s) := by
  unfold execSeqTimer
  extract_lets s0
  have h0 : Keeps s0 s0 := .refl _
  refine .next ?_
  split
  · exact h0
  · extract_lets
    split
    · exact h0.finish
    · exact h0.setCmd

theorem execSeqTimerExpire_runsFor {dt id s} : RunsFor dt s (execSeqTimerExpire dt id s) := by
  unfold execSeqTimerExpire
  extract_lets s0
  have h0 : Keeps s0 s0 := .refl _
  refine .next ?_
  split
  · exact h0
  · split
    · exact h0.finish
    · exact h0

theorem execSeqRegWrite_runsFor {dt id s} : RunsFor dt s (execSeqRegWrite dt id s) :=
  .next ((Keeps.refl _).runSeq (fun _ _ h0 => .ite_snd h0.writeReg h0))

theorem execSeqRegRead_runsFor {dt id s} : RunsFor dt s (execSeqRegRead dt id s) :=
  .next ((Keeps.refl _).runSeq (fun _ _ h0 => .ite_snd h0.readReg.seqWrite h0))

theorem execSeqMemWrite_runsFor {dt id s} : RunsFor dt s (execSeqMemWrite dt id s) :=
  .next ((Keeps.refl _).runSeq (fun _ _ h0 => h0.seqWrite))

theorem execSeqCall_runsFor {dt id s} : RunsFor dt s (execSeqCall dt id s) := by
  unfold execSeqCall
  extract_lets s0
  have h0 : Keeps s0 s0 := .refl _
  refine .next ?_
  split
  · exact h0
  · extract_lets
    split
    · exact h0.finish
    · split
      · exact h0.finish
      · exact h0.setCmd.setThread

theorem execSeqBranch_runsFor {dt id s} : RunsFor dt s (execSeqBranch dt id s) := by
  refine .next ((Keeps.refl _).runSeq fun c x hx => ?_)
  dsimp only
  split
  · exact hx
  · split
    · exact hx.jumpTo
    · exact .ite hx.jumpTo hx
    · exact .ite hx.jumpTo hx
    · split
      · next e => exact .ite (Keeps.of_eq e (Eff.Keeps.load hx)).jumpTo (.of_eq e (Eff.Keeps.load hx))
      · next e => exact .of_eq e (Eff.Keeps.load hx)

theorem execSeqLoopSet_runsFor {dt id s} : RunsFor dt s (execSeqLoopSet dt id s) :=
  .next ((Keeps.refl _).runSeq (fun _ _ h0 => h0.setReg))

theorem execSeqLoop_runsFor {dt id s} : RunsFor dt s (execSeqLoop dt id s) :=
  .next ((Keeps.refl _).runSeq (fun _ _ h0 => by split; exact h0; exact (.ite h0.setReg h0.setReg.jumpTo)))

theorem execSeqDoorbell_runsFor {dt id s} : RunsFor dt s (execSeqDoorbell dt id s) :=
  .next ((Keeps.refl _).runSeq (fun _ _ h0 => .ite_snd h0.doorbell h0.doorbell.seqWrite))

theorem execQueueStop_runsFor {dt id s} : RunsFor dt s (execQueueStop dt id s) :=
  .next ((Keeps.refl _).queueCtl (fun _ _ _ h0 => h0.stopTarget))

theorem execQueueStart_runsFor {dt id s} : RunsFor dt s (execQueueStart dt id s) :=
  .next ((Keeps.refl _).queueCtl (fun _ _ _ h0 => h0.startTarget))

theorem execQueueStartSkip_runsFor {dt id s} : RunsFor dt s (execQueueStartSkip dt id s) :=
  .next ((Keeps.refl _).queueCtl (fun _ _ _ h0 => h0.skipTarget))

theorem execQueueFlush_runsFor {dt id s} : RunsFor dt s (execQueueFlush dt id s) :=
  .next ((Keeps.refl _).queueCtl (fun _ _ _ h0 => h0.flush))

theorem execQueueFlushDiscard_runsFor {dt id s} : RunsFor dt s (execQueueFlushDiscard dt id s) :=
  .next ((Keeps.refl _).queueCtl (fun _ _ _ h0 => h0.flush))

theorem execQueueRelease_runsFor {dt id s} : RunsFor dt s (execQueueRelease dt id s) :=
  .next ((Keeps.refl _).queueCtl (fun _ _ _ h0 => .ite_snd h0 h0.release))

theorem execSeqAbort_runsFor {dt id s} : RunsFor dt s (execSeqAbort dt id s) :=
  .next ((Keeps.refl _).runSeq (fun _ _ h0 => .ite_snd h0.arbiter h0.arbiter.seqWrite))

theorem execSeqNotify_runsFor {dt id s} : RunsFor dt s (execSeqNotify dt id s) := by
  unfold execSeqNotify
  extract_lets s0
  have h0 : Keeps s0 s0 := .refl _
  refine .next ?_
  split
  · exact h0
  · extract_lets s1
    have h1 : Keeps s0 s1 := h0.setCmd
    exact h1.post

theorem execCommandComplete_runsFor {dt id s} : RunsFor dt s (execCommandComplete dt id s) := by
  unfold execCommandComplete
  extract_lets s0
  have h0 : Keeps s0 s0 := .refl _
  refine .next ?_
  split
  · split
    · exact h0.complete
    · exact h0
  · exact h0

theorem execCheckpoint_runsFor {dt id s} : RunsFor dt s (execCheckpoint dt id s) := by
  unfold execCheckpoint
  extract_lets s0
  have h0 : Keeps s0 s0 := .refl _
  refine .next ?_
  split
  · exact h0
  · extract_lets s1 _ s2 _ s3
    have h1 : Keeps s0 s1 := h0.progressWord
    have h2 : Keeps s0 s2 := h1.setCmd
    have h3 : Keeps s0 s3 := .ite h2.suspend (.ite h2.finish h2)
    split
    · split
      · exact h3.post
      · exact h3
    · exact h0

theorem execCqRecordRelease_runsFor {dt cq s} : RunsFor dt s (execCqRecordRelease dt cq s) := by
  unfold execCqRecordRelease
  extract_lets s0
  have h0 : Keeps s0 s0 := .refl _
  refine .next ?_
  split
  · exact h0.drainAll
  · exact h0

theorem execSyncReceived_runsFor {dt msgs s} : RunsFor dt s (execSyncReceived dt msgs s) := by
  unfold execSyncReceived
  extract_lets s0
  have h0 : Keeps s0 s0 := .refl _
  refine .next ?_
  split
  · exact h0
  · exact .fold (fun _ _ h1 => h1.sync) h0

theorem execSyncReceiptTimeout_runsFor {dt s} : RunsFor dt s (execSyncReceiptTimeout dt s) := by
  unfold execSyncReceiptTimeout
  extract_lets s0 _ _ _ s1 s2
  have h0 : Keeps s0 s0 := .refl _
  have h1 : Keeps s0 s1 := h0.setReg
  have h2 : Keeps s0 s2 := h1.setOrbit.incReg
  refine .next ?_
  split
  · split
    · exact h0.setReg.incReg
    · exact h2.same
  · exact h0

theorem execHoldLimitExpire_runsFor {dt s} : RunsFor dt s (execHoldLimitExpire dt s) := by
  unfold execHoldLimitExpire
  extract_lets s0
  have h0 : Keeps s0 s0 := .refl _
  refine .next ?_
  split
  · exact h0.setOrbit
  · exact h0

theorem execOrbitRateCheck_runsFor {dt progress s} : RunsFor dt s (execOrbitRateCheck dt progress s) := by
  unfold execOrbitRateCheck
  extract_lets s0
  have h0 : Keeps s0 s0 := .refl _
  refine .next ?_
  split
  · exact h0
  · exact h0.excursion

theorem execFgFramePending_runsFor {dt g s} : RunsFor dt s (execFgFramePending dt g s) := by
  unfold execFgFramePending
  extract_lets s0
  have h0 : Keeps s0 s0 := .refl _
  refine .next ?_
  split
  · extract_lets _ s1
    have h1 : Keeps s0 s1 := h0.setGroup
    split
    · exact h1.incReg.fgCheck
    · exact h0
  · exact h0

theorem execFgDeadline_runsFor {dt g s} : RunsFor dt s (execFgDeadline dt g s) := by
  unfold execFgDeadline
  extract_lets s0
  have h0 : Keeps s0 s0 := .refl _
  refine .next ?_
  split
  · split
    · exact h0.fgReady
    · exact h0
  · exact h0

theorem execFgDescriptorEmit_runsFor {dt g s} : RunsFor dt s (execFgDescriptorEmit dt g s) := by
  unfold execFgDescriptorEmit
  extract_lets s0
  have h0 : Keeps s0 s0 := .refl _
  refine .next ?_
  split
  · extract_lets _ _ _ _ r1 s2 s3
    have h1 : Keeps s0 r1.2 := .ite_snd h0 h0.produce
    have h2 : Keeps s0 s2 := h1.setGroup
    have h3 : Keeps s0 s3 := .ite h2.tmuxPulse.incReg.addEvent h2.incReg
    split
    · exact h3.fgAbsences
    · exact h0
  · exact h0

theorem execPriorityMuteOnset_runsFor {dt b s} : RunsFor dt s (execPriorityMuteOnset dt b s) := by
  unfold execPriorityMuteOnset
  extract_lets s0
  have h0 : Keeps s0 s0 := .refl _
  refine .next ?_
  split
  · split
    · exact h0.same.muteLevels
    · exact h0.same.muteLevels
  · exact h0

theorem execMuteRelease_runsFor {dt s} : RunsFor dt s (execMuteRelease dt s) := by
  unfold execMuteRelease
  extract_lets s0
  have h0 : Keeps s0 s0 := .refl _
  refine .next ?_
  split
  · exact h0.same.muteLevels
  · exact h0

theorem execMuteDiscrepancy_runsFor {dt s} : RunsFor dt s (execMuteDiscrepancy dt s) := by
  unfold execMuteDiscrepancy
  extract_lets s0
  have h0 : Keeps s0 s0 := .refl _
  refine .next ?_
  split
  · split
    · exact h0.setReg.incReg.raise
    · exact h0
  · exact h0

theorem execHopComplete_runsFor {dt cap s} : RunsFor dt s (execHopComplete dt cap s) := by
  unfold execHopComplete
  extract_lets s0
  have h0 : Keeps s0 s0 := .refl _
  refine .next ?_
  split
  · extract_lets
    split
    · exact h0
    · extract_lets
      exact .fgComplete (.ite h0.hopStaging.writeMem.writeMem.setCapture.incReg (.ite
          h0.hopStaging.writeMem.writeMem.setCapture.incReg.incReg h0.hopStaging.writeMem.writeMem.setCapture.incReg.produce))
  · exact h0

theorem execSampleFrame_runsFor {dt inputs padA padB residue deadline readback s} : RunsFor dt s (execSampleFrame dt inputs padA
    padB residue deadline readback s) := by
  unfold execSampleFrame
  extract_lets s0 _ s1 late s2 pipe _ s3 s4 s5 s6
  have h0 : Keeps s0 s0 := .refl _
  have h1 : Keeps s0 s1 := h0.tmuxPulse.samplePads
  have h2 : Keeps s0 s2 := .ite h1.soundFault h1
  have h3 : Keeps s0 s3 := h2.same
  clear_value pipe s3
  have h4 : Keeps s0 s4 := by
    unfold s4
    split
    · exact h3.sendFrame
    · exact h3
  have h5 : Keeps s0 s5 := .fold (fun _ _ h5 => .ite h5.readback h5) h4
  have h6 : Keeps s0 s6 := h5.computeFrame.blockEnd
  refine .next ?_
  split
  · exact h6.same.acuShow
  · exact h0

theorem execAudioBlockEnd_runsFor {dt s} : RunsFor dt s (execAudioBlockEnd dt s) := by
  unfold execAudioBlockEnd
  extract_lets s0
  have h0 : Keeps s0 s0 := .refl _
  refine .next ?_
  split
  · extract_lets s1
    have h1 : Keeps s0 s1 := h0.same.judgeClamps
    split
    · exact h1
    · exact h1.judgeEnergy
  · exact h0

theorem execPortLockLoss_runsFor {dt n s} : RunsFor dt s (execPortLockLoss dt n s) := by
  unfold execPortLockLoss
  extract_lets s0 _ _ s1 s2 s3 s4
  have h0 : Keeps s0 s0 := .refl _
  have h1 : Keeps s0 s1 := h0.setAcuPort.setReg
  have h2 : Keeps s0 s2 := h1.setReg
  have h3 : Keeps s0 s3 := .ite h2.setReg h2
  have h4 : Keeps s0 s4 := h3.acuClock
  refine .next ?_
  split
  · split
    · exact h4
    · exact h4.incReg.raise
  · exact h0

theorem execPortRelock_runsFor {dt n s} : RunsFor dt s (execPortRelock dt n s) := by
  unfold execPortRelock
  extract_lets s0 s1 _ s2
  have h0 : Keeps s0 s0 := .refl _
  have h1 : Keeps s0 s1 := h0.setReg.setReg
  have h2 : Keeps s0 s2 := .ite h1.setAcuPort h1
  refine .next ?_
  split
  · exact h2.clockStart.acuClock
  · exact h0

theorem execPortFirstLock_runsFor {dt n s} : RunsFor dt s (execPortFirstLock dt n s) := by
  unfold execPortFirstLock
  extract_lets s0
  have h0 : Keeps s0 s0 := .refl _
  refine .next ?_
  split
  · exact h0.setAcuPort.setReg.clockStart.acuShow
  · exact h0

theorem execRateSwitch_runsFor {dt n s} : RunsFor dt s (execRateSwitch dt n s) := by
  unfold execRateSwitch
  extract_lets s0 _ s1
  have h0 : Keeps s0 s0 := .refl _
  have h1 : Keeps s0 s1 := h0.setAcuPort
  refine .next ?_
  split
  · split
    · exact h1.setReg.incReg
    · exact h0
  · exact h0

theorem execSlaveRateSettle_runsFor {dt n s} : RunsFor dt s (execSlaveRateSettle dt n s) := by
  unfold execSlaveRateSettle
  extract_lets s0 _ _ s1
  have h0 : Keeps s0 s0 := .refl _
  have h1 : Keeps s0 s1 := h0.setAcuPort
  refine .next ?_
  split
  · exact h1.setReg.setReg
  · exact h0

theorem execAcuPlay_runsFor {dt id s} : RunsFor dt s (execAcuPlay dt id s) :=
  .next ((Keeps.refl _).runEngine (fun _ => .bind .read (fun _ => .bind .get (fun _ => .ite (.bind (.modify (fun _ h0 => .fold
      (fun _ _ h1 => h1.incReg) h0)) (fun _ => .acuResult)) (.ite .acuResult (.bind (.modify (fun _ h0 => .fold (fun _ _ h1 =>
      h1.playPlace) h0)) (fun _ => .acuResult)))))))

theorem execAcuHold_runsFor {dt id s} : RunsFor dt s (execAcuHold dt id s) := by
  refine .next ((Keeps.refl _).runEngine fun c => .bind .get fun x => ?_)
  dsimp only
  split
  · exact .acuResult
  · exact .ite .acuResult (.bind (.modify fun _ h => h.setCapHeld) fun _ => .acuResult)

theorem execAcuRelease_runsFor {dt id s} : RunsFor dt s (execAcuRelease dt id s) := by
  refine .next ((Keeps.refl _).runEngine fun c => .bind .get fun x => ?_)
  dsimp only
  split
  · exact .ite (.bind (.modify fun _ h => h.setCapHeld) fun _ => .acuResult) .acuResult
  · exact .acuResult

theorem execAcuDuck_runsFor {dt id s} : RunsFor dt s (execAcuDuck dt id s) :=
  .next ((Keeps.refl _).runEngine (fun _ => .modify (fun _ h0 => h0.same.acuShow)))

theorem execAncResume_runsFor {dt id s} : RunsFor dt s (execAncResume dt id s) :=
  .next ((Keeps.refl _).runAnc (fun _ _ _ h0 => h0.ancClear))

theorem execAncHold_runsFor {dt id s} : RunsFor dt s (execAncHold dt id s) :=
  .next ((Keeps.refl _).runAnc (fun _ _ _ h0 => h0.ancCause))

theorem execAncStop_runsFor {dt id s} : RunsFor dt s (execAncStop dt id s) :=
  .next ((Keeps.refl _).runAnc (fun _ _ _ h0 => h0.ancCause))

theorem execAcuRate_runsFor {dt id s} : RunsFor dt s (execAcuRate dt id s) :=
  .next ((Keeps.refl _).runEngine (fun _ => .bind .get (fun _ => .ite .acuResult (.ite .acuResult (.ite .acuResult (.bind
      (.modify (fun _ h0 => h0.setAcuPort.setReg)) (fun _ => .acuResult)))))))

theorem execTcMma_runsFor {dt id faults s} : RunsFor dt s (execTcMma dt id faults s) :=
  .next ((Keeps.refl _).runTensor fun _ _ => .MatJob_run fun _ _ _ => .bind .read fun _ => .pure)

theorem execTcSelftest_runsFor {dt id faults s} : RunsFor dt s (execTcSelftest dt id faults s) :=
  .next ((Keeps.refl _).runTensor (fun _ => fun _ => .selftestCore))

theorem execTokEncode_runsFor {dt id s} : RunsFor dt s (execTokEncode dt id s) := by
  refine .next ((Keeps.refl _).runEngine fun c _ x hx => ?_)
  split
  · exact Eff.Keeps.encodeText hx
  · exact hx

theorem execTokDecode_runsFor {dt id s} : RunsFor dt s (execTokDecode dt id s) := by
  refine .next ((Keeps.refl _).runEngine fun c _ x hx => ?_)
  split
  · exact Eff.Keeps.decodeText hx
  · exact hx

theorem execSlotOpen_runsFor {dt id s} : RunsFor dt s (execSlotOpen dt id s) :=
  .next ((Keeps.refl _).runSlot (fun _ => fun _ => .bind .get (fun _ => .ite .slotResult (.bind (.modify (fun _ h0 =>
      h0.setSlot)) (fun _ => .slotResult)))))

theorem execSlotClose_runsFor {dt id s} : RunsFor dt s (execSlotClose dt id s) :=
  .next ((Keeps.refl _).runSlot (fun _ => fun _ => .bind .get (fun _ => .ite .slotResult (.bind (.ite .pure .write) (fun _ =>
      .bind (.modify (fun _ h0 => h0.setSlot)) (fun _ => .slotResult))))))

theorem execTokList_runsFor {dt id s} : RunsFor dt s (execTokList dt id s) :=
  .next ((Keeps.refl _).runEngine (fun _ => .bind .get (fun _ => .bind .write (fun _ => .slotResult))))

theorem execTokMask_runsFor {dt id s} : RunsFor dt s (execTokMask dt id s) :=
  .next ((Keeps.refl _).runEngine (fun _ => .maskRows))

theorem execTokStep_runsFor {dt id s} : RunsFor dt s (execTokStep dt id s) :=
  .next ((Keeps.refl _).runEngine (fun _ => .stepSlots))

theorem execCopyLinear_runsFor {dt id s} : RunsFor dt s (execCopyLinear dt id s) :=
  .next ((Keeps.refl _).runLong (fun _ _ _ _ h0 => h0.copyRun))

theorem execCopyStrided_runsFor {dt id s} : RunsFor dt s (execCopyStrided dt id s) :=
  .next ((Keeps.refl _).runLong (fun _ _ _ _ h0 => h0.copyRuns))

theorem execCopyTranspose_runsFor {dt id s} : RunsFor dt s (execCopyTranspose dt id s) :=
  .next ((Keeps.refl _).runLong (fun _ _ _ _ h0 => h0.copyRuns))

theorem execCopyFill_runsFor {dt id s} : RunsFor dt s (execCopyFill dt id s) :=
  .next ((Keeps.refl _).runLong (fun _ _ _ _ h0 => h0.copyOut))

theorem execScrubWindow_runsFor {dt i b s} : RunsFor dt s (execScrubWindow dt i b s) := by
  unfold execScrubWindow
  extract_lets s0
  have h0 : Keeps s0 s0 := .refl _
  refine .next ?_
  split
  · exact h0
  · extract_lets
    exact .ite h0 (.ite h0.scrubWords.setScrub.countPass h0.scrubWords.setScrub)

theorem execScrubForced_runsFor {dt i s} : RunsFor dt s (execScrubForced dt i s) := by
  unfold execScrubForced
  extract_lets s0 _ s1 s2
  have h0 : Keeps s0 s0 := .refl _
  have h1 : Keeps s0 s1 := h0.setScrub
  have h2 : Keeps s0 s2 := .ite h1.incReg h1.incReg
  refine .next ?_
  split
  · exact h2.raise
  · exact h0

theorem execPatrolRead_runsFor {dt n s} : RunsFor dt s (execPatrolRead dt n s) := by
  unfold execPatrolRead
  extract_lets s0 _ _ _ _ _ s1 s2
  have h0 : Keeps s0 s0 := .refl _
  have h1 : Keeps s0 s1 := h0.scrubWords
  have h2 : Keeps s0 s2 := h1.incReg
  refine .next ?_
  split
  · split
    · exact h2.same
    · exact h1.same
  · exact h0

theorem execLinkEccReissue_runsFor {dt addr good work s} : RunsFor dt s (execLinkEccReissue dt addr good work s) := by
  unfold execLinkEccReissue
  extract_lets s0 _ _ _ s1 s2
  have h0 : Keeps s0 s0 := .refl _
  have h1 : Keeps s0 s1 := h0.same.incReg
  have h2 : Keeps s0 s2 := by
    unfold s2
    split
    · exact h1.finish
    · exact h1
  refine .next ?_
  split
  · exact h0
  · split
    · split
      · exact h0.same
      · exact h0.incReg
    · split
      · exact h0.same.incReg
      · exact h2.raise

theorem execRefreshReportRead_runsFor {dt rates s} : RunsFor dt s (execRefreshReportRead dt rates s) := by
  unfold execRefreshReportRead
  extract_lets s0 _ s1 _ _ _ s2 s3
  have h0 : Keeps s0 s0 := .refl _
  have h1 : Keeps s0 s1 := .fold (fun _ _ h1 => h1.setReg) h0
  have h2 : Keeps s0 s2 := .ite h1 h1.setReg.incReg
  have h3 : Keeps s0 s3 := .ite h2.recomputeBw h2
  refine .next ?_
  split
  · exact h0
  · exact h3.excursion

theorem execJobWatchdogExpire_runsFor {dt p s} : RunsFor dt s (execJobWatchdogExpire dt p s) := by
  unfold execJobWatchdogExpire
  extract_lets s0 _ s1 s2
  have h0 : Keeps s0 s0 := .refl _
  have h1 : Keeps s0 s1 := h0.same
  have h2 : Keeps s0 s2 := h1.q2
  refine .next ?_
  split
  · split
    · exact h2.raise
    · exact h0
  · exact h0

theorem execDeadlockDetect_runsFor {dt p s} : RunsFor dt s (execDeadlockDetect dt p s) := by
  unfold execDeadlockDetect
  extract_lets s0 _ _ _ s1 s2 s3
  have h0 : Keeps s0 s0 := .refl _
  have h1 : Keeps s0 s1 := h0.same
  have h2 : Keeps s0 s2 := h1.q2
  have h3 : Keeps s0 s3 := .fold (fun _ _ h3 => h3.waitRecord) h2
  refine .next ?_
  split
  · exact h3.raise
  · exact h0

theorem execStatusRead_runsFor {dt s} : RunsFor dt s (execStatusRead dt s) :=
  .next ((Keeps.refl _).intake (fun _ _ _ h0 => h0.withRights (fun _ h1 => .ite h1.incReg.reply h1.incReg.readRegs.reply)))

theorem execLogRead_runsFor {dt s} : RunsFor dt s (execLogRead dt s) :=
  .next ((Keeps.refl _).intake (fun _ _ _ h0 => h0.withRights (fun _ h1 => h1.incReg.reply)))

theorem execUndefinedRequestType_runsFor {dt s} : RunsFor dt s (execUndefinedRequestType dt s) :=
  .next ((Keeps.refl _).intake (fun _ _ _ h0 => h0.refuse))

theorem execSubmit_runsFor {dt s} : RunsFor dt s (execSubmit dt s) := by
  refine .next ((Keeps.refl _).intake fun _ _ _ h => h.unlessDuplicate fun _ h1 => h1.withRights fun _ h2 => ?_)
  split
  · exact h2.refuse
  · exact .ite h2.refuse h2.submit

theorem execAbort_runsFor {dt s} : RunsFor dt s (execAbort dt s) := by
  refine .next ((Keeps.refl _).intake fun r i x hx => hx.unlessDuplicate fun y hy => hy.withRights fun z hz => ?_)
  extract_lets target route q jq item s1 e s2
  have h2 :Keeps _ s2 := hz.incReg.openEntry
  clear_value target s2
  refine .ite hz.refuse ?_
  split
  · exact h2.closeEntry
  · refine .ite h2.closeEntry ?_
    split
    · exact h2.arbiter.closeEntry
    · exact .ite h2.produce h2.produce.loseRequest

theorem execResponseItem_runsFor {dt q s} : RunsFor dt s (execResponseItem dt q s) := by
  unfold execResponseItem
  extract_lets s0
  have h0 : Keeps s0 s0 := .refl _
  refine .next ?_
  split
  · exact h0.takeResponse
  · exact h0

theorem execTideCommitComplete_runsFor {dt s} : RunsFor dt s (execTideCommitComplete dt s) := by
  unfold execTideCommitComplete
  extract_lets s0
  have h0 : Keeps s0 s0 := .refl _
  refine .next ?_
  split
  · split
    · extract_lets _ s1 s2 r3 s4 _ s5
      have h1 : Keeps s0 s1 := h0.writeFram
      have h2 : Keeps s0 s2 := h1.incReg
      have h3 : Keeps s0 r3.2 := h2.incReg.tideRound
      have h4 : Keeps s0 s4 := h3.tideLog
      have h5 : Keeps s0 s5 := .ite (.plogFlush (.fold (fun _ _ h5 => h5.tideWrite) h4.same)) h2
      exact h5.tideBegin
    · exact h0
  · exact h0

theorem execPulseOutputTimer_runsFor {dt j s} : RunsFor dt s (execPulseOutputTimer dt j s) := by
  unfold execPulseOutputTimer
  extract_lets s0
  have h0 : Keeps s0 s0 := .refl _
  refine .next ?_
  split
  · split
    · split
      · exact h0.setTideOut
      · exact h0.setTideOut.tideEmit
    · exact h0
  · exact h0

theorem execMeterSample_runsFor {dt xs s} : RunsFor dt s (execMeterSample dt xs s) := by
  unfold execMeterSample
  extract_lets s0
  have h0 : Keeps s0 s0 := .refl _
  refine .next ?_
  split
  · exact .fold (fun _ _ h3 => h3.tideShare.tideLoose.tideEmit) (.same (.freeWithin (.fold (fun _ _ h2 => h2.tideSwitch)
      h0.tideCals)))
  · exact h0

theorem execCycleClose_runsFor {dt frac mhz ph s} : RunsFor dt s (execCycleClose dt frac mhz ph s) := by
  unfold execCycleClose
  extract_lets s0
  have h0 : Keeps s0 s0 := .refl _
  refine .next ?_
  split
  · split
    · split
      · exact h0.tideClose.setReg
      · exact h0
    · split
      · exact h0.tideClose
      · exact h0
  · exact h0

theorem execMainsLockChange_runsFor {dt gained frac mhz ph s} : RunsFor dt s (execMainsLockChange dt gained frac mhz ph s) := by
  unfold execMainsLockChange
  extract_lets s0 s1 _ s2 _ s3 _ s4
  have h0 : Keeps s0 s0 := .refl _
  have h1 : Keeps s0 s1 := h0.tideClose
  have h2 : Keeps s0 s2 := h1.same
  have h3 : Keeps s0 s3 := h0.tideClose
  have h4 : Keeps s0 s4 := h3.same
  refine .next ?_
  split
  · split
    · split
      · exact h2.setReg.setReg.tideLog
      · exact h0
    · exact h4.setReg.setReg.tideLog
  · exact h0

theorem execHarmonicWindow_runsFor {dt harm derived s} : RunsFor dt s (execHarmonicWindow dt harm derived s) := by
  unfold execHarmonicWindow
  extract_lets s0 _ _ _ s1
  have h0 : Keeps s0 s0 := .refl _
  have h1 : Keeps s0 s1 := h0.same
  refine .next ?_
  split
  · split
    · exact h1
    · exact h1.same
  · exact h0

theorem execLatch_runsFor {dt s} : RunsFor dt s (execLatch dt s) := by
  unfold execLatch
  extract_lets s0
  have h0 : Keeps s0 s0 := .refl _
  refine .next ?_
  split
  · extract_lets s1
    have h1 : Keeps s0 s1 := h0.tideTake
    split
    · exact h1.tideCommit
    · extract_lets s2
      have h2 : Keeps s0 s2 := h1.tideCommit.tideLog
      exact h2.tideAdopt
  · exact h0

theorem execMclkFault_runsFor {dt on s} : RunsFor dt s (execMclkFault dt on s) := by
  unfold execMclkFault
  extract_lets s0
  have h0 : Keeps s0 s0 := .refl _
  refine .next ?_
  split
  · exact h0.setReg.tideCond
  · exact h0

theorem execChannelFault_runsFor {dt c on s} : RunsFor dt s (execChannelFault dt c on s) := by
  unfold execChannelFault
  extract_lets s0
  have h0 : Keeps s0 s0 := .refl _
  refine .next ?_
  split
  · exact h0.setBit.tideCond
  · exact h0

theorem execOverload_runsFor {dt c on s} : RunsFor dt s (execOverload dt c on s) := by
  unfold execOverload
  extract_lets s0
  have h0 : Keeps s0 s0 := .refl _
  refine .next ?_
  split
  · exact h0.tideCond
  · exact h0

theorem execPulseInputEdge_runsFor {dt k level sub s} : RunsFor dt s (execPulseInputEdge dt k level sub s) := by
  unfold execPulseInputEdge
  extract_lets s0
  have h0 : Keeps s0 s0 := .refl _
  refine .next ?_
  split
  · have h1 : Keeps s0 (s0.stamp sub 100).2 := h0.stamp
    exact h1.setTideIn
  · exact h0

theorem execPulseInputAccept_runsFor {dt k s} : RunsFor dt s (execPulseInputAccept dt k s) := by
  unfold execPulseInputAccept
  extract_lets s0 _ _ _ s1
  have h0 : Keeps s0 s0 := .refl _
  have h1 : Keeps s0 s1 := h0.setTideIn
  refine .next ?_
  split
  · split
    · exact h1.incReg
    · exact h1
  · exact h0

theorem execMtrSnap_runsFor {dt id s} : RunsFor dt s (execMtrSnap dt id s) :=
  .next ((Keeps.refl _).runEngine fun _ _ _ h => Eff.Keeps.write h.snapshot)

theorem execMeterRead_runsFor {dt s} : RunsFor dt s (execMeterRead dt s) :=
  .next ((Keeps.refl _).intake (fun _ _ _ h0 => h0.withRights (fun _ h1 => .ite h1.refuse (.ite h1.snapshot.same.incReg.reply
      (.ite h1.reply (.ite h1.snapshot.produce.same.incReg.reply.same h1.snapshot.produce.same.incReg.reply.release))))))

theorem execIdcode_runsFor {dt s} : RunsFor dt s (execIdcode dt s) :=
  .next ((Keeps.refl _).tap (fun _ h0 => h0.emit))

theorem execSamplePreload_runsFor {dt pins shift s} : RunsFor dt s (execSamplePreload dt pins shift s) :=
  .next ((Keeps.refl _).tap (fun _ h0 => h0.emit.same))

theorem execExtest_runsFor {dt shift s} : RunsFor dt s (execExtest dt shift s) :=
  .next ((Keeps.refl _).tap (fun _ h0 => h0.same))

theorem execBypass_runsFor {dt code s} : RunsFor dt s (execBypass dt code s) := by
  unfold execBypass
  refine .next ?_
  split
  · exact .refl _
  · split
    · exact .refl _
    · exact ((Keeps.refl _).tap (fun _ h0 => h0))

theorem execDbgAuthCapture_runsFor {dt s} : RunsFor dt s (execDbgAuthCapture dt s) :=
  .next ((Keeps.refl _).tap (fun _ h0 => h0.freeBelow.emit.same))

theorem execDbgAuthResponse_runsFor {dt resp s} : RunsFor dt s (execDbgAuthResponse dt resp s) :=
  .next ((Keeps.refl _).tap (fun _ h0 => .ite h0.same.setReg (.ite h0.same.incReg.same.setReg h0.same.incReg.same)))

theorem execTrstNAssert_runsFor {dt low s} : RunsFor dt s (execTrstNAssert dt low s) := by
  unfold execTrstNAssert
  extract_lets s0
  have h0 : Keeps s0 s0 := .refl _
  exact .next (h0.same)

theorem execFramDataRead_runsFor {dt s} : RunsFor dt s (execFramDataRead dt s) :=
  .next ((Keeps.refl _).tap (fun _ h0 => h0.readReg))

theorem execTmuxSelWrite_runsFor {dt n v s} : RunsFor dt s (execTmuxSelWrite dt n v s) :=
  .next ((Keeps.refl _).tap (fun _ h0 => .ite h0.writeReg h0))

theorem execPlogCountRead_runsFor {dt s} : RunsFor dt s (execPlogCountRead dt s) :=
  .next ((Keeps.refl _).readReg)

theorem execCounterLowWordRead_runsFor {dt addr s} : RunsFor dt s (execCounterLowWordRead dt addr s) := by
  unfold execCounterLowWordRead
  extract_lets s0
  have h0 : Keeps s0 s0 := .refl _
  refine .next ?_
  split
  · exact h0.readReg
  · exact h0

theorem execRegisterWrite_runsFor {dt addr value mask s} : RunsFor dt s (execRegisterWrite dt addr value mask s) := by
  unfold execRegisterWrite
  extract_lets s0 s1
  have h0 : Keeps s0 s0 := .refl _
  have h1 : Keeps s0 s1 := h0.writeReg
  refine .next ?_
  split
  · exact h0
  · split
    · exact h1.setRegWord
    · exact h1

theorem execLockstepMismatch_runsFor {dt pair s} : RunsFor dt s (execLockstepMismatch dt pair s) := by
  unfold execLockstepMismatch
  extract_lets s0
  have h0 : Keeps s0 s0 := .refl _
  refine .next ?_
  split
  · exact h0
  · split
    · exact h0.raise
    · split
      · exact h0.mismatch
      · exact h0

theorem execSplitHandoverBegin_runsFor {dt s} : RunsFor dt s (execSplitHandoverBegin dt s) := by
  unfold execSplitHandoverBegin
  extract_lets s0
  have h0 : Keeps s0 s0 := .refl _
  refine .next ?_
  split
  · extract_lets s1
    have h1 : Keeps s0 s1 := h0.setEvent.setReg
    split
    · exact h1.same
    · exact h0
  · exact h0

theorem execSplitHandoverComplete_runsFor {dt mismatch s} : RunsFor dt s (execSplitHandoverComplete dt mismatch s) := by
  unfold execSplitHandoverComplete
  extract_lets s0 _ s1
  have h0 : Keeps s0 s0 := .refl _
  have h1 : Keeps s0 s1 := h0.same
  refine .next ?_
  split
  · extract_lets _ s2 s3 s4
    have h2 : Keeps s0 s2 := h1.setReg.setReg
    have h3 : Keeps s0 s3 := h2.setReg
    have h4 : Keeps s0 s4 := .fold (fun _ _ h4 => .fold (fun _ _ h5 => h5.setReg) h4.setThread) h3
    split
    · split
      · exact h1.mismatch
      · exact h4.raise
    · exact h0
  · exact h0

theorem execSplitTimeout_runsFor {dt s} : RunsFor dt s (execSplitTimeout dt s) := by
  unfold execSplitTimeout
  extract_lets s0
  have h0 : Keeps s0 s0 := .refl _
  refine .next ?_
  split
  · split
    · exact h0.same.raise
    · exact h0
  · exact h0

theorem execIslandWatchdogExpire_runsFor {dt s} : RunsFor dt s (execIslandWatchdogExpire dt s) := by
  unfold execIslandWatchdogExpire
  extract_lets s0
  have h0 : Keeps s0 s0 := .refl _
  refine .next ?_
  split
  · exact h0.same.raise
  · exact h0

theorem execOscCrossCheck_runsFor {dt count s} : RunsFor dt s (execOscCrossCheck dt count s) := by
  unfold execOscCrossCheck
  extract_lets s0
  have h0 : Keeps s0 s0 := .refl _
  refine .next ?_
  split
  · exact h0
  · exact h0.excursion

theorem execIslandSupervisionCycle_runsFor {dt reports s} : RunsFor dt s (execIslandSupervisionCycle dt reports s) := by
  unfold execIslandSupervisionCycle
  extract_lets s0 _ _ s1 s2 s3
  have h0 : Keeps s0 s0 := .refl _
  have h1 : Keeps s0 s1 := h0.same
  have h2 : Keeps s0 s2 := .ite h1.raise h1
  have h3 : Keeps s0 s3 := .ite (.fold (fun _ _ h3 => .ite h3.compareUnit h3) h2) h2
  refine .next ?_
  split
  · exact h0
  · split
    · exact h3.same
    · exact h3

theorem execPinReadbackSample_runsFor {dt faultPad hbPad s} : RunsFor dt s (execPinReadbackSample dt faultPad hbPad s) := by
  unfold execPinReadbackSample
  extract_lets s0 _ _ s1 _ _ _ s2 _ s3
  have h0 : Keeps s0 s0 := .refl _
  have h1 : Keeps s0 s1 := h0.setReg.setReg
  have h2 : Keeps s0 s2 := h1.same
  have h3 : Keeps s0 s3 := .ite h2.excursion h2
  refine .next ?_
  split
  · exact h0
  · split
    · exact h3.excursion
    · exact h3

theorem execFaultRecordWrite_runsFor {dt s} : RunsFor dt s (execFaultRecordWrite dt s) := by
  unfold execFaultRecordWrite
  extract_lets s0
  have h0 : Keeps s0 s0 := .refl _
  refine .next ?_
  split
  · exact h0
  · split
    · exact h0
    · extract_lets s1
      have h1 : Keeps s0 s1 := h0.plogFlush.writeFaultRecord
      split
      · exact h1.escalate
      · exact h1

theorem execIslandRestart_runsFor {dt passed s} : RunsFor dt s (execIslandRestart dt passed s) := by
  unfold execIslandRestart
  extract_lets s0 _ s1 s2 s3 s4
  have h0 : Keeps s0 s0 := .refl _
  have h1 : Keeps s0 s1 := h0.same
  have h2 : Keeps s0 s2 := h1.setReg
  have h3 : Keeps s0 s3 := .fold (fun _ _ h3 => h3.writeFaultRecord) h2.plogFlush
  have h4 : Keeps s0 s4 := .ite h3.countEntry h3
  refine .next ?_
  split
  · exact h0
  · split
    · exact h0.same
    · split
      · exact h4
      · exact h4.enterOut

theorem execComputeResetAssert_runsFor {dt s} : RunsFor dt s (execComputeResetAssert dt s) := by
  unfold execComputeResetAssert
  extract_lets s0 s1
  have h0 : Keeps s0 s0 := .refl _
  have h1 : Keeps s0 s1 := h0.assertReset
  refine .next ?_
  split
  · exact h1.same
  · exact h0

theorem execThreadWatchdogExpire_runsFor {dt t s} : RunsFor dt s (execThreadWatchdogExpire dt t s) := by
  unfold execThreadWatchdogExpire
  extract_lets s0 _ _ _ _ s1
  have h0 : Keeps s0 s0 := .refl _
  have h1 : Keeps s0 s1 := h0.q2
  refine .next ?_
  split
  · exact h1.boundary.raise
  · exact h0

theorem execEngineHeartbeatLoss_runsFor {dt cls i last s} : RunsFor dt s (execEngineHeartbeatLoss dt cls i last s) := by
  unfold execEngineHeartbeatLoss
  extract_lets s0
  have h0 : Keeps s0 s0 := .refl _
  refine .next ?_
  split
  · exact h0.q2.raise
  · exact h0

theorem execNetworkTimeout_runsFor {dt cls i addr work s} : RunsFor dt s (execNetworkTimeout dt cls i addr work s) := by
  unfold execNetworkTimeout
  extract_lets s0 s1 _ s2 s3 s4
  have h0 : Keeps s0 s0 := .refl _
  have h1 : Keeps s0 s1 := h0.supersede
  have h2 : Keeps s0 s2 := .ite h1.same h0
  have h3 : Keeps s0 s3 := h2.q2
  have h4 : Keeps s0 s4 := h3.raise
  refine .next ?_
  split
  · exact h0
  · exact h4.netLoss

theorem execLateResponse_runsFor {dt s} : RunsFor dt s (execLateResponse dt s) :=
  .next ((Keeps.refl _).incReg)

theorem execPorstNAssert_runsFor {dt s} : RunsFor dt s (execPorstNAssert dt s) := by
  unfold execPorstNAssert
  extract_lets s0 _ s1 s2
  have h0 : Keeps s0 s0 := .refl _
  have h1 : Keeps s0 s1 := h0.same
  have h2 : Keeps s0 s2 := h1.unseal.supersedeReissue.stopEngines.stopGroups
  refine .next ?_
  split
  · exact h2.same
  · exact h1

theorem execAonInputFail_runsFor {dt bak s} : RunsFor dt s (execAonInputFail dt bak s) := by
  unfold execAonInputFail
  extract_lets s0 s1 _ s2
  have h0 : Keeps s0 s0 := .refl _
  have h1 : Keeps s0 s1 := h0.setAonValid
  have h2 : Keeps s0 s2 := .ite h1 h1.same
  refine .next ?_
  split
  · exact h0
  · split
    · exact h2
    · split
      · exact h2.aonSwitch
      · exact h2.setReg.incReg.tideLoss

theorem execAonInputValid_runsFor {dt bak s} : RunsFor dt s (execAonInputValid dt bak s) := by
  unfold execAonInputValid
  extract_lets s0 s1 _ s2 s3
  have h0 : Keeps s0 s0 := .refl _
  have h1 : Keeps s0 s1 := h0.setAonValid
  have h2 : Keeps s0 s2 := .ite h1 h1.same
  have h3 : Keeps s0 s3 := h2.setReg
  refine .next ?_
  split
  · exact h0
  · split
    · split
      · exact h3
      · exact h3.aonSwitch
    · exact h2

theorem execAonBackToMain_runsFor {dt s} : RunsFor dt s (execAonBackToMain dt s) := by
  unfold execAonBackToMain
  extract_lets s0
  have h0 : Keeps s0 s0 := .refl _
  refine .next ?_
  split
  · split
    · exact h0.aonSwitch
    · exact h0
  · exact h0

theorem execPmicPgFall_runsFor {dt kept s} : RunsFor dt s (execPmicPgFall dt kept s) := by
  unfold execPmicPgFall
  extract_lets s0 s1 s2 s3 s4 s5 s6 s7 s8
  have h0 : Keeps s0 s0 := .refl _
  have h1 : Keeps s0 s1 := h0.setReg
  have h2 : Keeps s0 s2 := h1.incReg.raise
  have h3 : Keeps s0 s3 := h2.saveAnswers
  have h4 : Keeps s0 s4 := h3.same
  have h5 : Keeps s0 s5 := h4.stopEngines.computeLoss
  have h6 : Keeps s0 s6 := .fold (fun _ _ h6 => h6.powerOff) h5
  have h7 : Keeps s0 s7 := .ite h6 h6.loseDram
  have h8 : Keeps s0 s8 := h7.unseal.supersedeReissue.stopEngines.stopGroups
  refine .next ?_
  split
  · exact h0
  · split
    · exact h1
    · split
      · split
        · exact h8.same
        · exact h7.same
        · exact h7
      · split
        · exact h7.same
        · exact h7

theorem execPmicPgRise_runsFor {dt s} : RunsFor dt s (execPmicPgRise dt s) := by
  unfold execPmicPgRise
  extract_lets s0 s1
  have h0 : Keeps s0 s0 := .refl _
  have h1 : Keeps s0 s1 := h0.setReg
  refine .next ?_
  split
  · exact h0
  · split
    · exact h1.same
    · split
      · split
        · exact h1.setReg.beginSelect
        · exact h1
      · split
        · exact h1.same
        · exact h1

theorem execRailMonitorFault_runsFor {dt r on s} : RunsFor dt s (execRailMonitorFault dt r on s) := by
  unfold execRailMonitorFault
  extract_lets s0 s1
  have h0 : Keeps s0 s0 := .refl _
  have h1 : Keeps s0 s1 := h0.setBit
  refine .next ?_
  split
  · split
    · exact h1.excursion
    · split
      · exact h1.excursion
      · exact h1
  · exact h0

theorem execDomainPowerGoodTimeout_runsFor {dt d s} : RunsFor dt s (execDomainPowerGoodTimeout dt d s) := by
  unfold execDomainPowerGoodTimeout
  extract_lets s0
  have h0 : Keeps s0 s0 := .refl _
  refine .next ?_
  split
  · exact h0.same.raise
  · exact h0

theorem execClockMonitorWindow_runsFor {dt c count s} : RunsFor dt s (execClockMonitorWindow dt c count s) := by
  unfold execClockMonitorWindow
  extract_lets s0
  have h0 : Keeps s0 s0 := .refl _
  refine .next ?_
  split
  · exact h0
  · split
    · exact h0
    · exact h0.same.judgeClock

theorem execPllLossOfLock_runsFor {dt p lost s} : RunsFor dt s (execPllLossOfLock dt p lost s) := by
  unfold execPllLossOfLock
  extract_lets s0 _ s1 _ s2
  have h0 : Keeps s0 s0 := .refl _
  have h1 : Keeps s0 s1 := .ite h0.setBit h0
  have h2 : Keeps s0 s2 := h1.same
  refine .next ?_
  split
  · exact h0
  · exact .fold (fun _ _ h3 => h3.judgeClock) h2

theorem execThermalReading_runsFor {dt readings s} : RunsFor dt s (execThermalReading dt readings s) := by
  unfold execThermalReading
  extract_lets s0
  have h0 : Keeps s0 s0 := .refl _
  refine .next ?_
  split
  · exact h0
  · exact .fold (fun _ _ h1 => by split; exact h1.readSensor; exact h1) h0

theorem execEthFrameReceive_runsFor {dt p sub f s} : RunsFor dt s (execEthFrameReceive dt p sub f s) := by
  unfold execEthFrameReceive
  extract_lets s0 r1 s2
  have h0 : Keeps s0 s0 := .refl _
  have h1 : Keeps s0 r1.2 := h0.stamp
  have h2 : Keeps s0 s2 := h1
  refine .next ?_
  split
  · exact h0
  · split
    · split
      · exact h2.incReg
      · exact h2.same
    · exact h2.ethFrame

theorem execReassemblyTimeout_runsFor {dt p s} : RunsFor dt s (execReassemblyTimeout dt p s) := by
  unfold execReassemblyTimeout
  extract_lets s0
  have h0 : Keeps s0 s0 := .refl _
  refine .next ?_
  split
  · split
    · exact h0.setReasms.incReg
    · exact h0
  · exact h0

theorem execEthLinkChange_runsFor {dt p up s} : RunsFor dt s (execEthLinkChange dt p up s) := by
  unfold execEthLinkChange
  extract_lets s0
  have h0 : Keeps s0 s0 := .refl _
  refine .next ?_
  split
  · exact h0.setReg
  · exact h0

theorem execPciePerstN_runsFor {dt level s} : RunsFor dt s (execPciePerstN dt level s) := by
  unfold execPciePerstN
  extract_lets s0 _ s1
  have h0 : Keeps s0 s0 := .refl _
  have h1 : Keeps s0 s1 := h0.same
  refine .next ?_
  split
  · exact h1
  · exact h1.setReg.setReg.setReg

theorem execPcieLinkChange_runsFor {dt up gen width s} : RunsFor dt s (execPcieLinkChange dt up gen width s) := by
  unfold execPcieLinkChange
  extract_lets s0
  have h0 : Keeps s0 s0 := .refl _
  refine .next ?_
  split
  · exact h0.setReg.setReg.setReg
  · split
    · exact h0
    · exact h0.setReg.setReg.setReg

theorem execReqDoorbell_runsFor {dt v data s} : RunsFor dt s (execReqDoorbell dt v data s) := by
  unfold execReqDoorbell
  extract_lets s0 _ _ s1
  have h0 : Keeps s0 s0 := .refl _
  have h1 : Keeps s0 s1 := h0.same
  refine .next ?_
  split
  · exact h0
  · split
    · exact h1.incReg
    · split
      · exact h1.same
      · exact h1.takeBell

theorem execRspRptrWrite_runsFor {dt v s} : RunsFor dt s (execRspRptrWrite dt v s) := by
  unfold execRspRptrWrite
  extract_lets s0
  have h0 : Keeps s0 s0 := .refl _
  refine .next ?_
  split
  · exact h0.same
  · exact h0

theorem execIntClear_runsFor {dt same s} : RunsFor dt s (execIntClear dt same s) := by
  unfold execIntClear
  extract_lets s0
  have h0 : Keeps s0 s0 := .refl _
  refine .next ?_
  split
  · exact h0.same
  · exact h0

theorem execCanFrameReceive_runsFor {dt k id ide fd d s} : RunsFor dt s (execCanFrameReceive dt k id ide fd d s) := by
  unfold execCanFrameReceive
  extract_lets s0
  have h0 : Keeps s0 s0 := .refl _
  refine .next ?_
  split
  · split
    · split
      · exact h0.countBusy
      · exact h0.same
    · exact h0.canFrame
  · exact h0

theorem execCanGapTimeout_runsFor {dt k s} : RunsFor dt s (execCanGapTimeout dt k s) := by
  unfold execCanGapTimeout
  extract_lets s0 s1
  have h0 : Keeps s0 s0 := .refl _
  have h1 : Keeps s0 s1 := h0.countMalformed
  refine .next ?_
  split
  · split
    · exact h1.same
    · exact h0
  · exact h0

theorem execCanBusOff_runsFor {dt k state s} : RunsFor dt s (execCanBusOff dt k state s) := by
  unfold execCanBusOff
  extract_lets s0 s1
  have h0 : Keeps s0 s0 := .refl _
  have h1 : Keeps s0 s1 := .ite h0.incReg h0
  refine .next ?_
  split
  · exact h1.setReg
  · exact h0

theorem execResponseSend_runsFor {dt i s} : RunsFor dt s (execResponseSend dt i s) := by
  unfold execResponseSend
  extract_lets s0
  have h0 : Keeps s0 s0 := .refl _
  refine .next ?_
  split
  · exact h0.sendNext
  · exact h0

theorem execLinkTrainingAttempt_runsFor {dt p at_ hello s} : RunsFor dt s (execLinkTrainingAttempt dt p at_ hello s) := by
  unfold execLinkTrainingAttempt
  extract_lets s0 _ s1
  have h0 : Keeps s0 s0 := .refl _
  have h1 : Keeps s0 s1 := h0.emit
  refine .next ?_
  split
  · exact h0
  · split
    · exact h0.setReg
    · split
      · exact h1.setPort.setReg.pumpAll
      · exact h1.setReg

theorem execLinkAckTimeout_runsFor {dt p s} : RunsFor dt s (execLinkAckTimeout dt p s) := by
  unfold execLinkAckTimeout
  extract_lets s0
  have h0 : Keeps s0 s0 := .refl _
  refine .next ?_
  split
  · exact h0.setPort.setReg.incReg
  · exact h0

theorem execLinkFrameReceive_runsFor {dt p f s} : RunsFor dt s (execLinkFrameReceive dt p f s) := by
  unfold execLinkFrameReceive
  extract_lets s0 _ _ _ _ s1 s2 s3
  have h0 : Keeps s0 s0 := .refl _
  have h1 : Keeps s0 s1 := h0.setPort
  have h2 : Keeps s0 s2 := h0.setPort
  have h3 : Keeps s0 s3 := h2.sendAck
  refine .next ?_
  split
  · exact h0
  · split
    · exact h0.incReg.sendNack
    · split
      · exact h0.setPort.pumpAll
      · split
        · exact .fold (fun _ _ h4 => h4.emit) h1.incReg
        · split
          · exact h0
          · split
            · split
              · exact h0.sendNack
              · exact h0.sendAck
            · split
              · exact h2.sendAck.linkSend
              · split
                · exact h3.same
                · exact h2.sendAck.takeFrame

theorem execComputeResetRelease_runsFor {dt s} : RunsFor dt s (execComputeResetRelease dt s) := by
  unfold execComputeResetRelease
  extract_lets s0 _ _ _ s1 s2
  have h0 : Keeps s0 s0 := .refl _
  have h1 : Keeps s0 s1 := h0.same
  have h2 : Keeps s0 s2 := .fold (fun _ _ h2 => h2.zeroDomain) h1.setReg
  refine .next ?_
  split
  · split
    · exact h2.releaseHeld
    · exact h0
  · exact h0

theorem execLinkPut_runsFor {dt id s} : RunsFor dt s (execLinkPut dt id s) := by
  unfold execLinkPut
  extract_lets s0
  have h0 : Keeps s0 s0 := .refl _
  refine .next ?_
  split
  · exact h0
  · extract_lets s1 _ s2 r3 s4
    have h1 : Keeps s0 s1 := h0.beginWork
    have h2 : Keeps s0 s2 := h1.same
    have h3 : Keeps s0 r3.2 := h2.putFrames
    have h4 : Keeps s0 s4 := h3.setCmd
    split
    · exact h3.finish
    · exact h4.same

theorem execLinkPutTimeout_runsFor {dt id s} : RunsFor dt s (execLinkPutTimeout dt id s) := by
  unfold execLinkPutTimeout
  extract_lets s0
  have h0 : Keeps s0 s0 := .refl _
  refine .next ?_
  split
  · exact h0
  · extract_lets s1
    have h1 : Keeps s0 s1 := h0.same.supersedeReplay
    split
    · exact h0
    · exact h1.finish

theorem execLinkSio_runsFor {dt id fail reads s} : RunsFor dt s (execLinkSio dt id fail reads s) := by
  refine .next ((Keeps.refl _).runEngine fun c _ x hx => ?_)
  extract_lets r w
  have hr : Keeps _ r.2.2 := hx.runOps
  have hw : Keeps _ w.2 := .ite_snd hr (Eff.Keeps.write hr)
  clear_value r w
  obtain ⟨e | u, y⟩ := w
  · exact hw
  · obtain ⟨b, _ | ⟨i, nack⟩, z⟩ := r
    · exact hw
    · exact hw

theorem execAonStep_runsFor {dt s} : RunsFor dt s (execAonStep dt s) :=
  .next ((Keeps.refl _).runStep (fun _ h0 =>
      h0.setReg.setReg.setReg.setRegWord.setReg.setReg.setReg.setReg.writeBootRec.plogSnapshot.nextStep))

theorem execIslandStep_runsFor {dt bist passed s} : RunsFor dt s (execIslandStep dt bist passed s) :=
  .next ((Keeps.refl _).runStep (fun _ h0 => .ite (.ite h0.setReg.stepTime.beginSelect h0.setReg.stepTime.same)
      h0.setReg.attemptFail))

theorem execSelectStep_runsFor {dt strobe s} : RunsFor dt s (execSelectStep dt strobe s) :=
  .next ((Keeps.refl _).runStep (fun _ h0 => .ite h0.powerAll.selectSlot (.ite h0.powerAll.attemptFail
      h0.powerAll.powerAll.nextStep)))

theorem execVerifyStep_runsFor {dt strobe s} : RunsFor dt s (execVerifyStep dt strobe s) := by
  refine .next ((Keeps.refl _).runStep fun x h => .ite h.powerAll.attemptFail ?_)
  split
  · exact h.powerAll.accept.nextStep
  · exact h.powerAll.attemptFail
  · exact h.powerAll.freeBelow.attemptFail

theorem execSealStep_runsFor {dt s} : RunsFor dt s (execSealStep dt s) :=
  .next ((Keeps.refl _).runStep (fun _ h0 => h0.same.tideSeal.nextStep))

theorem execDramStep_runsFor {dt trained s} : RunsFor dt s (execDramStep dt trained s) := by
  refine .next ((Keeps.refl _).runStep fun x h => ?_)
  extract_lets s1
  have h1 : Keeps (s.elapse dt) s1 := h.powerOn.applyLoads
  refine .ite ?_ (.ite h1.initDram.nextStep h1.attemptFail)
  split
  · exact h1.attemptFail
  · split
    · next e => exact (Keeps.of_eq e h1.setReg.readCopy).attemptFail
    · next e => exact (Keeps.of_eq e h1.setReg.readCopy).same.nextStep

theorem execBistStep_runsFor {dt failed s} : RunsFor dt s (execBistStep dt failed s) := by
  unfold execBistStep
  refine .next ?_
  extract_lets
  exact ((Keeps.refl _).runStep (fun _ h0 => .ite h0.setReg.attemptFail h0.setReg.nextStep))

theorem execWeightsStep_runsFor {dt fails s} : RunsFor dt s (execWeightsStep dt fails s) :=
  .next ((Keeps.refl _).runStep (fun _ h0 => .ite h0.checkWeights h0.same.loadWeights))

theorem execLinksStep_runsFor {dt s} : RunsFor dt s (execLinksStep dt s) :=
  .next ((Keeps.refl _).runStep (fun _ h0 => .ite (.nextStep (.ite h0.applyLinks h0)) (.ite h0.applyLinks h0)))

theorem execArmStep_runsFor {dt s} : RunsFor dt s (execArmStep dt s) := by
  unfold execArmStep
  extract_lets s0
  have h0 : Keeps s0 s0 := .refl _
  refine .next ?_
  split
  · exact (h0.runStep (fun _ h1 => .ite h1.arm h1))
  · exact h0

theorem execAcqWaitExpire_runsFor {dt s} : RunsFor dt s (execAcqWaitExpire dt s) := by
  unfold execAcqWaitExpire
  extract_lets s0
  have h0 : Keeps s0 s0 := .refl _
  refine .next ?_
  split
  · exact (h0.runStep (fun _ h1 => h1.arm))
  · exact h0

theorem execStartStepTimeout_runsFor {dt s} : RunsFor dt s (execStartStepTimeout dt s) := by
  unfold execStartStepTimeout
  extract_lets s0
  have h0 : Keeps s0 s0 := .refl _
  refine .next ?_
  split
  · exact h0.stepTimeout
  · exact h0

theorem execWarmStart_runsFor {dt s} : RunsFor dt s (execWarmStart dt s) := by
  unfold execWarmStart
  extract_lets s0 s1 s2 s3
  have h0 : Keeps s0 s0 := .refl _
  have h1 : Keeps s0 s1 := h0.setSvc.setReg.incReg
  have h2 : Keeps s0 s2 := .fold (fun _ _ h2 => h2.setReg) h1
  have h3 : Keeps s0 s3 := h2.setReg
  refine .next ?_
  split
  · exact h3.same
  · exact h0

theorem execEmbGather_runsFor {dt id faults s} : RunsFor dt s (execEmbGather dt id faults s) := by
  refine .next ((Keeps.refl _).runLong fun c a b x hx => ?_)
  dsimp only
  split
  · exact hx.runRows (fun _ _ hbad => .gatherRow hbad) fun _ _ e => .of_embBad e
  · exact hx

theorem execEmbPut_runsFor {dt id faults s} : RunsFor dt s (execEmbPut dt id faults s) := by
  refine .next ((Keeps.refl _).runLong fun c a b x hx => ?_)
  split
  · exact hx.runRows (fun _ _ hbad => .putAt hbad) fun _ _ e => .of_embBad e
  · exact hx

theorem execCsi2FrameStart_runsFor {dt port vc fn sub corrected s} : RunsFor dt s (execCsi2FrameStart dt port vc fn sub corrected
    s) := by
  unfold execCsi2FrameStart
  extract_lets s0 s1
  have h0 : Keeps s0 s0 := .refl _
  have h1 : Keeps s0 s1 := h0.visEcc
  refine .next ?_
  split
  · split
    · exact h1.incReg
    · exact .fold (fun _ _ h2 => h2.openFrame.tmuxPulse) h1
  · exact h0

theorem execCsi2LinePacket_runsFor {dt port vc dtype line crcOk corrected sub s} : RunsFor dt s (execCsi2LinePacket dt port vc
    dtype line crcOk corrected sub s) := by
  unfold execCsi2LinePacket
  extract_lets s0 s1 s2
  have h0 : Keeps s0 s0 := .refl _
  have h1 : Keeps s0 s1 := h0.visEcc
  have h2 : Keeps s0 s2 := .ite h1 h1.incReg
  refine .next ?_
  split
  · split
    · exact h1.incReg
    · exact .fold (fun _ _ h3 => h3.frameLine) h2
  · exact h0

theorem execCsi2FrameEnd_runsFor {dt port vc fn corrected s} : RunsFor dt s (execCsi2FrameEnd dt port vc fn corrected s) := by
  unfold execCsi2FrameEnd
  extract_lets s0 s1
  have h0 : Keeps s0 s0 := .refl _
  have h1 : Keeps s0 s1 := h0.visEcc
  refine .next ?_
  split
  · split
    · exact h1.incReg
    · exact .fold (fun _ _ h2 => .ite h2.closeFrame h2) h1
  · exact h0

theorem execCsi2PacketDiscard_runsFor {dt port header s} : RunsFor dt s (execCsi2PacketDiscard dt port header s) := by
  unfold execCsi2PacketDiscard
  extract_lets s0
  have h0 : Keeps s0 s0 := .refl _
  refine .next ?_
  split
  · split
    · exact h0.incReg
    · exact h0.incReg
  · exact h0

theorem execStreamWatchdogExpire_runsFor {dt n s} : RunsFor dt s (execStreamWatchdogExpire dt n s) := by
  unfold execStreamWatchdogExpire
  extract_lets s0
  have h0 : Keeps s0 s0 := .refl _
  refine .next ?_
  split
  · extract_lets s1 _ s2
    have h1 : Keeps s0 s1 := h0.closeFrame
    have h2 : Keeps s0 s2 := h1.setVisStr.incReg
    split
    · split
      · exact h2.raise
      · exact h2
    · exact h0
  · exact h0

theorem execVisionItemComplete_runsFor {dt kind n s} : RunsFor dt s (execVisionItemComplete dt kind n s) := by
  unfold execVisionItemComplete
  extract_lets s0
  have h0 : Keeps s0 s0 := .refl _
  refine .next ?_
  split
  · exact h0
  · extract_lets s1 _ _ s2 s3 s4 s5
    have h1 : Keeps s0 s1 := h0.same
    have h2 : Keeps s0 s2 := h1.writeMem
    have h3 : Keeps s0 s3 := h2.writeMem
    have h4 : Keeps s0 s4 := h3.setVisSource
    have h5 : Keeps s0 s5 := .ite h4.incReg (.ite h4.incReg h4)
    exact h5.fgComplete

theorem execVisionKat_runsFor {dt k bad s} : RunsFor dt s (execVisionKat dt k bad s) := by
  unfold execVisionKat
  extract_lets s0
  have h0 : Keeps s0 s0 := .refl _
  refine .next ?_
  split
  · split
    · exact h0.incReg.raise
    · exact h0
  · exact h0

theorem execLidarPacketParse_runsFor {dt i s} : RunsFor dt s (execLidarPacketParse dt i s) := by
  unfold execLidarPacketParse
  extract_lets s0
  have h0 : Keeps s0 s0 := .refl _
  refine .next ?_
  split
  · exact h0
  · extract_lets
    split
    · exact h0.lidarPacket.release
    · exact h0

theorem execScanTimeout_runsFor {dt i s} : RunsFor dt s (execScanTimeout dt i s) := by
  unfold execScanTimeout
  extract_lets s0
  have h0 : Keeps s0 s0 := .refl _
  refine .next ?_
  split
  · split
    · exact h0.closeScan
    · exact h0
  · exact h0

theorem execLidarWatchdogExpire_runsFor {dt i s} : RunsFor dt s (execLidarWatchdogExpire dt i s) := by
  unfold execLidarWatchdogExpire
  extract_lets s0 _ s1
  have h0 : Keeps s0 s0 := .refl _
  have h1 : Keeps s0 s1 := h0.setVisLid.incReg
  refine .next ?_
  split
  · split
    · split
      · exact h1.raise
      · exact h1
    · exact h0
  · exact h0

theorem execVfeSetCrop_runsFor {dt id s} : RunsFor dt s (execVfeSetCrop dt id s) :=
  .next ((Keeps.refl _).runEngine (fun _ => .modify (fun _ h0 => h0.same)))

theorem execVfeHold_runsFor {dt id s} : RunsFor dt s (execVfeHold dt id s) := by
  refine .next ((Keeps.refl _).runEngine fun c => .bind .get fun x => ?_)
  dsimp only
  split
  · exact .visResult
  · exact .ite .visResult (.bind (.modify fun _ h => h.setHeld) fun _ => .visResult)

theorem execVfeRelease_runsFor {dt id s} : RunsFor dt s (execVfeRelease dt id s) := by
  refine .next ((Keeps.refl _).runEngine fun c => .bind .get fun x => ?_)
  dsimp only
  split
  · exact .ite (.bind (.modify fun _ h => h.setHeld) fun _ => .visResult) .visResult
  · exact .visResult

theorem execVfeRoiResize_runsFor {dt id s} : RunsFor dt s (execVfeRoiResize dt id s) :=
  .next ((Keeps.refl _).runEngine (fun _ => .each (fun _ => .roiBox)))

theorem execBringupStep_runsFor {dt kats drbg sio s} : RunsFor dt s (execBringupStep dt kats drbg sio s) :=
  .next ((Keeps.refl _).runStep (fun _ h0 => .onward (.ite h0 (((h0.bringupTables.onward (fun _ h1 => h1.knownAnswers)).onward
      (fun _ h1 => h1.initSio)).onward (fun _ h1 => h1.beginLists))) (fun _ h1 => .ite h1 h1.endBringup)))

theorem execTcVop_runsFor {dt id faults s} : RunsFor dt s (execTcVop dt id faults s) :=
  .next ((Keeps.refl _).runTensor (fun _ => fun _ => .vopCore))

theorem execTcVreduce_runsFor {dt id faults s} : RunsFor dt s (execTcVreduce dt id faults s) :=
  .next ((Keeps.refl _).runTensor (fun _ => fun _ => .reduceCore))

theorem execTcSoftmax_runsFor {dt id faults s} : RunsFor dt s (execTcSoftmax dt id faults s) :=
  .next ((Keeps.refl _).runTensor (fun _ => fun _ => .softmaxCore))

theorem execTcNorm_runsFor {dt id faults s} : RunsFor dt s (execTcNorm dt id faults s) :=
  .next ((Keeps.refl _).runTensor (fun _ => fun _ => .normCore))

theorem execTcTranspose_runsFor {dt id faults s} : RunsFor dt s (execTcTranspose dt id faults s) :=
  .next ((Keeps.refl _).runTensor (fun _ => fun _ => .transposeCore))

theorem execTcConv_runsFor {dt id faults s} : RunsFor dt s (execTcConv dt id faults s) :=
  .next ((Keeps.refl _).runTensor fun _ _ => .MatJob_run fun _ _ _ => .Geo_feed)

theorem execTcWconv_runsFor {dt id faults s} : RunsFor dt s (execTcWconv dt id faults s) :=
  .next ((Keeps.refl _).runTensor (fun _ => fun _ => .wconvCore))

theorem execTcWxform_runsFor {dt id faults s} : RunsFor dt s (execTcWxform dt id faults s) :=
  .next ((Keeps.refl _).runTensor (fun _ => fun _ => .wxformCore))

theorem execTcS2d_runsFor {dt id faults s} : RunsFor dt s (execTcS2d dt id faults s) :=
  .next ((Keeps.refl _).runTensor (fun _ => fun _ => .foldCore))

theorem execTcD2s_runsFor {dt id faults s} : RunsFor dt s (execTcD2s dt id faults s) :=
  .next ((Keeps.refl _).runTensor (fun _ => fun _ => .foldCore))

theorem execTcHalo_runsFor {dt id s} : RunsFor dt s (execTcHalo dt id s) :=
  .next ((Keeps.refl _).runTensor (fun _ => fun _ => .haloCore))

theorem execSelArgmax_runsFor {dt id bad s} : RunsFor dt s (execSelArgmax dt id bad s) :=
  .next ((Keeps.refl _).runLong fun _ _ _ _ h => h.runRows (fun _ _ hbad => .selRow hbad) fun _ _ e => .of_selBad e)

theorem execSelTopk_runsFor {dt id bad s} : RunsFor dt s (execSelTopk dt id bad s) :=
  .next ((Keeps.refl _).runSort)

theorem execSelSort_runsFor {dt id bad s} : RunsFor dt s (execSelSort dt id bad s) :=
  .next ((Keeps.refl _).runSort)

theorem execStreamSeed_runsFor {dt id s} : RunsFor dt s (execStreamSeed dt id s) :=
  .next ((Keeps.refl _).runStream (fun _ => fun _ => .bind .read (fun _ => .modify (fun _ h0 => h0.setStream))))

theorem execStreamSave_runsFor {dt id s} : RunsFor dt s (execStreamSave dt id s) :=
  .next ((Keeps.refl _).runStream (fun _ => fun _ => .bind .get (fun _ => .write)))

theorem execStreamLoad_runsFor {dt id s} : RunsFor dt s (execStreamLoad dt id s) :=
  .next ((Keeps.refl _).runStream (fun _ => fun _ => .bind .read (fun _ => .ite .fail (.modify (fun _ h0 => h0.setStream)))))

theorem execStreamClear_runsFor {dt id s} : RunsFor dt s (execStreamClear dt id s) :=
  .next ((Keeps.refl _).runStream (fun _ => fun _ => .modify (fun _ h0 => h0.setStream)))

theorem execSelSample_runsFor {dt id bad s} : RunsFor dt s (execSelSample dt id bad s) :=
  .next ((Keeps.refl _).runLong fun _ _ _ _ h => h.runRows (fun _ _ hbad => .sampleRow hbad) fun _ _ e => .of_selBad e)

theorem execSelXmerge_runsFor {dt id bad s} : RunsFor dt s (execSelXmerge dt id bad s) := by
  unfold execSelXmerge
  extract_lets s0
  have h0 : Keeps s0 s0 := .refl _
  refine .next ?_
  split
  · exact h0
  · split
    · have h1 := Keeps.of_eq ‹_› (Eff.Keeps.read h0.beginWork)
      exact h1.finish
    · have h1 := Keeps.of_eq ‹_› (Eff.Keeps.read h0.beginWork)
      extract_lets _ _ s2 _ _ s3
      have h2 : Keeps s0 s2 := h1.setCmd.sendLocal
      have h3 : Keeps s0 s3 := h2.same
      split
      · exact h1.finish
      · exact .fold (fun _ _ h4 => by split; exact h4.matchList; exact h4) h3

theorem execXmergeListReceived_runsFor {dt bad s} : RunsFor dt s (execXmergeListReceived dt bad s) := by
  unfold execXmergeListReceived
  extract_lets s0
  have h0 : Keeps s0 s0 := .refl _
  refine .next ?_
  split
  · exact h0
  · extract_lets s1
    have h1 : Keeps s0 s1 := h0.same
    split
    · exact h1.matchList
    · split
      · exact h1.incReg
      · exact h1.same

theorem execXmergeTimeout_runsFor {dt id s} : RunsFor dt s (execXmergeTimeout dt id s) := by
  unfold execXmergeTimeout
  extract_lets s0
  have h0 : Keeps s0 s0 := .refl _
  refine .next ?_
  split
  · split
    · exact h0.incReg.supersedeReplay.mergeFail
    · exact h0
  · exact h0

theorem execXmergeHoldExpire_runsFor {dt s} : RunsFor dt s (execXmergeHoldExpire dt s) := by
  unfold execXmergeHoldExpire
  extract_lets s0
  have h0 : Keeps s0 s0 := .refl _
  refine .next ?_
  split
  · split
    · exact h0.same.incReg
    · exact h0
  · exact h0

theorem execCommandPick_runsFor {dt ts s} : RunsFor dt s (execCommandPick dt ts s) := by
  unfold execCommandPick
  extract_lets s0
  have h0 : Keeps s0 s0 := .refl _
  exact .next (.fold (fun _ _ h1 => h1.pickOne) h0)

/-! ### The commands that may blow a fuse -/

/-- Fuses in their range of lifecycles advance, and stay in the range. -/
def Fuses.StepTo (x y : Fuses) : Prop := x.lifecycle ≤ 3 → x.Advance y ∧ y.lifecycle ≤ 3

theorem Fuses.Advance.refl (x : Fuses) : x.Advance x :=
  ⟨fun _ => id, fun _ => id, Nat.le_refl _, fun _ => id, id, fun _ => id, Nat.le_refl _, rfl⟩

theorem Fuses.StepTo.refl (x : Fuses) : x.StepTo x := fun h => ⟨.refl x, h⟩

theorem Fuses.Advance.trans {x y z : Fuses} (h : x.Advance y) (h' : y.Advance z) : x.Advance z := by
  obtain ⟨hkey, hrev, hsvn, himg, hoff, hdbg, hlife, hdie⟩ := h
  obtain ⟨hkey', hrev', hsvn', himg', hoff', hdbg', hlife', hdie'⟩ := h'
  exact ⟨fun k hk => hkey' k (hkey k hk), fun k hk => hrev' k (hrev k hk), Nat.le_trans hsvn hsvn', fun k hk => himg' k (himg k hk),
    fun hk => hoff' (hoff hk), fun k hk => hdbg' k (hdbg k hk), Nat.le_trans hlife hlife', hdie'.trans hdie⟩

theorem Fuses.StepTo.trans {x y z : Fuses} (h : x.StepTo y) (h' : y.StepTo z) : x.StepTo z := fun hx =>
  have ⟨hxy, hy⟩ := h hx
  have ⟨hyz, hz⟩ := h' hy
  ⟨hxy.trans hyz, hz⟩

/-- As `Keeps`, but for fuses that may advance. -/
structure Advances (s t : State) : Prop where
  tick : t.tick = s.tick
  pending : t.pending = s.pending
  flash : t.flash = s.flash
  ufs : t.ufs = s.ufs
  fuses : s.fuses.StepTo t.fuses
  canonical : s.Canonical → t.Canonical

theorem Keeps.advances (h : Keeps s t) : Advances s t :=
  ⟨h.tick, h.pending, h.flash, h.ufs, h.fuses ▸ .refl _, h.canonical⟩

theorem Advances.trans {u : State} (h : Advances s t) (h' : Advances t u) : Advances s u :=
  ⟨h'.tick.trans h.tick, h'.pending.trans h.pending, h'.flash.trans h.flash, h'.ufs.trans h.ufs, h.fuses.trans h'.fuses,
    fun hc => h'.canonical (h.canonical hc)⟩

theorem Advances.then {u : State} (h : Advances s t) (h' : Keeps t u) : Advances s u := h.trans h'.advances

theorem Advances.blow {x : Fuses} {dbg} (h : s.fuses.StepTo x) : Advances s { s with fuses := x, dbg := dbg } :=
  ⟨rfl, rfl, rfl, rfl, h, id⟩

/-- A command that may blow a fuse runs for the ticks it carries. -/
def RunsOnFor (dt : Nat) (s : State) (o : Host.Outcome State Fault Refusal) : Prop := ∃ t, o = .next t ∧ Advances (s.elapse dt) t

theorem RunsFor.runsOnFor {dt : Nat} {o} (h : RunsFor dt s o) : RunsOnFor dt s o :=
  have ⟨t, ht, hk⟩ := h
  ⟨t, ht, hk.advances⟩

theorem RunsOnFor.next {dt : Nat} (h : Advances (s.elapse dt) t) : RunsOnFor dt s (.next t) := ⟨t, rfl, h⟩

/-- A lifecycle change takes effect. -/
theorem lifeFuses_stepTo : s.fuses.StepTo s.lifeFuses := fun h => by
  have hlife : s.fuses.lifecycle ≤ s.lifeFuses.lifecycle ∧ s.lifeFuses.lifecycle ≤ 3 := by
    unfold State.lifeFuses
    dsimp only
    split <;> grind
  exact ⟨⟨fun _ => id, fun _ => id, Nat.le_refl _, fun _ => id, id, fun _ => id, hlife.1, rfl⟩, hlife.2⟩

theorem reset_canonical : State.reset.Canonical := by
  unfold State.Canonical State.reset
  dsimp only
  exact ⟨regsReset_wf, rfl, rfl, rfl, rfl, rfl, rfl⟩

theorem Advances.survive : Advances s s.survive := by
  have hreset := reset_canonical
  unfold State.survive
  generalize State.reset = r at hreset ⊢
  obtain ⟨hregs, hmem, hhealth, _, _, _, hevents⟩ := hreset
  constructor
  case tick => rfl
  case pending => rfl
  case flash => rfl
  case ufs => rfl
  case fuses => exact lifeFuses_stepTo
  case canonical => exact fun ⟨_, _, _, hfram, hflash, hufs, _⟩ => ⟨hregs, hmem, hhealth, hfram, hflash, hufs, hevents⟩

theorem Advances.coldStart {retry} : Advances s (s.coldStart retry) := by
  unfold State.coldStart
  extract_lets n1 n2 n3 n4 n5 n6 n7 n8 n9 n10 n11
  have h6 : Advances s n6 := (Advances.survive.then (Keeps.refl _).keepRegs).then (Keeps.refl _).same
  have h7 : Keeps n6 n7 := (Keeps.refl n6).setReg.setReg
  have h8 : Keeps n6 n8 := h7.setReg.setReg
  have h9 : Keeps n6 n9 := h8.setReg.setReg
  have h10 : Keeps n6 n10 := h9.setReg
  have h11 : Keeps n6 n11 := h10.setReg.setReg
  clear_value n6 n7 n8 n9 n10 n11
  exact h6.then (.ite h11.setReg.setReg.setReg h11)

theorem enterReturn_advances : Advances s s.enterReturn := by
  unfold State.enterReturn
  split
  · exact .blow fun h => ⟨⟨fun _ => id, fun _ => id, Nat.le_refl _, fun _ => id, fun _ => rfl, fun _ => id, Nat.le_refl _, rfl⟩, h⟩
  · exact (Keeps.refl s).advances

theorem advanceSvn_advances : Advances s s.advanceSvn := by
  unfold State.advanceSvn
  split
  · have h : Advances s { s with fuses.svn := max s.fuses.svn (field s.header 0x14 1) } :=
      .blow fun h => ⟨⟨fun _ => id, fun _ => id, Nat.le_max_left _ _, fun _ => id, id, fun _ => id, Nat.le_refl _, rfl⟩, h⟩
    exact h.then (Keeps.refl _).setReg
  · exact (Keeps.refl s).advances

theorem recordDone_advances : Advances s s.recordDone := by
  unfold State.recordDone
  split
  · exact ((Keeps.refl s).writeBootRec.plog).advances
  · exact (((Keeps.refl s).setReg.writeBootRec.writeLastGood.advances).trans advanceSvn_advances).then (Keeps.refl _).plog

theorem debugWrite_advances {a v} : Advances s (s.debugWrite a v).2.2 := by
  have hs := Keeps.refl s
  unfold State.debugWrite
  extract_lets alter
  split
  · split
    · exact hs.denied.advances
    · rename_i s1 _ _
      have h1 : Keeps s s1 := .ite hs.writeReg hs
      dsimp only
      split
      · exact h1.advances.trans enterReturn_advances
      · exact h1.advances
  · refine Keeps.advances ?_
    split
    · split
      · split
        · exact hs.doorbell
        · exact hs.denied
      · split
        · exact hs.denied
        · split
          · exact hs.writeReg
          · exact hs.denied
    · split
      · split
        · next e => exact .of_eq e hs.writeMem
        · next e => exact .of_eq e hs.writeMem
      · exact hs.denied

theorem le_countUp {p : Nat → Nat → Prop} {_ : ∀ n i, Decidable (p n i)} (l : List Nat) (n : Nat) :
    n ≤ l.foldl (fun n i => if p n i then n + 1 else n) n :=
  foldl_keeps (n ≤ ·) (fun x i hx => by
    split
    · exact Nat.le_trans hx (Nat.le_succ x)
    · exact hx) l (Nat.le_refl _)

/-- A fuse field that is not refused is blown: a field that can be written once is written for the first time. -/
theorem program_stepTo {f : FuseField} {data : List Byte} (hf : s.fuseRefused f = false) : s.fuses.StepTo (s.fuses.program f
    data) := by
  intro hlife
  cases f with
  | keyHash i => exact ⟨⟨fun k hk => List.mem_append_left _ hk, fun _ => id, Nat.le_refl _, fun _ => id, id, fun _ => id, Nat.le_refl _, rfl⟩,
      hlife⟩
  | revoke i =>
    refine ⟨⟨fun _ => id, fun k hk => ?_, Nat.le_refl _, fun _ => id, id, fun _ => id, Nat.le_refl _, rfl⟩, hlife⟩
    show k ∈ if _ then _ else _
    split
    · exact hk
    · exact List.mem_append_left _ hk
  | svn =>
    unfold Fuses.program
    generalize hn : List.foldl _ _ _ = n
    have hsvn : s.fuses.svn ≤ n := hn ▸ le_countUp _ _
    exact ⟨⟨fun _ => id, fun _ => id, hsvn, fun _ => id, id, fun _ => id, Nat.le_refl _, rfl⟩, hlife⟩
  | imageKey =>
    have hnone : s.fuses.imageKey = none := by simp_all [State.fuseRefused]
    exact ⟨⟨fun _ => id, fun _ => id, Nat.le_refl _, fun k hk => by simp [hnone] at hk, id, fun _ => id, Nat.le_refl _, rfl⟩, hlife⟩
  | debugKeyHash =>
    have hnone : s.fuses.debugKey = none := by simp_all [State.fuseRefused]
    exact ⟨⟨fun _ => id, fun _ => id, Nat.le_refl _, fun _ => id, id, fun k hk => by simp [hnone] at hk, Nat.le_refl _, rfl⟩, hlife⟩
  | lifecycle => exact Fuses.StepTo.refl s.fuses hlife

theorem Advances.tap {code : Nat} {f : State → State} (hf : ∀ x, Advances x (f x)) : Advances s (s.tap code f) := by
  unfold State.tap
  split
  · exact (Keeps.refl s).advances
  · dsimp only
    split
    · exact (Keeps.refl s).jtag.advances.trans (hf _)
    · exact (Keeps.refl s).jtag.advances

theorem execPowerOnResetRelease_runsOnFor {dt main bak} : RunsOnFor dt s (execPowerOnResetRelease dt main bak s) := by
  unfold execPowerOnResetRelease
  extract_lets s0 s1 _ _ s2
  have h1 : Keeps s0 s1 := (Keeps.refl s0).setReg.setReg
  have h2 : Keeps s0 s2 := h1.setReg.same
  refine .next ?_
  split
  · split
    · exact h2.advances.trans .coldStart
    · exact h2.same.advances
  · exact (Keeps.refl s0).advances

theorem execPowerOnResetEntry_runsOnFor {dt} : RunsOnFor dt s (execPowerOnResetEntry dt s) := by
  unfold execPowerOnResetEntry
  extract_lets s0 pg s1
  have h1 : Keeps s0 s1 := by
    refine .fold (fun u c hu => ?_) (Keeps.refl s0)
    split
    · exact hu.writeFram
    · exact hu
  refine .next ?_
  split
  · exact (Keeps.refl s0).advances
  · exact (h1.advances.trans .survive).then (Keeps.refl _).setReg

theorem execPorstNRelease_runsOnFor {dt low} : RunsOnFor dt s (execPorstNRelease dt low s) := by
  unfold execPorstNRelease
  extract_lets s0 _ s1
  have h1 : Keeps s0 s1 := (Keeps.refl s0).same
  refine .next ?_
  split
  · exact (Keeps.refl s0).advances
  · split
    · exact h1.advances
    · exact h1.advances.trans .coldStart

theorem execStartRetryDelayExpire_runsOnFor {dt} : RunsOnFor dt s (execStartRetryDelayExpire dt s) := by
  refine .next ?_
  split
  · exact .coldStart
  · exact (Keeps.refl _).advances

theorem execPmicPgReturnWaitExpire_runsOnFor {dt} : RunsOnFor dt s (execPmicPgReturnWaitExpire dt s) := by
  refine .next ?_
  split
  · exact .coldStart
  · exact (Keeps.refl _).advances

theorem execStartDone_runsOnFor {dt} : RunsOnFor dt s (execStartDone dt s) := by
  unfold execStartDone
  extract_lets s0 s1 _ _ _ s2
  have h1 : Keeps s0 s1 := (Keeps.refl s0).setReg.setSvc
  have h2 : Keeps s0 s2 := h1.setReg.same
  refine .next ?_
  split
  · exact (h2.advances.trans recordDone_advances).then (Keeps.refl _).acuDone.startRecord
  · exact (Keeps.refl s0).advances

theorem execDbgAcc_runsOnFor {dt addr data op} : RunsOnFor dt s (execDbgAcc dt addr data op s) := by
  refine .next (.tap fun x => ?_)
  extract_lets x1 r
  have h1 : Keeps x x1 := (Keeps.refl x).emit
  have hr : Advances x1 r.2.2 := by
    unfold r
    split
    · split
      · exact (Keeps.refl x1).denied.advances
      · split
        · exact (Keeps.refl x1).debugRead.advances
        · exact debugWrite_advances
    · exact (Keeps.refl x1).advances
  exact (h1.advances.trans hr).then (Keeps.refl _).same

theorem execFuse_runsOnFor {dt f data verified} : RunsOnFor dt s (execFuse dt f data verified s) := by
  refine .next (.tap fun x => ?_)
  extract_lets x1 _ x2
  have h1 : Keeps x x1 := (Keeps.refl x).emit
  split
  · exact h1.advances
  · next hf =>
    have h2 : Advances x x2 := h1.advances.trans (.blow (program_stepTo (by simpa using hf)))
    split
    · exact h2
    · exact h2.then (Keeps.refl _).setReg

theorem execDbgReturnWrite_runsOnFor {dt} : RunsOnFor dt s (execDbgReturnWrite dt s) := .next (.tap fun _ => enterReturn_advances)

/-- A command that blows no fuse runs for the ticks it carries. -/
theorem exec_runsFor {c : Instr} (h : c.blowsFuses = false) : RunsFor c.dt s (exec c s) := by
  cases c with
  | powerOnResetRelease => cases h
  | powerOnResetEntry => cases h
  | porstNRelease => cases h
  | startRetryDelayExpire => cases h
  | pmicPgReturnWaitExpire => cases h
  | startDone => cases h
  | dbgAcc => cases h
  | fuse => cases h
  | dbgReturnWrite => cases h
  | porstNAssert dt => exact execPorstNAssert_runsFor (dt := dt)
  | aonStep dt => exact execAonStep_runsFor (dt := dt)
  | islandStep dt => exact execIslandStep_runsFor (dt := dt)
  | selectStep dt => exact execSelectStep_runsFor (dt := dt)
  | verifyStep dt => exact execVerifyStep_runsFor (dt := dt)
  | sealStep dt => exact execSealStep_runsFor (dt := dt)
  | dramStep dt => exact execDramStep_runsFor (dt := dt)
  | bistStep dt => exact execBistStep_runsFor (dt := dt)
  | weightsStep dt => exact execWeightsStep_runsFor (dt := dt)
  | linksStep dt => exact execLinksStep_runsFor (dt := dt)
  | bringupStep dt => exact execBringupStep_runsFor (dt := dt)
  | armStep dt => exact execArmStep_runsFor (dt := dt)
  | acqWaitExpire dt => exact execAcqWaitExpire_runsFor (dt := dt)
  | startStepTimeout dt => exact execStartStepTimeout_runsFor (dt := dt)
  | warmStart dt => exact execWarmStart_runsFor (dt := dt)
  | pmicPgFall dt => exact execPmicPgFall_runsFor (dt := dt)
  | pmicPgRise dt => exact execPmicPgRise_runsFor (dt := dt)
  | orbitRateCheck dt => exact execOrbitRateCheck_runsFor (dt := dt)
  | syncReceived dt => exact execSyncReceived_runsFor (dt := dt)
  | syncReceiptTimeout dt => exact execSyncReceiptTimeout_runsFor (dt := dt)
  | holdLimitExpire dt => exact execHoldLimitExpire_runsFor (dt := dt)
  | fgFramePending dt => exact execFgFramePending_runsFor (dt := dt)
  | fgDeadline dt => exact execFgDeadline_runsFor (dt := dt)
  | fgDescriptorEmit dt => exact execFgDescriptorEmit_runsFor (dt := dt)
  | commandPick dt => exact execCommandPick_runsFor (dt := dt)
  | commandComplete dt => exact execCommandComplete_runsFor (dt := dt)
  | checkpoint dt => exact execCheckpoint_runsFor (dt := dt)
  | cqRecordRelease dt => exact execCqRecordRelease_runsFor (dt := dt)
  | seqNop dt => exact execSeqNop_runsFor (dt := dt)
  | seqSignal dt => exact execSeqSignal_runsFor (dt := dt)
  | seqWait dt => exact execSeqWait_runsFor (dt := dt)
  | seqWaitTimeout dt => exact execSeqWaitTimeout_runsFor (dt := dt)
  | seqSetEvent dt => exact execSeqSetEvent_runsFor (dt := dt)
  | seqTimer dt => exact execSeqTimer_runsFor (dt := dt)
  | seqTimerExpire dt => exact execSeqTimerExpire_runsFor (dt := dt)
  | seqRegWrite dt => exact execSeqRegWrite_runsFor (dt := dt)
  | seqRegRead dt => exact execSeqRegRead_runsFor (dt := dt)
  | seqMemWrite dt => exact execSeqMemWrite_runsFor (dt := dt)
  | seqCall dt => exact execSeqCall_runsFor (dt := dt)
  | seqBranch dt => exact execSeqBranch_runsFor (dt := dt)
  | seqLoopSet dt => exact execSeqLoopSet_runsFor (dt := dt)
  | seqLoop dt => exact execSeqLoop_runsFor (dt := dt)
  | seqDoorbell dt => exact execSeqDoorbell_runsFor (dt := dt)
  | queueStop dt => exact execQueueStop_runsFor (dt := dt)
  | queueStart dt => exact execQueueStart_runsFor (dt := dt)
  | queueStartSkip dt => exact execQueueStartSkip_runsFor (dt := dt)
  | queueFlush dt => exact execQueueFlush_runsFor (dt := dt)
  | queueFlushDiscard dt => exact execQueueFlushDiscard_runsFor (dt := dt)
  | queueRelease dt => exact execQueueRelease_runsFor (dt := dt)
  | seqAbort dt => exact execSeqAbort_runsFor (dt := dt)
  | seqNotify dt => exact execSeqNotify_runsFor (dt := dt)
  | jobWatchdogExpire dt => exact execJobWatchdogExpire_runsFor (dt := dt)
  | deadlockDetect dt => exact execDeadlockDetect_runsFor (dt := dt)
  | threadWatchdogExpire dt => exact execThreadWatchdogExpire_runsFor (dt := dt)
  | engineHeartbeatLoss dt => exact execEngineHeartbeatLoss_runsFor (dt := dt)
  | networkTimeout dt => exact execNetworkTimeout_runsFor (dt := dt)
  | lateResponse dt => exact execLateResponse_runsFor (dt := dt)
  | statusRead dt => exact execStatusRead_runsFor (dt := dt)
  | logRead dt => exact execLogRead_runsFor (dt := dt)
  | meterRead dt => exact execMeterRead_runsFor (dt := dt)
  | submit dt => exact execSubmit_runsFor (dt := dt)
  | abort dt => exact execAbort_runsFor (dt := dt)
  | responseItem dt => exact execResponseItem_runsFor (dt := dt)
  | refreshReportRead dt => exact execRefreshReportRead_runsFor (dt := dt)
  | csi2FrameStart dt => exact execCsi2FrameStart_runsFor (dt := dt)
  | csi2LinePacket dt => exact execCsi2LinePacket_runsFor (dt := dt)
  | csi2FrameEnd dt => exact execCsi2FrameEnd_runsFor (dt := dt)
  | csi2PacketDiscard dt => exact execCsi2PacketDiscard_runsFor (dt := dt)
  | streamWatchdogExpire dt => exact execStreamWatchdogExpire_runsFor (dt := dt)
  | visionItemComplete dt => exact execVisionItemComplete_runsFor (dt := dt)
  | visionKat dt => exact execVisionKat_runsFor (dt := dt)
  | lidarPacketParse dt => exact execLidarPacketParse_runsFor (dt := dt)
  | scanTimeout dt => exact execScanTimeout_runsFor (dt := dt)
  | lidarWatchdogExpire dt => exact execLidarWatchdogExpire_runsFor (dt := dt)
  | vfeSetCrop dt => exact execVfeSetCrop_runsFor (dt := dt)
  | vfeHold dt => exact execVfeHold_runsFor (dt := dt)
  | vfeRelease dt => exact execVfeRelease_runsFor (dt := dt)
  | vfeRoiResize dt => exact execVfeRoiResize_runsFor (dt := dt)
  | tcMma dt => exact execTcMma_runsFor (dt := dt)
  | tcTranspose dt => exact execTcTranspose_runsFor (dt := dt)
  | tcVop dt => exact execTcVop_runsFor (dt := dt)
  | tcVreduce dt => exact execTcVreduce_runsFor (dt := dt)
  | tcSoftmax dt => exact execTcSoftmax_runsFor (dt := dt)
  | tcNorm dt => exact execTcNorm_runsFor (dt := dt)
  | tcSelftest dt => exact execTcSelftest_runsFor (dt := dt)
  | tcConv dt => exact execTcConv_runsFor (dt := dt)
  | tcWconv dt => exact execTcWconv_runsFor (dt := dt)
  | tcWxform dt => exact execTcWxform_runsFor (dt := dt)
  | tcS2d dt => exact execTcS2d_runsFor (dt := dt)
  | tcD2s dt => exact execTcD2s_runsFor (dt := dt)
  | tcHalo dt => exact execTcHalo_runsFor (dt := dt)
  | scrubWindow dt => exact execScrubWindow_runsFor (dt := dt)
  | scrubForced dt => exact execScrubForced_runsFor (dt := dt)
  | patrolRead dt => exact execPatrolRead_runsFor (dt := dt)
  | linkEccReissue dt => exact execLinkEccReissue_runsFor (dt := dt)
  | copyLinear dt => exact execCopyLinear_runsFor (dt := dt)
  | copyStrided dt => exact execCopyStrided_runsFor (dt := dt)
  | copyTranspose dt => exact execCopyTranspose_runsFor (dt := dt)
  | copyFill dt => exact execCopyFill_runsFor (dt := dt)
  | embGather dt => exact execEmbGather_runsFor (dt := dt)
  | embPut dt => exact execEmbPut_runsFor (dt := dt)
  | selArgmax dt => exact execSelArgmax_runsFor (dt := dt)
  | selTopk dt => exact execSelTopk_runsFor (dt := dt)
  | selSample dt => exact execSelSample_runsFor (dt := dt)
  | selSort dt => exact execSelSort_runsFor (dt := dt)
  | streamSeed dt => exact execStreamSeed_runsFor (dt := dt)
  | streamSave dt => exact execStreamSave_runsFor (dt := dt)
  | streamLoad dt => exact execStreamLoad_runsFor (dt := dt)
  | streamClear dt => exact execStreamClear_runsFor (dt := dt)
  | selXmerge dt => exact execSelXmerge_runsFor (dt := dt)
  | xmergeListReceived dt => exact execXmergeListReceived_runsFor (dt := dt)
  | xmergeTimeout dt => exact execXmergeTimeout_runsFor (dt := dt)
  | xmergeHoldExpire dt => exact execXmergeHoldExpire_runsFor (dt := dt)
  | tokEncode dt => exact execTokEncode_runsFor (dt := dt)
  | tokDecode dt => exact execTokDecode_runsFor (dt := dt)
  | slotOpen dt => exact execSlotOpen_runsFor (dt := dt)
  | slotClose dt => exact execSlotClose_runsFor (dt := dt)
  | tokList dt => exact execTokList_runsFor (dt := dt)
  | tokMask dt => exact execTokMask_runsFor (dt := dt)
  | tokStep dt => exact execTokStep_runsFor (dt := dt)
  | sampleFrame dt => exact execSampleFrame_runsFor (dt := dt)
  | audioBlockEnd dt => exact execAudioBlockEnd_runsFor (dt := dt)
  | portLockLoss dt => exact execPortLockLoss_runsFor (dt := dt)
  | portRelock dt => exact execPortRelock_runsFor (dt := dt)
  | priorityMuteOnset dt => exact execPriorityMuteOnset_runsFor (dt := dt)
  | muteRelease dt => exact execMuteRelease_runsFor (dt := dt)
  | muteDiscrepancy dt => exact execMuteDiscrepancy_runsFor (dt := dt)
  | rateSwitch dt => exact execRateSwitch_runsFor (dt := dt)
  | slaveRateSettle dt => exact execSlaveRateSettle_runsFor (dt := dt)
  | hopComplete dt => exact execHopComplete_runsFor (dt := dt)
  | acuPlay dt => exact execAcuPlay_runsFor (dt := dt)
  | acuHold dt => exact execAcuHold_runsFor (dt := dt)
  | acuRelease dt => exact execAcuRelease_runsFor (dt := dt)
  | acuDuck dt => exact execAcuDuck_runsFor (dt := dt)
  | ancResume dt => exact execAncResume_runsFor (dt := dt)
  | ancHold dt => exact execAncHold_runsFor (dt := dt)
  | ancStop dt => exact execAncStop_runsFor (dt := dt)
  | acuRate dt => exact execAcuRate_runsFor (dt := dt)
  | meterSample dt => exact execMeterSample_runsFor (dt := dt)
  | cycleClose dt => exact execCycleClose_runsFor (dt := dt)
  | latch dt => exact execLatch_runsFor (dt := dt)
  | tideCommitComplete dt => exact execTideCommitComplete_runsFor (dt := dt)
  | mainsLockChange dt => exact execMainsLockChange_runsFor (dt := dt)
  | harmonicWindow dt => exact execHarmonicWindow_runsFor (dt := dt)
  | mclkFault dt => exact execMclkFault_runsFor (dt := dt)
  | channelFault dt => exact execChannelFault_runsFor (dt := dt)
  | overload dt => exact execOverload_runsFor (dt := dt)
  | pulseInputAccept dt => exact execPulseInputAccept_runsFor (dt := dt)
  | pulseOutputTimer dt => exact execPulseOutputTimer_runsFor (dt := dt)
  | mtrSnap dt => exact execMtrSnap_runsFor (dt := dt)
  | aonInputFail dt => exact execAonInputFail_runsFor (dt := dt)
  | aonInputValid dt => exact execAonInputValid_runsFor (dt := dt)
  | aonBackToMain dt => exact execAonBackToMain_runsFor (dt := dt)
  | railMonitorFault dt => exact execRailMonitorFault_runsFor (dt := dt)
  | domainPowerGoodTimeout dt => exact execDomainPowerGoodTimeout_runsFor (dt := dt)
  | clockMonitorWindow dt => exact execClockMonitorWindow_runsFor (dt := dt)
  | thermalReading dt => exact execThermalReading_runsFor (dt := dt)
  | lockstepMismatch dt => exact execLockstepMismatch_runsFor (dt := dt)
  | splitHandoverBegin dt => exact execSplitHandoverBegin_runsFor (dt := dt)
  | splitHandoverComplete dt => exact execSplitHandoverComplete_runsFor (dt := dt)
  | splitTimeout dt => exact execSplitTimeout_runsFor (dt := dt)
  | islandWatchdogExpire dt => exact execIslandWatchdogExpire_runsFor (dt := dt)
  | oscCrossCheck dt => exact execOscCrossCheck_runsFor (dt := dt)
  | faultRecordWrite dt => exact execFaultRecordWrite_runsFor (dt := dt)
  | islandRestart dt => exact execIslandRestart_runsFor (dt := dt)
  | computeResetAssert dt => exact execComputeResetAssert_runsFor (dt := dt)
  | computeResetRelease dt => exact execComputeResetRelease_runsFor (dt := dt)
  | islandSupervisionCycle dt => exact execIslandSupervisionCycle_runsFor (dt := dt)
  | pinReadbackSample dt => exact execPinReadbackSample_runsFor (dt := dt)
  | plogCountRead dt => exact execPlogCountRead_runsFor (dt := dt)
  | counterLowWordRead dt => exact execCounterLowWordRead_runsFor (dt := dt)
  | registerWrite dt => exact execRegisterWrite_runsFor (dt := dt)
  | ethFrameReceive dt => exact execEthFrameReceive_runsFor (dt := dt)
  | reassemblyTimeout dt => exact execReassemblyTimeout_runsFor (dt := dt)
  | responseSend dt => exact execResponseSend_runsFor (dt := dt)
  | canFrameReceive dt => exact execCanFrameReceive_runsFor (dt := dt)
  | canGapTimeout dt => exact execCanGapTimeout_runsFor (dt := dt)
  | reqDoorbell dt => exact execReqDoorbell_runsFor (dt := dt)
  | rspRptrWrite dt => exact execRspRptrWrite_runsFor (dt := dt)
  | intClear dt => exact execIntClear_runsFor (dt := dt)
  | pciePerstN dt => exact execPciePerstN_runsFor (dt := dt)
  | linkTrainingAttempt dt => exact execLinkTrainingAttempt_runsFor (dt := dt)
  | linkFrameReceive dt => exact execLinkFrameReceive_runsFor (dt := dt)
  | linkAckTimeout dt => exact execLinkAckTimeout_runsFor (dt := dt)
  | linkPut dt => exact execLinkPut_runsFor (dt := dt)
  | linkPutTimeout dt => exact execLinkPutTimeout_runsFor (dt := dt)
  | linkSio dt => exact execLinkSio_runsFor (dt := dt)
  | idcode dt => exact execIdcode_runsFor (dt := dt)
  | samplePreload dt => exact execSamplePreload_runsFor (dt := dt)
  | extest dt => exact execExtest_runsFor (dt := dt)
  | bypass dt => exact execBypass_runsFor (dt := dt)
  | dbgAuthCapture dt => exact execDbgAuthCapture_runsFor (dt := dt)
  | dbgAuthResponse dt => exact execDbgAuthResponse_runsFor (dt := dt)
  | trstNAssert dt => exact execTrstNAssert_runsFor (dt := dt)
  | framDataRead dt => exact execFramDataRead_runsFor (dt := dt)
  | tmuxSelWrite dt => exact execTmuxSelWrite_runsFor (dt := dt)
  | portFirstLock dt => exact execPortFirstLock_runsFor (dt := dt)
  | pulseInputEdge dt => exact execPulseInputEdge_runsFor (dt := dt)
  | ethLinkChange dt => exact execEthLinkChange_runsFor (dt := dt)
  | pcieLinkChange dt => exact execPcieLinkChange_runsFor (dt := dt)
  | canBusOff dt => exact execCanBusOff_runsFor (dt := dt)
  | pllLossOfLock dt => exact execPllLossOfLock_runsFor (dt := dt)
  | undefinedRequestType dt => exact execUndefinedRequestType_runsFor (dt := dt)

/-- Every command runs for the ticks it carries. -/
theorem exec_runsOnFor (c : Instr) (s : State) : RunsOnFor c.dt s (exec c s) := by
  cases h : c.blowsFuses with
  | false => exact (exec_runsFor h).runsOnFor
  | true =>
    match c, h with
    | .powerOnResetRelease .., _ => exact execPowerOnResetRelease_runsOnFor
    | .powerOnResetEntry .., _ => exact execPowerOnResetEntry_runsOnFor
    | .porstNRelease .., _ => exact execPorstNRelease_runsOnFor
    | .startDone .., _ => exact execStartDone_runsOnFor
    | .startRetryDelayExpire .., _ => exact execStartRetryDelayExpire_runsOnFor
    | .dbgAcc .., _ => exact execDbgAcc_runsOnFor
    | .fuse .., _ => exact execFuse_runsOnFor
    | .dbgReturnWrite .., _ => exact execDbgReturnWrite_runsOnFor
    | .pmicPgReturnWaitExpire .., _ => exact execPmicPgReturnWaitExpire_runsOnFor

end
end Sys2Proof.Machine

/-! SETTLED. The machine as a whole. -/

open Sys2Proof Sys2Proof.Machine

/-- A step with a command at the front of the queue runs it: what it leaves waiting is the queue's rest. -/
theorem step_advances {s t : State} (h : step s = .next t) :
    (s.pending = [] ∧ t = s) ∨ ∃ c rest, s.pending = c :: rest ∧ Advances (({ s with pending := rest } : State).elapse c.dt) t :=
        by
  unfold step at h
  split at h
  · next hp =>
    cases h
    exact .inl ⟨hp, rfl⟩
  · next c rest hp =>
    obtain ⟨u, hu, hadv⟩ := exec_runsOnFor c { s with pending := rest }
    rw [hu] at h
    cases h
    exact .inr ⟨c, rest, hp, hadv⟩

/-- Settles O1: it is the second case of `step`. -/
theorem stepRunsTheFrontCommand : Obligations.StepRunsTheFrontCommand := by
  intro c rest s h
  unfold step
  rw [h]

/-- Settles O3: every command runs on for the ticks it carries. -/
theorem everyCommandCompletes : Obligations.EveryCommandCompletes := by
  intro c s
  obtain ⟨t, ht, hadv⟩ := exec_runsOnFor c s
  exact ⟨t, ht, by simpa using hadv.tick⟩

/-- Settles O4: no operation touches the queue of waiting commands. -/
theorem commandsRunInOrder : Obligations.CommandsRunInOrder := by
  intro c rest s t hp h
  obtain ⟨hp', _⟩ | ⟨c', rest', hp', hadv⟩ := step_advances h
  · rw [hp] at hp'
    cases hp'
  · rw [hp] at hp'
    cases hp'
    simpa using hadv.pending

/-- Settles O5: no operation writes the flash or the UFS. -/
theorem modelStoreNeverWritten : Obligations.ModelStoreNeverWritten := by
  intro c s t h
  obtain ⟨u, hu, hadv⟩ := exec_runsOnFor c s
  rw [hu] at h
  cases h
  exact ⟨by simpa using hadv.ufs, by simpa using hadv.flash⟩

/-- Settles O6: every operation keeps the canonical form of what it writes. -/
theorem stepKeepsCanonical : Obligations.StepKeepsCanonical := by
  intro s t hs h
  obtain ⟨_, rfl⟩ | ⟨c, rest, _, hadv⟩ := step_advances h
  · exact hs
  · refine hadv.canonical ?_
    simpa [State.Canonical] using hs

/-- Settles O8: a cold start, DONE and the debug port are the only ones that touch fuses, and each only advances them. -/
theorem fusesOnlyAdvance : Obligations.FusesOnlyAdvance := by
  constructor
  · intro c s t hc h
    obtain ⟨u, hu, hkeeps⟩ := exec_runsFor (s := s) hc
    rw [hu] at h
    cases h
    simpa using hkeeps.fuses
  · intro s t hlife h
    obtain ⟨_, rfl⟩ | ⟨c, rest, _, hadv⟩ := step_advances h
    · exact Fuses.StepTo.refl _ hlife
    · have hstep := hadv.fuses
      simp only [State.elapse_fuses] at hstep
      exact hstep hlife
end


section
open Sys2Proof Sys2Proof.Machine

/-- Settles O2: the registers hold their reset values, which the kernel evaluates, and everything else of the state its default. -/
theorem resetState : Obligations.ResetState := by
  have hregs : State.reset.svc = 0 ∧ State.reset.reg R.TOP_ID_PART = 0x0480 ∧ State.reset.reg R.TOP_ID_VENDOR = 0x7C3E ∧
      State.reset.reg R.SAFE_FAULT_CFG_REACT 0x00 = 2 ∧ State.reset.reg R.SAFE_FAULT_CFG_REACT 0x1A = 1 ∧
      State.reset.reg R.SAFE_FAULT_CFG_REACT 0x51 = 0 := by decide +kernel
  obtain ⟨hsvc, hpart, hvendor, hdown, hwarn, hnone⟩ := hregs
  exact ⟨rfl, rfl, hsvc, hpart, hvendor, hdown, hwarn, hnone, rfl, rfl, rfl, reset_canonical⟩
end

section
/-!
SUPPORT. Register fields as functions of the register file alone, so that a run of a command is read off as one state whose fields are
written out: what each field write does, and what it leaves.
-/

namespace Sys2Proof.Machine

open Sys2Proof

/-- The value of a field in a register file. -/
def fieldIn (m : List (Nat × Word32)) (r : RegRow) (i j : Nat) : Nat := ({ regs := m } : State).reg r i j

/-- A register file with a field written. -/
def setFieldIn (m : List (Nat × Word32)) (r : RegRow) (v i j : Nat) : List (Nat × Word32) := (({ regs := m } : State).setReg r v i j).regs

/-- The write of one field does not touch the other: other words, or other bits of the same words. -/
@[reducible] def RegRow.Apart (r q : RegRow) (i j k l : Nat) : Prop :=
  (q.at k l + 4 * q.words ≤ r.at i j ∨ r.at i j + 4 * r.words ≤ q.at k l) ∨
    (q.at k l = r.at i j ∧ q.words = r.words ∧ 0 < q.width ∧ (q.lo + q.width ≤ r.lo ∨ r.lo + r.width ≤ q.lo))

theorem State.reg_setReg_apart {s : State} {r q : RegRow} {v i j k l : Nat} (hwf : Sparse.wf 0#32 s.regs = true)
    (h : r.Apart q i j k l) : (s.setReg r v i j).reg q k l = s.reg q k l := by
  obtain h | ⟨hat, hwords, hwidth, hbits⟩ := h
  · exact s.reg_setReg_other r q v i j k l hwf h
  · exact s.reg_setReg_beside r q v i j k l hwf hat hwords hwidth hbits

theorem State.regWords_of_regs {s t : State} (h : t.regs = s.regs) (a n : Nat) : t.regWords a n = s.regWords a n :=
  State.regWords_congr _ _ _ _ fun x _ _ => by rw [State.regWord, State.regWord, h]

theorem State.reg_eq (s : State) (r : RegRow) (i j : Nat) : s.reg r i j = fieldIn s.regs r i j := by
  rw [fieldIn, State.reg, State.reg, State.regWords_of_regs (s := s) (t := { regs := s.regs }) rfl]

theorem setRegWords_regs {s t : State} (h : t.regs = s.regs) (a v n : Nat) : (t.setRegWords a v n).regs = (s.setRegWords a v n).regs := by
  induction n generalizing s t a v with
  | zero => exact h
  | succ n ih => exact ih (by rw [State.setRegWord, State.setRegWord, h]) _ _

theorem State.setReg_regs (s : State) (r : RegRow) (v i j : Nat) : (s.setReg r v i j).regs = setFieldIn s.regs r v i j := by
  rw [setFieldIn, State.setReg, State.setReg, State.regWords_of_regs (s := s) (t := { regs := s.regs }) rfl]
  exact setRegWords_regs (s := { regs := s.regs }) (t := s) rfl _ _ _

/-- A field write changes the register file and nothing else. -/
theorem State.setReg_eq' (s : State) (r : RegRow) (v i j : Nat) : s.setReg r v i j = { s with regs := setFieldIn s.regs r v i j } := by
  rw [← State.setReg_regs]
  exact s.setReg_eq r v i j

theorem fieldIn_setFieldIn_same {m : List (Nat × Word32)} {r : RegRow} {v i j : Nat} (hwf : Sparse.wf 0#32 m = true) (hw : 0 < r.width) :
    fieldIn (setFieldIn m r v i j) r i j = v % 2 ^ r.width := by
  rw [setFieldIn, ← State.reg_eq]
  exact State.reg_setReg_same _ r v i j hwf hw

theorem fieldIn_setFieldIn_apart {m : List (Nat × Word32)} {r q : RegRow} {v i j k l : Nat} (hwf : Sparse.wf 0#32 m = true)
    (h : r.Apart q i j k l) : fieldIn (setFieldIn m r v i j) q k l = fieldIn m q k l := by
  rw [setFieldIn, ← State.reg_eq]
  exact State.reg_setReg_apart hwf h

theorem setFieldIn_wf {m : List (Nat × Word32)} {r : RegRow} {v i j : Nat} (hwf : Sparse.wf 0#32 m = true) :
    Sparse.wf 0#32 (setFieldIn m r v i j) = true := State.setReg_wf _ r v i j hwf

theorem fieldIn_lt (m : List (Nat × Word32)) (r : RegRow) (i j : Nat) (hw : 0 < r.width) : fieldIn m r i j < 2 ^ r.width :=
  State.reg_lt _ r i j hw

theorem State.incReg_eq' (s : State) (r : RegRow) (i j n : Nat) :
    s.incReg r i j n = { s with regs := setFieldIn s.regs r (min (fieldIn s.regs r i j + n) (2 ^ r.width - 1)) i j } := by
  rw [State.incReg, State.setReg_eq', State.reg_eq]

theorem State.flag_eq (s : State) (r : RegRow) (i j : Nat) : s.flag r i j = (fieldIn s.regs r i j != 0) := by
  rw [State.flag, State.reg_eq]

theorem sameMemory_of_mem {s t : State} (h : t.mem = s.mem) : SameMemory s t := fun a => by rw [State.byte, State.byte, h]

end Sys2Proof.Machine
end

section
/-!
SUPPORT. Commands under execution: what a command written back changes, and how a command that has run is executed.
-/

namespace Sys2Proof.Machine

open Sys2Proof

/-! ### Commands by their number -/

theorem find?_updateFirst_hit {α : Type} {p : α → Bool} {f : α → α} {l : List α} {x : α} (h : l.find? p = some x) (hx : p (f x) = true) :
    (updateFirst p f l).find? p = some (f x) := by
  induction l with
  | nil => cases h
  | cons a l ih =>
    rw [updateFirst]
    split
    · next ha =>
      rw [List.find?_cons_of_pos ha] at h
      cases h
      exact List.find?_cons_of_pos hx
    · next ha =>
      rw [List.find?_cons_of_neg ha] at h
      rw [List.find?_cons_of_neg ha, ih h]

theorem find?_updateFirst_miss {α : Type} {p q : α → Bool} {f : α → α} {l : List α} (h : ∀ x, p x = true → q x = false ∧ q (f x) = false) :
    (updateFirst p f l).find? q = l.find? q := by
  induction l with
  | nil => rfl
  | cons a l ih =>
    rw [updateFirst]
    split
    · next ha => rw [List.find?_cons_of_neg (by simp [h a ha]), List.find?_cons_of_neg (by simp [h a ha])]
    · next ha => rw [List.find?_cons, List.find?_cons, ih]

theorem State.cmd?_id {s : State} {id : Nat} {c : Cmd} (h : s.cmd? id = some c) : c.id = id := by
  simpa using List.find?_some h

theorem State.cmd?_of_cmds {s t : State} (h : t.cmds = s.cmds) (id : Nat) : t.cmd? id = s.cmd? id := by rw [State.cmd?, State.cmd?, h]

theorem State.cmd?_setCmd_same {s : State} {id : Nat} {c x : Cmd} (h : s.cmd? id = some c) (hx : x.id = id) :
    (s.setCmd x).cmd? id = some x := by
  subst hx
  exact find?_updateFirst_hit (f := fun _ => x) h (by simp)

theorem State.cmd?_setCmd_other {s : State} {k : Nat} {x : Cmd} (h : k ≠ x.id) : (s.setCmd x).cmd? k = s.cmd? k := by
  refine find?_updateFirst_miss fun y hy => ?_
  rw [beq_iff_eq] at hy
  exact ⟨by simp [hy, Ne.symm h], by simp [Ne.symm h]⟩

theorem State.setCmd_eq (s : State) (x : Cmd) : s.setCmd x = { s with cmds := (s.setCmd x).cmds } := rfl

/-- The command `c` written back over itself: the others stay. -/
theorem sameCommandsBut_setCmd {s : State} {id : Nat} {x : Cmd} (hx : x.id = id) : SameCommandsBut id s (s.setCmd x) :=
  fun _ hk => State.cmd?_setCmd_other (hx.symm ▸ hk)

/-! ### Execution -/

theorem State.executing_cmd? {s : State} {id op : Nat} {c : Cmd} (h : s.executing id op = some c) : s.cmd? id = some c := by
  unfold State.executing at h
  split at h
  · next d hd =>
    split at h
    · exact h ▸ hd
    · cases h
  · cases h

theorem State.engine_executing {s : State} {id op : Nat} {c : Cmd} (h : s.engine id op = some c) : s.executing id op = some c := by
  unfold State.engine at h
  split at h
  · next d hd =>
    dsimp only at h
    split at h
    · exact h ▸ hd
    · cases h
  · cases h

theorem State.engine_cmd? {s : State} {id op : Nat} {c : Cmd} (h : s.engine id op = some c) : s.cmd? id = some c :=
  State.executing_cmd? (State.engine_executing h)

theorem State.forget_eq {s : State} (h : s.wrote = none) : s.forget = s := by rw [State.forget, h]

theorem State.beginWork_eq {s : State} {c : Cmd} (h : s.wrote = none) (hc : c.aborted = false) : s.beginWork c = s := by
  rw [State.beginWork, hc, ← h]
  rfl

theorem State.finish_eq {s : State} {id n : Nat} {c : Cmd} {d : Done} (h : s.cmd? id = some c) (hw : s.wrote = none) :
    s.finish id d n = s.setCmd { c with stage := .done, status := d.status, detail := d.detail, units := n, begun := true } := by
  simp only [State.finish, State.forget_eq hw, h]

/-- `t` is `s` with the command `id` executed: its end is known, and nothing else has changed. -/
structure State.Ends (s : State) (id : Nat) (d : Done) (n : Nat) (t : State) : Prop where
  executed : t.Executed id d.status d.detail n
  others : SameCommandsBut id s t
  eq : t = { s with cmds := t.cmds }

theorem State.finish_ends {s : State} {id n : Nat} {c : Cmd} {d : Done} (h : s.cmd? id = some c) (hw : s.wrote = none) :
    s.Ends id d n (s.finish id d n) := by
  rw [State.finish_eq h hw]
  have hid := State.cmd?_id h
  exact ⟨⟨_, State.cmd?_setCmd_same h hid, rfl, rfl, rfl, rfl⟩, sameCommandsBut_setCmd hid, rfl⟩

theorem State.Ends.and {s t : State} {id n : Nat} {d : Done} (h : s.Ends id d n t) :
    t.Executed id d.status d.detail n ∧ SameCommandsBut id s t ∧ t = { s with cmds := t.cmds } := ⟨h.1, h.2, h.3⟩

section

variable {s : State} {id op : Nat} {c : Cmd}

/-! ### The forms in which commands run, where nothing has been noted as written -/

theorem State.runSeq_eq {f : Cmd → State → Done × State} (h : s.executing id op = some c) (hw : s.wrote = none) (hc : c.aborted = false) :
    s.runSeq id op f = (f c s).2.finish id (f c s).1 := by
  simp only [State.runSeq, h, State.beginWork_eq hw hc]

theorem State.runEngine_ok {f : Cmd → Eff Unit} {u : State} (h : s.engine id op = some c) (hw : s.wrote = none) (hc : c.aborted = false)
    (hf : f c s = (.ok (), u)) : s.runEngine id op f = u.finish id {} := by
  simp only [State.runEngine, h, State.beginWork_eq hw hc, hf]

theorem State.runEngine_error {f : Cmd → Eff Unit} {d : Done} {u : State} (h : s.engine id op = some c) (hw : s.wrote = none)
    (hc : c.aborted = false) (hf : f c s = (.error d, u)) : s.runEngine id op f = u.finish id d := by
  simp only [State.runEngine, h, State.beginWork_eq hw hc, hf]

theorem State.runTensor_eq {f : Cmd → Nat → Eff Unit} {d : Done} {u : State} (h : s.engine id op = some c) (hw : s.wrote = none)
    (hc : c.aborted = false) (hf : s.runCores (f c) (maskCores c.coreMask) = (d, u)) : s.runTensor id op f = u.finish id d := by
  simp only [State.runTensor, h, State.beginWork_eq hw hc, hf]

theorem State.resume_eq {total : Nat} (hb : c.begun = false) (hk : hdrCheckpoint (c.word 0) = false) :
    s.resume c total = (.ok 0, s) := by
  simp [State.resume, hb, hk]

/-- A command without CHECKPOINT runs as one piece. -/
theorem State.runLong_eq {total step : Cmd → Nat} {seg : Cmd → Nat → Nat → State → Nat × Done × State} {n : Nat} {d : Done} {u : State}
    (h : s.engine id op = some c) (hw : s.wrote = none) (hc : c.aborted = false) (hb : c.begun = false)
    (hk : hdrCheckpoint (c.word 0) = false) (hf : seg c 0 (total c) s = (n, d, u)) :
    s.runLong id op total step seg = u.finish id d n := by
  simp [State.runLong, h, State.resume_eq hb hk, hk, State.beginWork_eq hw hc, hf]

/-- A sort or top-k command without CHECKPOINT runs each of its rows as one unit. -/
theorem State.runSort_eq {k : Cmd → Nat} {bad : Option Nat} {n : Nat} {d : Done} {u : State} (h : s.engine id op = some c)
    (hw : s.wrote = none) (hc : c.aborted = false) (hb : c.begun = false) (hk : hdrCheckpoint (c.word 0) = false) (hne : k c ≠ 0)
    (hf : runRows (selLong c (k c)) (selBad bad) c.sel.rows 0 c.sel.rows s = (n, d, u)) : s.runSort id op k bad = u.finish id d n := by
  rw [State.runSort]
  refine State.runLong_eq h hw hc hb hk ?_
  simpa [if_neg hne, hk] using hf

end

/-! ### What follows for the statements about parts and rows -/

/-- The conclusion the statements draw: the command ends with status 0, and nothing else changes. -/
theorem finish_done {u : State} {id n : Nat} {d : Cmd} {o : Host.Outcome State Fault Refusal} (hd : u.cmd? id = some d)
    (hw : u.wrote = none) (ho : o = .next (u.finish id {} n)) :
    ∃ t, o = .next t ∧ t.Executed id 0 0 n ∧ SameCommandsBut id u t ∧ t = { u with cmds := t.cmds } :=
  ⟨_, ho, (State.finish_ends hd hw).and⟩

end Sys2Proof.Machine

open Sys2Proof Sys2Proof.Machine

/-- Settles O40: `runTensor` ends the command with what its cores gave. -/
theorem tensorCommands : Obligations.TensorCommands := by
  refine ⟨fun s e u dt id c d faults he hw hc hd hu => ?_, fun s e u dt id c d faults he hw hc hd hu => ?_⟩ <;> subst he
  · refine ⟨?_, ?_, ?_, ?_, ?_, ?_, ?_⟩ <;> intro h hr <;>
      exact finish_done hd hu (congrArg _ (State.runTensor_eq h hw hc hr))
  · refine ⟨?_, ?_, ?_, ?_, ?_, ?_⟩ <;> intro h hr <;>
      exact finish_done hd hu (congrArg _ (State.runTensor_eq h hw hc hr))

/-- Settles O45: `runLong` of a command without CHECKPOINT ends it with what its rows gave. -/
theorem rowCommands : Obligations.RowCommands := by
  intro s e u dt id n c d he hw hc hb hk hd hu
  subst he
  refine ⟨?_, ?_, ?_, ?_, ?_, ?_⟩
  · intro faults o t ho h ht hn hr
    subst ho hn
    exact finish_done hd hu (congrArg _ (State.runLong_eq h hw hc hb hk (by simpa only [ht, Nat.sub_zero] using hr)))
  · intro faults t h ht hn hr
    subst hn
    exact finish_done hd hu (congrArg _ (State.runLong_eq h hw hc hb hk (by simpa only [ht, Nat.sub_zero] using hr)))
  · intro bad hn hne h hr
    subst hn
    exact finish_done hd hu (congrArg _ (State.runLong_eq h hw hc hb hk (by simpa only [if_neg hne, Nat.sub_zero] using hr)))
  · intro bad hn hne h hr
    subst hn
    exact finish_done hd hu (congrArg _ (State.runSort_eq h hw hc hb hk hne hr))
  · intro bad hn hne h hr
    subst hn
    exact finish_done hd hu (congrArg _ (State.runLong_eq h hw hc hb hk (by simpa only [if_neg hne, Nat.sub_zero] using hr)))
  · intro bad hn hne h hr
    subst hn
    exact finish_done hd hu (congrArg _ (State.runSort_eq h hw hc hb hk hne hr))

/-- Settles O48: `runEngine` ends the command with what its work gave. -/
theorem tokenCommands : Obligations.TokenCommands := by
  intro s e u dt id c d he hw hc hd hu
  subst he
  refine ⟨?_, ?_, ?_, ?_, ?_⟩
  · intro v h hv hr
    exact finish_done hd hu (congrArg _ (State.runEngine_ok h hw hc (by simpa only [hv] using hr)))
  · intro v h hv hr
    exact finish_done hd hu (congrArg _ (State.runEngine_ok h hw hc (by simpa only [hv] using hr)))
  · intro h hr
    exact finish_done hd hu (congrArg _ (State.runEngine_ok h hw hc hr))
  · intro h hr
    exact finish_done hd hu (congrArg _ (State.runEngine_ok h hw hc hr))
  · rintro e' h ⟨v, w, hv, hr, hwd, hww⟩
    exact ⟨_, congrArg Host.Outcome.next (State.runEngine_error h hw hc (by simpa only [hv] using hr)), (State.finish_ends hwd hww).executed⟩
end

section
/-!
SUPPORT. Events, waits and lists of the sequencers: what an add, a set and a satisfied wait leave, and where a jump goes.
-/

namespace Sys2Proof.Machine

open Sys2Proof

/-! ### Entries that are not the default -/

/-- An entry written reads back whatever the order of the others, when it is not the default. -/
theorem Sparse.get_put_of_ne {β : Type} [DecidableEq β] {d v : β} (m : List (Nat × β)) (k : Nat) (hv : v ≠ d) :
    Sparse.get d (Sparse.put d m k v) k = v := by
  induction m with
  | nil => simp [Sparse.put, Sparse.get, hv]
  | cons p m ih =>
    obtain ⟨i, w⟩ := p
    by_cases hi : i = k
    · simp [Sparse.put, Sparse.get, hv, hi]
    · by_cases hk : k < i
      · simp [Sparse.put, Sparse.get, hv, hi, hk]
      · simp [Sparse.put, Sparse.get, hi, hk, ih]

theorem State.thread_setThread {s : State} {t : Nat} {x : Thread} (h : x.frames ≠ []) : (s.setThread t x).thread t = x :=
  Sparse.get_put_of_ne _ _ fun hx => h (by rw [hx])

/-! ### Results of a run of `seq` commands -/

section

variable {s t : State} {id n : Nat} {c : Cmd} {d : Done}

theorem State.Ends.executed_zero (h : s.Ends id {} n t) : t.Executed id 0 0 n := h.executed

/-- The end of a command whose effect left the commands as they were. -/
theorem State.finish_ends_of_cmds {u : State} (hc : s.cmd? id = some c) (hu : u.cmds = s.cmds) (hw : u.wrote = none) :
    (u.finish id d n).Executed id d.status d.detail n ∧ SameCommandsBut id s (u.finish id d n) ∧
      u.finish id d n = { u with cmds := (u.finish id d n).cmds } := by
  obtain ⟨hx, ho, heq⟩ := State.finish_ends (d := d) (n := n) ((State.cmd?_of_cmds hu id).trans hc) hw
  exact ⟨hx, fun k hk => (ho k hk).trans (State.cmd?_of_cmds hu k), heq⟩

/-- The command written back with another stage. -/
theorem State.setCmd_ends {x : Cmd} (hc : s.cmd? id = some c) (hx : x.id = id) :
    (s.setCmd x).cmd? id = some x ∧ SameCommandsBut id s (s.setCmd x) ∧ s.setCmd x = { s with cmds := (s.setCmd x).cmds } :=
  ⟨State.cmd?_setCmd_same hc hx, sameCommandsBut_setCmd hx, rfl⟩

end

/-! ### Events -/

theorem State.waiters_of_cmds {s t : State} (h : t.cmds = s.cmds) (ev : Nat) : t.waiters ev = s.waiters ev := by
  rw [State.waiters, State.waiters, h]

/-- An add to an event that does not overflow and for which nothing waits. -/
theorem State.addEvent_eq {s : State} {ev n : Nat} (h : s.event ev + n < 2 ^ 32) (hw : s.waiters ev = []) :
    s.addEvent ev n = if n = 0 then s else s.setEvent ev (s.event ev + n) := by
  unfold State.addEvent
  split
  · rfl
  · dsimp only
    rw [if_pos h, State.waiters_of_cmds (s := s) (by rfl), hw]
    rfl

/-- Events and nothing else: what a run of adds leaves. -/
structure State.Adds (s : State) (adds : Nat → Nat) (t : State) : Prop where
  events : ∀ k, t.event k = s.event k + adds k
  wf : Sparse.wf 0#32 t.events = true
  eq : t = { s with events := t.events }

theorem State.addEvent_adds {s : State} {ev n : Nat} (hwf : Sparse.wf 0#32 s.events = true) (h : s.event ev + n < 2 ^ 32)
    (hw : s.waiters ev = []) : s.Adds (fun k => if ev = k then n else 0) (s.addEvent ev n) := by
  rw [State.addEvent_eq h hw]
  split
  · next hn => exact ⟨fun k => by simp [hn], hwf, rfl⟩
  · refine ⟨fun k => ?_, Sparse.put_wf _ _ hwf, rfl⟩
    rw [State.event_setEvent _ _ _ _ hwf]
    by_cases hk : k = ev
    · subst hk
      rw [if_pos rfl, if_pos rfl, Nat.mod_eq_of_lt h]
    · rw [if_neg hk, if_neg (Ne.symm hk)]
      rfl

theorem eventsOnly_trans {s t u : State} (h : t = { s with events := t.events }) (h' : u = { t with events := u.events }) :
    u = { s with events := u.events } := h'.trans (by rw [h])

/-- A run of adds that overflows nowhere and for which nothing waits adds every count to its event. -/
theorem State.foldl_addEvent_adds {α : Type} (ev n : α → Nat) (l : List α) {s : State} (hwf : Sparse.wf 0#32 s.events = true)
    (hlt : ∀ k, s.event k + (l.map fun i => if ev i = k then n i else 0).sum < 2 ^ 32) (hw : ∀ k, s.waiters k = []) :
    s.Adds (fun k => (l.map fun i => if ev i = k then n i else 0).sum) (l.foldl (fun s i => s.addEvent (ev i) (n i)) s) := by
  induction l generalizing s with
  | nil => exact ⟨fun _ => rfl, hwf, rfl⟩
  | cons i l ih =>
    have hi := hlt (ev i)
    simp only [List.map_cons, List.sum_cons, if_true] at hi
    have hadd := State.addEvent_adds (n := n i) hwf (by omega) (hw (ev i))
    obtain ⟨hev, hwf', heq⟩ := hadd
    have hrest := ih hwf' (fun k => by rw [hev]; simpa [Nat.add_assoc] using hlt k)
      (fun k => (State.waiters_of_cmds (by rw [heq]) k).trans (hw k))
    refine ⟨fun k => ?_, hrest.wf, eventsOnly_trans heq hrest.eq⟩
    rw [List.foldl_cons, hrest.events, hev]
    simp [Nat.add_assoc]

/-- The end of a command whose effect was on events only. -/
theorem State.finish_of_events {s u : State} {id n : Nat} {c : Cmd} {d : Done} (hc : s.cmd? id = some c) (hw : s.wrote = none)
    (hu : u = { s with events := u.events }) :
    (u.finish id d n).Executed id d.status d.detail n ∧ SameCommandsBut id s (u.finish id d n) ∧ (u.finish id d n).events = u.events ∧
      u.finish id d n = { s with cmds := (u.finish id d n).cmds, events := (u.finish id d n).events } := by
  obtain ⟨v, rfl⟩ : ∃ v, u = { s with events := v } := ⟨_, hu⟩
  rw [State.finish_eq (s := { s with events := v }) hc hw]
  have hid := State.cmd?_id hc
  exact ⟨⟨_, State.cmd?_setCmd_same (s := { s with events := v }) hc hid, rfl, rfl, rfl, rfl⟩,
    sameCommandsBut_setCmd (s := { s with events := v }) hid, rfl, rfl⟩

theorem State.event_of_events {s t : State} (h : t.events = s.events) (k : Nat) : t.event k = s.event k := by
  rw [State.event, State.event, h]

/-- The end of a command that has set one event. -/
theorem State.finish_setEvent {s : State} {id n ev v : Nat} {c : Cmd} {d : Done} (hwf : Sparse.wf 0#32 s.events = true)
    (hc : s.cmd? id = some c) (hw : s.wrote = none) (hv : v < 2 ^ 32) :
    ((s.setEvent ev v).finish id d n).Executed id d.status d.detail n ∧ SameCommandsBut id s ((s.setEvent ev v).finish id d n) ∧
      ((s.setEvent ev v).finish id d n).event ev = v ∧ (∀ k, k ≠ ev → ((s.setEvent ev v).finish id d n).event k = s.event k) ∧
      (s.setEvent ev v).finish id d n =
        { s with cmds := ((s.setEvent ev v).finish id d n).cmds, events := ((s.setEvent ev v).finish id d n).events } := by
  obtain ⟨hx, ho, hev, heq⟩ := State.finish_of_events (u := s.setEvent ev v) (d := d) (n := n) hc hw rfl
  refine ⟨hx, ho, ?_, fun k hk => ?_, heq⟩
  · rw [State.event_of_events hev, State.event_setEvent _ _ _ _ hwf, if_pos rfl, Nat.mod_eq_of_lt hv]
  · rw [State.event_of_events hev, State.event_setEvent _ _ _ _ hwf, if_neg hk]

theorem State.waiters_setEvent (s : State) (ev v k : Nat) : (s.setEvent ev v).waiters k = s.waiters k := rfl

theorem mem_of_mem_insertBy {α : Type} {le : α → α → Bool} {a x : α} {l : List α} (h : x ∈ insertBy le a l) : x = a ∨ x ∈ l := by
  induction l with
  | nil => exact .inl (List.mem_singleton.mp h)
  | cons b l ih =>
    rw [insertBy] at h
    split at h
    · exact List.mem_cons.mp h
    · obtain rfl | h := List.mem_cons.mp h
      · exact .inr List.mem_cons_self
      · exact (ih h).imp_right (List.mem_cons_of_mem b)

theorem mem_of_mem_sortBy {α : Type} {le : α → α → Bool} {x : α} {l : List α} (h : x ∈ sortBy le l) : x ∈ l := by
  induction l with
  | nil => exact h
  | cons a l ih =>
    obtain rfl | h := mem_of_mem_insertBy h
    · exact List.mem_cons_self
    · exact List.mem_cons_of_mem a (ih h)

theorem State.stage_of_executing {s : State} {id op : Nat} {c : Cmd} (h : s.executing id op = some c) : c.stage = .exec := by
  unfold State.executing at h
  split at h
  · split at h
    · next hin => cases h; exact hin.2.1
    · cases h
  · cases h

/-- A command that waits for an event is not the one that executes. -/
theorem State.ne_waiter {s : State} {id op ev : Nat} {c w : Cmd} (hx : s.executing id op = some c) (hw : w ∈ s.waiters ev)
    (hcw : s.cmd? w.id = some w) : w.id ≠ id := by
  intro hid
  have hstage := State.stage_of_executing hx
  have hmem := (List.mem_filter.mp (mem_of_mem_sortBy hw)).2
  rw [hid, State.executing_cmd? hx] at hcw
  cases hcw
  simp [hstage] at hmem

/-- An event set to a value that satisfies the one command waiting on it: both commands end. -/
theorem State.satisfy_one {s : State} {id n ev v : Nat} {c w : Cmd} {d : Done} (hwf : Sparse.wf 0#32 s.events = true)
    (hc : s.cmd? id = some c) (hw : s.wrote = none) (hcw : s.cmd? w.id = some w) (hne : w.id ≠ id) (hb : bit (w.word 1) 13 = false)
    (hle : bits (w.word 1) 63 32 ≤ v) (hv : v < 2 ^ 32) :
    ((((s.setEvent ev v).satisfy ev [w]).finish id d n).Executed id d.status d.detail n) ∧
      (((s.setEvent ev v).satisfy ev [w]).finish id d n).event ev = v ∧
      (((s.setEvent ev v).satisfy ev [w]).finish id d n).cmd? w.id = some { w with stage := .done, status := 0 } ∧
      (((s.setEvent ev v).satisfy ev [w]).finish id d n).mem = s.mem := by
  have hev : (s.setEvent ev v).event ev = v := by rw [State.event_setEvent _ _ _ _ hwf, if_pos rfl, Nat.mod_eq_of_lt hv]
  have hsat : (s.setEvent ev v).satisfy ev [w] =
      ((s.setEvent ev v).setCmd { w with stage := .done, status := 0 }).boundary w.thread := by
    simp only [State.satisfy, hev]
    rw [if_pos (by exact hle)]
    rw [if_neg (by rw [show w.words.getD 1 0 = w.word 1 from rfl, hb]; decide)]
  have hcu : ((s.setEvent ev v).satisfy ev [w]).cmd? id = some c := by
    rw [hsat]
    exact (State.cmd?_setCmd_other (s := s.setEvent ev v) (x := { w with stage := .done, status := 0 }) (Ne.symm hne)).trans hc
  have hwu : ((s.setEvent ev v).satisfy ev [w]).cmd? w.id = some { w with stage := .done, status := 0 } := by
    rw [hsat]
    exact State.cmd?_setCmd_same (s := s.setEvent ev v) hcw rfl
  obtain ⟨hx, ho, heq⟩ := State.finish_ends (d := d) (n := n) hcu (by rw [hsat]; exact hw)
  refine ⟨hx, ?_, (ho w.id hne).trans hwu, ?_⟩
  · rw [State.event_of_events (s := s.setEvent ev v) (by rw [heq, hsat]; rfl), hev]
  · rw [heq, hsat]
    rfl

/-! ### Jumps -/

theorem State.jumpTarget_eq {s : State} {c : Cmd} {offset n : Nat} {f : Frame} {l : List Frame} (hf : (s.thread c.thread).frames = f :: l)
    (hd : c.depth ≠ 0) (hn : n < f.slots) (ht : (c.offset : Int) + signed 32 offset = n) : s.jumpTarget c offset = some n := by
  simp [State.jumpTarget, hf, ht, hd, hn]

/-- No slot of the list: the command is in none, or the target lies outside. -/
theorem State.jumpTarget_none {s : State} {c : Cmd} {offset : Nat}
    (h : c.depth = 0 ∨ (c.offset : Int) + signed 32 offset < 0 ∨
      (s.thread c.thread).frames.head?.all (fun f => decide ((f.slots : Int) ≤ (c.offset : Int) + signed 32 offset))) :
    s.jumpTarget c offset = none := by
  unfold State.jumpTarget
  split
  · next f l hf =>
    rw [hf] at h
    refine if_neg fun hin => ?_
    obtain ⟨hd, h0, hlt⟩ := hin
    obtain h | h | h := h
    · exact hd h
    · omega
    · simp only [List.head?_cons, Option.all_some, decide_eq_true_eq] at h
      omega
  · rfl

/-- A jump: the innermost list goes on at slot `n`. -/
theorem State.jumpTo_eq {s : State} {t n : Nat} {f : Frame} {l : List Frame} (hf : (s.thread t).frames = f :: l) :
    s.jumpTo t n = s.setThread t { s.thread t with frames := { f with pos := n } :: l } := by
  simp only [State.jumpTo, hf]

theorem State.jumpTo_frames {s : State} {t n : Nat} {f : Frame} {l : List Frame} (hf : (s.thread t).frames = f :: l) :
    ((s.jumpTo t n).thread t).frames = { f with pos := n } :: l := by
  rw [State.jumpTo_eq hf, State.thread_setThread (by simp)]

theorem State.thread_of_threads {s t : State} (h : t.threads = s.threads) (k : Nat) : t.thread k = s.thread k := by
  rw [State.thread, State.thread, h]

end Sys2Proof.Machine

open Sys2Proof Sys2Proof.Machine

/-- Settles O25: each command runs its own rule, and ends or begins to wait. -/
theorem signalsWaitsAndTimers : Obligations.SignalsWaitsAndTimers := by
  intro s e dt id c hs he hw hc
  have hwf : Sparse.wf 0#32 e.events = true := by rw [he, State.elapse_events]; exact hs.2.2.2.2.2.2
  refine ⟨?_, ?_, ?_, ?_, ?_, ?_, ?_⟩
  · intro hx
    refine ⟨_, rfl, ?_⟩
    rw [← he, State.runSeq_eq hx hw hc]
    exact State.finish_ends_of_cmds (State.executing_cmd? hx) rfl hw
  · intro adds hadds hx hlt hwait
    refine ⟨_, rfl, ?_⟩
    rw [← he, State.runSeq_eq hx hw hc]
    have hadd := State.foldl_addEvent_adds (fun i => eventIndex c.part (bits (c.word i) 11 0) (bit (c.word i) 12))
      (fun i => bits (c.word i) 63 32) [1, 2, 3, 4] hwf (fun k => by rw [← hadds]; exact hlt k) hwait
    obtain ⟨hexec, hothers, hevents, heq⟩ := State.finish_of_events (d := {}) (n := 0) (State.executing_cmd? hx) hw hadd.eq
    refine ⟨hexec, hothers, fun k => ?_, heq⟩
    rw [State.event_of_events hevents, hadd.events, hadds]
  · intro ev hevt hx
    refine ⟨fun hwait => ⟨_, rfl, ?_⟩, fun w hwait hcw hb hle => ⟨_, rfl, ?_⟩⟩
    · rw [← he, State.runSeq_eq hx hw hc]
      dsimp only
      rw [← hevt, State.waiters_setEvent, hwait]
      exact State.finish_setEvent hwf (State.executing_cmd? hx) hw (bits_lt _ 63 32)
    · rw [← he, State.runSeq_eq hx hw hc]
      dsimp only
      rw [← hevt, State.waiters_setEvent, hwait]
      obtain ⟨hexec, hev, hcmd, hmem⟩ := State.satisfy_one (id := id) (d := {}) (n := 0) hwf (State.executing_cmd? hx) hw hcw
        (State.ne_waiter hx (hwait ▸ List.mem_singleton_self w) hcw) hb hle (bits_lt _ 63 32)
      refine ⟨hexec, hev, hcmd, sameMemory_of_mem ?_⟩
      rw [hmem, he, State.elapse_mem]
  · intro thr hthr hx
    refine ⟨fun hle => ⟨_, rfl, ?_⟩, fun hlt => ⟨_, rfl, ?_⟩⟩
    · rw [← he, hx]
      dsimp only
      rw [← hthr, if_pos hle]
      split
      · exact State.finish_setEvent hwf (State.executing_cmd? hx) hw (Nat.lt_of_le_of_lt (Nat.sub_le _ _) (BitVec.isLt _))
      · obtain ⟨hexec, hothers, hevents, heq⟩ := State.finish_of_events (d := {}) (n := 0) (State.executing_cmd? hx) hw (u := e) rfl
        exact ⟨hexec, hothers, State.event_of_events hevents _, fun k _ => State.event_of_events hevents k, heq⟩
    · rw [← he, hx]
      dsimp only
      rw [← hthr, if_neg (by omega)]
      obtain ⟨hcmd, hothers, heq⟩ := State.setCmd_ends (State.executing_cmd? hx) (x := { c with
            stage := .waitEvent, start := e.tick
            limit := (if bits (c.word 2) 31 0 = 0 then none else some (e.tick + usTicks (bits (c.word 2) 31 0))) })
          (State.cmd?_id (State.executing_cmd? hx) :)
      exact ⟨hothers, heq, hcmd⟩
  · intro l hcmd hst hl hle
    refine ⟨_, rfl, ?_⟩
    rw [← he, hcmd]
    dsimp only
    rw [if_pos ⟨hst, by simpa [hl] using hle⟩]
    exact State.finish_ends_of_cmds hcmd rfl hw
  · intro at_ hat hx
    refine ⟨fun hle => ⟨_, rfl, ?_⟩, fun hlt => ⟨_, rfl, ?_⟩⟩
    · rw [← he, hx]
      dsimp only
      rw [← hat, if_pos hle]
      exact State.finish_ends_of_cmds (State.executing_cmd? hx) rfl hw
    · rw [← he, hx]
      dsimp only
      rw [← hat, if_neg (by omega)]
      exact State.setCmd_ends (State.executing_cmd? hx) (State.cmd?_id (State.executing_cmd? hx) :)
  · intro l hcmd hst hl hle
    refine ⟨_, rfl, ?_⟩
    rw [← he, hcmd]
    dsimp only
    rw [if_pos ⟨hst, by simpa [hl] using hle⟩]
    exact State.finish_ends_of_cmds hcmd rfl hw
end

section
/-!
SUPPORT. Lists of the sequencers: how a call, a branch and a loop end.
-/

namespace Sys2Proof.Machine

open Sys2Proof

/-- The end of a command whose effect was on threads only. -/
theorem State.finish_of_threads {s u : State} {id n : Nat} {c : Cmd} {d : Done} (hc : s.cmd? id = some c) (hw : s.wrote = none)
    (hu : u = { s with threads := u.threads }) :
    (u.finish id d n).Executed id d.status d.detail n ∧ SameCommandsBut id s (u.finish id d n) ∧ (u.finish id d n).threads = u.threads ∧
      u.finish id d n = { s with cmds := (u.finish id d n).cmds, threads := (u.finish id d n).threads } := by
  obtain ⟨v, rfl⟩ : ∃ v, u = { s with threads := v } := ⟨_, hu⟩
  rw [State.finish_eq (s := { s with threads := v }) hc hw]
  have hid := State.cmd?_id hc
  exact ⟨⟨_, State.cmd?_setCmd_same (s := { s with threads := v }) hc hid, rfl, rfl, rfl, rfl⟩,
    sameCommandsBut_setCmd (s := { s with threads := v }) hid, rfl, rfl⟩

/-- The end of a command whose effect was on registers only. -/
theorem State.finish_of_regs {s u : State} {id n : Nat} {c : Cmd} {d : Done} (hc : s.cmd? id = some c) (hw : s.wrote = none)
    (hu : u = { s with regs := u.regs }) :
    (u.finish id d n).Executed id d.status d.detail n ∧ SameCommandsBut id s (u.finish id d n) ∧ (u.finish id d n).regs = u.regs ∧
      u.finish id d n = { s with cmds := (u.finish id d n).cmds, regs := (u.finish id d n).regs } := by
  obtain ⟨v, rfl⟩ : ∃ v, u = { s with regs := v } := ⟨_, hu⟩
  rw [State.finish_eq (s := { s with regs := v }) hc hw]
  have hid := State.cmd?_id hc
  exact ⟨⟨_, State.cmd?_setCmd_same (s := { s with regs := v }) hc hid, rfl, rfl, rfl, rfl⟩,
    sameCommandsBut_setCmd (s := { s with regs := v }) hid, rfl, rfl⟩

/-- The end of a command whose effect left commands and notes of writes alone: it is the command's end and nothing else. -/
theorem State.finish_fields {u : State} {id n : Nat} {d : Done} {c : Cmd} (hc : u.cmd? id = some c) (hw : u.wrote = none) :
    (u.finish id d n).threads = u.threads ∧ (u.finish id d n).regs = u.regs ∧ (u.finish id d n).mem = u.mem ∧
      (u.finish id d n).events = u.events ∧ (u.finish id d n).queues = u.queues := by
  rw [State.finish_eq hc hw]
  exact ⟨rfl, rfl, rfl, rfl, rfl⟩

theorem State.runSeq_of {s u : State} {id op : Nat} {c : Cmd} {f : Cmd → State → Done × State} {d : Done}
    (h : s.executing id op = some c) (hw : s.wrote = none) (hc : c.aborted = false) (hf : f c s = (d, u)) :
    s.runSeq id op f = u.finish id d := by
  rw [State.runSeq_eq h hw hc, hf]

theorem State.reg_of_regs {s t : State} (h : t.regs = s.regs) (r : RegRow) (i j : Nat) : t.reg r i j = s.reg r i j := by
  rw [State.reg_eq, State.reg_eq, h]

theorem State.regWord_of_regs {s t : State} (h : t.regs = s.regs) (a : Nat) : t.regWord a = s.regWord a := by
  rw [State.regWord, State.regWord, h]

/-- Words outside the field's are as they were. -/
theorem State.regWord_setReg_other {s : State} {r : RegRow} {v i j a : Nat} (hwf : Sparse.wf 0#32 s.regs = true)
    (h : a < r.at i j ∨ r.at i j + 4 * r.words ≤ a) : (s.setReg r v i j).regWord a = s.regWord a :=
  State.regWord_setRegWords_other _ _ _ _ _ hwf h

theorem SameRegistersBut.of_regs {l : List (RegRow × Nat × Nat)} {s t u v : State} (h : SameRegistersBut l s t) (hs : u.regs = s.regs)
    (ht : v.regs = t.regs) : SameRegistersBut l u v := fun a ha => by
  rw [State.regWord_of_regs ht, State.regWord_of_regs hs]
  exact h a ha

end Sys2Proof.Machine

open Sys2Proof Sys2Proof.Machine

/-- Settles O27: a call puts a frame on its thread, and a branch or a loop goes where `jumpTarget` says. -/
theorem callsBranchesAndLoops : Obligations.CallsBranchesAndLoops := by
  intro s e dt id c hs he hw hc
  have hregs : e.regs = s.regs := by rw [he, State.elapse_regs]
  have hmem : e.mem = s.mem := by rw [he, State.elapse_mem]
  have hwf : Sparse.wf 0#32 e.regs = true := hregs ▸ hs.1
  refine ⟨?_, ?_, ?_, ?_, ?_⟩
  · intro hx
    have hcmd := State.executing_cmd? hx
    refine ⟨fun hd => ⟨_, rfl, ?_⟩, fun hd h0 => ⟨_, rfl, ?_⟩, fun hd h0 => ⟨_, rfl, ?_⟩⟩
    · rw [← he, hx]
      dsimp only
      rw [if_pos hd]
      exact State.finish_ends_of_cmds hcmd rfl hw
    · rw [← he, hx]
      dsimp only
      rw [if_neg hd, if_pos h0]
      exact State.finish_ends_of_cmds hcmd rfl hw
    · rw [← he, hx]
      dsimp only
      rw [if_neg hd, if_neg h0]
      have hid := State.cmd?_id hcmd
      refine ⟨State.cmd?_setCmd_same hcmd hid, sameCommandsBut_setCmd (s := e) (x := { c with stage := .called, begun := true }) hid, ?_, ?_, rfl⟩
      · rw [State.thread_setThread (by simp)]
      · rw [State.thread_setThread (by simp), hid]
  · intro f l n hf hd hn ht
    have hj := State.jumpTarget_eq hf hd hn ht
    refine ⟨fun hx hb => ⟨_, rfl, ?_⟩, fun hx hthr hcount => ⟨_, rfl, ?_⟩⟩
    · rw [← he, State.runSeq_of (d := {}) (u := e.jumpTo c.thread n) hx hw hc (by simp only [hj, hb, if_true])]
      obtain ⟨hexec, hothers, hthreads, heq⟩ := State.finish_of_threads (u := e.jumpTo c.thread n) (d := {}) (n := 0)
        (State.executing_cmd? hx) hw (by rw [State.jumpTo_eq hf]; rfl)
      exact ⟨hexec, hothers, (congrArg _ (State.thread_of_threads hthreads _)).trans (State.jumpTo_frames hf), heq⟩
    · have hu : (e.setReg R.SEQ_LOOP_COUNT (e.reg R.SEQ_LOOP_COUNT c.thread (bits (c.word 1) 1 0) - 1) c.thread (bits (c.word 1) 1 0)).threads
          = e.threads := State.setReg_threads ..
      generalize huv : e.setReg R.SEQ_LOOP_COUNT (e.reg R.SEQ_LOOP_COUNT c.thread (bits (c.word 1) 1 0) - 1) c.thread
        (bits (c.word 1) 1 0) = u at hu
      have hf' : (u.thread c.thread).frames = f :: l := (congrArg _ (State.thread_of_threads hu _)).trans hf
      rw [← he, State.runSeq_of (d := {}) (u := u.jumpTo c.thread n) hx hw hc (by simp only [hj, huv]; rw [if_neg (by omega)])]
      have hcu : (u.jumpTo c.thread n).cmd? id = some c := by
        rw [State.jumpTo_eq hf', ← huv, State.setReg_eq]
        exact State.executing_cmd? hx
      have hwu : (u.jumpTo c.thread n).wrote = none := by rw [State.jumpTo_eq hf', ← huv, State.setReg_eq]; exact hw
      obtain ⟨hexec, -, -⟩ := State.finish_ends (d := {}) (n := 0) hcu hwu
      obtain ⟨hthreads, hregs', hmem', -, -⟩ := State.finish_fields (d := {}) (n := 0) hcu hwu
      have hju : (u.jumpTo c.thread n).regs = u.regs := by rw [State.jumpTo_eq hf']; rfl
      refine ⟨hexec, (congrArg _ (State.thread_of_threads hthreads _)).trans (State.jumpTo_frames hf'), ?_, ?_, ?_⟩
      · rw [State.reg_of_regs (hregs'.trans hju), ← huv, State.reg_setReg_same _ _ _ _ _ hwf (by decide)]
        exact Nat.mod_eq_of_lt (Nat.lt_of_le_of_lt (Nat.sub_le _ _) (State.reg_lt _ _ _ _ (by decide)))
      · exact SameRegistersBut.of_regs (e.sameRegistersBut_setReg _ _ _ _ hwf List.mem_cons_self) hregs.symm ((hregs'.trans hju).trans (congrArg State.regs huv.symm))
      · refine sameMemory_of_mem (hmem'.trans ?_)
        rw [State.jumpTo_eq hf', ← huv, State.setReg_eq]
        exact hmem
  · intro v k hv hx hj hcond
    refine ⟨_, rfl, ?_⟩
    have hstay : ∀ b : Bool, b = false → (if b = true then e.jumpTo c.thread k else e) = e := fun b hb => by rw [hb]; rfl
    rw [← he, State.runSeq_of (d := {}) (u := e) hx hw hc ?_]
    · exact State.finish_ends_of_cmds (State.executing_cmd? hx) rfl hw
    · simp only [hj, ← hv]
      obtain ⟨hb, hlt⟩ | ⟨hb, hle⟩ := hcond
      · simp only [hb, hstay _ (decide_eq_false (Nat.not_le.mpr hlt))]
      · simp only [hb, hstay _ (decide_eq_false (Nat.not_lt.mpr hle))]
  · intro n k hn hx hthr hj hle
    refine ⟨_, rfl, ?_⟩
    rw [← he, State.runSeq_of (d := {}) (u := e.setReg R.SEQ_LOOP_COUNT (n - 1) c.thread (bits (c.word 1) 1 0)) hx hw hc
      (by simp only [hj, ← hn, if_pos hle])]
    obtain ⟨hexec, hothers, hregs', heq⟩ := State.finish_of_regs
      (u := e.setReg R.SEQ_LOOP_COUNT (n - 1) c.thread (bits (c.word 1) 1 0)) (d := {}) (n := 0)
      (State.executing_cmd? hx) hw (State.setReg_eq _ _ _ _ _)
    refine ⟨hexec, hothers, ?_, heq⟩
    rw [State.reg_of_regs hregs', State.reg_setReg_same _ _ _ _ _ hwf (by decide), Nat.sub_eq_zero_of_le hle]
    rfl
  · intro hout
    have hj := State.jumpTarget_none hout
    refine ⟨fun hx => ⟨_, rfl, ?_⟩, fun hx => ⟨_, rfl, ?_⟩⟩
    · rw [← he, State.runSeq_of (d := { status := 0x1E }) (u := e) hx hw hc (by simp only [hj])]
      exact State.finish_ends_of_cmds (State.executing_cmd? hx) rfl hw
    · rw [← he, State.runSeq_of (d := { status := 0x1E }) (u := e) hx hw hc (by simp only [hj])]
      exact State.finish_ends_of_cmds (State.executing_cmd? hx) rfl hw
end

section
/-!
SUPPORT. Memory: a write of good words puts its bytes and charges for them, and the number a string of bytes stands for.
-/

namespace Sys2Proof.Machine

open Sys2Proof

/-! ### Byte strings -/

theorem leBytes_length (n v : Nat) : (leBytes n v).length = n := by
  induction n generalizing v with
  | zero => rfl
  | succ n ih => rw [leBytes, List.length_cons, ih]

theorem leNat_leBytes (n v : Nat) : leNat (leBytes n v) = v % 2 ^ (8 * n) := by
  induction n generalizing v with
  | zero => simp [leBytes, leNat, Nat.mod_one]
  | succ n ih =>
    rw [leBytes, leNat, ih, BitVec.toNat_ofNat, show 8 * (n + 1) = 8 + 8 * n by omega, Nat.pow_add, Nat.mod_mul]

theorem State.bytes_length (s : State) (a n : Nat) : (s.bytes a n).length = n := by
  induction n generalizing a with
  | zero => rfl
  | succ n ih => rw [State.bytes, List.length_cons, ih]

theorem State.byte_of_mem {s t : State} (h : t.mem = s.mem) (a : Nat) : t.byte a = s.byte a := by rw [State.byte, State.byte, h]

theorem State.bytes_of_mem {s t : State} (h : t.mem = s.mem) (a n : Nat) : t.bytes a n = s.bytes a n :=
  State.bytes_congr _ _ _ _ fun x _ _ => State.byte_of_mem h x

theorem State.setBytes_mem_congr {s t : State} (h : t.mem = s.mem) (a : Nat) (bs : List Byte) :
    (t.setBytes a bs).mem = (s.setBytes a bs).mem := by
  induction bs generalizing s t a with
  | nil => exact h
  | cons b bs ih => exact ih (by rw [State.setByte, State.setByte, h]) _

theorem State.load_of_mem {s t : State} (h : t.mem = s.mem) (a n : Nat) : t.load a n = s.load a n := by
  rw [State.load, State.load, State.bytes_of_mem h]

/-- The bytes from `a + k` are those from `a` without the first `k`. -/
theorem State.bytes_add (s : State) (a k n : Nat) : s.bytes a (k + n) = s.bytes a k ++ s.bytes (a + k) n := by
  induction k generalizing a with
  | zero => simp [State.bytes]
  | succ k ih =>
    rw [show k + 1 + n = (k + n) + 1 by omega, State.bytes, ih, State.bytes, List.cons_append, show a + 1 + k = a + (k + 1) by omega]

/-- A part of a string that stands in memory stands there too. -/
theorem State.bytes_part {s : State} {a : Nat} {l m r : List Byte} (h : s.bytes a (l ++ m ++ r).length = l ++ m ++ r) :
    s.bytes (a + l.length) m.length = m := by
  rw [List.length_append, List.length_append, Nat.add_assoc, State.bytes_add, State.bytes_add, List.append_assoc] at h
  have h' := (List.append_inj h (State.bytes_length ..)).2
  exact (List.append_inj h' (State.bytes_length ..)).1

/-! ### Which words are bad -/

theorem State.sec_congr {s t : State} (h : t.image = s.image) (n : Nat) : t.sec n = s.sec n := by rw [State.sec, State.sec, h]

theorem State.wordSize_congr {s t : State} (h : t.image = s.image) (a : Nat) : t.wordSize a = s.wordSize a := by
  rw [State.wordSize, State.wordSize, State.eccRange, State.eccRange, State.sec_congr h]

theorem State.badWords_congr {s t : State} (hh : t.health = s.health) (hi : t.image = s.image) (a n : Nat) :
    t.badWords a n = s.badWords a n := by
  simp only [State.badWords, hh, State.wordSize_congr hi]

theorem State.badWords_of_good {s : State} (h : s.health = []) (a n : Nat) : s.badWords a n = [] := by rw [State.badWords, h]; rfl

theorem State.writeMem_good {s : State} {a : Nat} {bs : List Byte} (hw : s.wrote = none) (h : s.badWords a bs.length = []) :
    s.writeMem a bs = (none, s.setBytes a bs) := by
  have hput : (s.setBytes a bs).wrote = none := (s.setBytes_wrote a bs).trans hw
  rw [State.writeMem, h]
  simp only [State.writeWords, hw]
  rw [Option.map_none, ← hput]

theorem State.readMem_good {s : State} {a n : Nat} (h : s.badWords a n = []) : s.readMem a n = (none, s) := by rw [State.readMem, h]; rfl

/-! ### What an access charges -/

theorem State.countWr_eq (s : State) (p a n : Nat) :
    s.countWr p a n = { s with regs := (s.countWr p a n).regs, regulators := (s.countWr p a n).regulators } := by
  unfold State.countWr
  split
  · rw [State.grantBytes, State.incReg_eq]
  · rfl

theorem State.countRd_eq (s : State) (p a n : Nat) :
    s.countRd p a n = { s with regs := (s.countRd p a n).regs, regulators := (s.countRd p a n).regulators } := by
  unfold State.countRd
  split
  · rw [State.grantBytes, State.incReg_eq]
  · rfl

/-! ### A store -/

/-- `t` is `s` with the bytes `bs` from address `a`, and the store charged for. -/
structure State.Stores (s : State) (a : Nat) (bs : List Byte) (t : State) : Prop where
  eq : t = { s with mem := (s.setBytes a bs).mem, regs := t.regs, regulators := t.regulators }

theorem State.Stores.mem {s t : State} {a : Nat} {bs : List Byte} (h : s.Stores a bs t) : t.mem = (s.setBytes a bs).mem := by rw [h.eq]

theorem State.Stores.cmds {s t : State} {a : Nat} {bs : List Byte} (h : s.Stores a bs t) : t.cmds = s.cmds := by rw [h.eq]

theorem State.Stores.wrote {s t : State} {a : Nat} {bs : List Byte} (h : s.Stores a bs t) : t.wrote = s.wrote := by rw [h.eq]

section

variable {s t u : State} {a : Nat} {bs : List Byte}

theorem State.Stores.bytes (h : s.Stores a bs t) (hwf : Sparse.wf 0#8 s.mem = true) : t.bytes a bs.length = bs := by
  rw [State.bytes_of_mem h.mem, State.bytes_setBytes_same _ _ _ hwf]

theorem sameMemoryBut_of_setBytes (hwf : Sparse.wf 0#8 s.mem = true) (h : t.mem = (s.setBytes a bs).mem) (hu : s.mem = u.mem) :
    SameMemoryBut a bs.length u t := fun x hx => by
  rw [State.byte_of_mem h, State.byte_setBytes_other _ _ _ _ hwf hx, State.byte_of_mem hu]

end

/-- A store of a string to words none of which is bad. -/
theorem Eff.write_stores {s : State} {p a : Nat} {bs : List Byte} (hw : s.wrote = none) (h : s.badWords a bs.length = []) :
    ∃ t, Eff.write p a bs s = (.ok (), t) ∧ s.Stores a bs t := by
  have hc := s.countWr_eq p a bs.length
  generalize hv : s.countWr p a bs.length = v at hc
  have hbad : v.badWords a bs.length = [] := by rw [hc]; exact h
  refine ⟨v.setBytes a bs, ?_, ⟨?_⟩⟩
  · simp only [Eff.write, hv, State.writeMem_good (by rw [hc]; exact hw) hbad]
  · rw [← State.setBytes_mem_congr (s := s) (t := v) (by rw [hc]), State.setBytes_eq v]
    rw [hc]

end Sys2Proof.Machine
end

section
/-!
SUPPORT. Registers as commands write and read them, and stores of words.
-/

namespace Sys2Proof.Machine

open Sys2Proof

theorem mergeBits_lt {n old v : Nat} (m : Nat) (ho : old < 2 ^ n) (hv : v < 2 ^ n) : mergeBits old v m < 2 ^ n := by
  induction n generalizing old v m with
  | zero =>
    obtain rfl : old = 0 := by omega
    obtain rfl : v = 0 := by omega
    simp [mergeBits]
  | succ n ih =>
    have hrec := ih (old := old / 2) (v := v / 2) (m / 2) (by omega) (by omega)
    have hold := @Nat.and_mod_two_eq_one old m
    have hnew := @Nat.and_mod_two_eq_one v m
    have hle : old / 2 &&& m / 2 ≤ old / 2 := Nat.and_le_left
    rw [mergeBits] at hrec ⊢
    rw [← Nat.and_div_two, ← Nat.and_div_two] at hrec
    rw [← Nat.and_div_two] at hle
    omega

theorem State.regWord_lt (s : State) (a : Nat) : s.regWord a < 2 ^ 32 := BitVec.isLt _

/-- A write of bits that are all rw, to a register that takes every value. -/
theorem State.writeReg_eq {s : State} {a v m : Nat} (hm : m &&& accessMask a .rw = m) (hmux : (R.DBG_TMUX_SEL_SIG.index a).isNone = true)
    (hfram : a ≠ R.DBG_FRAM_SEL_OFFSET.at 0 0) : s.writeReg a v m = s.setRegWord a (mergeBits (s.regWord a) v m) := by
  have hmux' : (R.DBG_TMUX_SEL_SIG.index a).isSome = false := by rw [Option.isNone_iff_eq_none.mp hmux]; rfl
  simp [State.writeReg, hm, hmux', hfram]

theorem State.foldl_setRegWords_eq (a v : Nat → Nat) (n : Nat) (l : List Nat) (s : State) :
    l.foldl (fun s i => s.setRegWords (a i) (v i) n) s =
      { s with regs := (l.foldl (fun s i => s.setRegWords (a i) (v i) n) s).regs } := by
  induction l generalizing s with
  | nil => rfl
  | cons i l ih => rw [List.foldl_cons, ih, State.setRegWords_eq]

theorem State.plogSnapshot_eq (s : State) : s.plogSnapshot = { s with regs := s.plogSnapshot.regs } := State.foldl_setRegWords_eq _ _ _ _ _

/-- A read of a register changes what reads act on: snapshots and registers. -/
theorem State.readReg_snd_eq (s : State) (a : Nat) :
    (s.readReg a).2 = { s with regs := (s.readReg a).2.regs, snaps := (s.readReg a).2.snaps } := by
  unfold State.readReg
  split
  · dsimp only
    rw [State.plogSnapshot_eq]
  · split
    · dsimp only
      rw [State.setReg_eq]
    · split
      · rfl
      · rfl
      · split <;> rfl

/-- The end of a command whose effect left its command and the notes of writes alone. -/
theorem State.finish_cmds {u : State} (id n : Nat) (d : Done) (hw : u.wrote = none) :
    u.finish id d n = { u with cmds := (u.finish id d n).cmds } := by
  rw [State.finish, State.forget_eq hw]
  split <;> rfl

theorem wordsBytes_length (ws : List Nat) : (wordsBytes ws).length = 8 * ws.length := by
  induction ws with
  | nil => rfl
  | cons w ws ih =>
    rw [wordsBytes, List.flatMap_cons, List.length_append, leBytes_length, ← wordsBytes, ih, List.length_cons]
    omega

/-- A word of a string of words that stands in memory. -/
theorem State.load_wordsBytes {s : State} {a i : Nat} {ws : List Nat} (h : s.bytes a (8 * ws.length) = wordsBytes ws) (hi : i < ws.length) :
    s.load (a + 8 * i) 8 = ws[i] % 2 ^ 64 := by
  induction ws generalizing a i with
  | nil => cases hi
  | cons w ws ih =>
    rw [List.length_cons, show 8 * (ws.length + 1) = 8 + 8 * ws.length by omega, State.bytes_add, wordsBytes, List.flatMap_cons] at h
    obtain ⟨hw, hws⟩ := List.append_inj h (by rw [State.bytes_length, leBytes_length])
    cases i with
    | zero => rw [State.load, Nat.mul_zero, Nat.add_zero, hw, leNat_leBytes]; rfl
    | succ i =>
      rw [show a + 8 * (i + 1) = a + 8 + 8 * i by omega]
      exact ih hws (by simpa using hi)

/-- A store as the effect of a `seq` command. -/
theorem State.seqWrite_stores {s : State} {c : Cmd} {a : Nat} {bs : List Byte} (hw : s.wrote = none) (h : s.badWords a bs.length = []) :
    ∃ t, s.seqWrite c a bs = ({}, t) ∧ s.Stores a bs t := by
  obtain ⟨t, ht, hst⟩ := Eff.write_stores (p := c.part) hw h
  exact ⟨t, by rw [State.seqWrite, ht], hst⟩

/-- The end of a command that has stored a string: its command is executed, the bytes stand in memory and nothing else of it changes. -/
theorem State.Stores.finish {s v t : State} {id n a : Nat} {c : Cmd} {d : Done} {bs : List Byte} (h : v.Stores a bs t)
    (hcmds : v.cmds = s.cmds) (hmem : v.mem = s.mem) (hevents : v.events = s.events) (hw : v.wrote = none)
    (hwf : Sparse.wf 0#8 s.mem = true) (hc : s.cmd? id = some c) :
    (t.finish id d n).Executed id d.status d.detail n ∧ SameCommandsBut id s (t.finish id d n) ∧
      (t.finish id d n).bytes a bs.length = bs ∧ SameMemoryBut a bs.length s (t.finish id d n) ∧
      (t.finish id d n).events = s.events := by
  have htw : t.wrote = none := h.wrote.trans hw
  obtain ⟨hx, ho, heq⟩ := State.finish_ends_of_cmds (d := d) (n := n) hc (h.cmds.trans hcmds) htw
  have hm : (t.finish id d n).mem = t.mem := by rw [heq]
  refine ⟨hx, ho, ?_, sameMemoryBut_of_setBytes (hmem ▸ hwf) (hm.trans h.mem) hmem, ?_⟩
  · rw [State.bytes_of_mem hm]
    exact h.bytes (hmem ▸ hwf)
  · rw [heq, ← hevents, h.eq]

end Sys2Proof.Machine

open Sys2Proof Sys2Proof.Machine

/-- Settles O26: each access does what its operands name and its command ends. -/
theorem registersMemoryAndDoorbells : Obligations.RegistersMemoryAndDoorbells := by
  intro s e dt id a c hs he hw hc ha
  have hregs : e.regs = s.regs := by rw [he, State.elapse_regs]
  have hmem : e.mem = s.mem := by rw [he, State.elapse_mem]
  have hwf : Sparse.wf 0#32 e.regs = true := hregs ▸ hs.1
  have hwfm : Sparse.wf 0#8 e.mem = true := hmem ▸ hs.2.1
  refine ⟨?_, ?_, ?_, ?_, ?_⟩
  · intro m hm hx
    refine ⟨fun hmap hper hrw hmux hfram => ⟨_, rfl, ?_⟩, fun hden => ⟨_, rfl, ?_⟩⟩
    · rw [← he, State.runSeq_of (d := {}) (u := e.setRegWord a (mergeBits (e.regWord a) (bits (c.word 2) 31 0) m)) hx hw hc
        (by simp only [← ha, ← hm]; rw [if_pos ⟨hmap, hper, hrw⟩, State.writeReg_eq hrw hmux hfram])]
      obtain ⟨hexec, hothers, hregs', heq⟩ := State.finish_of_regs
        (u := e.setRegWord a (mergeBits (e.regWord a) (bits (c.word 2) 31 0) m)) (d := {}) (n := 0) (State.executing_cmd? hx) hw rfl
      refine ⟨hexec, hothers, ?_, fun x hxa => ?_, heq⟩
      · rw [State.regWord_of_regs hregs', State.regWord_setRegWord _ _ _ _ hwf, if_pos rfl,
          Nat.mod_eq_of_lt (mergeBits_lt _ (e.regWord_lt a) (bits_lt _ 31 0))]
      · rw [State.regWord_of_regs hregs', State.regWord_setRegWord _ _ _ _ hwf, if_neg hxa]
    · rw [← he, State.runSeq_of (d := { status := 0x1B }) (u := e) hx hw hc (by simp only [← ha, ← hm]; rw [if_neg hden])]
      exact State.finish_ends_of_cmds (State.executing_cmd? hx) rfl hw
  · intro d hd hx hmap hopen hgood
    have hr := e.readReg_snd_eq a
    generalize hv : (e.readReg a).2 = v at hr
    have hvw : v.wrote = none := by rw [hr]; exact hw
    have hvc : v.cmds = e.cmds := by rw [hr]
    have hvm : v.mem = e.mem := by rw [hr]
    obtain ⟨t, ht, hst⟩ := State.seqWrite_stores (c := c) (bs := leBytes 4 (e.readReg a).1) hvw
      (by rw [leBytes_length, State.badWords_congr (s := e) (by rw [hr]) (by rw [hr]), hgood])
    refine ⟨_, rfl, ?_⟩
    rw [← he, State.runSeq_of (d := {}) (u := t) hx hw hc
      (by simp only [← ha, ← hd, hv]; rw [if_pos ⟨hmap, hopen⟩, ht])]
    obtain ⟨hexec, hothers, hbytes, hbut, -⟩ := hst.finish (d := {}) (n := 0) hvc hvm (by rw [hr]) hvw hwfm (State.executing_cmd? hx)
    rw [leBytes_length] at hbytes hbut
    exact ⟨hexec, hothers, hbytes, fun x hxd => (hbut x hxd).trans (State.byte_of_mem hmem x)⟩
  · intro n hn hx hgood
    have hlen : (wordsBytes ((List.range n).map fun i => c.word (3 + i))).length = 8 * n := by
      rw [wordsBytes_length, List.length_map, List.length_range]
    obtain ⟨t, ht, hst⟩ := State.seqWrite_stores (c := c) (bs := wordsBytes ((List.range n).map fun i => c.word (3 + i))) hw
      (by rw [hlen, hgood])
    refine ⟨_, rfl, ?_⟩
    rw [← he, State.runSeq_of (d := {}) (u := t) hx hw hc (by simp only [← ha, ← hn, ht])]
    obtain ⟨hexec, hothers, hbytes, hbut, hevents⟩ := hst.finish (d := {}) (n := 0) rfl rfl rfl hw hwfm (State.executing_cmd? hx)
    refine ⟨hexec, hothers, fun i hi => ?_, fun x hxd => ?_, State.event_of_events hevents⟩
    · rw [State.load_wordsBytes (ws := (List.range n).map fun i => c.word (3 + i)) (by simpa [hlen] using hbytes) (by simpa using hi)]
      simp
    · exact (hbut x (by rw [hlen]; exact hxd)).trans (State.byte_of_mem hmem x)
  · intro k hk hthr hx
    refine ⟨_, rfl, ?_⟩
    rw [← he, State.runSeq_of (d := {}) (u := e.setReg R.SEQ_LOOP_COUNT (bits (c.word 1) 63 32) c.thread k) hx hw hc (by simp only [← hk])]
    obtain ⟨hexec, hothers, hregs', heq⟩ := State.finish_of_regs (u := e.setReg R.SEQ_LOOP_COUNT (bits (c.word 1) 63 32) c.thread k)
      (d := {}) (n := 0) (State.executing_cmd? hx) hw (State.setReg_eq _ _ _ _ _)
    refine ⟨hexec, hothers, ?_, (e.sameRegistersBut_setReg _ _ _ _ hwf List.mem_cons_self).of_regs hregs.symm hregs', heq⟩
    rw [State.reg_of_regs hregs', State.reg_setReg_same _ _ _ _ _ hwf (by decide)]
    exact Nat.mod_eq_of_lt (bits_lt _ 63 32)
  · intro q w hq hwp hx hres
    have hend (d : Done) := State.finish_of_regs (u := (e.doorbell q w (bits (c.word 1) 47 40)).2) (d := d) (n := 0)
      (State.executing_cmd? hx) hw (State.doorbell_snd_eq ..)
    have hlt : w < 2 ^ 17 := hwp ▸ bits_lt _ 32 16
    refine ⟨fun h0 => ⟨_, rfl, ?_⟩, fun h0 => ⟨_, rfl, ?_⟩⟩
    · rw [← he, State.runSeq_of (d := {}) (u := (e.doorbell q w (bits (c.word 1) 47 40)).2) hx hw hc
        (by simp only [← hq, ← hwp, hres, if_true, State.doorbell_fst, h0])]
      obtain ⟨hexec, hothers, hregs', heq⟩ := hend {}
      obtain ⟨st, hring, -⟩ := e.ring_doorbell_of_accepted q w _ hwf hlt h0
      refine ⟨hexec, hothers, ?_, heq, (e.sameRegistersBut_doorbell_of_accepted q w _ hwf h0).of_regs hregs.symm hregs'⟩
      exact (State.reg_of_regs hregs' _ _ _).trans (congrArg RingView.wptr hring)
    · rw [← he, State.runSeq_of (d := { status := 0x07 }) (u := (e.doorbell q w (bits (c.word 1) 47 40)).2) hx hw hc
        (by simp only [← hq, ← hwp, hres, if_true, State.doorbell_fst, h0, if_false])]
      obtain ⟨hexec, -, hregs', heq⟩ := hend { status := 0x07 }
      refine ⟨hexec, ?_, sameMemory_of_mem (by rw [heq]; exact hmem)⟩
      exact (State.reg_of_regs hregs' _ _ _).trans (congrArg RingView.wptr (e.ring_doorbell_of_rejected q w _ hwf h0))
end

section
/-!
SUPPORT. Items the device itself writes into queues, and completion records as they are committed.
-/

namespace Sys2Proof.Machine

open Sys2Proof

/-! ### The ring and the doorbell read registers only -/

theorem State.ring_of_regs {s t : State} (h : t.regs = s.regs) (q : Nat) : t.ring q = s.ring q := by
  simp only [State.ring, State.qState, State.qSize, State.wptr, State.rptr, State.gen, State.reg_of_regs h]

/-- The checks of a doorbell, on what they read of the queue. -/
def RingView.cause (r : RingView) (w g : Nat) : Nat :=
  if r.state = qFenced then 0x31
  else if r.state = qDisabled then 0x33
  else if 2 * r.size ≤ w then 0x33
  else if g ≠ r.gen then 0x32
  else if r.size < (w + 2 * r.size - r.rptr) % (2 * r.size) then 0x33
  else if r.size - (r.wptr + 2 * r.size - r.rptr) % (2 * r.size) < (w + 2 * r.size - r.wptr) % (2 * r.size) then 0x33
  else 0

theorem State.doorbellCause_eq_cause (s : State) (q w g : Nat) : s.doorbellCause q w g = (s.ring q).cause w g := rfl

theorem State.doorbellCause_of_ring {s t : State} {q : Nat} (h : t.ring q = s.ring q) (w g : Nat) :
    t.doorbellCause q w g = s.doorbellCause q w g := by
  rw [State.doorbellCause_eq_cause, State.doorbellCause_eq_cause, h]

theorem State.doorbell_regs_congr {s t : State} (h : t.regs = s.regs) (q w g : Nat) :
    (t.doorbell q w g).2.regs = (s.doorbell q w g).2.regs := by
  have hc := State.doorbellCause_of_ring (State.ring_of_regs h q) w g
  by_cases h0 : s.doorbellCause q w g = 0
  · have hset : (t.setReg R.QUE_WPTR_WPTR w q).regs = (s.setReg R.QUE_WPTR_WPTR w q).regs := by rw [State.setReg_regs, State.setReg_regs, h]
    have hring := State.ring_of_regs hset q
    simp only [State.ring, RingView.mk.injEq] at hring
    obtain ⟨hstate, hsize, hw, hr, -⟩ := hring
    have hcount : (t.setReg R.QUE_WPTR_WPTR w q).qCount q = (s.setReg R.QUE_WPTR_WPTR w q).qCount q := by
      simp only [State.qCount, State.ptrDiff, hsize, hw, hr]
    rw [State.doorbell_snd_of_accepted _ _ _ _ h0, State.doorbell_snd_of_accepted _ _ _ _ (hc.trans h0), hstate, hcount]
    split
    · rw [State.setQState, State.setQState, State.setReg_regs, State.setReg_regs (s.setReg _ _ _), hset]
    · exact hset
  · rw [State.doorbell_snd_of_rejected _ _ _ _ h0, State.doorbell_snd_of_rejected _ _ _ _ (hc.symm ▸ h0), hc, State.incReg_eq',
      State.incReg_eq', h]

/-! ### Items written by the device -/

theorem State.putSlots_eq (s : State) (q p : Nat) (item : List (List Byte)) :
    s.putSlots q p item = { s with mem := (s.putSlots q p item).mem } := by
  induction item generalizing s p with
  | nil => rfl
  | cons b bs ih => rw [State.putSlots, ih, State.setBytes_eq]

/-- An item that fits is written and committed. -/
theorem State.produce_eq {s : State} {q : Nat} {item : List (List Byte)}
    (h : s.doorbellCause q (s.ptrAdd q (s.wptr q) item.length) (s.gen q) = 0) :
    (s.produce q item).2 = { s with
      mem := (s.putSlots q (s.wptr q) item).mem
      regs := (s.doorbell q (s.ptrAdd q (s.wptr q) item.length) (s.gen q)).2.regs } := by
  rw [State.produce]
  simp only [h, if_true]
  rw [State.doorbell_snd_eq, State.putSlots_eq]
  congr 1
  exact State.doorbell_regs_congr (s := s) (t := { s with mem := (s.putSlots q (s.wptr q) item).mem }) rfl _ _ _

/-- The byte counters of a partition stand in no word of a ring. -/
theorem State.ring_countWr (s : State) (p a n q : Nat) (hwf : Sparse.wf 0#32 s.regs = true) : (s.countWr p a n).ring q = s.ring q := by
  unfold State.countWr
  split
  · have hother (f : RegRow) (h1 : f.s1 = 0x40) (h2 : f.s2 = 0) (hw : f.words = 1)
        (ha : f.addr % 0x40 < 0x38) (hal : f.addr % 4 = 0) : (s.incReg R.PART_WR_BYTES_BYTES p 0 n).reg f q = s.reg f q := by
      refine State.reg_incReg_other _ _ _ _ _ _ _ _ hwf ?_
      simp only [RegRow.at, h1, h2, hw]
      simp only [R.PART_WR_BYTES_BYTES, RegRow.words]
      omega
    refine (State.ring_of_regs (s := s.incReg R.PART_WR_BYTES_BYTES p 0 n) rfl q).trans ?_
    simp only [State.ring, State.qState, State.qSize, State.wptr, State.rptr, State.gen, hother R.QUE_STATE_STATE rfl rfl rfl (by decide) rfl,
      hother R.QUE_CFG_LOG2_SLOTS rfl rfl rfl (by decide) rfl, hother R.QUE_WPTR_WPTR rfl rfl rfl (by decide) rfl,
      hother R.QUE_RPTR_RPTR rfl rfl rfl (by decide) rfl, hother R.QUE_STATE_GEN rfl rfl rfl (by decide) rfl]
  · rfl

theorem State.slotAddr_congr {s t : State} {q : Nat} (hq : t.queues = s.queues) (hs : t.qSize q = s.qSize q) (p : Nat) :
    t.slotAddr q p = s.slotAddr q p := by
  rw [State.slotAddr, State.slotAddr, State.queueX, State.queueX, hq, hs]

/-- A record that its completion queue takes: its bytes stand in the slot at WPTR, and beside memory only registers and regulators
change. -/
theorem State.produceRecord_stores {s : State} {cq : Nat} {b : List Byte} (p a n : Nat) (hwf : Sparse.wf 0#32 s.regs = true)
    (h : s.doorbellCause cq (s.ptrAdd cq (s.wptr cq) 1) (s.gen cq) = 0) :
    s.Stores (s.slotAddr cq (s.wptr cq)) (slice b 0 64) ((s.countWr p a n).produce cq [b]).2 := by
  have hring := s.ring_countWr p a n cq hwf
  have hv := s.countWr_eq p a n
  generalize s.countWr p a n = v at hring hv
  have hring' := hring
  simp only [State.ring, RingView.mk.injEq] at hring'
  obtain ⟨-, hsize, hw, -, hg⟩ := hring'
  have hadd : v.ptrAdd cq (v.wptr cq) 1 = s.ptrAdd cq (s.wptr cq) 1 := by rw [State.ptrAdd, State.ptrAdd, hsize, hw]
  refine ⟨?_⟩
  rw [State.produce_eq (by rw [List.length_singleton, hadd, hg, State.doorbellCause_of_ring hring, h])]
  have hmem : (v.putSlots cq (v.wptr cq) [b]).mem = (s.setBytes (s.slotAddr cq (s.wptr cq)) (slice b 0 64)).mem := by
    rw [State.putSlots, State.putSlots, hw, State.slotAddr_congr (s := s) (by rw [hv]) hsize]
    exact State.setBytes_mem_congr (by rw [hv]) _ _
  rw [hmem, hv]

end Sys2Proof.Machine
end

section
/-!
SUPPORT. One held record: committed where there is room and order allows, kept where there is none; and the answer to an abort.
-/

namespace Sys2Proof.Machine

open Sys2Proof

section

variable {s : State} {r : HeldRec}

theorem State.drain_of_no_held (h : s.held = []) (n : Nat) : s.drain n = s := by
  cases n with
  | zero => rfl
  | succ n => rw [State.drain, h]; rfl

/-- A record with no other beside it is ready once nothing earlier of its queue is open. -/
theorem State.heldReady_single (h : s.held = [r]) (ho : s.earlierOpen r.queue r.seqno = false) : s.heldReady r = true := by
  simp [State.heldReady, ho, h]

/-- The one held record is committed. -/
theorem State.drainAll_single (h : s.held = [r]) (ho : s.earlierOpen r.queue r.seqno = false) (hf : s.cqFull r.cq = false)
    (hc : (s.commitRec r).held = []) : s.drainAll = s.commitRec r := by
  have hfind : s.held.find? (fun r => s.heldReady r && !s.cqFull r.cq) = some r := by
    rw [h, List.find?_singleton, State.heldReady_single h ho, hf]
    rfl
  rw [State.drainAll, State.drain, hfind]
  exact State.drain_of_no_held hc _

/-- The one held record waits for room: at most the stall is counted. -/
theorem State.drainAll_full (h : s.held = [r]) (hf : s.cqFull r.cq = true) :
    s.drainAll.held.length = 1 ∧ s.drainAll = { s with held := s.drainAll.held, regs := s.drainAll.regs } := by
  have hfind : s.held.find? (fun r => s.heldReady r && !s.cqFull r.cq) = none := by
    rw [h, List.find?_singleton, hf, Bool.not_true, Bool.and_false]
    rfl
  have hfilter : s.held.filter (fun r => s.heldReady r && !r.counted) = [] ∨ s.held.filter (fun r => s.heldReady r && !r.counted) = [r] := by
    rw [h, List.filter_cons, List.filter_nil]
    cases s.heldReady r && !r.counted
    · exact .inl rfl
    · exact .inr rfl
  rw [State.drainAll, State.drain, hfind]
  obtain hfilter | hfilter := hfilter
  · rw [hfilter]
    exact ⟨by rw [List.foldl_nil, h]; rfl, rfl⟩
  · rw [hfilter, List.foldl_cons, List.foldl_nil, State.incReg_eq]
    exact ⟨by dsimp only; rw [List.length_map, h]; rfl, rfl⟩

/-- The record's bytes in its slot; what is left of the commit is its command's end. -/
theorem State.commitRec_stores (h : s.held = [r]) (hcq : r.cq ≠ 0) (hwf : Sparse.wf 0#32 s.regs = true)
    (hd : s.doorbellCause r.cq (s.ptrAdd r.cq (s.wptr r.cq) 1) (s.gen r.cq) = 0) :
    ∃ t, ({ s with held := [] } : State).Stores (s.slotAddr r.cq (s.wptr r.cq)) (slice (wordsBytes r.words) 0 64) t ∧
      s.commitRec r = (match r.finish.bind t.cmd? with
        | some c => if c.stage = .held then t.retire c else t.setCmd { c with stage := .done }
        | none => t) := by
  have hst := State.produceRecord_stores (s := { s with held := [] }) (b := wordsBytes r.words) (s.qPart r.cq)
    (s.slotAddr r.cq (s.wptr r.cq)) 64 hwf hd
  refine ⟨_, hst, ?_⟩
  rw [State.commitRec, h, List.erase_cons_head]
  simp only [if_neg hcq]
  rfl

end

theorem State.earlierOpen_setCmd {s : State} {id : Nat} {c x : Cmd} (hc : s.cmd? id = some c) (hx : x.id = id) (hq : x.queue = c.queue)
    (hn : x.seqno = c.seqno) (q n : Nat) : (s.setCmd x).earlierOpen q n = s.earlierOpen q n := by
  have hany : ∀ l : List Cmd, (l.find? fun y => y.id == id) = some c →
      (updateFirst (fun y => y.id == x.id) (fun _ => x) l).any (fun c => c.queue == q && decide (c.seqno < n)) =
        l.any (fun c => c.queue == q && decide (c.seqno < n)) := by
    intro l
    induction l with
    | nil => intro h; cases h
    | cons y l ih =>
      intro h
      by_cases hy : y.id = id
      · rw [List.find?_cons_of_pos (by simpa using hy)] at h
        cases h
        simp [updateFirst, hx, hy, hq, hn]
      · rw [List.find?_cons_of_neg (by simpa using hy)] at h
        rw [updateFirst, if_neg (by simpa [hx] using hy), List.any_cons, List.any_cons, ih h]
  simp only [State.earlierOpen, State.setCmd]
  rw [hany _ hc]
  rfl

/-- The store of a whole string: slices of its own length are the string. -/
theorem slice_self {l : List Byte} {n : Nat} (h : l.length = n) : slice l 0 n = l := by
  simp [slice, ← h]

/-! ### The arbiter -/

section

variable {s : State} {q n : Nat} (hcmds : (s.cmds.any fun x => x.queue == q && x.depth == 0 && x.seqno == n) = false)
  (haborted : (s.queueX q).aborted.contains n = false) (hredo : ((s.queueX q).redo.any fun r => r.seqno == n) = false)
include hcmds haborted hredo

/-- An abort of a command that is neither in flight, nor aborted, nor to be taken again. -/
theorem State.arbiter_idle : s.arbiter q n =
    if n < s.reg R.QUE_SEQNO_NEXT q then (2, s)
    else if n - s.reg R.QUE_SEQNO_NEXT q < (s.untaken q).length then
      (1, (s.setQueueX q { s.queueX q with aborted := n :: (s.queueX q).aborted }).answerJob q n 1)
    else (3, s) := by
  have hfind : (s.cmds.find? fun c => c.queue == q && c.depth == 0 && c.seqno == n) = none := by
    rw [List.find?_eq_none]
    rw [List.any_eq_false] at hcmds
    exact hcmds
  simp only [State.arbiter, hfind, haborted, hredo, Bool.false_eq_true, if_false]
  split
  · rfl
  · split <;> rfl

end

theorem State.answerJob_of_no_windows {s : State} (h : s.windows = []) (q n status : Nat) : s.answerJob q n status = s := by
  have hnone : s.jobEntry q n = none := by
    rw [State.jobEntry, List.findSome?_eq_none_iff]
    intro i _
    rw [State.window, h]
    rfl
  rw [State.answerJob, hnone]

end Sys2Proof.Machine

open Sys2Proof Sys2Proof.Machine

/-- Settles O29: the arbiter finds no command, and a notify posts its record. -/
theorem abortAndNotify : Obligations.AbortAndNotify := by
  intro s e dt id c hs he hw hc
  have hmem : e.mem = s.mem := by rw [he, State.elapse_mem]
  have hwf : Sparse.wf 0#32 e.regs = true := by rw [he, State.elapse_regs]; exact hs.1
  have hwfm : Sparse.wf 0#8 e.mem = true := hmem ▸ hs.2.1
  refine ⟨?_, ?_, ?_⟩
  · intro q n hq hn hx hres hcmds haborted hredo
    have harb := State.arbiter_idle hcmds haborted hredo
    have hcmd := State.executing_cmd? hx
    refine ⟨fun hlt => ⟨_, rfl, ?_⟩, fun hle => ⟨_, rfl, ?_⟩, fun hle hlt hwin => ⟨_, rfl, ?_⟩⟩
    · rw [if_pos hlt] at harb
      rw [← he, State.runSeq_of (d := { detail := 2 }) (u := e) hx hw hc (by simp only [← hq, ← hn, hres, harb, if_true])]
      exact State.finish_ends_of_cmds hcmd rfl hw
    · rw [if_neg (by omega), if_neg (by omega)] at harb
      rw [← he, State.runSeq_of (d := { detail := 3 }) (u := e) hx hw hc (by simp only [← hq, ← hn, hres, harb, if_true])]
      exact State.finish_ends_of_cmds hcmd rfl hw
    · rw [if_neg (by omega), if_pos (by omega), State.answerJob_of_no_windows (by exact hwin)] at harb
      rw [← he, State.runSeq_of (d := { detail := 1 })
        (u := e.setQueueX q { e.queueX q with aborted := n :: (e.queueX q).aborted }) hx hw hc
        (by simp only [← hq, ← hn, hres, harb, if_true])]
      obtain ⟨hexec, -, heq⟩ := State.finish_ends_of_cmds (d := { detail := 1 }) (n := 0)
        (u := e.setQueueX q { e.queueX q with aborted := n :: (e.queueX q).aborted }) hcmd rfl hw
      refine ⟨hexec, ?_, sameMemory_of_mem (by rw [heq]; exact hmem)⟩
      rw [heq]
      exact congrArg QueueX.aborted (Sparse.get_put_of_ne _ _ (by intro h; cases congrArg QueueX.aborted h))
  · intro cq hcq hx hheld hne hfull
    have hcmd := State.executing_cmd? hx
    have hid := State.cmd?_id hcmd
    refine ⟨_, rfl, ?_⟩
    rw [← he, hx]
    dsimp only
    rw [State.post, ← hcq]
    generalize hu : e.setCmd { c with stage := .waiting, begun := true } = u
    generalize hr : HeldRec.mk c.queue cq c.seqno _ (some id) false = r
    have hrcq : r.cq = cq := by rw [← hr]
    obtain ⟨hlen, heq⟩ := State.drainAll_full (s := { u with held := u.held ++ [r] }) (r := r)
      (by rw [← hu]; exact congrArg (· ++ [r]) hheld) (by rw [hrcq, ← hu]; exact hfull)
    refine ⟨?_, hlen, sameMemory_of_mem ?_, fun k => State.event_of_events ?_ k⟩
    · rw [heq, ← hu]
      exact State.cmd?_setCmd_same hcmd hid
    · rw [heq, ← hu]
      exact hmem
    · rw [heq, ← hu]
      rfl
  · intro cq hcq hx hheld hne hfull hqne hd ho
    have hcmd := State.executing_cmd? hx
    have hid := State.cmd?_id hcmd
    refine ⟨_, rfl, ?_⟩
    rw [← he, hx]
    dsimp only
    rw [State.post, ← hcq]
    generalize hu : e.setCmd { c with stage := .waiting, begun := true } = u
    generalize hws : ((u.recordOf c 0x04 0 0 false).take 2 ++ (List.range 6).map fun i => c.word (2 + i)) = ws
    have hlen : ws.length = 8 := by rw [← hws]; rfl
    generalize hr : HeldRec.mk c.queue cq c.seqno ws (some id) false = r
    have hrcq : r.cq = cq := by rw [← hr]
    have hheld' : ({ u with held := u.held ++ [r] } : State).held = [r] := by rw [← hu]; exact congrArg (· ++ [r]) hheld
    obtain ⟨t, hst, hcommit⟩ := State.commitRec_stores (s := { u with held := u.held ++ [r] }) hheld' (by rw [hrcq]; exact hne)
      (by rw [← hu]; exact hwf) (by rw [hrcq, ← hu]; exact hd)
    have hut : t.cmd? id = some { c with stage := .waiting, begun := true } := by
      rw [State.cmd?_of_cmds hst.cmds, ← hu]
      exact State.cmd?_setCmd_same hcmd hid
    simp only [show r.finish = some id by rw [← hr], Option.bind_some, hut, reduceCtorEq, if_false] at hcommit
    have htheld : t.held = [] := by rw [hst.eq]
    have hslot : ({ u with held := u.held ++ [r] } : State).slotAddr r.cq (({ u with held := u.held ++ [r] } : State).wptr r.cq) =
        e.slotAddr cq (e.wptr cq) := by
      rw [hrcq, ← hu]
      rfl
    have hearlier : ({ u with held := u.held ++ [r] } : State).earlierOpen r.queue r.seqno = false := by
      rw [← hr, ← hu]
      exact (State.earlierOpen_setCmd (x := { c with stage := .waiting, begun := true }) hcmd hid rfl rfl _ _).trans ho
    rw [State.drainAll_single hheld' hearlier (by rw [hrcq, ← hu]; exact hfull) (by rw [hcommit]; exact htheld), hcommit]
    have hum : u.mem = e.mem := by rw [← hu]; rfl
    have hslice : slice (wordsBytes r.words) 0 64 = wordsBytes ws := by
      rw [← hr]
      exact slice_self (by rw [wordsBytes_length, hlen])
    have hbytes := hst.bytes (by rw [hum]; exact hwfm)
    have hbut := sameMemoryBut_of_setBytes (s := { u with held := [] }) (u := s) (by rw [hum]; exact hwfm) hst.mem (hum.trans hmem)
    rw [hslice] at hbytes hbut
    rw [wordsBytes_length, hlen, hslot] at hbut
    refine ⟨State.cmd?_setCmd_same hut hid, htheld, fun i hi => ?_, hbut⟩
    have hload := State.load_wordsBytes (i := 2 + i) (by rw [← wordsBytes_length]; exact hbytes) (by omega)
    rw [hslot] at hload
    rw [show e.slotAddr cq (e.wptr cq) + 16 + 8 * i = e.slotAddr cq (e.wptr cq) + 8 * (2 + i) by omega]
    have hword : ws[2 + i]'(by omega) = c.word (2 + i) := by
      simp only [← hws]
      rw [List.getElem_append_right (by simp [State.recordOf])]
      simp [State.recordOf]
    rw [hword] at hload
    exact (State.load_of_mem rfl _ _).trans hload
end

section
/-!
SUPPORT. The actions of `seq.queue_ctl` on the ring of their target.
-/

namespace Sys2Proof.Machine

open Sys2Proof

theorem State.queueCtl_of {s u : State} {id action : Nat} {c : Cmd} {f : Cmd → Nat → State → Done × State} {d : Done}
    (h : s.executing id 0x0D = some c) (ha : bits (c.word 1) 18 16 = action) (hf : f c (bits (c.word 1) 8 0) s = (d, u)) :
    s.queueCtl id action f = u.finish id d := by
  simp only [State.queueCtl, h, if_pos ha, hf]

/-- The end of a command: it is executed, and beside the commands the state is what its effect left. -/
theorem State.finish_executed {u : State} {id n : Nat} {d : Done} {c : Cmd} (hc : u.cmd? id = some c) (hw : u.wrote = none) :
    (u.finish id d n).Executed id d.status d.detail n ∧ (u.finish id d n).regs = u.regs ∧ (u.finish id d n).mem = u.mem ∧
      (u.finish id d n).queues = u.queues :=
  have ⟨_, hregs, hmem, _, hqueues⟩ := State.finish_fields (d := d) (n := n) hc hw
  ⟨(State.finish_ends hc hw).executed, hregs, hmem, hqueues⟩

/-- Commands changed one by one, with their numbers kept. -/
theorem State.cmd?_map {s : State} {id : Nat} {c : Cmd} {f : Cmd → Cmd} (h : s.cmd? id = some c) (hf : ∀ x, (f x).id = x.id) :
    ({ s with cmds := s.cmds.map f } : State).cmd? id = some (f c) := by
  simp only [State.cmd?, List.find?_map, Function.comp_def, hf] at h ⊢
  rw [h]
  rfl

theorem State.wptr_of_ring {s t : State} {q : Nat} (h : t.ring q = s.ring q) : t.wptr q = s.wptr q := congrArg RingView.wptr h

/-! ### STOP and START -/

/-- What a stop or a start marks on the commands of the queue. -/
theorem State.stopTarget_eq {s : State} {q : Nat} (h : s.qState q = qIdle ∨ s.qState q = qActive) :
    s.stopTarget q = { s.setQState q qStopped with
      cmds := s.cmds.map fun c : Cmd => if c.queue = q ∧ c.depth = 0 then { c with stopping := true } else c } := by
  rw [State.stopTarget, if_pos h, State.setQState, State.setReg_eq]

/-- A command of a queue that is started again stops at no checkpoint any more. -/
def Cmd.goingOn (q : Nat) (c : Cmd) : Cmd := if c.queue = q then { c with stopping := false } else c

theorem Cmd.goingOn_id (q : Nat) (c : Cmd) : (c.goingOn q).id = c.id := by
  unfold Cmd.goingOn
  split <;> rfl

theorem State.started_eq (s : State) (q : Nat) : ∃ v, (v = qActive ∨ v = qIdle) ∧ (s.qCount q ≠ 0 → v = qActive) ∧
    s.started q = ({ s with
      cmds := s.cmds.map (Cmd.goingOn q), queues := Sparse.put {} s.queues q { s.queueX q with failed := false } } : State).setQState q v := by
  refine ⟨_, ?_, ?_, rfl⟩
  · split
    · exact .inl rfl
    · exact .inr rfl
  · exact fun h => if_pos (.inl h)

/-- A queue started: its failure is forgotten, it is ACTIVE or IDLE, and registers other than its state, and memory, stay. -/
theorem State.started_spec {s : State} {q id : Nat} {c : Cmd} (hwf : Sparse.wf 0#32 s.regs = true)
    (hq : Sparse.wf ({} : QueueX) s.queues = true) (hc : s.cmd? id = some c) :
    (s.started q).cmd? id = some (c.goingOn q) ∧ (s.started q).wrote = s.wrote ∧
      ((s.started q).qState q = qActive ∨ (s.started q).qState q = qIdle) ∧ (s.qCount q ≠ 0 → (s.started q).qState q = qActive) ∧
      (s.started q).queueX q = { s.queueX q with failed := false } ∧ (s.started q).mem = s.mem ∧
      SameRegistersBut [(R.QUE_STATE_STATE, q, 0)] s (s.started q) := by
  obtain ⟨v, hv, hcount, heq⟩ := s.started_eq q
  have hlt : v < 2 ^ 3 := by
    obtain rfl | rfl := hv
    · decide
    · decide
  rw [heq]
  generalize hu : ({ s with
      cmds := s.cmds.map (Cmd.goingOn q), queues := Sparse.put {} s.queues q { s.queueX q with failed := false } } : State) = u
  have hur : u.regs = s.regs := by rw [← hu]
  have hstate : (u.setQState q v).qState q = v := congrArg RingView.state (u.ring_setQState q v (hur ▸ hwf) hlt)
  have hset : u.setQState q v = { u with regs := (u.setQState q v).regs } := State.setReg_eq ..
  rw [hstate]
  refine ⟨?_, ?_, hv, hcount, ?_, ?_, ?_⟩
  · rw [hset, ← hu]
    exact State.cmd?_map hc (Cmd.goingOn_id q)
  · rw [hset, ← hu]
  · rw [hset, ← hu]
    exact Sparse.get_put_same _ _ hq
  · rw [hset, ← hu]
  · exact (u.sameRegistersBut_setReg _ _ _ _ (hur ▸ hwf) List.mem_cons_self).of_regs hur.symm rfl

theorem SameRegistersBut.mono {l m : List (RegRow × Nat × Nat)} {s t : State} (h : SameRegistersBut l s t) (hl : ∀ x ∈ l, x ∈ m) :
    SameRegistersBut m s t := fun a ha => h a fun x hx => ha x (hl x hx)

theorem State.stopTarget_spec {s : State} {q id : Nat} {c : Cmd} (hwf : Sparse.wf 0#32 s.regs = true)
    (h : s.qState q = qIdle ∨ s.qState q = qActive) (hc : s.cmd? id = some c) :
    (∃ x, (s.stopTarget q).cmd? id = some x) ∧ (s.stopTarget q).wrote = s.wrote ∧ (s.stopTarget q).mem = s.mem ∧
      (s.stopTarget q).ring q = { s.ring q with state := qStopped } ∧ SameRegistersBut [(R.QUE_STATE_STATE, q, 0)] s (s.stopTarget q) := by
  have hset : s.setQState q qStopped = { s with regs := (s.setQState q qStopped).regs } := State.setReg_eq ..
  rw [State.stopTarget_eq h, hset]
  refine ⟨⟨_, State.cmd?_map hc fun x => ?_⟩, rfl, rfl, ?_, ?_⟩
  · split <;> rfl
  · exact s.ring_setQState q qStopped hwf (by decide)
  · exact (s.sameRegistersBut_setReg _ _ _ _ hwf List.mem_cons_self).of_regs rfl rfl

/-- The first command to take again is passed over. -/
theorem State.skipTarget_spec {s : State} {q id : Nat} {c : Cmd} (hwf : Sparse.wf 0#32 s.regs = true)
    (hq : Sparse.wf ({} : QueueX) s.queues = true) (hst : s.qState q = qStopped) (hc : s.cmd? id = some c) :
    (s.skipTarget q).cmd? id = some (c.goingOn q) ∧ (s.skipTarget q).wrote = s.wrote ∧ (s.skipTarget q).mem = s.mem ∧
      ((s.skipTarget q).qState q = qActive ∨ (s.skipTarget q).qState q = qIdle) ∧
      ((s.skipTarget q).queueX q).redo = (s.queueX q).redo.tail ∧
      SameRegistersBut [(R.QUE_STATE_STATE, q, 0), (R.QUE_RPTR_RPTR, q, 0)] s (s.skipTarget q) := by
  rw [State.skipTarget, if_pos hst]
  dsimp only
  generalize hx : ({ s.queueX q with redo := (s.queueX q).redo.tail } : QueueX) = x
  have hf : ∃ v, s.setFetch q x = (s.setQueueX q x).setReg R.QUE_RPTR_RPTR v q := ⟨_, rfl⟩
  obtain ⟨v, hv⟩ := hf
  have hve : s.setFetch q x = { s with queues := Sparse.put {} s.queues q x, regs := (s.setFetch q x).regs } := by
    rw [hv, State.setReg_eq]
    rfl
  have hrptr : SameRegistersBut [(R.QUE_RPTR_RPTR, q, 0)] s (s.setFetch q x) := by
    rw [hv]
    exact (State.sameRegistersBut_setReg (s.setQueueX q x) _ _ _ _ hwf List.mem_cons_self).of_regs rfl rfl
  have hwf' : Sparse.wf 0#32 (s.setFetch q x).regs = true := by
    rw [hv]
    exact State.setReg_wf (s.setQueueX q x) _ _ _ _ hwf
  generalize s.setFetch q x = u at hve hrptr hwf'
  obtain ⟨hcmd, hwrote, hstate, -, hqx, hmem, hregs⟩ := State.started_spec (s := u) (q := q) (id := id) (c := c) hwf'
    (by rw [hve]; exact Sparse.put_wf _ _ hq) (by rw [hve]; exact hc)
  refine ⟨hcmd, hwrote.trans (by rw [hve]), hmem.trans (by rw [hve]), hstate, ?_, ?_⟩
  · rw [hqx, hve, ← hx]
    exact congrArg QueueX.redo (Sparse.get_put_same _ _ hq)
  · exact (hrptr.mono (by simp)).trans (hregs.mono (by simp))

/-! ### Flushes -/

theorem State.loseEntries_of_no_windows {s : State} (h : s.windows = []) (p : WinEntry → Bool) : s.loseEntries p = s := by
  have hstep : ∀ l : List Nat, l.foldl (fun s i =>
      (s.window i).foldl (fun s e => if e.closed.isNone && p e then s.lose i e else s) s) s = s := by
    intro l
    induction l with
    | nil => rfl
    | cons i l ih =>
      have hi : s.window i = [] := by rw [State.window, h]; rfl
      rw [List.foldl_cons, hi]
      exact ih
  exact hstep _

theorem State.ring_setGen (s : State) (q v : Nat) (hwf : Sparse.wf 0#32 s.regs = true) :
    (s.setReg R.QUE_STATE_GEN v q).ring q = { s.ring q with gen := v % 256 } := by
  have hother (f : RegRow) := s.reg_setReg_sameElement R.QUE_STATE_GEN f v q hwf
  have hsame : (s.setReg R.QUE_STATE_GEN v q).reg R.QUE_STATE_GEN q = v % 256 := s.reg_setReg_same _ v q 0 hwf (by decide)
  have hstate : (s.setReg R.QUE_STATE_GEN v q).reg R.QUE_STATE_STATE q = s.reg R.QUE_STATE_STATE q :=
    s.reg_setReg_beside R.QUE_STATE_GEN R.QUE_STATE_STATE v q 0 q 0 hwf rfl rfl (by decide) (by decide)
  simp only [State.ring, State.qState, State.qSize, State.wptr, State.rptr, State.gen, hsame, hstate,
    hother R.QUE_CFG_LOG2_SLOTS rfl (by decide), hother R.QUE_WPTR_WPTR rfl (by decide), hother R.QUE_RPTR_RPTR rfl (by decide)]

theorem State.ring_incDiscard (s : State) (q n : Nat) (hwf : Sparse.wf 0#32 s.regs = true) :
    (s.incReg R.QUE_DISCARD_SLOTS q 0 n).ring q = s.ring q := by
  have hother (f : RegRow) (hs : f.s1 = R.QUE_DISCARD_SLOTS.s1) (hd : f.addr + 4 * f.words ≤ R.QUE_DISCARD_SLOTS.addr) :
      (s.incReg R.QUE_DISCARD_SLOTS q 0 n).reg f q = s.reg f q := s.reg_setReg_sameElement _ f _ q hwf hs (.inl hd)
  simp only [State.ring, State.qState, State.qSize, State.wptr, State.rptr, State.gen, hother R.QUE_STATE_STATE rfl (by decide),
    hother R.QUE_CFG_LOG2_SLOTS rfl (by decide), hother R.QUE_WPTR_WPTR rfl (by decide), hother R.QUE_RPTR_RPTR rfl (by decide),
    hother R.QUE_STATE_GEN rfl (by decide)]

/-- A queue that is made IDLE, or not: its pointers and generation stay. -/
theorem State.setIdle_spec (u : State) (q : Nat) (p : Prop) [Decidable p] (hwf : Sparse.wf 0#32 u.regs = true) :
    (if p then u.setQState q qIdle else u) = { u with regs := (if p then u.setQState q qIdle else u).regs } ∧
      (∃ st, (if p then u.setQState q qIdle else u).ring q = { u.ring q with state := st }) ∧
      SameRegistersBut [(R.QUE_STATE_STATE, q, 0)] u (if p then u.setQState q qIdle else u) := by
  split
  · exact ⟨State.setReg_eq .., ⟨_, u.ring_setQState q qIdle hwf (by decide)⟩, u.sameRegistersBut_setReg _ _ _ _ hwf List.mem_cons_self⟩
  · exact ⟨rfl, ⟨_, rfl⟩, fun _ _ => rfl⟩

/-- A flush without DISCARD: the generation advances, and only the queue's word of state and generation changes. -/
theorem State.flush_spec {s : State} {q : Nat} (hwf : Sparse.wf 0#32 s.regs = true) :
    s.flush q false = { s with regs := (s.flush q false).regs } ∧
      (∃ st, (s.flush q false).ring q = { s.ring q with gen := (s.gen q + 1) % 256, state := st }) ∧
      SameRegistersBut [(R.QUE_STATE_STATE, q, 0)] s (s.flush q false) := by
  have hwf' := s.setReg_wf R.QUE_STATE_GEN (s.gen q + 1) q 0 hwf
  obtain ⟨heq, ⟨st, hring⟩, hregs⟩ := State.setIdle_spec (s.setReg R.QUE_STATE_GEN (s.gen q + 1) q) q
    ((s.setReg R.QUE_STATE_GEN (s.gen q + 1) q).qState q ≠ qFenced ∧ (s.setReg R.QUE_STATE_GEN (s.gen q + 1) q).qCount q = 0 ∧
      ¬ (s.setReg R.QUE_STATE_GEN (s.gen q + 1) q).qBusy q) hwf'
  refine ⟨?_, ⟨st, hring.trans (by rw [s.ring_setGen q _ hwf])⟩, SameRegistersBut.trans ?_ hregs⟩
  · refine heq.trans ?_
    rw [State.setReg_eq s]
    rfl
  · exact fun a ha => s.regWord_setRegWords_other _ _ _ a hwf (by
      rw [show R.QUE_STATE_GEN.words = R.QUE_STATE_STATE.words by decide]
      exact ha _ List.mem_cons_self)

/-- A flush with DISCARD of a data queue that no open request names: RPTR is WPTR. -/
theorem State.flushDiscard_spec {s : State} {q : Nat} (hwf : Sparse.wf 0#32 s.regs = true) (hkind : s.reg R.QUE_CFG_KIND q ≠ 0)
    (hwin : s.windows = []) :
    s.flush q true = { s with regs := (s.flush q true).regs } ∧
      ∃ st, (s.flush q true).ring q = { s.ring q with gen := (s.gen q + 1) % 256, rptr := s.wptr q, state := st } := by
  have hwf1 := s.setReg_wf R.QUE_STATE_GEN (s.gen q + 1) q 0 hwf
  have hring1 := s.ring_setGen q (s.gen q + 1) hwf
  have hkind1 : (s.setReg R.QUE_STATE_GEN (s.gen q + 1) q).reg R.QUE_CFG_KIND q = s.reg R.QUE_CFG_KIND q :=
    s.reg_setReg_sameElement R.QUE_STATE_GEN R.QUE_CFG_KIND _ q hwf rfl (by decide)
  have heq1 : s.setReg R.QUE_STATE_GEN (s.gen q + 1) q = { s with regs := (s.setReg R.QUE_STATE_GEN (s.gen q + 1) q).regs } :=
    State.setReg_eq ..
  unfold State.flush
  dsimp only
  generalize s.setReg R.QUE_STATE_GEN (s.gen q + 1) q = u at hwf1 hring1 hkind1 heq1
  have hwf2 := u.incReg_wf R.QUE_DISCARD_SLOTS q 0 (u.qCount q) hwf1
  have hring2 := u.ring_incDiscard q (u.qCount q) hwf1
  have hkind2 : (u.incReg R.QUE_DISCARD_SLOTS q 0 (u.qCount q)).reg R.QUE_CFG_KIND q = u.reg R.QUE_CFG_KIND q :=
    u.reg_setReg_sameElement R.QUE_DISCARD_SLOTS R.QUE_CFG_KIND _ q hwf1 rfl (by decide)
  have heq2 : u.incReg R.QUE_DISCARD_SLOTS q 0 (u.qCount q) = { u with regs := (u.incReg R.QUE_DISCARD_SLOTS q 0 (u.qCount q)).regs } :=
    State.incReg_eq ..
  generalize u.incReg R.QUE_DISCARD_SLOTS q 0 (u.qCount q) = v at hwf2 hring2 hkind2 heq2
  have hkind3 : ¬ v.reg R.QUE_CFG_KIND q = 0 := by rw [hkind2, hkind1]; exact hkind
  rw [if_pos rfl, if_neg hkind3,
    State.loseEntries_of_no_windows (by rw [heq2, heq1]; exact hwin)]
  have hring3 := v.ring_setRptr q (v.wptr q) hwf2 (State.reg_lt _ _ _ _ (by decide))
  have hwptr : v.wptr q = s.wptr q := congrArg RingView.wptr (hring2.trans hring1)
  obtain ⟨heq, ⟨st, hring⟩, -⟩ := State.setIdle_spec (v.setReg R.QUE_RPTR_RPTR (v.wptr q) q) q
    ((v.setReg R.QUE_RPTR_RPTR (v.wptr q) q).qState q ≠ qFenced ∧ (v.setReg R.QUE_RPTR_RPTR (v.wptr q) q).qCount q = 0 ∧
      ¬ (v.setReg R.QUE_RPTR_RPTR (v.wptr q) q).qBusy q) (v.setReg_wf _ _ _ _ hwf2)
  refine ⟨heq.trans ?_, st, hring.trans ?_⟩
  · rw [State.setReg_eq v]
    rw [heq2, heq1]
  · rw [hring3, hring2, hring1, hwptr]

theorem State.qCount_of_wptr_eq_rptr {s : State} {q : Nat} (h : s.wptr q = s.rptr q) : s.qCount q = 0 := by
  rw [State.qCount, State.ptrDiff, h, Nat.add_sub_cancel_left, Nat.mod_self]

theorem State.release_eq (s : State) (q n : Nat) : s.release q n = { s with regs := (s.release q n).regs } := by
  unfold State.release
  dsimp only
  split
  · rw [State.setQState, State.setReg_eq (s.setReg _ _ _), State.setReg_eq s]
  · split
    · rw [State.setQState, State.setReg_eq (s.setReg _ _ _), State.setReg_eq s]
    · exact State.setReg_eq ..

theorem State.sameRegistersBut_release (s : State) (q n : Nat) (hwf : Sparse.wf 0#32 s.regs = true) :
    SameRegistersBut [(R.QUE_STATE_STATE, q, 0), (R.QUE_RPTR_RPTR, q, 0)] s (s.release q n) := by
  have hrptr := s.sameRegistersBut_setReg (l := [(R.QUE_STATE_STATE, q, 0), (R.QUE_RPTR_RPTR, q, 0)]) R.QUE_RPTR_RPTR (s.ptrAdd q (s.rptr q) n) q 0 hwf
    (List.mem_cons_of_mem (R.QUE_STATE_STATE, q, 0) List.mem_cons_self)
  have hidle := State.sameRegistersBut_setReg (l := [(R.QUE_STATE_STATE, q, 0), (R.QUE_RPTR_RPTR, q, 0)]) _ R.QUE_STATE_STATE qIdle q 0
    (s.setReg_wf R.QUE_RPTR_RPTR (s.ptrAdd q (s.rptr q) n) q 0 hwf) List.mem_cons_self
  unfold State.release
  dsimp only
  split
  · exact hrptr.trans hidle
  · split
    · exact hrptr.trans hidle
    · exact hrptr

end Sys2Proof.Machine

open Sys2Proof Sys2Proof.Machine

/-- Settles O28: each action changes the ring of its target as its rule says. -/
theorem queueControl : Obligations.QueueControl := by
  intro s e dt id q c hs he hw hc hx hq
  have hregs : e.regs = s.regs := by rw [he, State.elapse_regs]
  have hmem : e.mem = s.mem := by rw [he, State.elapse_mem]
  have hwf : Sparse.wf 0#32 e.regs = true := hregs ▸ hs.1
  have hcmd := State.executing_cmd? hx
  refine ⟨?_, ?_, ?_, ?_, ?_, ?_, ?_⟩
  · intro ha hst
    refine ⟨_, rfl, ?_⟩
    rw [← he, State.queueCtl_of (d := {}) (u := e.stopTarget q) hx ha (by rw [← hq])]
    obtain ⟨⟨x, hcx⟩, hwrote, hm, hring, hr⟩ := State.stopTarget_spec hwf hst hcmd
    obtain ⟨hexec, hregs', hmem', -⟩ := State.finish_executed (d := {}) (n := 0) hcx (hwrote.trans hw)
    have hring' := (State.ring_of_regs hregs' q).trans hring
    exact ⟨hexec, congrArg RingView.state hring', congrArg RingView.wptr hring', congrArg RingView.rptr hring',
      sameMemory_of_mem (hmem'.trans (hm.trans hmem)), hr.of_regs hregs.symm hregs'⟩
  · intro ha hst hcount hqx
    refine ⟨_, rfl, ?_⟩
    rw [← he, State.queueCtl_of (d := {}) (u := e.started q) hx ha (by rw [← hq, State.startTarget, if_pos hst])]
    obtain ⟨hcx, hwrote, -, hactive, hx', hm, hr⟩ := State.started_spec (q := q) hwf hqx hcmd
    obtain ⟨hexec, hregs', hmem', hqueues⟩ := State.finish_executed (d := {}) (n := 0) hcx (hwrote.trans hw)
    refine ⟨hexec, (State.reg_of_regs hregs' _ _ _).trans (hactive hcount), ?_, sameMemory_of_mem (hmem'.trans (hm.trans hmem)),
      hr.of_regs hregs.symm hregs'⟩
    rw [State.queueX, hqueues]
    exact congrArg QueueX.failed hx'
  · intro ha hst hqx
    refine ⟨_, rfl, ?_⟩
    rw [← he, State.queueCtl_of (d := {}) (u := e.skipTarget q) hx ha (by rw [← hq])]
    obtain ⟨hcx, hwrote, hm, hstate, hredo, hr⟩ := State.skipTarget_spec hwf hqx hst hcmd
    obtain ⟨hexec, hregs', hmem', hqueues⟩ := State.finish_executed (d := {}) (n := 0) hcx (hwrote.trans hw)
    refine ⟨hexec, ?_, ?_, sameMemory_of_mem (hmem'.trans (hm.trans hmem)), hr.of_regs hregs.symm hregs'⟩
    · rw [State.queueX, hqueues]
      exact hredo
    · rw [State.qState, State.reg_of_regs hregs']
      exact hstate
  · intro ha
    refine ⟨_, rfl, ?_⟩
    rw [← he, State.queueCtl_of (d := {}) (u := e.flush q false) hx ha (by rw [← hq])]
    obtain ⟨heq, ⟨st, hring⟩, hr⟩ := State.flush_spec (q := q) hwf
    obtain ⟨hexec, -, hregs', heq'⟩ := State.finish_of_regs (d := {}) (n := 0) hcmd hw heq
    have hring' := (State.ring_of_regs hregs' q).trans hring
    exact ⟨hexec, congrArg RingView.gen hring', congrArg RingView.wptr hring', congrArg RingView.rptr hring',
      sameMemory_of_mem (by rw [heq']; exact hmem), hr.of_regs hregs.symm hregs'⟩
  · intro ha hkind hwin hlt
    refine ⟨_, rfl, ?_⟩
    rw [← he, State.queueCtl_of (d := {}) (u := e.flush q true) hx ha (by rw [← hq])]
    obtain ⟨heq, ⟨st, hring⟩⟩ := State.flushDiscard_spec hwf hkind hwin
    obtain ⟨hexec, -, hregs', heq'⟩ := State.finish_of_regs (d := {}) (n := 0) hcmd hw heq
    have hring' := (State.ring_of_regs hregs' q).trans hring
    exact ⟨hexec, congrArg RingView.gen hring', congrArg RingView.rptr hring',
      State.qCount_of_wptr_eq_rptr ((congrArg RingView.wptr hring').trans (congrArg RingView.rptr hring').symm),
      sameMemory_of_mem (by rw [heq']; exact hmem)⟩
  · intro ha hle hlog
    refine ⟨_, rfl, ?_⟩
    rw [← he, State.queueCtl_of (d := {}) (u := e.release q (bits (c.word 1) 63 32)) hx ha (by rw [← hq]; exact if_neg (by omega))]
    obtain ⟨hexec, -, hregs', heq'⟩ := State.finish_of_regs (d := {}) (n := 0) hcmd hw (e.release_eq q (bits (c.word 1) 63 32))
    obtain ⟨st, hring, -⟩ := e.ring_release q (bits (c.word 1) 63 32) hwf (e.two_qSize_le q hlog)
    have hring' := (State.ring_of_regs hregs' q).trans hring
    exact ⟨hexec, congrArg RingView.rptr hring', congrArg RingView.wptr hring', sameMemory_of_mem (by rw [heq']; exact hmem),
      (e.sameRegistersBut_release q _ hwf).of_regs hregs.symm hregs'⟩
  · intro ha hlt
    refine ⟨_, rfl, ?_⟩
    rw [← he, State.queueCtl_of (d := { status := 0x14 }) (u := e) hx ha (by rw [← hq]; exact if_pos hlt)]
    exact State.finish_ends_of_cmds hcmd rfl hw
end

section
/-!
SUPPORT. Bits of register fields, and the judgements that the monitors repeat.
-/

namespace Sys2Proof.Machine

open Sys2Proof

/-! ### One bit of a field -/

theorem testBit_sub_two_pow {x n : Nat} (h : x.testBit n = true) : (x - 2 ^ n).testBit n = false := by
  rw [Nat.testBit_eq_decide_div_mod_eq, decide_eq_true_eq] at h
  have hsub := Nat.sub_mul_div x (2 ^ n) 1
  rw [Nat.mul_one] at hsub
  rw [Nat.testBit_eq_decide_div_mod_eq, hsub, decide_eq_false_iff_not]
  omega

theorem State.setBit_eq (s : State) (r : RegRow) (n : Nat) (v : Bool) (i j : Nat) :
    s.setBit r n v i j = { s with regs := (s.setBit r n v i j).regs } := State.setReg_eq ..

theorem State.setBit_wf {s : State} (r : RegRow) (n : Nat) (v : Bool) (i j : Nat) (hwf : Sparse.wf 0#32 s.regs = true) :
    Sparse.wf 0#32 (s.setBit r n v i j).regs = true := State.setReg_wf _ _ _ _ _ hwf

theorem State.testBit_setBit {s : State} {r : RegRow} {n : Nat} (v : Bool) {i j : Nat} (hwf : Sparse.wf 0#32 s.regs = true)
    (hn : n < r.width) : ((s.setBit r n v i j).reg r i j).testBit n = v := by
  have hx := s.reg_lt r i j (by omega)
  rw [State.setBit, State.reg_setReg_same _ _ _ _ _ hwf (by omega), Nat.testBit_mod_two_pow, decide_eq_true hn, Bool.true_and]
  cases v with
  | true => rw [if_pos rfl, Nat.testBit_or, Nat.testBit_two_pow_self, Bool.or_true]
  | false =>
    rw [if_neg (by decide)]
    split
    · next h => exact testBit_sub_two_pow h
    · next h => simpa using h

theorem State.sameRegistersBut_setBit {s : State} {l : List (RegRow × Nat × Nat)} (r : RegRow) (n : Nat) (v : Bool) (i j : Nat)
    (hwf : Sparse.wf 0#32 s.regs = true) (hl : (r, i, j) ∈ l) : SameRegistersBut l s (s.setBit r n v i j) :=
  s.sameRegistersBut_setReg _ _ _ _ hwf hl

/-- A field of the same words as one of the list. -/
theorem State.sameRegistersBut_setReg_word {s : State} {l : List (RegRow × Nat × Nat)} (r q : RegRow) {v i j : Nat}
    (hwf : Sparse.wf 0#32 s.regs = true) (hl : (q, i, j) ∈ l) (hat : r.at i j = q.at i j) (hw : r.words = q.words) :
    SameRegistersBut l s (s.setReg r v i j) :=
  fun a ha => s.regWord_setRegWords_other _ _ _ a hwf (by rw [hat, hw]; exact ha _ hl)

/-- Both pads as they are sampled. -/
def State.showPins (s : State) (faultPad hbPad : Bool) : State :=
  (s.setReg R.SAFE_STATUS_FAULT_PIN (ofBool faultPad)).setReg R.SAFE_STATUS_HB_PIN (ofBool hbPad)

theorem State.showPins_spec {s : State} (faultPad hbPad : Bool) (hwf : Sparse.wf 0#32 s.regs = true) :
    (s.showPins faultPad hbPad).flag R.SAFE_STATUS_FAULT_PIN = faultPad ∧ (s.showPins faultPad hbPad).flag R.SAFE_STATUS_HB_PIN = hbPad ∧
      (s.showPins faultPad hbPad).svc = s.svc ∧ SameRegistersBut [(R.SAFE_STATUS_FAULT_PIN, 0, 0)] s (s.showPins faultPad hbPad) ∧
      s.showPins faultPad hbPad = { s with regs := (s.showPins faultPad hbPad).regs } := by
  have hwf1 := s.setReg_wf R.SAFE_STATUS_FAULT_PIN (ofBool faultPad) 0 0 hwf
  unfold State.showPins
  refine ⟨?_, ?_, ?_, ?_, ?_⟩
  · rw [State.flag, State.reg_setReg_apart hwf1 (by decide), State.reg_setReg_same _ _ _ _ _ hwf (by decide)]
    cases faultPad <;> rfl
  · rw [State.flag, State.reg_setReg_same _ _ _ _ _ hwf1 (by decide)]
    cases hbPad <;> rfl
  · exact (State.reg_setReg_apart hwf1 (by decide)).trans (State.reg_setReg_apart hwf (by decide))
  · exact (s.sameRegistersBut_setReg _ _ _ _ hwf List.mem_cons_self).trans
      (State.sameRegistersBut_setReg_word _ R.SAFE_STATUS_FAULT_PIN hwf1 List.mem_cons_self rfl (by decide))
  · rw [State.setReg_eq (s.setReg _ _), State.setReg_eq s]

/-! ### Judgements -/

section

variable {s : State} {m i src inst detail : Nat}

/-- A window that finds the condition absent records its end and nothing else. -/
theorem State.excursion_absent : s.excursion m i false src inst detail =
    { s with hub.excursions := s.hub.excursions.filter fun x => x != (m, i) } := rfl

theorem State.inExcursion_filter {k l : Nat} (hub : Hub) :
    ({ s with hub := { hub with excursions := s.hub.excursions.filter fun x => x != (k, l) } } : State).inExcursion k l = false := by
  simp [State.inExcursion]

/-- The first window that finds the condition raises its source. -/
theorem State.excursion_first (h : s.inExcursion m i = false) : s.excursion m i true src inst detail =
    ({ s with hub.excursions := (m, i) :: s.hub.excursions } : State).raise src inst detail := by
  rw [State.excursion, if_pos rfl, if_neg (by rw [h]; decide)]

theorem State.inExcursion_cons : ({ s with hub.excursions := (m, i) :: s.hub.excursions } : State).inExcursion m i = true := by
  simp [State.inExcursion]

theorem State.excursion_again (h : s.inExcursion m i = true) : s.excursion m i true src inst detail = s := by
  rw [State.excursion, if_pos rfl, if_pos h]

end

end Sys2Proof.Machine

open Sys2Proof Sys2Proof.Machine

/-- Settles O15: a judgement raises its source at the beginning of an excursion and forgets it at its end. -/
theorem repeatedJudgements : Obligations.RepeatedJudgements := by
  intro s e dt he hpor
  refine ⟨?_, ?_, ?_, ?_, ?_⟩
  · intro p hlo hhi
    refine ⟨_, rfl, ?_⟩
    rw [← he, if_neg hpor, decide_eq_false (by omega), State.excursion_absent]
    exact ⟨State.inExcursion_filter _, rfl⟩
  · intro p hp hx
    refine ⟨{ e with hub.excursions := (0x04, 0) :: e.hub.excursions }, congrArg Host.Outcome.next ?_, State.inExcursion_cons, rfl⟩
    rw [← he, if_neg hpor, decide_eq_true (by omega), State.excursion_first hx]
  · intro n hlo hhi
    refine ⟨_, rfl, ?_⟩
    rw [← he, if_neg hpor, decide_eq_false (by omega), State.excursion_absent]
    exact ⟨State.inExcursion_filter _, rfl⟩
  · intro n hn hx
    refine ⟨{ e with hub.excursions := (0x03, 0) :: e.hub.excursions }, congrArg Host.Outcome.next ?_, State.inExcursion_cons, rfl⟩
    rw [← he, if_neg hpor, decide_eq_true (by omega), State.excursion_first hx]
  · intro n hx hn
    refine congrArg Host.Outcome.next ?_
    rw [← he, if_neg hpor, decide_eq_true (by omega), State.excursion_again hx]

/-- Settles O31: a supervision cycle in its window compares nothing that differs, and pads that agree are not timed. -/
theorem islandSupervision : Obligations.IslandSupervision := by
  intro s e dt hs he hpor
  have hregs : e.regs = s.regs := by rw [he, State.elapse_regs]
  have hwf : Sparse.wf 0#32 e.regs = true := hregs ▸ hs.1
  refine ⟨?_, ?_, ?_⟩
  · intro hlate
    refine congrArg Host.Outcome.next ?_
    rw [← he, if_pos ⟨hpor, hlate⟩]
  · intro hdead hout hlo hhi hsvc hfault hlatch
    refine congrArg Host.Outcome.next ?_
    rw [← he, if_neg (by simp [hpor, hdead, hout])]
    have hwindow : ¬ (e.tick - e.hub.served < usTicks 400 ∨ usTicks 600 < e.tick - e.hub.served) := by omega
    dsimp only
    rw [if_neg hwindow, List.foldl_nil, ite_self]
    exact if_pos ⟨hsvc, hfault, by rw [Bool.not_eq_true]; exact hlatch⟩
  · intro hsvc
    refine ⟨_, rfl, ?_⟩
    rw [← he, if_neg hpor]
    obtain ⟨hfpin, hbpin, hsvc', hsame, hueq⟩ := State.showPins_spec e.hub.faultN e.hub.heartbeat hwf
    rw [← State.showPins]
    generalize e.showPins e.hub.faultN e.hub.heartbeat = u at *
    have hfault : u.hub.faultN = e.hub.faultN := by rw [hueq]
    have hbeat : u.hub.heartbeat = e.hub.heartbeat := by rw [hueq]
    dsimp only
    rw [if_pos hfault.symm, if_neg (hsvc' ▸ hsvc : ¬ u.svc = 1), if_pos hbeat.symm]
    simp only [Option.isNone_none, true_or, if_true, Option.any_none, State.excursion_absent]
    refine ⟨hfpin, hbpin, trivial, trivial, ?_, ?_, ?_, hsame.of_regs hregs.symm rfl⟩
    · simp [State.inExcursion]
    · simp [State.inExcursion]
    · rw [hueq]
end

section
/-!
SUPPORT. Rails, clock windows and PLLs as the monitors judge them.
-/

namespace Sys2Proof.Machine

open Sys2Proof

/-- The end of an excursion: registers and memory stay. -/
theorem State.excursion_absent_spec (s : State) (m i src inst detail : Nat) :
    (s.excursion m i false src inst detail).inExcursion m i = false ∧ (s.excursion m i false src inst detail).regs = s.regs ∧
      (s.excursion m i false src inst detail).mem = s.mem :=
  ⟨by simp [State.excursion, State.inExcursion], rfl, rfl⟩

/-- The beginning of an excursion: the source is raised with registers, memory and supplies as they were. -/
theorem State.excursion_first_spec {s : State} {m i : Nat} (src inst detail : Nat) (h : s.inExcursion m i = false) :
    ∃ u : State, s.excursion m i true src inst detail = u.raise src inst detail ∧ u.inExcursion m i = true ∧ u.regs = s.regs ∧
      u.mem = s.mem ∧ u.power = s.power :=
  ⟨_, State.excursion_first h, State.inExcursion_cons, rfl, rfl, rfl⟩

/-- A clock judged bad for the first time: its bit is set and its source raised. -/
theorem State.judgeClock_bad {s : State} {c : Nat} (hwf : Sparse.wf 0#32 s.regs = true) (hc : c - 1 < R.CLK_CLK_FAULT_DOMAIN.width)
    (hbad : (decide (2 ≤ s.badWindowsOf c) || s.power.pllLost.contains (clockPll c)) = true) (hx : s.inExcursion 0x82 c = false) :
    ∃ u : State, s.judgeClock c = u.raise 0x82 c 0 ∧ (u.reg R.CLK_CLK_FAULT_DOMAIN).testBit (c - 1) = true ∧ u.mem = s.mem ∧
      u.power = s.power ∧ SameRegistersBut [(R.CLK_CLK_FAULT_DOMAIN, 0, 0)] s u := by
  have heq := s.setBit_eq R.CLK_CLK_FAULT_DOMAIN (c - 1) true 0 0
  obtain ⟨u, hu, -, hr, hm, hp⟩ := State.excursion_first_spec (s := s.setBit R.CLK_CLK_FAULT_DOMAIN (c - 1) true) 0x82 c 0
    (by rw [heq]; exact hx)
  refine ⟨u, ?_, ?_, hm.trans (by rw [heq]), hp.trans (by rw [heq]), ?_⟩
  · rw [State.judgeClock, hbad, hu]
  · rw [State.reg_of_regs hr]
    exact State.testBit_setBit true hwf hc
  · exact (s.sameRegistersBut_setBit R.CLK_CLK_FAULT_DOMAIN (c - 1) true 0 0 hwf List.mem_cons_self).of_regs rfl hr

/-- A clock judged good: its bit is cleared and its excursion ended. -/
theorem State.judgeClock_good {s : State} {c : Nat} (hwf : Sparse.wf 0#32 s.regs = true) (hc : c - 1 < R.CLK_CLK_FAULT_DOMAIN.width)
    (hgood : (decide (2 ≤ s.badWindowsOf c) || s.power.pllLost.contains (clockPll c)) = false) :
    ((s.judgeClock c).reg R.CLK_CLK_FAULT_DOMAIN).testBit (c - 1) = false ∧ (s.judgeClock c).inExcursion 0x82 c = false ∧
      (s.judgeClock c).mem = s.mem ∧ SameRegistersBut [(R.CLK_CLK_FAULT_DOMAIN, 0, 0)] s (s.judgeClock c) := by
  have heq := s.setBit_eq R.CLK_CLK_FAULT_DOMAIN (c - 1) false 0 0
  obtain ⟨hx, hr, hm⟩ := (s.setBit R.CLK_CLK_FAULT_DOMAIN (c - 1) false).excursion_absent_spec 0x82 c 0x82 c 0
  rw [State.judgeClock, hgood]
  refine ⟨?_, hx, hm.trans (by rw [heq]), ?_⟩
  · rw [State.reg_of_regs hr]
    exact State.testBit_setBit false hwf hc
  · exact (s.sameRegistersBut_setBit R.CLK_CLK_FAULT_DOMAIN (c - 1) false 0 0 hwf List.mem_cons_self).of_regs rfl hr

/-- A field in words apart from all those that may have changed. -/
theorem SameRegistersBut.reg {l : List (RegRow × Nat × Nat)} {s t : State} (h : SameRegistersBut l s t) (q : RegRow) (i j : Nat)
    (hq : ∀ x ∈ l, q.at i j + 4 * q.words ≤ x.1.at x.2.1 x.2.2 ∨ x.1.at x.2.1 x.2.2 + 4 * x.1.words ≤ q.at i j) :
    t.reg q i j = s.reg q i j := by
  rw [State.reg, State.reg, State.regWords_congr s t _ _ fun x hlo hhi => h x fun y hy => ?_]
  have := hq y hy
  omega

/-- A PLL as CLK.PLL_LOCK shows it. -/
def State.showUnlocked (s : State) (p : Nat) : State := if p < 8 then s.setBit R.CLK_PLL_LOCK_LOCKED p false else s

theorem State.showUnlocked_spec {s : State} (p : Nat) (hwf : Sparse.wf 0#32 s.regs = true) :
    s.showUnlocked p = { s with regs := (s.showUnlocked p).regs } ∧ Sparse.wf 0#32 (s.showUnlocked p).regs = true ∧
      (p < 8 → ((s.showUnlocked p).reg R.CLK_PLL_LOCK_LOCKED).testBit p = false) := by
  unfold State.showUnlocked
  split
  · next hp => exact ⟨State.setBit_eq .., State.setBit_wf _ _ _ _ _ hwf, fun _ => State.testBit_setBit false hwf hp⟩
  · next hp => exact ⟨rfl, hwf, fun h => absurd h hp⟩

theorem State.clockOn_lt {s : State} {c : Nat} (h : s.clockOn c = true) : c < 26 := by
  simp only [State.clockOn, Bool.and_eq_true, decide_eq_true_eq] at h
  exact h.1.1

end Sys2Proof.Machine

open Sys2Proof Sys2Proof.Machine

/-- Settles O16: rails, domains, clock windows and PLLs are judged by `excursion`. -/
theorem supplyAndClockMonitors : Obligations.SupplyAndClockMonitors := by
  refine ⟨?_, ?_⟩
  · intro s e dt hs he hpor
    have hregs : e.regs = s.regs := by rw [he, State.elapse_regs]
    have hmem : e.mem = s.mem := by rw [he, State.elapse_mem]
    have hwf : Sparse.wf 0#32 e.regs = true := hregs ▸ hs.1
    refine ⟨?_, ?_, ?_⟩
    · intro r hr
      refine ⟨_, rfl, ?_⟩
      rw [← he, if_pos ⟨hr, hpor⟩]
      dsimp only
      rw [if_pos (by decide)]
      obtain ⟨hx, hr', hm⟩ := (e.setBit R.PWR_RAILS_OUT r false).excursion_absent_spec 0x81 r 0x81 r 0
      refine ⟨?_, hx, sameMemory_of_mem (hm.trans ?_), ?_⟩
      · rw [State.reg_of_regs hr']
        exact State.testBit_setBit false hwf hr
      · rw [State.setBit_eq]
        exact hmem
      · exact (e.sameRegistersBut_setBit R.PWR_RAILS_OUT r false 0 0 hwf List.mem_cons_self).of_regs hregs.symm hr'
    · intro r hr hpg harmed hx
      have heq := e.setBit_eq R.PWR_RAILS_OUT r true 0 0
      have hpg' : (e.setBit R.PWR_RAILS_OUT r true).flag R.PWR_PMIC_PG = true := by
        rw [State.flag, State.setBit, State.reg_setReg_apart hwf (by decide)]
        exact hpg
      obtain ⟨u, hu, -, hr', hm, -⟩ := State.excursion_first_spec (s := e.setBit R.PWR_RAILS_OUT r true) 0x81 r 0 (by rw [heq]; exact hx)
      refine ⟨u, congrArg Host.Outcome.next ?_, ?_, sameMemory_of_mem (hm.trans ?_), ?_⟩
      · rw [← he, if_pos ⟨hr, hpor⟩]
        dsimp only
        rw [if_neg (by decide), if_pos ⟨hpg', by rw [heq]; exact harmed⟩, hu]
      · rw [State.reg_of_regs hr']
        exact State.testBit_setBit true hwf hr
      · rw [heq]
        exact hmem
      · exact (e.sameRegistersBut_setBit R.PWR_RAILS_OUT r true 0 0 hwf List.mem_cons_self).of_regs hregs.symm hr'
    · intro d h1 h14 hstep hpg hst hpow hlate
      refine congrArg Host.Outcome.next ?_
      rw [← he, if_pos ⟨h1, h14, hstep, hpg, hst, hpow, hlate⟩]
  · intro s e dt c hs he hpor hon h7
    have hregs : e.regs = s.regs := by rw [he, State.elapse_regs]
    have hmem : e.mem = s.mem := by rw [he, State.elapse_mem]
    have hwf : Sparse.wf 0#32 e.regs = true := hregs ▸ hs.1
    have hc : c - 1 < R.CLK_CLK_FAULT_DOMAIN.width := by
      have := State.clockOn_lt hon
      show c - 1 < 25
      omega
    have hnotTensor (p : Prop) : ¬ (3 ≤ c ∧ c ≤ 6 ∧ p) := by omega
    refine ⟨?_, ?_, ?_⟩
    · intro n hlo hhi hpll hwfb
      refine ⟨_, rfl, ?_⟩
      rw [← he, if_neg (by simp [hpor, hon]), if_neg (hnotTensor _)]
      dsimp only
      rw [decide_eq_false (by omega), if_neg (by decide)]
      have hn : ({ e with power.badWindows := Sparse.put 0 e.power.badWindows c 0 } : State).badWindowsOf c = 0 :=
        Sparse.get_put_same _ _ hwfb
      obtain ⟨hbit, hx, hm, hr⟩ := State.judgeClock_good (s := { e with power.badWindows := Sparse.put 0 e.power.badWindows c 0 })
        hwf hc (by rw [hn]; exact hpll)
      exact ⟨hbit, hx, sameMemory_of_mem (hm.trans hmem), hr.of_regs hregs.symm rfl⟩
    · intro n hn hbad hx
      have hput : ({ e with power.badWindows := Sparse.put 0 e.power.badWindows c (min (e.badWindowsOf c + 1) 2) } : State).badWindowsOf c = 2 :=
        (Sparse.get_put_of_ne _ _ (by omega)).trans (by omega)
      obtain ⟨u, hu, hbit, hm, -, -⟩ := State.judgeClock_bad
        (s := { e with power.badWindows := Sparse.put 0 e.power.badWindows c (min (e.badWindowsOf c + 1) 2) }) hwf hc (by rw [hput]; rfl) hx
      refine ⟨u, congrArg Host.Outcome.next ?_, hbit, sameMemory_of_mem (hm.trans hmem)⟩
      rw [← he, if_neg (by simp [hpor, hon]), if_neg (hnotTensor _)]
      dsimp only
      rw [decide_eq_true hn, if_pos rfl, hu]
    · intro p hclocks hx
      have hpc : clockPll c = p := by
        have hmem : c ∈ (List.range 26).filter fun k => e.clockOn k && clockPll k == p := hclocks ▸ List.mem_singleton_self c
        simpa [hon] using (List.mem_filter.mp hmem).2
      obtain ⟨heq, hwf', hlock⟩ := State.showUnlocked_spec (s := e) p hwf
      generalize hv : ({ e.showUnlocked p with power.pllLost := [p] ++ (e.showUnlocked p).power.pllLost.filter fun x => x != p } : State) = v
      have hlost : v.power.pllLost.contains p = true := by rw [← hv]; simp
      have hregs' : v.regs = (e.showUnlocked p).regs := by rw [← hv]
      obtain ⟨u, hu, hbit, -, hp, hr⟩ := State.judgeClock_bad (s := v) (hregs' ▸ hwf') hc
        (by rw [hpc, hlost, Bool.or_true]) (by rw [← hv, heq]; exact hx)
      refine ⟨u, congrArg Host.Outcome.next ?_, by rw [hp]; exact hlost, hbit, fun h8 => ?_⟩
      · rw [← he, hclocks, if_neg (by simp [hpor])]
        simp only [if_true, Bool.not_true, List.foldl_cons, List.foldl_nil]
        rw [← State.showUnlocked, hv, hu]
      · rw [hr.reg R.CLK_PLL_LOCK_LOCKED 0 0 (by decide), State.reg_of_regs hregs']
        exact hlock h8
end

section
/-!
SUPPORT. Records that the device writes to its log queues: memory and registers change, and the service state does not.
-/

namespace Sys2Proof.Machine

open Sys2Proof

/-- From `s` to `t` only memory and registers have changed, and the service state has not. -/
structure Recorded (s t : State) : Prop where
  eq : t = { s with mem := t.mem, regs := t.regs }
  wf : Sparse.wf 0#32 s.regs = true → Sparse.wf 0#32 t.regs = true
  svc : Sparse.wf 0#32 s.regs = true → t.svc = s.svc

theorem Recorded.refl (s : State) : Recorded s s := ⟨rfl, id, fun _ => rfl⟩

section

variable {s t u : State}

theorem Recorded.trans (h : Recorded s t) (h' : Recorded t u) : Recorded s u where
  eq := h'.eq.trans (by rw [h.eq])
  wf := h'.wf ∘ h.wf
  svc hwf := (h'.svc (h.wf hwf)).trans (h.svc hwf)

/-- Fields above TOP.SVC. -/
theorem Recorded.setReg (s : State) (r : RegRow) (v i j : Nat) (h : 0x00F00000000C ≤ r.addr) : Recorded s (s.setReg r v i j) where
  eq := by rw [State.setReg_eq']
  wf := s.setReg_wf _ _ _ _
  svc hwf := s.reg_setReg_other r R.TOP_SVC_STATE v i j 0 0 hwf (.inl (Nat.le_trans h (by rw [RegRow.at, Nat.add_assoc]; exact Nat.le_add_right ..)))

theorem Recorded.incReg (s : State) (r : RegRow) (i j n : Nat) (h : 0x00F00000000C ≤ r.addr) : Recorded s (s.incReg r i j n) :=
  .setReg s r _ i j h

theorem Recorded.ite {p : Prop} [Decidable p] (h : Recorded s t) (h' : Recorded s u) : Recorded s (if p then t else u) := by
  split
  · exact h
  · exact h'

theorem Recorded.foldl {α : Type} {f : State → α → State} (hf : ∀ s a, Recorded s (f s a)) (l : List α) (s : State) :
    Recorded s (l.foldl f s) := by
  induction l generalizing s with
  | nil => exact .refl s
  | cons a l ih => exact (hf s a).trans (ih _)

theorem Recorded.doorbell (s : State) (q w g : Nat) : Recorded s (s.doorbell q w g).2 := by
  by_cases h : s.doorbellCause q w g = 0
  · rw [State.doorbell_snd_of_accepted s q w g h]
    exact .ite ((Recorded.setReg _ _ _ _ _ (by decide)).trans (Recorded.setReg _ _ _ _ _ (by decide))) (.setReg _ _ _ _ _ (by decide))
  · rw [State.doorbell_snd_of_rejected s q w g h]
    split
    · exact .incReg _ _ _ _ _ (by decide)
    · exact .incReg _ _ _ _ _ (by decide)

theorem Recorded.putSlots (s : State) (q p : Nat) (item : List (List Byte)) : Recorded s (s.putSlots q p item) := by
  rw [State.putSlots_eq]
  exact ⟨rfl, id, fun _ => rfl⟩

theorem Recorded.produce (s : State) (q : Nat) (item : List (List Byte)) : Recorded s (s.produce q item).2 := by
  unfold State.produce
  dsimp only
  split
  · exact (Recorded.putSlots ..).trans (.doorbell ..)
  · exact (Recorded.doorbell ..).trans (.incReg _ _ _ _ _ (by decide))

theorem Recorded.release (s : State) (q n : Nat) : Recorded s (s.release q n) :=
  (Recorded.setReg s R.QUE_RPTR_RPTR _ q 0 (by decide)).trans
    (.ite (.setReg _ _ _ _ _ (by decide)) (.ite (.setReg _ _ _ _ _ (by decide)) (.refl _)))

theorem Recorded.record (s : State) (q : Nat) (words : List Nat) : Recorded s (s.record q words) :=
  (Recorded.ite (.release s q 1) (.refl s)).trans (.produce ..)

theorem Recorded.q2 (s : State) (w0 w2 w3 w4 : Nat) : Recorded s (s.q2 w0 w2 w3 w4) := .record ..

theorem Recorded.waitRecord (s : State) (p t : Nat) : Recorded s (s.waitRecord p t) := by
  unfold State.waitRecord
  split
  · exact .q2 ..
  · exact .q2 ..

end

/-- The job of a partition marked as having fired. -/
theorem State.job?_fired {s : State} {p : Nat} {j : Job} (h : s.job? p = some j) :
    ({ s with jobs := s.jobs.map fun x : Nat × Job => if x.1 = p then (p, { x.2 with fired := true }) else x } : State).job? p =
      some { j with fired := true } := by
  have hfst (x : Nat × Job) : (if x.1 = p then (p, { x.2 with fired := true }) else x).1 = x.1 := by
    split
    · next hx => exact hx.symm
    · rfl
  simp only [State.job?, List.find?_map, Function.comp_def, hfst] at h ⊢
  obtain ⟨x, hx, rfl⟩ := Option.map_eq_some_iff.mp h
  have hp : x.1 = p := by simpa using List.find?_some hx
  rw [hx, Option.map_some, Option.map_some, if_pos hp]

end Sys2Proof.Machine

open Sys2Proof Sys2Proof.Machine

/-- Settles O34: each watchdog records what outlived its limit and raises its source. -/
theorem watchdogs : Obligations.Watchdogs := by
  intro s e dt hs he
  have hregs : e.regs = s.regs := by rw [he, State.elapse_regs]
  have hwf : Sparse.wf 0#32 e.regs = true := hregs ▸ hs.1
  refine ⟨?_, ?_, ?_, ?_, ?_, ?_⟩
  · intro p j hj hinit hfired hlate
    generalize hv : ({ e with jobs := e.jobs.map fun x : Nat × Job => if x.1 = p then (p, { x.2 with fired := true }) else x } : State) = v
    have hrec := Recorded.q2 v (0x03 + 2 ^ 8 * p + 2 ^ 19 * v.reg R.PART_JOB_QUEUE p) (2 ^ 32 * e.reg R.PART_JOB_BUDGET_US p)
      (v.jobElapsed p) (v.reg R.PART_JOB_SEQNO_SEQNO p)
    refine ⟨v.q2 (0x03 + 2 ^ 8 * p + 2 ^ 19 * v.reg R.PART_JOB_QUEUE p) (2 ^ 32 * e.reg R.PART_JOB_BUDGET_US p) (v.jobElapsed p)
        (v.reg R.PART_JOB_SEQNO_SEQNO p), congrArg Host.Outcome.next ?_, ?_, ?_, ?_⟩
    · rw [← he, hj]
      dsimp only
      rw [if_pos ⟨hinit, hfired, hlate⟩, hv]
    · rw [hrec.eq, ← hv]
      exact State.job?_fired hj
    · rw [hrec.eq, ← hv]
    · rw [hrec.svc (by rw [← hv]; exact hwf), ← hv]
      rfl
  · intro p at_ hp hfired hquiet hsince hlate
    generalize hv : ({ e with deadlocks := Sparse.put {} e.deadlocks p { Sparse.get ({} : Deadlock) e.deadlocks p with fired := true } } :
      State) = v
    have hrec := (Recorded.q2 v (0x01 + 2 ^ 8 * p + 2 ^ 28 * (e.partThreads p).length) (2 ^ 32 * e.reg R.PART_DL_DL_TIME p) 0 0).trans
      (Recorded.foldl (fun s t => Recorded.waitRecord s p t) (e.partThreads p) _)
    refine ⟨(e.partThreads p).foldl (fun s t => s.waitRecord p t)
        (v.q2 (0x01 + 2 ^ 8 * p + 2 ^ 28 * (e.partThreads p).length) (2 ^ 32 * e.reg R.PART_DL_DL_TIME p) 0 0),
      congrArg Host.Outcome.next ?_, ?_, ?_⟩
    · rw [← he, if_pos ⟨hp, hfired, hquiet, by simpa [hsince] using hlate⟩, hv]
    · rw [hrec.eq, ← hv]
      exact congrArg Deadlock.fired (Sparse.get_put_of_ne _ _ fun h => by cases congrArg Deadlock.fired h)
    · rw [hrec.eq, ← hv]
  · intro t ht hst hlate
    have hexec : ∃ w0 n k, exec (.threadWatchdogExpire dt t) s = .next (((e.q2 w0 n k 0).boundary t).raise 0x1E t 0) := by
      have hx : exec (.threadWatchdogExpire dt t) s = execThreadWatchdogExpire dt t s := rfl
      rw [hx, execThreadWatchdogExpire, ← he]
      dsimp only
      rw [if_pos ⟨ht, hst, hlate⟩]
      exact ⟨_, _, _, rfl⟩
    obtain ⟨w0, n, k, hexec⟩ := hexec
    refine ⟨_, hexec, ?_⟩
    rw [State.boundary, State.setThread_cmds, (Recorded.q2 e w0 n k 0).eq]
  · intro cls i last hpor hbeats
    refine congrArg Host.Outcome.next ?_
    rw [← he, if_pos ⟨hpor, hbeats⟩]
  · intro cls i addr work hpor hnet hreissue
    refine congrArg Host.Outcome.next ?_
    rw [← he, if_neg (by simp [hpor, hnet]), hreissue]
    rfl
  · refine ⟨_, rfl, ?_, ?_, ?_⟩
    · rw [← he, State.reg_incReg_same _ _ _ _ _ hwf (by decide)]
    · rw [← he]
      exact State.incReg_eq ..
    · rw [← he]
      exact (e.sameRegistersBut_setReg _ _ _ _ hwf List.mem_cons_self).of_regs hregs.symm rfl
end


section
namespace Sys2Proof.Machine

/-- The intake of a request whose first checks find nothing: what its type does. -/
theorem State.intake_pass {e u : State} {r : Request} {type : Nat → Bool} {f : Request → Nat → State → State}
    (h : e.intakeTake = some (r, u)) (ht : type r.type = true) (hj : u.judgeFirst r = 0) :
    e.intake type f = f r (((u.client r.clientId).map (·.1)).getD 0) u := by
  rw [State.intake, h]
  dsimp only
  rw [if_neg (by simp [ht]), if_neg (by simp [hj])]

/-- The intake of a request that its first checks refuse. -/
theorem State.intake_refused {e u : State} {r : Request} {type : Nat → Bool} {f : Request → Nat → State → State}
    (h : e.intakeTake = some (r, u)) (ht : type r.type = true) (hj : u.judgeFirst r ≠ 0) :
    e.intake type f = u.refuse r (u.judgeFirst r) := by
  rw [State.intake, h]
  dsimp only
  rw [if_neg (by simp [ht]), if_pos hj]

/-- A request with its rights goes on. -/
theorem State.withRights_pass {u : State} {r : Request} {f : State → State} (h : u.judgeRights r = 0) : u.withRights r f = f u := by
  rw [State.withRights, if_neg (by simp [h])]

/-- The types of undefined requests, as the intake tests them. -/
theorem type_of_undefined {t : Nat} (h : t = 0 ∨ 5 < t) : (fun t => t == 0 || decide (5 < t)) t = true := by
  simpa using h

end Sys2Proof.Machine

open Sys2Proof Sys2Proof.Machine

/-- Settles O35: each read that passes its checks is answered by its own rule, and any other is refused by the first check. -/
theorem statusReadsAnswered : Obligations.StatusReadsAnswered := by
  intro s e u dt r _ he hr
  refine ⟨?_, ?_, ?_, ?_, ?_, ?_⟩
  · intro a n ha hn ht hj hrights
    have hx : exec (.statusRead dt) s = execStatusRead dt s := rfl
    rw [hx, execStatusRead, ← he, State.intake_pass hr (by simp [ht]) hj, State.withRights_pass hrights, ← ha, ← hn]
    refine ⟨fun h => ?_, fun h v hv => ?_⟩
    · rw [if_pos h]
    · rw [if_neg (by simp [h]), hv]
  · intro l ht hj hrights hl
    have hx : exec (.logRead dt) s = execLogRead dt s := rfl
    rw [hx, execLogRead, ← he, State.intake_pass hr (by simp [ht]) hj, State.withRights_pass hrights, hl]
  · intro x ht hj hrights hsel hsnap hby
    have hx : exec (.meterRead dt) s = execMeterRead dt s := rfl
    rw [hx, execMeterRead, ← he, State.intake_pass hr (by simp [ht]) hj, State.withRights_pass hrights, hsnap, if_neg (by simp [hsel])]
    dsimp only
    rw [if_pos hby]
  · intro ht hj hrights hsel
    have hx : exec (.meterRead dt) s = execMeterRead dt s := rfl
    rw [hx, execMeterRead, ← he, State.intake_pass hr (by simp [ht]) hj, State.withRights_pass hrights, if_pos (by simp [hsel])]
  · intro ht
    have hx : exec (.undefinedRequestType dt) s = execUndefinedRequestType dt s := rfl
    rw [hx, execUndefinedRequestType, ← he]
    split
    case isTrue hj => rw [State.intake_refused hr (type_of_undefined ht) hj]
    case isFalse hj => rw [State.intake_pass hr (type_of_undefined ht) (Decidable.of_not_not hj)]
  · intro hj
    refine ⟨fun ht => ?_, fun ht => ?_, fun ht => ?_, fun ht => ?_, fun ht => ?_⟩
    · have hx : exec (.statusRead dt) s = execStatusRead dt s := rfl
      rw [hx, execStatusRead, ← he, State.intake_refused hr (by simp [ht]) hj]
    · have hx : exec (.logRead dt) s = execLogRead dt s := rfl
      rw [hx, execLogRead, ← he, State.intake_refused hr (by simp [ht]) hj]
    · have hx : exec (.meterRead dt) s = execMeterRead dt s := rfl
      rw [hx, execMeterRead, ← he, State.intake_refused hr (by simp [ht]) hj]
    · have hx : exec (.submit dt) s = execSubmit dt s := rfl
      rw [hx, execSubmit, ← he, State.intake_refused hr (by simp [ht]) hj]
    · have hx : exec (.abort dt) s = execAbort dt s := rfl
      rw [hx, execAbort, ← he, State.intake_refused hr (by simp [ht]) hj]
end


section
/-!
SUPPORT. One field written for every index of a list.
-/

namespace Sys2Proof.Machine

open Sys2Proof

/-- Field `r` written for each index of `l` with its value by `f`. -/
def State.setRegs (s : State) (r : RegRow) (f : Nat → Nat) (l : List Nat) : State := l.foldl (fun s c => s.setReg r (f c) c) s

theorem State.setRegs_cons (s : State) (r : RegRow) (f : Nat → Nat) (c : Nat) (l : List Nat) :
    s.setRegs r f (c :: l) = (s.setReg r (f c) c).setRegs r f l := rfl

theorem State.setRegs_eq (s : State) (r : RegRow) (f : Nat → Nat) (l : List Nat) :
    s.setRegs r f l = { s with regs := (s.setRegs r f l).regs } := by
  induction l generalizing s with
  | nil => rfl
  | cons c l ih =>
    rw [State.setRegs_cons, ih, State.setReg_eq]

theorem State.setRegs_mem (s : State) (r : RegRow) (f : Nat → Nat) (l : List Nat) : (s.setRegs r f l).mem = s.mem := by
  rw [State.setRegs_eq]

theorem State.setRegs_wf {s : State} (hwf : Sparse.wf 0#32 s.regs = true) (r : RegRow) (f : Nat → Nat) (l : List Nat) :
    Sparse.wf 0#32 (s.setRegs r f l).regs = true := by
  induction l generalizing s with
  | nil => exact hwf
  | cons c l ih => exact ih (s.setReg_wf _ _ _ _ hwf)

/-- A field apart from all that are written keeps its value. -/
theorem State.reg_setRegs_apart {s : State} (hwf : Sparse.wf 0#32 s.regs = true) {r q : RegRow} {f : Nat → Nat} {l : List Nat} {k m : Nat}
    (h : ∀ c ∈ l, r.Apart q c 0 k m) : (s.setRegs r f l).reg q k m = s.reg q k m := by
  induction l generalizing s with
  | nil => rfl
  | cons c l ih =>
    rw [State.setRegs_cons, ih (s.setReg_wf _ _ _ _ hwf) fun x hx => h x (List.mem_cons_of_mem _ hx),
      State.reg_setReg_apart hwf (h c List.mem_cons_self)]

/-- Elements that share no word hold what was written to each. -/
theorem State.reg_setRegs {s : State} (hwf : Sparse.wf 0#32 s.regs = true) {r : RegRow} (hs : 4 * r.words ≤ r.s1) (hw : 0 < r.width)
    {f : Nat → Nat} {l : List Nat} (hl : l.Nodup) {c : Nat} (hc : c ∈ l) : (s.setRegs r f l).reg r c = f c % 2 ^ r.width := by
  induction l generalizing s with
  | nil => cases hc
  | cons d l ih =>
    obtain ⟨hd, hl⟩ := List.nodup_cons.mp hl
    have hwf' := s.setReg_wf r (f d) d 0 hwf
    rw [State.setRegs_cons]
    obtain rfl | hc := List.mem_cons.mp hc
    · rw [State.reg_setRegs_apart hwf' fun x hx => ?_, State.reg_setReg_same _ _ _ _ _ hwf hw]
      have hne : c ≠ x := fun h => hd (h ▸ hx)
      left
      simp only [RegRow.at]
      rcases Nat.lt_or_ge c x with h | h
      · have := Nat.mul_le_mul_left r.s1 (show c + 1 ≤ x by omega)
        rw [Nat.mul_add] at this
        omega
      · have := Nat.mul_le_mul_left r.s1 (show x + 1 ≤ c by omega)
        rw [Nat.mul_add] at this
        omega
    · exact ih hwf' hl hc

/-- A word that no write reaches keeps its value. -/
theorem State.sameRegistersBut_setRegs {s : State} (hwf : Sparse.wf 0#32 s.regs = true) {r : RegRow} {f : Nat → Nat} {l : List Nat}
    {m : List (RegRow × Nat × Nat)} (h : ∀ c ∈ l, (r, c, 0) ∈ m) : SameRegistersBut m s (s.setRegs r f l) := by
  induction l generalizing s with
  | nil => exact fun _ _ => rfl
  | cons c l ih =>
    exact (s.sameRegistersBut_setReg r _ _ _ hwf (h c List.mem_cons_self)).trans
      (ih (s.setReg_wf _ _ _ _ hwf) fun x hx => h x (List.mem_cons_of_mem _ hx))

/-- The worst of 32 reports that all name rate `r`. -/
theorem worst_of_replicate {r : Nat} (hr : r < 3) :
    (List.range 32).foldl (fun m c => max m (min ((List.replicate 32 r).getD c 0) 3)) 0 = r :=
  match r, hr with
  | 0, _ => by decide
  | 1, _ => by decide
  | 2, _ => by decide

theorem rate_of_replicate {r c : Nat} (hr : r < 3) (hc : c < 32) : min ((List.replicate 32 r).getD c 0) 3 = r := by
  rw [List.getD_eq_getElem?_getD, List.getElem?_replicate, if_pos hc, Option.getD_some]
  omega

theorem rates_apart (c : Nat) : R.MEMC_CH_RATE_RATE.Apart R.MEMC_STATUS_RATE c 0 0 0 := by
  left
  simp only [RegRow.at, RegRow.words, R.MEMC_CH_RATE_RATE, R.MEMC_STATUS_RATE]
  omega

/-- A refresh report in which every channel names the rate in force. -/
theorem execRefreshReportRead_same {s : State} {dt r : Nat} (hup : (s.elapse dt).dramUp = true) (hr : r < 3)
    (hst : (s.elapse dt).reg R.MEMC_STATUS_RATE = r) (hwf : Sparse.wf 0#32 (s.elapse dt).regs = true) :
    exec (.refreshReportRead dt (List.replicate 32 r)) s =
      .next (((s.elapse dt).setRegs R.MEMC_CH_RATE_RATE (fun c => min ((List.replicate 32 r).getD c 0) 3) (List.range 32)).excursion
        0x55 0 false 0x55 (((List.range 32).find? fun c => min ((List.replicate 32 r).getD c 0) 3 == r).getD 0) 0) := by
  have hx : exec (.refreshReportRead dt (List.replicate 32 r)) s = execRefreshReportRead dt (List.replicate 32 r) s := rfl
  have hkeep := State.reg_setRegs_apart hwf (f := fun c => min ((List.replicate 32 r).getD c 0) 3) (l := List.range 32) fun c _ =>
    rates_apart c
  rw [State.setRegs] at hkeep
  rw [hx, execRefreshReportRead]
  dsimp only
  rw [if_neg (by simp [hup]), worst_of_replicate hr, hkeep, hst, if_pos rfl, if_neg (fun h => h.1 rfl)]
  have h3 : (r == 3) = false := by simp; omega
  rw [h3]
  rfl

/-- A bank whose place has not reached its end leaves the pass unfinished. -/
theorem not_all_banks {m : List (Nat × Nat)} {b r banks rows : Nat} (hwf : Sparse.wf 0 m = true) (hb : b < banks) (hr : r + 1 < rows) :
    ((List.range banks).all fun k => decide (rows ≤ Sparse.get 0 (Sparse.put 0 m b (r + 1)) k)) ≠ true := by
  intro h
  have := List.all_eq_true.mp h b (List.mem_range.mpr hb)
  rw [Sparse.get_put_same _ _ hwf, decide_eq_true_eq] at this
  omega

end Sys2Proof.Machine

open Sys2Proof Sys2Proof.Machine

/-- Settles O42: the windows of the scrubbers, the patrol, the reissues of link errors and the refresh reports. -/
theorem memoryUpkeep : Obligations.MemoryUpkeep := by
  intro s e dt hs he
  have hregs : e.regs = s.regs := by rw [he, State.elapse_regs]
  have hwf : Sparse.wf 0#32 e.regs = true := hregs ▸ hs.1
  refine ⟨?_, ?_, ?_, ?_, ?_, ?_⟩
  · intro i b dom base size row banks rows hat hrows hsc hb hr hscwf hgood
    have hx : exec (.scrubWindow dt i b) s = execScrubWindow dt i b s := rfl
    rw [hx, execScrubWindow, ← he]
    dsimp only
    rw [hat, hrows]
    dsimp only
    rw [if_neg (by simp [hsc]; omega), State.badWords_of_good hgood, State.scrubWords, if_neg (not_all_banks hscwf hb hr)]
  · intro i hi hsc hforced hlate
    refine congrArg Host.Outcome.next ?_
    have hsmall : ¬ 0x100 ≤ i := by omega
    rw [← he, if_pos ⟨hsc, hforced, hlate⟩]
    dsimp only
    rw [if_neg hsmall]
  · intro n hup hsize hpat hgood
    have hmet : ∀ p : Nat × Health → Bool, e.health.filter p = [] := fun _ => by rw [hgood]; rfl
    have hx : exec (.patrolRead dt n) s = execPatrolRead dt n s := rfl
    rw [hx, execPatrolRead, ← he]
    dsimp only
    rw [if_pos ⟨hup, hsize, hpat⟩, hmet, State.scrubWords]
    refine ⟨fun h => ?_, fun h => ?_⟩
    · have hmin : min (e.patrolAt + 8 * n) e.patrolSize = e.patrolAt + 8 * n := by omega
      rw [hmin, if_neg (Nat.ne_of_lt h)]
    · have hmin : min (e.patrolAt + 8 * n) e.patrolSize = e.patrolSize := by omega
      rw [hmin, if_pos rfl]
  · intro addr work hup hdram hre
    have hgate : ¬ (e.dramUp = false ∨ e.isDram addr = false) := by simp [hup, hdram]
    have hx : ∀ good, exec (.linkEccReissue dt addr good work) s = execLinkEccReissue dt addr good work s := fun _ => rfl
    rw [hx, hx, execLinkEccReissue, execLinkEccReissue, ← he]
    dsimp only
    rw [if_neg hgate, if_neg hgate, hre]
    exact ⟨rfl, rfl⟩
  · intro addr hup hdram hre
    have hx : exec (.linkEccReissue dt addr false .island) s = execLinkEccReissue dt addr false .island s := rfl
    rw [hx, execLinkEccReissue, ← he]
    dsimp only
    have hgate : ¬ (e.dramUp = false ∨ e.isDram addr = false) := by simp [hup, hdram]
    rw [if_neg hgate, hre]
    simp
  · intro r hup hr hst
    have hup' : (s.elapse dt).dramUp = true := by rw [← he]; exact hup
    have hst' : (s.elapse dt).reg R.MEMC_STATUS_RATE = r := by rw [← he]; exact hst
    have hwf' : Sparse.wf 0#32 (s.elapse dt).regs = true := by rw [← he]; exact hwf
    obtain ⟨hexc, hxregs, hxmem⟩ := ((s.elapse dt).setRegs R.MEMC_CH_RATE_RATE (fun c => min ((List.replicate 32 r).getD c 0) 3)
      (List.range 32)).excursion_absent_spec 0x55 0 0x55
        (((List.range 32).find? fun c => min ((List.replicate 32 r).getD c 0) 3 == r).getD 0) 0
    refine ⟨_, execRefreshReportRead_same hup' hr hst' hwf', ?_, ?_, hexc, ?_⟩
    · intro ch hch
      rw [State.reg_of_regs hxregs, State.reg_setRegs hwf' (by decide) (by decide) List.nodup_range (List.mem_range.mpr hch),
        rate_of_replicate hr hch]
      exact Nat.mod_eq_of_lt (by simp [R.MEMC_CH_RATE_RATE]; omega)
    · rw [State.reg_of_regs hxregs, ← hst']
      exact State.reg_setRegs_apart hwf' fun c _ => rates_apart c
    · refine sameMemory_of_mem (hxmem.trans ?_)
      rw [State.setRegs_mem, State.elapse_mem]
end


section
/-!
SUPPORT. Items of the VISION intake: their bytes, and the fusion groups that take them.
-/

namespace Sys2Proof.Machine

open Sys2Proof

/-- A write of memory with no bad word: the bytes and the log of the write. -/
theorem State.writeMem_of_health {s : State} (h : s.health = []) (a : Nat) (bs : List Byte) :
    (s.writeMem a bs).2 = { s with mem := (s.setBytes a bs).mem, wrote := (s.writeMem a bs).2.wrote } := by
  rw [State.writeMem, State.badWords_of_good h, State.writeWords]
  dsimp only
  rw [State.setBytes_eq]

/-- No fusion group that is off takes an item. -/
theorem State.fgComplete_off {s : State} (h : ∀ g, g < 32 → s.fgOn g = false) (kind n stamp a p : Nat) : s.fgComplete kind n stamp a p = s :=
  List.foldlRecOn (motive := (· = s)) _ _ rfl fun t ht g hg => by
    subst ht
    exact if_neg (by simp [h g (List.mem_range.mp hg)])

/-- A counter above Orbit's registers leaves every group as enabled as it was. -/
theorem State.fgOn_incReg {s : State} (hwf : Sparse.wf 0#32 s.regs = true) {r : RegRow} (hr : 0xF000020000 ≤ r.addr) {g : Nat} (hg : g < 32)
    (i : Nat) : (s.incReg r i).fgOn g = s.fgOn g := by
  rw [State.fgOn, State.fgOn, State.flag, State.flag, State.flag, State.flag, State.reg_incReg_other _ _ _ _ _ _ _ _ hwf,
    State.reg_incReg_other _ _ _ _ _ _ _ _ hwf]
  all_goals
    left
    simp only [RegRow.at, RegRow.words, R.TIME_STATUS_ARMED, R.TIME_FG_CFG_ENABLE]
    omega

theorem State.fgOn_of_regs {s t : State} (h : t.regs = s.regs) (g : Nat) : t.fgOn g = s.fgOn g := by
  rw [State.fgOn, State.fgOn, State.flag, State.flag, State.flag, State.flag, State.reg_of_regs h, State.reg_of_regs h]

/-- The end of an item, once its bytes stand: the item is counted, its sequence number taken, and groups that are off take nothing. -/
theorem State.fgComplete_counted {s v : State} {r : RegRow} {kind n stamp a p : Nat} (hwf : Sparse.wf 0#32 s.regs = true)
    (hv : v.regs = s.regs) (hr : 0xF000020000 ≤ r.addr) (hoff : ∀ g, g < 32 → s.fgOn g = false) :
    (v.incReg r n).fgComplete kind n stamp a p = v.incReg r n :=
  State.fgComplete_off (fun g hg => by rw [State.fgOn_incReg (hv ▸ hwf) hr hg, State.fgOn_of_regs hv, hoff g hg]) ..

/-- What an item's counters leave of the state before them. -/
theorem State.countItem_eq {s : State} (kind n stamp a p : Nat) (hwf : Sparse.wf 0#32 s.regs = true) (hoff : ∀ g, g < 32 → s.fgOn g = false) :
    ∃ m, (if kind = 4 then s.incReg R.VFE_CH_ITEMS_COUNT n else if kind = 2 then s.incReg R.VFE_LID_SCANS_COUNT n else s).fgComplete
      kind n stamp a p = { s with regs := m } := by
  split
  · exact ⟨_, (State.fgComplete_counted hwf rfl (by decide) hoff).trans (State.incReg_eq ..)⟩
  split
  · exact ⟨_, (State.fgComplete_counted hwf rfl (by decide) hoff).trans (State.incReg_eq ..)⟩
  · exact ⟨s.regs, State.fgComplete_off hoff ..⟩

/-- An item's body and header stand side by side, and nothing else of memory has changed. -/
theorem State.itemBytes_spec {s u t : State} {a : Nat} {body : List Byte} {ws : List Nat} (hwf : Sparse.wf 0#8 s.mem = true)
    (hws : ws.length = 8) (hu : u.mem = (s.setBytes (a + 64) body).mem) (ht : t.mem = (u.setBytes a (wordsBytes ws)).mem) :
    t.bytes (a + 64) body.length = body ∧ t.bytes a (8 * ws.length) = wordsBytes ws ∧ SameMemoryBut a (64 + body.length) s t := by
  have hwf' : Sparse.wf 0#8 u.mem = true := by rw [hu]; exact s.setBytes_wf _ _ hwf
  have hlen : (wordsBytes ws).length = 64 := by rw [wordsBytes_length, hws]
  refine ⟨?_, ?_, fun x hx => ?_⟩
  · rw [State.bytes_of_mem ht, State.bytes_setBytes_other _ _ _ _ _ hwf' (.inr (by omega)), State.bytes_of_mem hu,
      State.bytes_setBytes_same _ _ _ hwf]
  · rw [State.bytes_of_mem ht, ← wordsBytes_length, State.bytes_setBytes_same _ _ _ hwf']
  · rw [State.byte_of_mem ht, State.byte_setBytes_other _ _ _ _ hwf' (by omega), State.byte_of_mem hu,
      State.byte_setBytes_other _ _ _ _ hwf (by omega)]

theorem State.closeFrame_none {s : State} {n : Nat} {ent : List Byte} {short dog : Bool} (h : (s.visStr n).frame = none) :
    s.closeFrame n ent short dog = s := by
  rw [State.closeFrame, h]

/-- A scan that found no buffer ends without an item, and raises nothing where it is whole or its entry asks for no fault. -/
theorem State.closeScan_unbuffered {s : State} {i : Nat} {ent : List Byte} {sc : VisScan} (hsc : (s.visLid i).scan = some sc)
    (hbuf : sc.buf = none) (hbit : sc.cells.length < lidarCells ent → bit (field ent 0x21 1) 0 = false) :
    s.closeScan i ent = s.setVisLid i { s.visLid i with scan := none } := by
  have hquiet : ¬ (lidarCells ent - sc.cells.length ≠ 0 ∧ bit (field ent 0x21 1) 0 = true) := fun ⟨hmiss, hset⟩ => by
    rw [hbit (by omega)] at hset
    cases hset
  rw [State.closeScan, hsc]
  dsimp only
  rw [if_neg hquiet, hbuf]

end Sys2Proof.Machine

open Sys2Proof Sys2Proof.Machine

/-- Settles O38: items, stream watchdogs, known-answer tests, and lidar packets and scans. -/
theorem itemsAndLidar : Obligations.ItemsAndLidar := by
  refine ⟨fun s e dt hs he => ?_, fun s e dt i ent hs he hent => ?_⟩
  · have hregs : e.regs = s.regs := by rw [he, State.elapse_regs]
    have hmem : e.mem = s.mem := by rw [he, State.elapse_mem]
    have hwf : Sparse.wf 0#32 e.regs = true := hregs ▸ hs.1
    have hwfm : Sparse.wf 0#8 e.mem = true := by rw [hmem]; exact hs.2.1
    refine ⟨?_, ?_, ?_, ?_⟩
    · intro kind n i hi hgood hoff
      have hx : exec (.visionItemComplete dt kind n) s = execVisionItemComplete dt kind n s := rfl
      rw [hx, execVisionItemComplete, ← he, hi]
      dsimp only
      generalize hu0 : ({ e with vis.items := e.vis.items.erase i } : State) = u0
      have hsrc : u0.visSource kind n = e.visSource kind n := by rw [← hu0]; rfl
      rw [hsrc]
      generalize e.visSource kind n = x
      have hu1 := State.writeMem_of_health (s := u0) (by rw [← hu0]; exact hgood) (i.addr + 64) i.body
      generalize (u0.writeMem (i.addr + 64) i.body).2 = u1 at hu1 ⊢
      generalize hws : (u0.itemHeader i x.seq).2 :: (u0.itemHeader i x.seq).1 = ws
      have hu2 := State.writeMem_of_health (s := u1) (by rw [hu1, ← hu0]; exact hgood) i.addr (wordsBytes ws)
      generalize (u1.writeMem i.addr (wordsBytes ws)).2 = u2 at hu2 ⊢
      generalize hu3 : u2.setVisSource kind n { x with seq := x.seq + 1, items := x.items ++ [(i.buf, x.seq % 2 ^ 32)],
                                                       work := x.work.erase i.buf } = u3
      have hu3regs : u3.regs = e.regs := by rw [← hu3, State.setVisSource, hu2, hu1, ← hu0]
      obtain ⟨m, hm⟩ := u3.countItem_eq kind n i.ref i.addr x.seq (hu3regs ▸ hwf) fun g hg => (State.fgOn_of_regs hu3regs g).trans (hoff g hg)
      have hu0mem : u0.mem = e.mem := by rw [← hu0]
      obtain ⟨hbody, hhead, hbut⟩ := State.itemBytes_spec (ws := ws) (s := u0) (u := u1) (t := { u3 with regs := m }) (by rw [hu0mem]; exact hwfm)
        (by rw [← hws]; rfl) (by rw [hu1]) (by rw [← hu3, State.setVisSource, hu2])
      refine ⟨_, congrArg Host.Outcome.next hm, hbody, ?_, ?_, fun a ha => (hbut a ha).trans (State.byte_of_mem (hu0mem.trans hmem) a)⟩
      · have := State.load_wordsBytes hhead (i := 0) (by rw [← hws]; simp)
        subst hws
        exact this
      · rw [← hu3, State.setVisSource, hu2, hu1, ← hu0]
    · intro n ent armed hent harmed hdog hframe
      have hx : exec (.streamWatchdogExpire dt n) s = execStreamWatchdogExpire dt n s := rfl
      rw [hx, execStreamWatchdogExpire, ← he, hent, harmed]
      dsimp only
      rw [if_pos hdog, State.closeFrame_none hframe]
      exact ⟨fun h => by rw [if_neg (by simp [h])], fun h => by rw [if_pos h]⟩
    · intro k c bad hc hrun hbit hbad
      refine congrArg Host.Outcome.next ?_
      rw [← he, hc]
      dsimp only
      rw [if_pos ⟨hrun, hbit, hbad⟩]
    · intro k c hc hok
      refine congrArg Host.Outcome.next ?_
      rw [← he, hc]
      dsimp only
      rw [if_neg (by simp [hok])]
  · refine ⟨?_, ?_, ?_⟩
    · intro q h len n hq hh hlen hn hrun hact hcount
      have hx : exec (.lidarPacketParse dt i) s = execLidarPacketParse dt i s := rfl
      rw [hx, execLidarPacketParse, ← he, hent]
      dsimp only
      rw [← hq, ← hh, ← hlen, ← hn, if_pos ⟨hrun, hact, hcount⟩]
    · intro sc hsc hlate hbuf hbit
      have hx : exec (.scanTimeout dt i) s = execScanTimeout dt i s := rfl
      rw [hx, execScanTimeout, ← he, hent, hsc]
      dsimp only
      rw [if_pos hlate, State.closeScan_unbuffered hsc hbuf hbit]
    · intro armed harmed hdog hbit
      have hx : exec (.lidarWatchdogExpire dt i) s = execLidarWatchdogExpire dt i s := rfl
      rw [hx, execLidarWatchdogExpire, ← he, hent, harmed]
      dsimp only
      rw [if_pos hdog, if_neg (by simp [hbit])]
end


section
/-!
SUPPORT. The fields that show the PCIe link.
-/

namespace Sys2Proof.Machine

open Sys2Proof

/-- A further field written to a state that differs in registers alone. -/
theorem State.setReg_eq_of {s u : State} (h : u = { s with regs := u.regs }) (r : RegRow) (v i j : Nat) :
    u.setReg r v i j = { s with regs := (u.setReg r v i j).regs } := by
  have hu := u.setReg_eq r v i j
  generalize (u.setReg r v i j).regs = m at hu ⊢
  rw [hu, h]

/-- The PCIe link as its status fields show it. -/
def State.showPcie (s : State) (up gen width : Nat) : State :=
  ((s.setReg R.PCIE_STATUS_UP up).setReg R.PCIE_STATUS_GEN gen).setReg R.PCIE_STATUS_WIDTH width

theorem State.showPcie_spec {s : State} {up gen width : Nat} (hwf : Sparse.wf 0#32 s.regs = true) (hu : up < 2) (hg : gen < 8)
    (hw : width < 8) :
    (s.showPcie up gen width).reg R.PCIE_STATUS_UP = up ∧ (s.showPcie up gen width).reg R.PCIE_STATUS_GEN = gen ∧
      (s.showPcie up gen width).reg R.PCIE_STATUS_WIDTH = width ∧
      s.showPcie up gen width = { s with regs := (s.showPcie up gen width).regs } ∧
      SameRegistersBut [(R.PCIE_STATUS_UP, 0, 0)] s (s.showPcie up gen width) := by
  have hwf1 := s.setReg_wf R.PCIE_STATUS_UP up 0 0 hwf
  have hwf2 := State.setReg_wf _ R.PCIE_STATUS_GEN gen 0 0 hwf1
  refine ⟨?_, ?_, ?_, ?_, ?_⟩
  · rw [State.showPcie, State.reg_setReg_apart hwf2 (by decide), State.reg_setReg_apart hwf1 (by decide),
      State.reg_setReg_same _ _ _ _ _ hwf (by decide)]
    exact Nat.mod_eq_of_lt hu
  · rw [State.showPcie, State.reg_setReg_apart hwf2 (by decide), State.reg_setReg_same _ _ _ _ _ hwf1 (by decide)]
    exact Nat.mod_eq_of_lt hg
  · rw [State.showPcie, State.reg_setReg_same _ _ _ _ _ hwf2 (by decide)]
    exact Nat.mod_eq_of_lt hw
  · exact State.setReg_eq_of (State.setReg_eq_of (s.setReg_eq ..) ..) ..
  · have h1 := s.sameRegistersBut_setReg (l := [(R.PCIE_STATUS_UP, 0, 0)]) R.PCIE_STATUS_UP up 0 0 hwf List.mem_cons_self
    have h2 := State.sameRegistersBut_setReg_word (l := [(R.PCIE_STATUS_UP, 0, 0)]) R.PCIE_STATUS_GEN R.PCIE_STATUS_UP (v := gen) hwf1
      List.mem_cons_self (by decide) (by decide)
    have h3 := State.sameRegistersBut_setReg_word (l := [(R.PCIE_STATUS_UP, 0, 0)]) R.PCIE_STATUS_WIDTH R.PCIE_STATUS_UP (v := width) hwf2
      List.mem_cons_self (by decide) (by decide)
    exact (h1.trans h2).trans h3

/-- The onset of bus-off is counted, and the state of the controller shown. -/
theorem State.showCan_spec {s : State} {k st : Nat} (hwf : Sparse.wf 0#32 s.regs = true) (hst : st ≤ 2) {u : State}
    (hu : u = if st = 2 ∧ s.reg R.CAN_STATUS_STATUS k ≠ 2 then s.incReg R.CAN_BUS_OFF_BUS_OFF k else s) :
    (u.setReg R.CAN_STATUS_STATUS st k).reg R.CAN_STATUS_STATUS k = st ∧
      u.setReg R.CAN_STATUS_STATUS st k = { s with regs := (u.setReg R.CAN_STATUS_STATUS st k).regs } ∧
      SameRegistersBut [(R.CAN_STATUS_STATUS, k, 0), (R.CAN_BUS_OFF_BUS_OFF, k, 0)] s (u.setReg R.CAN_STATUS_STATUS st k) ∧
      (st = 2 → s.reg R.CAN_STATUS_STATUS k ≠ 2 →
        (u.setReg R.CAN_STATUS_STATUS st k).reg R.CAN_BUS_OFF_BUS_OFF k = min (s.reg R.CAN_BUS_OFF_BUS_OFF k + 1) 65535) := by
  have hwfu : Sparse.wf 0#32 u.regs = true := by
    rw [hu]
    split
    · exact s.incReg_wf _ _ _ _ hwf
    · exact hwf
  have hsame : SameRegistersBut [(R.CAN_STATUS_STATUS, k, 0), (R.CAN_BUS_OFF_BUS_OFF, k, 0)] s u := by
    rw [hu]
    split
    · exact s.sameRegistersBut_setReg _ _ _ _ hwf (List.mem_cons_of_mem _ List.mem_cons_self)
    · exact fun _ _ => rfl
  refine ⟨?_, ?_, hsame.trans (u.sameRegistersBut_setReg _ _ _ _ hwfu List.mem_cons_self), fun h2 hne => ?_⟩
  · rw [State.reg_setReg_same _ _ _ _ _ hwfu (by decide)]
    exact Nat.mod_eq_of_lt (by simp [R.CAN_STATUS_STATUS]; omega)
  · rw [State.setReg_eq u, hu]
    split
    · rw [State.incReg_eq]
    · rfl
  · rw [if_pos ⟨h2, hne⟩] at hu
    rw [State.reg_setReg_sameElement u R.CAN_STATUS_STATUS R.CAN_BUS_OFF_BUS_OFF st k hwfu rfl (by decide), hu, State.reg_incReg_same _ _ _ _ _ hwf (by decide)]
    rfl

end Sys2Proof.Machine

open Sys2Proof Sys2Proof.Machine

/-- Settles O59: each event of the Ethernet, CAN and PCIe interfaces by its own rule. -/
theorem interfaceEvents : Obligations.InterfaceEvents := by
  refine ⟨fun s e dt hs he => ?_, fun s e dt hs he => ?_⟩
  all_goals
    have hregs : e.regs = s.regs := by rw [he, State.elapse_regs]
    have hmem : e.mem = s.mem := by rw [he, State.elapse_mem]
    have hwf : Sparse.wf 0#32 e.regs = true := hregs ▸ hs.1
  · refine ⟨?_, ?_, ?_, ?_, ?_, ?_, ?_⟩
    · intro p up hp hup
      have hx : exec (.ethLinkChange dt p up) s = .next (e.setReg R.ETH_STATUS_UP (ofBool up) p) := by
        refine congrArg Host.Outcome.next ?_
        rw [← he, if_pos ⟨hp, hup⟩]
      refine ⟨_, hx, ?_, e.setReg_eq .., (e.sameRegistersBut_setReg _ _ _ _ hwf List.mem_cons_self).of_regs hregs.symm rfl⟩
      rw [State.flag, State.reg_setReg_same _ _ _ _ _ hwf (by decide)]
      cases up <;> rfl
    · intro p sub f x hp hup hx
      have hexec : exec (.ethFrameReceive dt p sub f) s = execEthFrameReceive dt p sub f s := rfl
      have hgate : ¬ ¬ (p < 2 ∧ e.ifUp p = true) := not_not_intro ⟨hp, hup⟩
      have hnet : x.2.netReset = e.netReset := by rw [hx]; rfl
      have hwait : x.2.ifaces = e.ifaces := by rw [hx]; rfl
      rw [hexec, execEthFrameReceive, ← he]
      dsimp only
      rw [if_neg hgate, ← hx]
      refine ⟨fun h => ?_, fun h hempty hlen => ?_⟩
      · rw [if_neg (by simp [hnet, h])]
      · have hroom : ¬ 65536 < (([] : List HeldIn).map fun x => x.bytes.length).sum + f.length := by simpa using hlen
        rw [if_pos (by rw [hnet, h]), hwait, hempty, List.filter_nil, if_neg hroom, List.nil_append]
    · intro p k hp hk
      have hexec : exec (.reassemblyTimeout dt p) s = execReassemblyTimeout dt p s := rfl
      rw [hexec, execReassemblyTimeout, ← he, hk]
      dsimp only
      rw [if_pos hp]
    · intro k id ide d hk hup hfd hid hide hnet
      have hexec : exec (.canFrameReceive dt k id ide true d) s = execCanFrameReceive dt k id ide true d s := rfl
      rw [hexec, execCanFrameReceive, ← he]
      dsimp only
      rw [if_pos ⟨hk, hup, rfl, hfd, hid, hide⟩, if_neg (by simp [hnet])]
    · intro k x hk hx hlate
      have hexec : exec (.canGapTimeout dt k) s = execCanGapTimeout dt k s := rfl
      rw [hexec, execCanGapTimeout, ← he]
      dsimp only
      rw [hx]
      dsimp only
      rw [if_pos ⟨hk, hlate⟩]
    · intro k st hk hst hon
      have hexec : exec (.canBusOff dt k st) s =
          .next ((if st = 2 ∧ e.reg R.CAN_STATUS_STATUS k ≠ 2 then e.incReg R.CAN_BUS_OFF_BUS_OFF k else e).setReg R.CAN_STATUS_STATUS st k) := by
        refine congrArg Host.Outcome.next ?_
        rw [← he, if_pos ⟨hk, hst, hon⟩]
      obtain ⟨hshown, heq, hsame, hcount⟩ := State.showCan_spec (k := k) hwf hst rfl
      exact ⟨_, hexec, hshown, heq, hsame.of_regs hregs.symm rfl, hcount⟩
    · intro i hi hnet hpor
      refine congrArg Host.Outcome.next ?_
      rw [← he, if_pos ⟨hi, hnet, hpor⟩]
  · refine ⟨?_, ?_, ?_, ?_, ?_, ?_, ?_⟩
    · intro v data hup hstat hnet
      have hexec : exec (.reqDoorbell dt v data) s = execReqDoorbell dt v data s := rfl
      rw [hexec, execReqDoorbell, ← he]
      dsimp only
      rw [if_neg (by simp [hup]), if_neg hstat, if_neg]
      intro h
      rw [show e.netReset = true from h] at hnet
      cases hnet
    · intro v data hup hstat
      have hexec : exec (.reqDoorbell dt v data) s = execReqDoorbell dt v data s := rfl
      rw [hexec, execReqDoorbell, ← he]
      dsimp only
      rw [if_neg (by simp [hup]), if_pos hstat]
    · intro v hup hroom
      refine congrArg Host.Outcome.next ?_
      rw [← he, if_pos ⟨hup, hroom⟩]
    · intro hup
      refine congrArg Host.Outcome.next ?_
      rw [← he, if_pos ⟨hup, Bool.false_ne_true⟩]
    · have hexec : exec (.pciePerstN dt false) s = .next (({ e with power.perstN := false } : State).showPcie 0 0 0) := by
        rw [he]
        rfl
      obtain ⟨hu, hg, hw, heq, hsame⟩ := State.showPcie_spec (s := { e with power.perstN := false }) (up := 0) (gen := 0) (width := 0) hwf
        (by decide) (by decide) (by decide)
      refine ⟨_, hexec, ?_, ?_, hg, hw, sameMemory_of_mem ?_, hsame.of_regs hregs.symm rfl⟩
      · rw [heq]
      · rw [State.flag, hu]
        rfl
      · rw [heq]
        exact hmem
    · rw [he]
      rfl
    · intro gen width hbit hpow hperst h1 h7 hmax hwidth
      have hmay : (bit (field e.pcie 0 1) 0 && e.powered 12 && e.power.perstN &&
          decide (1 ≤ gen ∧ gen ≤ field e.pcie 1 1 ∧ (width = 1 ∨ width = 2 ∨ width = 4))) = true := by
        simp [hbit, hpow, hperst, h1, hmax, hwidth]
      have hexec : exec (.pcieLinkChange dt true gen width) s = .next (e.showPcie 1 gen width) := by
        refine congrArg Host.Outcome.next ?_
        rw [← he, if_pos ⟨rfl, hmay⟩]
        rfl
      obtain ⟨hu, hg, hw, heq, hsame⟩ := State.showPcie_spec (s := e) (up := 1) (gen := gen) (width := width) hwf (by decide) (by omega)
        (by omega)
      refine ⟨_, hexec, ?_, hg, hw, heq, hsame.of_regs hregs.symm rfl⟩
      rw [State.flag, hu]
      rfl
end


section
namespace Sys2Proof.Machine

theorem State.setPort_netReset (s : State) (p : Nat) (x : LinkPort) : (s.setPort p x).netReset = s.netReset := by
  rw [State.setPort]
  split <;> rfl

theorem State.setPort_linkRank (s : State) (p : Nat) (x : LinkPort) : (s.setPort p x).linkRank = s.linkRank := by
  rw [State.setPort]
  split <;> rfl

theorem State.setPort_regs (s : State) (p : Nat) (x : LinkPort) : (s.setPort p x).regs = s.regs := by
  rw [State.setPort]
  split <;> rfl

theorem State.setPort_mem (s : State) (p : Nat) (x : LinkPort) : (s.setPort p x).mem = s.mem := by
  rw [State.setPort]
  split <;> rfl

end Sys2Proof.Machine

open Sys2Proof Sys2Proof.Machine

/-- Settles O60: training, frames in and out of their turn, the time-out of unacknowledged frames, puts and scripts. -/
theorem chipLinks : Obligations.ChipLinks := by
  intro s e dt hs he
  have hregs : e.regs = s.regs := by rw [he, State.elapse_regs]
  have hmem : e.mem = s.mem := by rw [he, State.elapse_mem]
  have hwf : Sparse.wf 0#32 e.regs = true := hregs ▸ hs.1
  refine ⟨?_, ?_, ?_, ?_, ?_, ?_, ?_⟩
  · intro p at_ hp hen hup
    have hgate : ¬ ¬ (p < 2 ∧ e.linkEn p = true ∧ e.linkUp p = false) := not_not_intro ⟨hp, hen, hup⟩
    have hexec : exec (.linkTrainingAttempt dt p at_ none) s = .next (e.setReg R.LINK_STATE_STATE (min at_ 3) p) := by
      refine congrArg Host.Outcome.next ?_
      rw [← he, if_neg hgate]
    refine ⟨_, hexec, ?_, e.setReg_eq .., (e.sameRegistersBut_setReg _ _ _ _ hwf List.mem_cons_self).of_regs hregs.symm rfl⟩
    rw [State.reg_setReg_same _ _ _ _ _ hwf (by decide)]
    exact Nat.mod_eq_of_lt (Nat.lt_of_le_of_lt (Nat.min_le_right at_ 3) (by decide))
  · intro p f hp hup hbad
    have hgate : ¬ ¬ (p < 2 ∧ e.linkUp p = true) := not_not_intro ⟨hp, hup⟩
    refine congrArg Host.Outcome.next ?_
    rw [← he, if_neg hgate, if_pos (by simp [hbad])]
  · intro p f hp hup hgood h1 h3 hlen hseq hdst hnet
    have hgate : ¬ ¬ (p < 2 ∧ e.linkUp p = true) := not_not_intro ⟨hp, hup⟩
    have hform : ¬ (frameType f < 1 ∨ 3 < frameType f ∨ 256 < frameLen f) := by omega
    have h4 : frameType f ≠ 4 := by omega
    have h5 : frameType f ≠ 5 := by omega
    have hturn : ¬ frameSeq f ≠ (e.port p).expect := not_not_intro hseq
    have hexec : exec (.linkFrameReceive dt p f) s = execLinkFrameReceive dt p f s := rfl
    rw [hexec, execLinkFrameReceive, ← he]
    dsimp only
    rw [if_neg hgate, if_neg (by simp [hgood]), if_neg h4, if_neg h5, if_neg hform, if_neg hturn, State.setPort_linkRank,
      State.setPort_netReset, if_neg (not_not_intro hdst), if_neg (by simp [hnet])]
  · intro p hp hup hlate
    generalize hv : e.setPort p { waiting := (e.port p).waiting } = v
    have hexec : exec (.linkAckTimeout dt p) s = .next ((v.setReg R.LINK_STATE_STATE 0 p).incReg R.LINK_RETRAINS_RETRAINS p) := by
      refine congrArg Host.Outcome.next ?_
      rw [← he, if_pos ⟨hp, hup, hlate⟩, hv]
    have hvregs : v.regs = e.regs := by rw [← hv, State.setPort_regs]
    have hvmem : v.mem = e.mem := by rw [← hv, State.setPort_mem]
    have hvwf : Sparse.wf 0#32 v.regs = true := hvregs ▸ hwf
    have hwf1 := v.setReg_wf R.LINK_STATE_STATE 0 p 0 hvwf
    refine ⟨_, hexec, ?_, sameMemory_of_mem ?_, ?_⟩
    · rw [State.incReg, State.reg_setReg_sameElement _ R.LINK_RETRAINS_RETRAINS R.LINK_STATE_STATE _ p hwf1 rfl (by decide),
        State.reg_setReg_same _ _ _ _ _ hvwf (by decide)]
      rfl
    · rw [State.incReg_mem, State.setReg_mem, hvmem, hmem]
    · rw [State.reg_incReg_same _ _ _ _ _ hwf1 (by decide),
        State.reg_setReg_sameElement _ R.LINK_STATE_STATE R.LINK_RETRAINS_RETRAINS _ p hvwf rfl (by decide), State.reg_of_regs hvregs]
  · intro id c d u hc hab hw hput hd
    have hid : c.id = id := State.cmd?_id (State.engine_cmd? hc)
    have hexec : exec (.linkPut dt id) s = .next ({ u.setCmd { c with stage := .waiting, begun := true } with
        ifaces.puts := u.ifaces.puts ++ [⟨id, e.ifaces.xfer, bits (c.word 3) 49 48, u.tick⟩] } : State) := by
      have hx : exec (.linkPut dt id) s = execLinkPut dt id s := rfl
      rw [hx, execLinkPut, ← he]
      dsimp only
      rw [hc]
      dsimp only
      rw [State.beginWork_eq hw hab, hput]
    exact ⟨_, hexec, State.cmd?_setCmd_same (x := { c with stage := .waiting, begun := true }) hd hid,
      sameCommandsBut_setCmd (x := { c with stage := .waiting, begun := true }) hid, rfl, rfl⟩
  · intro id x hx hlate
    have hexec : exec (.linkPutTimeout dt id) s = execLinkPutTimeout dt id s := rfl
    rw [hexec, execLinkPutTimeout, ← he, hx]
    dsimp only
    rw [if_neg (by simp [hlate])]
  · intro id c d u bs reads hc hab hw haddr hrun hd huw
    refine finish_done hd huw (congrArg Host.Outcome.next ?_)
    rw [← he]
    refine State.runEngine_ok hc hw hab ?_
    dsimp only
    rw [hrun, if_pos haddr]
end


section
/-!
SUPPORT. Frames handed to the chip links: what a send may change.
-/

namespace Sys2Proof.Machine

open Sys2Proof

theorem length_eraseDups_le : ∀ l : List Nat, l.eraseDups.length ≤ l.length
  | [] => Nat.le_refl _
  | a :: l => by
    have hf : (l.filter fun b => !b == a).length ≤ l.length := List.length_filter_le ..
    have ih := length_eraseDups_le (l.filter fun b => !b == a)
    rw [List.eraseDups_cons, List.length_cons, List.length_cons]
    omega
termination_by l => l.length

/-- From `s` to `t` frames have been handed to the chip links: registers, grants, what is put out and the ports may have changed. -/
structure FramesSent (s t : State) : Prop where
  eq : t = { s with out := t.out, regs := t.regs, regulators := t.regulators, ifaces := t.ifaces }
  held : t.ifaces.held = s.ifaces.held

theorem FramesSent.refl (s : State) : FramesSent s s := ⟨rfl, rfl⟩

section

variable {s t u : State}

theorem FramesSent.trans (h : FramesSent s t) (h' : FramesSent t u) : FramesSent s u :=
  ⟨h'.eq.trans (by rw [h.eq]), h'.held.trans h.held⟩

theorem FramesSent.foldl {α : Type} {f : State → α → State} (hf : ∀ s a, FramesSent s (f s a)) (l : List α) (s : State) :
    FramesSent s (l.foldl f s) := by
  induction l generalizing s with
  | nil => exact .refl s
  | cons a l ih => exact (hf s a).trans (ih _)

theorem FramesSent.setPort (s : State) (p : Nat) (x : LinkPort) : FramesSent s (s.setPort p x) := by
  rw [State.setPort]
  split
  · exact ⟨rfl, rfl⟩
  · exact ⟨rfl, rfl⟩

theorem FramesSent.emit (s : State) (o : Output) : FramesSent s (s.emit o) := ⟨rfl, rfl⟩

theorem FramesSent.pump (s : State) (p n : Nat) : FramesSent s (s.pump p n) := by
  induction n generalizing s with
  | zero => exact .refl s
  | succ n ih =>
    rw [State.pump]
    dsimp only
    split
    · split
      · exact ((FramesSent.setPort ..).trans (.emit ..)).trans (ih _)
      · exact .refl s
    · exact .refl s

theorem FramesSent.linkSend (s : State) (f : List Byte) : FramesSent s (s.linkSend f) := by
  rw [State.linkSend]
  dsimp only
  split
  · exact ⟨by rw [State.incReg_eq], by rw [State.incReg_eq]⟩
  · exact (FramesSent.setPort ..).trans (.pump ..)

theorem FramesSent.sendLocal (s : State) (c : Cmd) (recs : List Nat) : FramesSent s (s.sendLocal c recs) :=
  .foldl (fun s f => .trans (t := s.grantBytes (3 * c.part + 2) (frameLen f)) ⟨rfl, rfl⟩ (.linkSend ..)) _ s

end

/-- A read of good memory gives its bytes, and charges for them. -/
theorem Eff.read_good {s : State} (h : s.health = []) (p a n : Nat) : Eff.read p a n s = (.ok (s.bytes a n), s.countRd p a n) := by
  have hc := s.countRd_eq p a n
  have hbad : (s.countRd p a n).badWords a n = [] := State.badWords_of_good (by rw [hc]; exact h) a n
  have hmem : (s.countRd p a n).mem = s.mem := by rw [hc]
  simp only [Eff.read, State.readMem_good hbad, State.bytes_of_mem hmem]

end Sys2Proof.Machine

open Sys2Proof Sys2Proof.Machine

/-- Settles O47: the merge's send, the lists that are held or dropped, and its time-outs. -/
theorem listMerge : Obligations.ListMerge := by
  intro s e dt hs he
  have hmem : e.mem = s.mem := by rw [he, State.elapse_mem]
  refine ⟨?_, ?_, ?_, ?_, ?_⟩
  · intro id bad c hc hab hw hgood hheld horder
    have hid : c.id = id := State.cmd?_id (State.engine_cmd? hc)
    have hrd := e.countRd_eq c.part (c.addr 1) (8 * c.mergeK)
    generalize hu : e.countRd c.part (c.addr 1) (8 * c.mergeK) = u at hrd
    generalize hx : ({ c with stage := .waiting, begun := true, limit := some (e.tick + usTicks (bits (c.word 4) 19 0)) } : Cmd) = x
    have hxid : x.id = id := by rw [← hx]; exact hid
    generalize hrecs : bytesWords (e.bytes (c.addr 1) (8 * c.mergeK)) c.mergeK = recs at horder
    have hsent := FramesSent.sendLocal (u.setCmd x) x recs
    generalize hv : (u.setCmd x).sendLocal x recs = v at hsent
    have hvheld : v.ifaces.held = [] := hsent.held.trans (by rw [State.setCmd, hrd]; exact hheld)
    have hexec : exec (.selXmerge dt id bad) s = .next { v with ifaces := { v.ifaces with held := [], matched := [] } } := by
      have hx' : exec (.selXmerge dt id bad) s = execSelXmerge dt id bad s := rfl
      have htick : u.tick = e.tick := by rw [hrd]
      rw [hx', execSelXmerge, ← he]
      dsimp only
      rw [hc]
      dsimp only
      rw [State.beginWork_eq hw hab, Eff.read_good hgood, hu]
      dsimp only
      rw [hrecs, if_neg (not_not_intro horder), htick, hx, hv, hvheld]
      rfl
    have hcmds : v.cmds = (u.setCmd x).cmds := by rw [hsent.eq]
    have hucmds : u.cmds = e.cmds := by rw [hrd]
    refine ⟨_, hexec, ?_, fun k hk => ?_, sameMemory_of_mem ?_⟩
    · refine (State.cmd?_of_cmds (s := u.setCmd x) hcmds id).trans ?_
      exact State.cmd?_setCmd_same ((State.cmd?_of_cmds hucmds id).trans (State.engine_cmd? hc)) hxid
    · refine (State.cmd?_of_cmds (s := u.setCmd x) hcmds k).trans ?_
      exact (sameCommandsBut_setCmd hxid k hk).trans (State.cmd?_of_cmds hucmds k)
    · have hvmem : v.mem = e.mem := by rw [hsent.eq, State.setCmd, hrd]
      exact hvmem.trans hmem
  · intro bad x l hready hmerge hnew hfew
    have hx : exec (.xmergeListReceived dt bad) s = execXmergeListReceived dt bad s := rfl
    have hroom : ¬ (8 ≤ (e.ifaces.held.map fun y : XList => y.coll).eraseDups.length ∧
        ¬ (e.ifaces.held.map fun y : XList => y.coll).eraseDups.contains x.coll = true) := fun ⟨h, _⟩ => by
      have := length_eraseDups_le (e.ifaces.held.map fun y : XList => y.coll)
      rw [List.length_map] at this
      omega
    have hm : ({ e with ifaces.ready := l } : State).merging x.coll = none := hmerge
    rw [hx, execXmergeListReceived, ← he]
    dsimp only
    rw [hready]
    dsimp only
    rw [hm, Option.filter_none]
    dsimp only
    rw [if_neg (fun h => h.elim (by simp [hnew]) hroom)]
  · intro bad x l hready hmerge hold
    have hx : exec (.xmergeListReceived dt bad) s = execXmergeListReceived dt bad s := rfl
    have hm : ({ e with ifaces.ready := l } : State).merging x.coll = none := hmerge
    rw [hx, execXmergeListReceived, ← he]
    dsimp only
    rw [hready]
    dsimp only
    rw [hm, Option.filter_none]
    dsimp only
    rw [if_pos (Or.inl hold)]
  · intro id c lim hc hop hst hlim hlate
    refine congrArg Host.Outcome.next ?_
    rw [← he, hc]
    dsimp only
    rw [if_pos ⟨hop, hst, by simp [hlim, hlate]⟩]
  · intro x l hheld hlate
    refine congrArg Host.Outcome.next ?_
    rw [← he, hheld]
    dsimp only
    rw [if_pos hlate]
end


section
/-!
SUPPORT. Writes of a register word by its fields' access, and the instructions of the test access port.
-/

namespace Sys2Proof.Machine

open Sys2Proof

theorem mergeBits_zero (old v : Nat) : mergeBits old v 0 = old := by simp [mergeBits]

/-- The service state stands in a word without rw field. -/
theorem accessMask_svc : accessMask (R.TOP_SVC_STATE.at 0 0) .rw = 0 := by decide +kernel

section

variable {s : State} {a v m : Nat}

theorem State.reg_setRegWord_other (hwf : Sparse.wf 0#32 s.regs = true) {q : RegRow} {k l : Nat}
    (h : a < q.at k l ∨ q.at k l + 4 * q.words ≤ a) : (s.setRegWord a v).reg q k l = s.reg q k l := by
  rw [State.reg, State.reg, State.regWords_congr s (s.setRegWord a v) _ _ fun x hlo hhi => ?_]
  rw [State.regWord_setRegWord _ _ _ _ hwf, if_neg (by omega)]

/-- A register write never moves the service state. -/
theorem State.writeReg_svc (hwf : Sparse.wf 0#32 s.regs = true) (h4 : a % 4 = 0) : (s.writeReg a v m).svc = s.svc := by
  rw [State.writeReg]
  split
  · rfl
  split
  · rfl
  by_cases ha : a = R.TOP_SVC_STATE.at 0 0
  · subst ha
    rw [accessMask_svc, Nat.and_zero, mergeBits_zero]
    exact congrArg State.svc (s.setRegWord_regWord _ 0 hwf)
  · have hat : R.TOP_SVC_STATE.at 0 0 = 0xF000000008 := rfl
    have hwords : R.TOP_SVC_STATE.words = 1 := rfl
    rw [hat] at ha
    exact State.reg_setRegWord_other hwf (by rw [hat, hwords]; omega)

/-- Outside the debug window a register takes every value. -/
theorem State.writeReg_of_window (hw : windowOf a ≠ 7) : s.writeReg a v m = s.setRegWord a (mergeBits (s.regWord a) v (m &&& accessMask a .rw)) := by
  have hmux : R.DBG_TMUX_SEL_SIG.index a = none := by
    have hout : a < 0xF000070100 ∨ 0xF000070140 ≤ a := by
      rw [windowOf, regSpace] at hw
      omega
    simp [RegRow.index, R.DBG_TMUX_SEL_SIG, RegRow.words]
    omega
  have hfram : a ≠ R.DBG_FRAM_SEL_OFFSET.at 0 0 := fun h => hw (h ▸ rfl)
  simp [State.writeReg, hmux, hfram]

end

/-- A field of one word, once the word has been written. -/
theorem State.reg_setRegWord_low {s : State} (hwf : Sparse.wf 0#32 s.regs = true) {r : RegRow} (hw : r.words = 1) (hr : r.lo + r.width ≤ 32)
    {i j w : Nat} : (s.setRegWord (r.at i j) w).reg r i j = bits w (r.lo + r.width - 1) r.lo := by
  rw [State.reg, hw, State.regWords, State.regWords, Nat.mul_zero, Nat.add_zero, State.regWord_setRegWord _ _ _ _ hwf, if_pos rfl,
    bits_mod _ _ _ _ (by omega)]

/-- The sixteen selectors of the trace multiplexer, each with its two fields rw. -/
theorem accessMask_tmux : ∀ n < 16, accessMask (R.DBG_TMUX_SEL_SIG.at n 0) .rw = 2 ^ 16 - 1 := by decide +kernel

theorem mergeBits_low {k : Nat} (old : Nat) {v : Nat} (hv : v < 2 ^ k) : mergeBits old v (2 ^ k - 1) % 2 ^ k = v := by
  rw [mergeBits, Nat.and_two_pow_sub_one_eq_mod, Nat.and_two_pow_sub_one_eq_mod, Nat.mod_eq_of_lt hv]
  have h : old - old % 2 ^ k = 2 ^ k * (old / 2 ^ k) := by
    have := Nat.div_add_mod old (2 ^ k)
    omega
  rw [h, Nat.mul_add_mod, Nat.mod_eq_of_lt hv]

theorem tmuxDefined_of_low {w v : Nat} (h : w % 2 ^ 16 = v) : tmuxDefined w = tmuxDefined v := by
  have hlo : bits w 7 0 = bits v 7 0 := by simp only [bits]; omega
  have hhi : bits w 15 8 = bits v 15 8 := by simp only [bits]; omega
  rw [tmuxDefined, tmuxDefined, hlo, hhi]

/-- A write of a defined selection puts it into its selector's low half. -/
theorem State.writeReg_tmux {s : State} {n v : Nat} (hn : n < 16) (hv : v < 2 ^ 16) (hdef : tmuxDefined v = true) :
    ∃ w, s.writeReg (R.DBG_TMUX_SEL_SIG.at n 0) v (2 ^ 16 - 1) = s.setRegWord (R.DBG_TMUX_SEL_SIG.at n 0) w ∧ bits w 7 0 = v % 256 ∧
      bits w 15 8 = v / 256 := by
  have hlow := mergeBits_low (s.regWord (R.DBG_TMUX_SEL_SIG.at n 0)) hv
  have hfram : R.DBG_TMUX_SEL_SIG.at n 0 ≠ R.DBG_FRAM_SEL_OFFSET.at 0 0 := by
    simp only [RegRow.at, R.DBG_TMUX_SEL_SIG, R.DBG_FRAM_SEL_OFFSET]
    omega
  rw [State.writeReg, accessMask_tmux n hn, Nat.and_self]
  generalize mergeBits (s.regWord (R.DBG_TMUX_SEL_SIG.at n 0)) v (2 ^ 16 - 1) = w at hlow ⊢
  refine ⟨w, ?_, ?_, ?_⟩
  · simp [tmuxDefined_of_low hlow, hdef, hfram]
  · simp only [bits]
    omega
  · simp only [bits]
    omega

/-- An instruction of a port out of reset that the port's state allows. -/
theorem State.tap_allowed {s : State} {code : Nat} {f : State → State} (hon : s.tapOn = true) (hok : s.jtagAllowed code = true) :
    s.tap code f = f (s.jtag code) := by
  rw [State.tap, if_neg (by simp [hon])]
  dsimp only
  rw [if_pos hok]

theorem State.tap_refused {s : State} {code : Nat} {f : State → State} (hon : s.tapOn = true) (hno : s.jtagAllowed code = false) :
    s.tap code f = s.jtag code := by
  rw [State.tap, if_neg (by simp [hon])]
  dsimp only
  rw [if_neg (by simp [hno])]

theorem State.jtag_allowed {s : State} {code : Nat} (hok : s.jtagAllowed code = true) :
    s.jtag code = { s with dbg.ir := if code = 0x01 ∨ code = 0x02 ∨ code = 0x03 ∨ code = 0x10 ∨ code = 0x11 ∨ code = 0x12 then code else 0xFF,
                           dbg.extest := code == 0x03 } := by
  rw [State.jtag, if_pos hok]

theorem State.jtag_refused {s : State} {code : Nat} (hno : s.jtagAllowed code = false) :
    s.jtag code = ({ s with dbg.ir := 0xFF, dbg.extest := false } : State).incReg R.DBG_DENIED_COUNT := by
  rw [State.jtag, if_neg (by simp [hno])]

end Sys2Proof.Machine

open Sys2Proof Sys2Proof.Machine

/-- Settles O56: writes merge under the access of each field, and reads take their snapshots. -/
theorem registerAccess : Obligations.RegisterAccess := by
  intro s e dt a v m hs he
  have hregs : e.regs = s.regs := by rw [he, State.elapse_regs]
  have hwf : Sparse.wf 0#32 e.regs = true := hregs ▸ hs.1
  refine ⟨?_, ?_, ?_, ?_, ?_⟩
  · intro hmap h4 hwin hsvc
    have hgate : ¬ (¬ mapped a = true ∨ a % 4 ≠ 0 ∨ windowOf a = 0x25) := by simp [hmap, h4, hwin]
    refine congrArg Host.Outcome.next ?_
    rw [← he, if_neg hgate]
    dsimp only
    rw [State.writeReg_svc hwf h4, if_neg hsvc]
  · intro hmap h4 hwin hdbg hsvc hv
    have hgate : ¬ (¬ mapped a = true ∨ a % 4 ≠ 0 ∨ windowOf a = 0x25) := by simp [hmap, h4, hwin]
    have hwr := State.writeReg_of_window (s := e) (v := v) (m := m) hdbg
    have hsvc' := (State.writeReg_svc (v := v) (m := m) hwf h4).trans hsvc
    generalize hu : e.writeReg a v m = u at hwr hsvc'
    have huwf : Sparse.wf 0#32 u.regs = true := by rw [hwr]; exact e.setRegWord_wf _ _ hwf
    have hlt := mergeBits_lt (m &&& accessMask a .rw) (e.regWord_lt a) hv
    have hua : u.regWord a = mergeBits (e.regWord a) v (m &&& accessMask a .rw) := by
      rw [hwr, State.regWord_setRegWord _ _ _ _ hwf, if_pos rfl, Nat.mod_eq_of_lt hlt]
    have hexec : exec (.registerWrite dt a v m) s = .next (u.setRegWord a (mergeBits (u.regWord a) v (m &&& accessMask a .rws))) := by
      refine congrArg Host.Outcome.next ?_
      rw [← he, if_neg hgate, hu]
      dsimp only
      rw [if_pos hsvc']
    refine ⟨_, hexec, fun x hx => ?_, ?_, ?_⟩
    · rw [State.regWord_setRegWord _ _ _ _ huwf, if_neg hx, hwr, State.regWord_setRegWord _ _ _ _ hwf, if_neg hx]
    · rw [State.regWord_setRegWord _ _ _ _ huwf, if_pos rfl, Nat.mod_eq_of_lt (mergeBits_lt _ (u.regWord_lt a) hv), hua]
    · rw [hwr]
      rfl
  · intro hbad
    have hgate : ¬ mapped a = true ∨ a % 4 ≠ 0 ∨ windowOf a = 0x25 := hbad.imp (by simp) .inl
    refine congrArg Host.Outcome.next ?_
    rw [← he, if_pos hgate]
  · intro base n hwide hplog hfram
    refine congrArg Host.Outcome.next ?_
    rw [hwide, ← he, State.readReg, if_neg hplog, if_neg hfram, hwide]
    rfl
  · refine congrArg Host.Outcome.next ?_
    rw [← he, State.readReg, if_pos rfl]

/-- Settles O57: the instructions of the test access port, TRST_N, RETURN and the debug window's own registers. -/
theorem testAccessPort : Obligations.TestAccessPort := by
  intro s e dt hs he
  have hregs : e.regs = s.regs := by rw [he, State.elapse_regs]
  have hmem : e.mem = s.mem := by rw [he, State.elapse_mem]
  have hwf : Sparse.wf 0#32 e.regs = true := hregs ▸ hs.1
  refine ⟨fun low => by rw [he]; rfl, fun hon => ⟨?_, ?_, ?_, ?_, ?_, ?_, ?_, ?_⟩⟩
  · have hexec : exec (.idcode dt) s = .next (e.tap 0x01 fun s =>
        s.emit (.tdo 32 (s.reg R.TOP_REV_LETTER * 2 ^ 28 + 0x0480 * 2 ^ 12 + 0x3BE * 2 + 1))) := by rw [he]; rfl
    rw [hexec, State.tap_allowed hon rfl, State.jtag_allowed rfl]
    exact ⟨_, rfl, rfl, rfl, rfl, rfl⟩
  · intro pins shift
    have hexec : exec (.samplePreload dt pins shift) s = .next (e.tap 0x02 fun s =>
        { s.emit (.tdo pins.length (boolsNat pins)) with dbg.boundary := shift }) := by rw [he]; rfl
    rw [hexec, State.tap_allowed hon rfl, State.jtag_allowed rfl]
    exact ⟨_, rfl, rfl, rfl, rfl⟩
  · intro shift hok
    have hexec : exec (.extest dt shift) s = .next (e.tap 0x03 fun s => { s with dbg.boundary := shift }) := by rw [he]; rfl
    rw [hexec, State.tap_allowed hon hok, State.jtag_allowed hok]
    exact ⟨_, rfl, rfl, rfl, rfl, rfl⟩
  · intro shift hno
    have hexec : exec (.extest dt shift) s = .next (e.tap 0x03 fun s => { s with dbg.boundary := shift }) := by rw [he]; rfl
    rw [hexec, State.tap_refused hon hno, State.jtag_refused hno]
    generalize hu : ({ e with dbg.ir := 0xFF, dbg.extest := false } : State) = u
    have hwfu : Sparse.wf 0#32 u.regs = true := by rw [← hu]; exact hwf
    refine ⟨_, rfl, ?_, ?_, ?_, ?_⟩
    · rw [State.incReg_dbg, ← hu]
    · rw [State.incReg_dbg, ← hu]
    · rw [State.reg_incReg_same _ _ _ _ _ hwfu (by decide), ← hu]
      rfl
    · rw [State.incReg_dbg, State.incReg_eq u, ← hu]
  · intro code hcode
    simp only [List.mem_cons, List.not_mem_nil, or_false, not_or] at hcode
    obtain ⟨h1, h2, h3, h10, h11, h12⟩ := hcode
    have hok : e.jtagAllowed code = true := by rw [State.jtagAllowed, if_neg h3, if_neg h10, if_neg h11, if_neg h12]
    have hexec : exec (.bypass dt code) s = .next (e.tap code fun s => s) := by
      refine congrArg Host.Outcome.next ?_
      rw [← he, if_neg (by simp [h1, h2]), if_neg (by simp [h3, h10, h11, h12])]
    rw [hexec, State.tap_allowed hon hok, State.jtag_allowed hok, if_neg (by simp [h1, h2, h3, h10, h11, h12])]
    exact ⟨_, rfl, rfl, by simp [h3], rfl⟩
  · intro hfield hlevel
    have hok : e.jtagAllowed 0x11 = true := by simp [State.jtagAllowed, hlevel]
    have hexec : exec (.dbgReturnWrite dt) s = .next (e.tap 0x11 State.enterReturn) := by rw [he]; rfl
    rw [hexec, State.tap_allowed hon hok, State.jtag_allowed hok, State.enterReturn, if_pos ⟨hfield, hlevel⟩]
    exact ⟨_, rfl, rfl, rfl, rfl⟩
  · intro hlevel
    have hok : e.jtagAllowed 0x11 = true := by simp [State.jtagAllowed, hlevel]
    have hexec : exec (.framDataRead dt) s = .next (e.tap 0x11 fun s => (s.readReg (R.DBG_FRAM_DATA_DATA.at 0 0)).2) := by rw [he]; rfl
    rw [hexec, State.tap_allowed hon hok]
    have hjregs : (e.jtag 0x11).regs = e.regs := by rw [State.jtag_allowed hok]
    have hjmem : (e.jtag 0x11).mem = e.mem := by rw [State.jtag_allowed hok]
    generalize e.jtag 0x11 = u at hjregs hjmem
    have hwfu : Sparse.wf 0#32 u.regs = true := hjregs ▸ hwf
    rw [State.readReg, if_neg (by decide), if_pos rfl]
    refine ⟨_, rfl, ?_, sameMemory_of_mem ?_⟩
    · rw [State.reg_setReg_same _ _ _ _ _ hwfu (by decide), State.reg_of_regs hjregs]
      rfl
    · rw [State.setReg_mem, hjmem, hmem]
  · intro n v hn hv hlevel hdef
    have hok : e.jtagAllowed 0x11 = true := by simp [State.jtagAllowed, hlevel]
    have hexec : exec (.tmuxSelWrite dt n v) s = .next (e.tap 0x11 fun s =>
        if n < 16 then s.writeReg (R.DBG_TMUX_SEL_SIG.at n 0) v (2 ^ 16 - 1) else s) := by rw [he]; rfl
    rw [hexec, State.tap_allowed hon hok, if_pos hn]
    have hjregs : (e.jtag 0x11).regs = e.regs := by rw [State.jtag_allowed hok]
    have hjmem : (e.jtag 0x11).mem = e.mem := by rw [State.jtag_allowed hok]
    generalize e.jtag 0x11 = u at hjregs hjmem
    have hwfu : Sparse.wf 0#32 u.regs = true := hjregs ▸ hwf
    obtain ⟨w, hw, hlow, hhigh⟩ := State.writeReg_tmux (s := u) hn hv hdef
    rw [hw]
    refine ⟨_, rfl, ?_, ?_, sameMemory_of_mem (hjmem.trans hmem), fun a ha => ?_⟩
    · rw [State.reg_setRegWord_low hwfu (by decide) (by decide)]
      exact hlow
    · have hat : R.DBG_TMUX_SEL_SIG.at n 0 = R.DBG_TMUX_SEL_ARG.at n 0 := rfl
      rw [hat, State.reg_setRegWord_low hwfu (by decide) (by decide)]
      exact hhigh
    · have hout : a < R.DBG_TMUX_SEL_SIG.at n 0 ∨ R.DBG_TMUX_SEL_SIG.at n 0 + 4 * R.DBG_TMUX_SEL_SIG.words ≤ a := ha _ List.mem_cons_self
      have hwords : R.DBG_TMUX_SEL_SIG.words = 1 := rfl
      rw [hwords] at hout
      rw [State.regWord_setRegWord _ _ _ _ hwfu, if_neg (by omega), State.regWord_of_regs (hjregs.trans hregs)]
end


section
/-!
SUPPORT. Integers in two's complement, and a word whose address is wider than the register that reports it.
-/

namespace Sys2Proof.Machine

open Sys2Proof

theorem unsigned_lt (n : Nat) (x : Int) : unsigned n x < 2 ^ n := by
  have hpos : (0 : Int) < 2 ^ n := Int.pow_pos (by decide)
  have hlt := Int.emod_lt_of_pos x hpos
  have hnn := Int.emod_nonneg x (Int.ne_of_gt hpos)
  rw [unsigned]
  exact_mod_cast (Int.toNat_of_nonneg hnn).symm ▸ hlt

theorem unsigned_cast (n : Nat) (x : Int) : ((unsigned n x : Nat) : Int) = x % 2 ^ n :=
  Int.toNat_of_nonneg (Int.emod_nonneg x (Int.ne_of_gt (Int.pow_pos (by decide))))

theorem signed_emod (n w : Nat) : signed n w % 2 ^ n = (w : Int) % 2 ^ n := by
  have hcast : ((w % 2 ^ n : Nat) : Int) = (w : Int) % 2 ^ n := by push_cast; rfl
  rw [signed]
  split
  · rw [hcast, Int.emod_emod_of_dvd _ (Int.dvd_refl _)]
  · rw [hcast, Int.sub_emod_right, Int.emod_emod_of_dvd _ (Int.dvd_refl _)]

/-- A number in range is what its two's complement stands for. -/
theorem signed_unsigned {n : Nat} {x : Int} (hlo : -(2 ^ n) ≤ x) (hhi : x ≤ 2 ^ n - 1) : signed (n + 1) (unsigned (n + 1) x) = x := by
  have hp : (2 : Int) ^ (n + 1) = 2 * 2 ^ n := by rw [Int.pow_succ, Int.mul_comm]
  have hmod : ((unsigned (n + 1) x % 2 ^ (n + 1) : Nat) : Int) = x % 2 ^ (n + 1) := by
    rw [Nat.mod_eq_of_lt (unsigned_lt ..), unsigned_cast]
  have hhalf : ((2 ^ n : Nat) : Int) = 2 ^ n := by push_cast; rfl
  rw [signed, hmod, Nat.add_sub_cancel]
  rcases Int.lt_or_le x 0 with hneg | hpos
  · have hx : x % 2 ^ (n + 1) = x + 2 ^ (n + 1) := by
      rw [← Int.add_emod_right, Int.emod_eq_of_lt (by omega) (by omega)]
    rw [if_neg (by omega), hx]
    omega
  · have hx : x % 2 ^ (n + 1) = x := Int.emod_eq_of_lt hpos (by omega)
    rw [if_pos (by omega), hx]

theorem signed_range (n w : Nat) : -(2 ^ n) ≤ signed (n + 1) w ∧ signed (n + 1) w ≤ 2 ^ n - 1 := by
  have hp : (2 : Int) ^ (n + 1) = 2 * 2 ^ n := by rw [Int.pow_succ, Int.mul_comm]
  have hpn : 2 ^ (n + 1) = 2 * 2 ^ n := by rw [Nat.pow_succ, Nat.mul_comm]
  have hlt := Nat.mod_lt w (Nat.two_pow_pos (n + 1))
  have hhalf : ((2 ^ n : Nat) : Int) = 2 ^ n := by push_cast; rfl
  rw [signed, Nat.add_sub_cancel]
  split
  · omega
  · omega

theorem clampInt_range {lo hi : Int} (x : Int) (h : lo ≤ hi) : lo ≤ clampInt lo hi x ∧ clampInt lo hi x ≤ hi := by
  rw [clampInt]
  split
  · exact ⟨Int.le_refl _, h⟩
  split
  · exact ⟨h, Int.le_refl _⟩
  · omega

/-- An uncorrectable word past the 48 bits of MEMC.LAST_UE_ADDR, its source latched. -/
def beyondAddr : State :=
  { State.reset with
    health := [(2 ^ 48, .uncorrectable)],
    hub.latches := [⟨0x53, 0, 0, 0, 0, 0, false, 0, 0, 0⟩] }

theorem State.Canonical.withHealth {s : State} (h : s.Canonical) {m : List (Nat × Health)} (hm : Sparse.wf Health.good m = true) (x : Hub) :
    ({ s with health := m, hub := x } : State).Canonical := by
  obtain ⟨hregs, hmem, -, hrest⟩ := h
  exact ⟨hregs, hmem, hm, hrest⟩

theorem beyondAddr_canonical : beyondAddr.Canonical := reset_canonical.withHealth rfl _

end Sys2Proof.Machine

open Sys2Proof Sys2Proof.Machine

/-- Settles O41: sums and clamped outputs in two's complement, type by type. -/
theorem integerPasses : Obligations.IntegerPasses := by
  have htypes : ∀ ty ≤ 4, ty ≠ 1 → ∃ n, typeBits ty = n + 1 ∧ typeRange ty = (-(2 ^ n), 2 ^ n - 1) := by
    intro ty hty h1
    match ty with
    | 0 => exact ⟨7, rfl, rfl⟩
    | 1 => exact absurd rfl h1
    | 2 => exact ⟨3, rfl, rfl⟩
    | 3 => exact ⟨15, rfl, rfl⟩
    | 4 => exact ⟨31, rfl, rfl⟩
    | n + 5 => omega
  refine ⟨fun ty wt x row col hint => ?_, fun ty x hty => ?_, fun ty x hty hx => ?_⟩
  · rw [dotAcc, if_neg (by simp [hint]), unsigned_cast, Int.emod_emod_of_dvd _ (Int.dvd_refl _), Int.add_emod, signed_emod, ← Int.add_emod]
  · by_cases h1 : ty = 1
    · subst h1
      obtain ⟨hlo, hhi⟩ := clampInt_range x (lo := 0) (hi := 255) (by decide)
      have hv : ((unsigned 8 (clampInt 0 255 x) : Nat) : Int) = clampInt 0 255 x := by
        rw [unsigned_cast]
        exact Int.emod_eq_of_lt hlo (by omega)
      change ((unsigned 8 (clampInt 0 255 x) % 256 : Nat) : Int) = clampInt 0 255 x
      have hlt : unsigned 8 (clampInt 0 255 x) < 256 := unsigned_lt 8 _
      rw [Nat.mod_eq_of_lt hlt, hv]
    · obtain ⟨n, hbits, hrange⟩ := htypes ty hty h1
      obtain ⟨hlo, hhi⟩ := clampInt_range x (lo := -(2 ^ n)) (hi := 2 ^ n - 1) (by have : (0 : Int) < 2 ^ n := Int.pow_pos (by decide)
                                                                                   omega)
      rw [toI, if_neg h1, ofI, hbits, hrange]
      exact signed_unsigned hlo hhi
  · by_cases h1 : ty = 1
    · subst h1
      have hx' : x < 256 := hx
      change (0 : Int) ≤ ((x % 256 : Nat) : Int) ∧ ((x % 256 : Nat) : Int) ≤ 255
      omega
    · obtain ⟨n, hbits, hrange⟩ := htypes ty hty h1
      rw [toI, if_neg h1, hbits, hrange]
      exact signed_range n x

/-- Refutes O43: MEMC.LAST_UE_ADDR holds 48 bits, and the statement asks it for an address modulo 2^64: in `beyondAddr` the
word at 2^48 has no region of its own, is met by a read of the two bytes from 2^48 - 1, and is reported as address 0. -/
theorem not_wordErrors : ¬ Obligations.WordErrors := by
  intro h
  obtain ⟨-, -, huncorr, -⟩ := h beyondAddr (2 ^ 48 - 1) 2 (2 ^ 48) beyondAddr_canonical
  have hmet : beyondAddr.badWords (2 ^ 48 - 1) 2 = [(2 ^ 48, .uncorrectable)] := by decide +kernel
  obtain ⟨-, haddr, -⟩ := (huncorr hmet).2 (by decide +kernel) (by decide +kernel)
  have hlt := (beyondAddr.foundBad (2 ^ 48)).reg_lt R.MEMC_LAST_UE_ADDR_ADDR 0 0 (by decide)
  rw [haddr] at hlt
  exact absurd hlt (by decide)
end


section
/-!
SUPPORT. Tide's log, its commits in the ferroelectric RAM, and its inputs.
-/

namespace Sys2Proof.Machine

open Sys2Proof

/-! ### Cells -/

theorem setCellBytes_get_below {m : List Host.Cell} {x a : Nat} (bs : List Byte) (h : Sparse.wf 0#8 m = true) (hx : x < a) :
    Sparse.get 0#8 (setCellBytes m a bs) x = Sparse.get 0#8 m x := by
  induction bs generalizing m a with
  | nil => rfl
  | cons b bs ih => rw [setCellBytes, ih (Sparse.put_wf _ _ h) (by omega), Sparse.get_put_other _ (by omega) h]

/-- The bytes written read back. -/
theorem cellBytes_setCellBytes {m : List Host.Cell} (a : Nat) (bs : List Byte) (h : Sparse.wf 0#8 m = true) :
    cellBytes (setCellBytes m a bs) a bs.length = bs := by
  induction bs generalizing m a with
  | nil => rfl
  | cons b bs ih =>
    have hw := Sparse.put_wf a b h
    rw [setCellBytes, List.length_cons, cellBytes, ih _ hw, setCellBytes_get_below _ hw (by omega), Sparse.get_put_same _ _ h]

/-! ### What Tide's log may change -/

/-- From `s` to `t` Tide may have logged an event: the event count alone of the registers, and no condition. -/
structure Logged (s t : State) : Prop where
  eq : t = { s with freeCtr := t.freeCtr, fram := t.fram, regs := t.regs, tide := { s.tide with held := t.tide.held } }
  wf : Sparse.wf 0#32 s.regs = true → Sparse.wf 0#32 t.regs = true
  regs : Sparse.wf 0#32 s.regs = true → SameRegistersBut [(R.MTR_EVT_COUNT_COUNT, 0, 0)] s t

section

variable {s t u : State}

theorem Logged.refl (s : State) : Logged s s := ⟨rfl, id, fun _ _ _ => rfl⟩

theorem Logged.trans (h : Logged s t) (h' : Logged t u) : Logged s u where
  eq := h'.eq.trans (by rw [h.eq])
  wf := h'.wf ∘ h.wf
  regs hwf := (h.regs hwf).trans (h'.regs (h.wf hwf))

theorem Logged.mem (h : Logged s t) : t.mem = s.mem := by rw [h.eq]

theorem Logged.since (h : Logged s t) : t.tide.since = s.tide.since := by rw [h.eq]

/-- A register other than the event count reads as before. -/
theorem Logged.reg (h : Logged s t) (hwf : Sparse.wf 0#32 s.regs = true) (q : RegRow) (i j : Nat)
    (hq : q.at i j + 4 * q.words ≤ R.MTR_EVT_COUNT_COUNT.at 0 0 ∨ R.MTR_EVT_COUNT_COUNT.at 0 0 + 4 ≤ q.at i j) : t.reg q i j = s.reg q i j :=
  (h.regs hwf).reg q i j fun x hx => by
    obtain rfl := List.mem_singleton.mp hx
    exact hq

theorem Logged.freeBelow (s : State) (n : Nat) : Logged s (s.freeBelow n).2 := ⟨rfl, id, fun _ _ _ => rfl⟩

theorem Logged.tideRound (s : State) (num den : Nat) : Logged s (s.tideRound num den).2 := by
  rw [State.tideRound]
  split
  · exact .refl s
  · exact .freeBelow s 2

theorem Logged.tideWrite (s : State) (e : TideEvent) : Logged s (s.tideWrite e) where
  eq := by rw [State.tideWrite, State.setReg_eq]
  wf hwf := State.setReg_wf _ _ _ _ _ hwf
  regs hwf := (State.sameRegistersBut_setReg ({ s with fram := (s.tideWrite e).fram } : State) R.MTR_EVT_COUNT_COUNT
    (s.reg R.MTR_EVT_COUNT_COUNT + 1) 0 0 hwf List.mem_cons_self).of_regs rfl (by
      rw [State.tideWrite]
      simp only [State.setReg_regs])

theorem Logged.tideLog (s : State) (code ch value : Nat) (aux : Option Nat) : Logged s (s.tideLog code ch value aux) := by
  rw [State.tideLog]
  split
  · exact .refl s
  · dsimp only
    split
    · exact ⟨rfl, id, fun _ _ _ => rfl⟩
    · exact .tideWrite s _

/-- From `s` to `t` a condition of Tide may have begun or ended: the event count alone of the registers. -/
structure Judged (s t : State) : Prop where
  eq : t = { s with freeCtr := t.freeCtr, fram := t.fram, regs := t.regs, tide := { s.tide with held := t.tide.held, since := t.tide.since } }
  wf : Sparse.wf 0#32 s.regs = true → Sparse.wf 0#32 t.regs = true
  regs : Sparse.wf 0#32 s.regs = true → SameRegistersBut [(R.MTR_EVT_COUNT_COUNT, 0, 0)] s t

theorem Logged.judged (h : Logged s t) {l : List ((Nat × Nat) × Nat)} (hu : s = { u with tide.since := l }) : Judged u t where
  eq := h.eq.trans (by rw [h.eq, hu])
  wf hwf := h.wf (by rw [hu]; exact hwf)
  regs hwf := (h.regs (by rw [hu]; exact hwf)).of_regs (by rw [hu]) rfl

theorem Judged.mem (h : Judged s t) : t.mem = s.mem := by rw [h.eq]

theorem Judged.reg (h : Judged s t) (hwf : Sparse.wf 0#32 s.regs = true) (q : RegRow) (i j : Nat)
    (hq : q.at i j + 4 * q.words ≤ R.MTR_EVT_COUNT_COUNT.at 0 0 ∨ R.MTR_EVT_COUNT_COUNT.at 0 0 + 4 ≤ q.at i j) : t.reg q i j = s.reg q i j :=
  (h.regs hwf).reg q i j fun x hx => by
    obtain rfl := List.mem_singleton.mp hx
    exact hq

theorem Judged.tideCond (s : State) (code ch : Nat) (on : Bool) (value : Nat) : Judged s (s.tideCond code ch on value) := by
  rw [State.tideCond]
  split
  · split
    · exact (Logged.tideLog ..).judged rfl
    · exact (Logged.refl s).judged rfl
  · split
    · exact (Logged.refl s).judged rfl
    · exact ((Logged.tideRound ..).trans (.tideLog ..)).judged rfl

/-- A condition that begins lasts. -/
theorem State.tideHas_tideCond (s : State) (code ch value : Nat) : (s.tideCond code ch true value).tideHas code ch = true := by
  rw [State.tideCond]
  split
  · rw [if_pos rfl, State.tideHas, (Logged.tideLog ..).since]
    simp
  · next x hx =>
    have hkey := List.find?_some hx
    rw [if_pos rfl, State.tideHas, List.any_eq_true]
    exact ⟨x, List.mem_of_find?_eq_some hx, hkey⟩

end

/-! ### Commits -/

/-- The commit that begins, begins: nothing but its beginning is new. -/
theorem State.tideBegin_eq (s : State) : ∃ l, s.tideBegin = { s with tide.commits := l } ∧ l.length = s.tide.commits.length := by
  cases hc : s.tide.commits with
  | nil =>
    have h : s.tideBegin = s := by rw [State.tideBegin, hc]
    exact ⟨s.tide.commits, h, by rw [hc]⟩
  | cons c l =>
    by_cases hb : c.begun.isSome = true
    · have h : s.tideBegin = s := by
        rw [State.tideBegin, hc]
        exact if_pos hb
      exact ⟨s.tide.commits, h, by rw [hc]⟩
    · have h : s.tideBegin = { s with tide.commits := { c with begun := some (s.tideNext.1, s.tideNext.2, s.tick) } :: l } := by
        rw [State.tideBegin, hc]
        dsimp only
        rw [if_neg hb]
      exact ⟨{ c with begun := some (s.tideNext.1, s.tideNext.2, s.tick) } :: l, h, by rw [List.length_cons, List.length_cons]⟩

/-- A latch taken: published with the next sequence number. -/
theorem State.tideTake_spec (s : State) (d : TideLatch) (hwf : Sparse.wf 0#32 s.regs = true) :
    (s.tideTake d).tide.due = none ∧ (s.tideTake d).reg R.MTR_LATCH_SEQ_COUNT = (s.reg R.MTR_LATCH_SEQ_COUNT + 1) % 2 ^ 64 ∧
      (s.tideTake d).tide.latched = { d with seq := (s.reg R.MTR_LATCH_SEQ_COUNT + 1) % 2 ^ 64 } ∧
      (s.tideTake d).tide.commits = s.tide.commits ∧ (s.tideTake d).tide.next = s.tide.next ∧ (s.tideTake d).mem = s.mem := by
  have hu := s.setReg_eq R.MTR_LATCH_SEQ_COUNT (s.reg R.MTR_LATCH_SEQ_COUNT + 1) 0 0
  have huwf := s.setReg_wf R.MTR_LATCH_SEQ_COUNT (s.reg R.MTR_LATCH_SEQ_COUNT + 1) 0 0 hwf
  have hseq : (s.setReg R.MTR_LATCH_SEQ_COUNT (s.reg R.MTR_LATCH_SEQ_COUNT + 1)).reg R.MTR_LATCH_SEQ_COUNT =
    (s.reg R.MTR_LATCH_SEQ_COUNT + 1) % 2 ^ 64 := State.reg_setReg_same _ _ _ _ _ hwf (by decide)
  rw [State.tideTake]
  dsimp only
  generalize s.setReg R.MTR_LATCH_SEQ_COUNT (s.reg R.MTR_LATCH_SEQ_COUNT + 1) = u at hu huwf hseq ⊢
  rw [hseq]
  generalize hv : ({ u with tide.due := none, tide.latched := { d with seq := (s.reg R.MTR_LATCH_SEQ_COUNT + 1) % 2 ^ 64 } } : State) = v
  have hvwf : Sparse.wf 0#32 v.regs = true := by rw [← hv]; exact huwf
  refine ⟨?_, ?_, ?_, ?_, ?_, ?_⟩
  · rw [State.setReg_tide, ← hv]
  · rw [State.reg_setReg_apart hvwf (by decide), ← hv]
    exact hseq
  · rw [State.setReg_tide, ← hv]
  · rw [State.setReg_tide, ← hv, hu]
  · rw [State.setReg_tide, ← hv, hu]
  · rw [State.setReg_mem, ← hv, hu]

/-- A snapshot of the quantities draws the free values of its angles. -/
theorem State.tideQuant_snd_eq (s : State) : ∃ k, s.tideQuant.2 = { s with freeCtr := k } := by
  cases hq : s.tide.quant with
  | none => exact ⟨s.freeCtr, by rw [State.tideQuant, hq]⟩
  | some c => exact ⟨s.freeCtr + 3, by rw [State.tideQuant, hq]⟩

/-- A snapshot draws at most free values. -/
theorem State.snapshot_snd_eq (s : State) (sel : Nat) : ∃ k, (s.snapshot sel).2 = { s with freeCtr := k } := by
  unfold State.snapshot
  dsimp only
  split
  · exact ⟨s.freeCtr, rfl⟩
  split
  case h_4 => exact s.tideQuant_snd_eq
  all_goals exact ⟨s.freeCtr, rfl⟩

theorem State.snapshot_stopped {s : State} (h : s.tideRun = false) (sel : Nat) : (s.snapshot sel).1 = List.replicate 32 0#8 := by
  rw [State.snapshot, if_pos (by simp [h])]

end Sys2Proof.Machine

open Sys2Proof Sys2Proof.Machine

/-- Settles O55: faults and conditions in MTR.STATUS and the log, and the edges and levels of the pulse pins. -/
theorem tideInputs : Obligations.TideInputs := by
  intro s e dt hs he hins
  have hregs : e.regs = s.regs := by rw [he, State.elapse_regs]
  have hmem : e.mem = s.mem := by rw [he, State.elapse_mem]
  have hwf : Sparse.wf 0#32 e.regs = true := hregs ▸ hs.1
  refine ⟨?_, ?_, ?_, ?_, ?_, ?_⟩
  · intro on hrun
    have hexec : exec (.mclkFault dt on) s = .next ((e.setReg R.MTR_STATUS_MCLK_FAULT (ofBool on)).tideCond 5 0 on) := by
      refine congrArg Host.Outcome.next ?_
      rw [← he, if_pos hrun]
    have hj := Judged.tideCond (e.setReg R.MTR_STATUS_MCLK_FAULT (ofBool on)) 5 0 on 0
    refine ⟨_, hexec, ?_, sameMemory_of_mem (by rw [hj.mem, State.setReg_mem, hmem])⟩
    rw [State.flag, hj.reg (e.setReg_wf _ _ _ _ hwf) _ _ _ (by decide), State.reg_setReg_same _ _ _ _ _ hwf (by decide)]
    cases on <;> rfl
  · intro ch on hrun hch hkind
    have hexec : exec (.channelFault dt ch on) s = .next ((e.setBit R.MTR_STATUS_CH_FAULT ch on).tideCond 6 ch on) := by
      refine congrArg Host.Outcome.next ?_
      rw [← he, if_pos ⟨hrun, hch, hkind⟩]
    have hj := Judged.tideCond (e.setBit R.MTR_STATUS_CH_FAULT ch on) 6 ch on 0
    refine ⟨_, hexec, ?_, sameMemory_of_mem (by rw [hj.mem, State.setBit_eq, hmem])⟩
    rw [hj.reg (State.setBit_wf _ _ _ _ _ hwf) _ _ _ (by decide)]
    exact State.testBit_setBit on hwf hch
  · intro ch hrun hch hkind
    have hexec : exec (.overload dt ch true) s = .next (e.tideCond 7 ch true) := by
      refine congrArg Host.Outcome.next ?_
      rw [← he, if_pos ⟨hrun, hch, hkind⟩]
    exact ⟨_, hexec, State.tideHas_tideCond .., sameMemory_of_mem ((Judged.tideCond ..).mem.trans hmem)⟩
  · intro k level sub hk
    have hst : (e.stamp sub 100).2 = { e with freeCtr := e.freeCtr + 1 } := rfl
    generalize hx : ({ e.tideIn k with
      raw := level
      since := e.tick
      began := if level = (e.tideIn k).level then none else some ((e.tideIn k).began.getD (e.stamp sub 100).1) } : TideIn) = x
    have hexec : exec (.pulseInputEdge dt k level sub) s = .next (({ e with freeCtr := e.freeCtr + 1 } : State).setTideIn k x) := by
      refine congrArg Host.Outcome.next ?_
      rw [← he, if_pos hk, ← hx]
      rfl
    have hsame : (({ e with freeCtr := e.freeCtr + 1 } : State).setTideIn k x).tideIn k = x := Sparse.get_put_same _ _ hins
    refine ⟨_, hexec, ?_, ?_, ?_, fun j hj => Sparse.get_put_other _ hj hins, sameMemory_of_mem hmem, rfl⟩
    · rw [hsame, ← hx]
    · rw [hsame, ← hx]
    · rw [hsame, ← hx]
  · intro k hrun hk hbit hraw hlate
    generalize hx : ({ e.tideIn k with
      level := (e.tideIn k).raw
      began := none
      stamp := if (e.tideIn k).raw != bit (field (tidePin e.tide.body k) 0 1) 1 then (e.tideIn k).began.getD (e.tideIn k).stamp
        else (e.tideIn k).stamp } : TideIn) = x
    have hlevel : x.level = (e.tideIn k).raw := by rw [← hx]
    have hsame : (e.setTideIn k x).tideIn k = x := Sparse.get_put_same _ _ hins
    have hexec : exec (.pulseInputAccept dt k) s = .next (if (e.tideIn k).raw != bit (field (tidePin e.tide.body k) 0 1) 1 then
        (e.setTideIn k x).incReg R.MTR_PCNT_COUNT k else e.setTideIn k x) := by
      refine congrArg Host.Outcome.next ?_
      rw [← he, if_pos ⟨hrun, hk, hbit, hraw, hlate⟩, ← hx]
    by_cases hact : (e.tideIn k).raw = bit (field (tidePin e.tide.body k) 0 1) 1
    · rw [if_neg (by simp [hact])] at hexec
      refine ⟨_, hexec, by rw [hsame, hlevel], sameMemory_of_mem hmem, fun h => absurd hact h, fun _ => rfl⟩
    · rw [if_pos (by simp [hact])] at hexec
      generalize hu : e.setTideIn k x = u at hexec hsame
      have huwf : Sparse.wf 0#32 u.regs = true := by rw [← hu]; exact hwf
      refine ⟨_, hexec, ?_, sameMemory_of_mem ?_, fun _ => ?_, fun h => absurd h hact⟩
      · rw [State.tideIn, State.incReg_tide, ← State.tideIn, hsame, hlevel]
      · rw [State.incReg_mem, ← hu]
        exact hmem
      · rw [State.reg_incReg_same _ _ _ _ _ huwf (by decide), ← hu]
        rfl
  · intro j at_ hbusy hlow hlate
    have hexec : exec (.pulseOutputTimer dt j) s = execPulseOutputTimer dt j s := rfl
    rw [hexec, execPulseOutputTimer, ← he, hbusy]
    dsimp only
    rw [if_pos hlate, if_pos hlow]

/-- Settles O54: a latch is published and committed, a commit stands in the ferroelectric RAM, and a snapshot is written. -/
theorem tideLatchesAndSnapshots : Obligations.TideLatchesAndSnapshots := by
  intro s e dt hs he
  have hregs : e.regs = s.regs := by rw [he, State.elapse_regs]
  have hmem : e.mem = s.mem := by rw [he, State.elapse_mem]
  have hfram : e.fram = s.fram := by rw [he, State.elapse_fram]
  have hwf : Sparse.wf 0#32 e.regs = true := hregs ▸ hs.1
  have hwfm : Sparse.wf 0#8 e.mem = true := hmem ▸ hs.2.1
  refine ⟨?_, ?_, ?_⟩
  · intro d hdue hnext
    obtain ⟨hdue', hseq, hlatched, hcommits, hnext', htmem⟩ := e.tideTake_spec d hwf
    obtain ⟨l, hbegin, hlen⟩ := ({ e.tideTake d with tide.commits := (e.tideTake d).tide.commits ++
      [{ kind := 0, body := (e.tideTake d).tideTotals d.e d.pcnt }] } : State).tideBegin_eq
    have hexec : exec (.latch dt) s = .next ((e.tideTake d).tideCommit 0 d.e d.pcnt) := by
      have hx : exec (.latch dt) s = execLatch dt s := rfl
      rw [hx, execLatch, ← he, hdue]
      dsimp only
      rw [hnext', hnext]
    rw [State.tideCommit] at hexec
    dsimp only at hexec
    rw [hbegin] at hexec
    refine ⟨_, hexec, hdue', hseq, hlatched, ?_, sameMemory_of_mem (htmem.trans hmem)⟩
    rw [show l.length = _ from hlen]
    simp [hcommits]
  · intro k l copy seq at_ b hcommits hbegun hkind hb
    generalize hv : ({ e with fram := setCellBytes e.fram (0x200 * copy) (b ++ leBytes 4 (crc32 b)), tide.commits := l } : State) = v
    obtain ⟨l', hbegin, hlen⟩ := (v.incReg R.MTR_COMMITS_COUNT).tideBegin_eq
    have hexec : exec (.tideCommitComplete dt) s = .next (v.incReg R.MTR_COMMITS_COUNT).tideBegin := by
      have hx : exec (.tideCommitComplete dt) s = execTideCommitComplete dt s := rfl
      rw [hx, execTideCommitComplete, ← he, hcommits]
      dsimp only
      rw [hbegun]
      dsimp only
      rw [← hb, hv, if_neg hkind]
    have hvwf : Sparse.wf 0#32 v.regs = true := by rw [← hv]; exact hwf
    have hlen4 : b.length + 4 = (b ++ leBytes 4 (crc32 b)).length := by rw [List.length_append, leBytes_length]
    refine ⟨_, hexec, ?_, ?_, ?_, sameMemory_of_mem ?_⟩
    · rw [hbegin, State.incReg_fram, ← hv, hlen4]
      exact cellBytes_setCellBytes _ _ (hfram ▸ hs.2.2.2.1)
    · rw [hbegin, hlen, State.incReg_tide, ← hv]
    · have hbregs : (v.incReg R.MTR_COMMITS_COUNT).tideBegin.regs = (v.incReg R.MTR_COMMITS_COUNT).regs := by rw [hbegin]
      rw [State.reg_of_regs hbregs, State.reg_incReg_same _ _ _ _ _ hvwf (by decide), ← hv]
      rfl
    · rw [hbegin, State.incReg_mem, ← hv]
      exact hmem
  · intro id c b hc hw hab hgood hb
    obtain ⟨k, hk⟩ := e.snapshot_snd_eq (c.word 1)
    have hb' : (if e.tideRun then slice (e.snapshot (c.word 1)).1 0 (snapLength (bits (c.word 1) 3 0)) else (e.snapshot (c.word 1)).1) = b := by
      rw [hb]
      split
      · rfl
      · next h => exact State.snapshot_stopped (by simpa using h) _
    obtain ⟨t, ht, hst⟩ := Eff.write_stores (s := { e with freeCtr := k }) (p := c.part) (a := c.addr 2) (bs := b) hw
      (State.badWords_of_good hgood _ _)
    have hexec : exec (.mtrSnap dt id) s = .next (t.finish id {}) := by
      refine congrArg Host.Outcome.next ?_
      rw [← he]
      refine State.runEngine_ok hc hw hab ?_
      dsimp only
      rw [hb', hk, ht]
    obtain ⟨hex, hothers, hbytes, hbut, -⟩ := hst.finish (s := e) (d := {}) (n := 0) rfl rfl rfl hw hwfm (State.engine_cmd? hc)
    refine ⟨_, hexec, hex, hothers, hbytes, fun x hx => (hbut x hx).trans (State.byte_of_mem hmem x), ?_⟩
    obtain ⟨-, -, heq⟩ := State.finish_ends_of_cmds (d := {}) (n := 0) (State.engine_cmd? hc) hst.cmds (hst.wrote.trans hw)
    rw [heq]
    dsimp only
    rw [hst.eq]
end


section
/-!
SUPPORT. What a sample and a closing cycle may change beside their sums.
-/

namespace Sys2Proof.Machine

open Sys2Proof

/-- From `s` to `t` pairs, conditions, pulses, the log and the registers may have changed, and no sum, window or latch. -/
structure Metered (s t : State) : Prop where
  eq : t = { s with freeCtr := t.freeCtr, out := t.out, fram := t.fram, regs := t.regs, tide := { s.tide with
    pairs := t.tide.pairs
    since := t.tide.since
    seqDiffers := t.tide.seqDiffers
    outs := t.tide.outs
    held := t.tide.held
    pcntLive := t.tide.pcntLive } }
  wf : Sparse.wf 0#32 s.regs = true → Sparse.wf 0#32 t.regs = true

section

variable {s t u : State}

theorem Metered.refl (s : State) : Metered s s := ⟨rfl, id⟩

theorem Metered.trans (h : Metered s t) (h' : Metered t u) : Metered s u where
  eq := h'.eq.trans (by rw [h.eq])
  wf := h'.wf ∘ h.wf

theorem Metered.ite {p : Prop} [Decidable p] (h : Metered s t) (h' : Metered s u) : Metered s (if p then t else u) := by
  split
  · exact h
  · exact h'

theorem Metered.foldl {α : Type} {f : State → α → State} (hf : ∀ s a, Metered s (f s a)) (l : List α) (s : State) :
    Metered s (l.foldl f s) := by
  induction l generalizing s with
  | nil => exact .refl s
  | cons a l ih => exact (hf s a).trans (ih _)

/-- The same for a fold that also gathers values. -/
theorem Metered.foldl_pair {α β : Type} {f : β × State → α → β × State} (hf : ∀ r a, Metered r.2 (f r a).2) (l : List α) (r : β × State) :
    Metered r.2 (l.foldl f r).2 := by
  induction l generalizing r with
  | nil => exact .refl r.2
  | cons a l ih => exact (hf r a).trans (ih _)

theorem Logged.metered (h : Logged s t) : Metered s t := ⟨h.eq.trans (by rw [h.eq]), h.wf⟩

theorem Judged.metered (h : Judged s t) : Metered s t := ⟨h.eq.trans (by rw [h.eq]), h.wf⟩

theorem Metered.setReg (s : State) (r : RegRow) (v i j : Nat) : Metered s (s.setReg r v i j) :=
  ⟨by rw [State.setReg_eq'], s.setReg_wf _ _ _ _⟩

theorem Metered.incReg (s : State) (r : RegRow) (i j n : Nat) : Metered s (s.incReg r i j n) := .setReg ..

theorem Metered.setBit (s : State) (r : RegRow) (n : Nat) (v : Bool) (i j : Nat) : Metered s (s.setBit r n v i j) := .setReg ..

theorem Metered.emit (s : State) (o : Output) : Metered s (s.emit o) := ⟨rfl, id⟩

theorem Metered.tmuxPulse (s : State) (sig arg : Nat) : Metered s (s.tmuxPulse sig arg) := ⟨rfl, id⟩

theorem Metered.freeBelow (s : State) (n : Nat) : Metered s (s.freeBelow n).2 := ⟨rfl, id⟩

theorem Metered.freeWithin (s : State) (n : Nat) : Metered s (s.freeWithin n).2 := ⟨rfl, id⟩

theorem Metered.tideLog (s : State) (code ch value : Nat) (aux : Option Nat) : Metered s (s.tideLog code ch value aux) :=
  (Logged.tideLog ..).metered

theorem Metered.tideCond (s : State) (code ch : Nat) (on : Bool) (value : Nat) : Metered s (s.tideCond code ch on value) :=
  (Judged.tideCond ..).metered

theorem Metered.tideRound (s : State) (num den : Nat) : Metered s (s.tideRound num den).2 := (Logged.tideRound ..).metered

/-! ### Pulse outputs -/

theorem Metered.setTideOut (s : State) (j : Nat) (x : TideOut) : Metered s (s.setTideOut j x) := ⟨rfl, id⟩

theorem Metered.tideBacklog (s : State) (j : Nat) : Metered s (s.tideBacklog j) :=
  .ite (.setBit ..) (.ite ((Metered.setBit ..).trans (.tideLog ..)) (.refl s))

theorem Metered.tideEmit (s : State) (j : Nat) : Metered s (s.tideEmit j) :=
  (Metered.ite ((Metered.setTideOut ..).trans (.emit ..)) (.refl s)).trans (.tideBacklog ..)

theorem Metered.tideShare (s : State) (j : Nat) (restart : Bool) : Metered s (s.tideShare j restart) :=
  .ite (.refl s) (.ite (.refl s) (.setTideOut ..))

theorem Metered.tideLoose (s : State) (j : Nat) (l : List Int) : Metered s (s.tideLoose j l) :=
  .ite (Metered.trans (t := { s with freeCtr := s.freeCtr + 1 }) ⟨rfl, id⟩ (.setTideOut ..)) (.refl s)

/-! ### Samples -/

theorem Metered.setTidePair (s : State) (j : Nat) (x : TidePair) : Metered s (s.setTidePair j x) :=
  Metered.trans (t := { s with tide.pairs := Sparse.put {} s.tide.pairs j x }) ⟨rfl, id⟩ (.setBit ..)

theorem Metered.tideSwitch (s : State) (j : Nat) (cal : List Int) : Metered s (s.tideSwitch j cal) :=
  .ite (.refl s) (.ite ((Metered.setTidePair ..).trans (.incReg ..))
    (.ite ((((Metered.setTidePair ..).trans (.tideRound ..)).trans (.incReg ..)).trans (.tideLog ..)) (.setTidePair ..)))

theorem Metered.tideCals (s : State) (xs : List Int) : Metered s (s.tideCals xs).2 := by
  refine Metered.foldl_pair (fun r c => ?_) (List.range 10) ([], s)
  dsimp only
  split
  · exact .refl r.2
  split
  · exact ⟨rfl, id⟩
  · exact .refl r.2

/-! ### Cycles -/

theorem Metered.tideVa (s : State) (a : TideAcc) (p : Nat) : Metered s (s.tideVa a p).2 := ⟨rfl, id⟩

theorem Metered.tideIncs (s : State) (a : TideAcc) (ph : List TidePhasor) : Metered s (s.tideIncs a ph).2 := by
  unfold State.tideIncs
  dsimp only
  refine Metered.foldl_pair (fun r k => ?_) (List.range (tidePhases s.tide.body)) (0, s)
  exact Metered.tideVa r.2 a k

/-- A condition on a voltage that starts, lasts or ends. -/
theorem Metered.tideStep (s : State) (code ch value : Nat) (start stop : Bool) :
    Metered s (if s.tideHas code ch then (if stop then s.tideCond code ch false else s)
      else if start then s.tideCond code ch true value else s) :=
  .ite (.ite (.tideCond ..) (.refl s)) (.ite (.tideCond ..) (.refl s))

theorem Metered.tideVolt (s : State) (p v w : Nat) : Metered s (s.tideVolt p v w) :=
  (((Metered.freeBelow s 2).trans (.tideStep ..)).trans (.tideStep ..)).trans (.tideStep ..)

theorem Metered.tideSequence (s : State) (ph : List TidePhasor) : Metered s (s.tideSequence ph) :=
  .ite (.refl s) (.ite ⟨rfl, id⟩ (.ite ⟨rfl, id⟩ (Metered.trans (t := { s with tide.seqDiffers := 0 }) ⟨rfl, id⟩ (.tideCond ..))))

theorem Metered.tideDown (s : State) (j : Nat) (a : TideAcc) : Metered s (s.tideDown j a) :=
  .ite (.refl s) (.ite (.refl s) (.ite (.setTidePair ..) (.setTidePair ..)))

theorem Metered.tideShow (s : State) : Metered s s.tideShow := by
  have h := Metered.foldl (f := fun s r => s.setReg R.MTR_E_NWH (s.tide.e.getD r 0 / tideUnit) r) (fun s r => .setReg ..) (List.range 20) s
  rw [State.tideShow]
  generalize (List.range 20).foldl (fun s r => s.setReg R.MTR_E_NWH (s.tide.e.getD r 0 / tideUnit) r) s = u at h ⊢
  exact h.trans ⟨rfl, id⟩

/-- The sums folded into the registers of energy. -/
theorem State.tideFold_spec (s : State) (ph : List TidePhasor) :
    ∃ m l, Metered s m ∧ s.tideFold ph = { m with tide.e := l, tide.energy := {} } := by
  have h1 := Metered.foldl (f := fun s j => s.tideShare j true) (fun s j => .tideShare s j true) (List.range 2) s
  rw [State.tideFold]
  generalize (List.range 2).foldl (fun s j => s.tideShare j true) s = u at h1 ⊢
  have h2 := Metered.tideIncs u u.tide.energy ph
  generalize u.tideIncs u.tide.energy ph = r at h2 ⊢
  exact ⟨r.2, _, h1.trans h2, rfl⟩

/-- The state of `tideClose` once the sums are divided at the crossing. -/
def State.tideDivide (s : State) (frac mhz : Nat) (ph : List TidePhasor) : State :=
  let rest := tideSample - min frac tideSample
  let u := ({ s with tide.energy := s.tide.energy.less rest s.tide.last }).tideFold ph
  { u with tide.quant := some ⟨s.tide.cycle.less rest s.tide.last, ph, mhz⟩, tide.cycle := ({} : TideAcc).add rest s.tide.last
           tide.energy := ({} : TideAcc).add rest s.tide.last, tide.window := u.tide.window + 1 }

/-- What `tideClose` does after it has divided the sums, up to the latch. -/
def State.tideJudge (s : State) (a : TideAcc) (ph : List TidePhasor) : State :=
  let s := (List.range 2).foldl (fun s j => (s.tideShare j false).tideDown j a) s
  let s := (List.range (tidePhases s.tide.body)).foldl (fun s k => s.tideVolt k (a.sums.getD k 0).toNat a.w) s
  let s := ((s.tideSequence ph).tideShow).tmuxPulse 0x0E 0
  s.setReg R.MTR_LATCH_CYC_COUNT (s.reg R.MTR_LATCH_CYC_COUNT + 1)

theorem State.tideClose_eq (s : State) (frac mhz : Nat) (ph : List TidePhasor) :
    s.tideClose frac mhz ph =
      let t := (s.tideDivide frac mhz ph).tideJudge (s.tide.cycle.less (tideSample - min frac tideSample) s.tide.last) ph
      if t.reg R.MTR_LATCH_CYC_COUNT = tideNcyc t.tide.body then
        { t with tide.due := some { e := t.tide.e, pcnt := t.tidePcnt, taken := t.tide.stamp, quality := t.tide.quality
                                    cycles := t.reg R.MTR_LATCH_CYC_COUNT } }
      else t := by
  rw [State.tideClose, State.tideDivide, State.tideJudge]

theorem State.tideDivide_spec (s : State) (frac mhz : Nat) (ph : List TidePhasor) :
    (s.tideDivide frac mhz ph).mem = s.mem ∧ (s.tideDivide frac mhz ph).tide.window = s.tide.window + 1 ∧
      (s.tideDivide frac mhz ph).tide.cycle.w = tideSample - min frac tideSample ∧
      (Sparse.wf 0#32 s.regs = true → Sparse.wf 0#32 (s.tideDivide frac mhz ph).regs = true) := by
  obtain ⟨m, l, hm, hfold⟩ := State.tideFold_spec
    { s with tide.energy := s.tide.energy.less (tideSample - min frac tideSample) s.tide.last } ph
  unfold State.tideDivide
  dsimp only
  generalize ({ s with tide.energy := s.tide.energy.less (tideSample - min frac tideSample) s.tide.last } : State).tideFold ph = u at hfold ⊢
  have hmmem : m.mem = s.mem := by rw [hm.eq]
  have hmwin : m.tide.window = s.tide.window := by rw [hm.eq]
  subst hfold
  exact ⟨hmmem, congrArg (· + 1) hmwin, Nat.zero_add _, hm.wf⟩

theorem Metered.tideJudge (s : State) (a : TideAcc) (ph : List TidePhasor) : Metered s (s.tideJudge a ph) := by
  have h1 := Metered.foldl (f := fun s j => (s.tideShare j false).tideDown j a)
    (fun s j => (Metered.tideShare ..).trans (.tideDown ..)) (List.range 2) s
  rw [State.tideJudge]
  generalize (List.range 2).foldl (fun s j => (s.tideShare j false).tideDown j a) s = u at h1 ⊢
  have h2 := Metered.foldl (f := fun s k => s.tideVolt k (a.sums.getD k 0).toNat a.w) (fun s k => .tideVolt ..)
    (List.range (tidePhases u.tide.body)) u
  generalize (List.range (tidePhases u.tide.body)).foldl (fun s k => s.tideVolt k (a.sums.getD k 0).toNat a.w) u = v at h2 ⊢
  exact (((h1.trans h2).trans (.tideSequence ..)).trans (.tideShow _)).trans ((Metered.tmuxPulse ..).trans (.setReg ..))

/-- A cycle that closes: one more of its window, and the last sample's remainder in the next. -/
theorem State.tideClose_spec (s : State) (frac mhz : Nat) (ph : List TidePhasor) :
    (s.tideClose frac mhz ph).mem = s.mem ∧ (s.tideClose frac mhz ph).tide.window = s.tide.window + 1 ∧
      (s.tideClose frac mhz ph).tide.cycle.w = tideSample - min frac tideSample ∧
      (Sparse.wf 0#32 s.regs = true → Sparse.wf 0#32 (s.tideClose frac mhz ph).regs = true) := by
  obtain ⟨hmem, hwin, hw, hwf⟩ := s.tideDivide_spec frac mhz ph
  have hj := Metered.tideJudge (s.tideDivide frac mhz ph) (s.tide.cycle.less (tideSample - min frac tideSample) s.tide.last) ph
  rw [State.tideClose_eq]
  generalize s.tideDivide frac mhz ph = u at hmem hwin hw hwf hj ⊢
  generalize u.tideJudge (s.tide.cycle.less (tideSample - min frac tideSample) s.tide.last) ph = t at hj ⊢
  have htmem : t.mem = s.mem := by rw [hj.eq]; exact hmem
  have htwin : t.tide.window = s.tide.window + 1 := by rw [hj.eq]; exact hwin
  have htw : t.tide.cycle.w = tideSample - min frac tideSample := by rw [hj.eq]; exact hw
  have htwf := fun h => hj.wf (hwf h)
  dsimp only
  split
  · exact ⟨htmem, htwin, htw, htwf⟩
  · exact ⟨htmem, htwin, htw, htwf⟩

/-- A change of the lock, shown and logged. -/
theorem State.showMains_spec (v : State) {b mhz code value : Nat} (hwf : Sparse.wf 0#32 v.regs = true) (hb : b < 2) (hm : mhz < 2 ^ 32) :
    (((v.setReg R.MTR_STATUS_MAINS_LOCK b).setReg R.MTR_FREQ_MHZ mhz).tideLog code 0 value).reg R.MTR_STATUS_MAINS_LOCK = b ∧
      (((v.setReg R.MTR_STATUS_MAINS_LOCK b).setReg R.MTR_FREQ_MHZ mhz).tideLog code 0 value).reg R.MTR_FREQ_MHZ = mhz ∧
      (((v.setReg R.MTR_STATUS_MAINS_LOCK b).setReg R.MTR_FREQ_MHZ mhz).tideLog code 0 value).tide.windowBad = v.tide.windowBad ∧
      (((v.setReg R.MTR_STATUS_MAINS_LOCK b).setReg R.MTR_FREQ_MHZ mhz).tideLog code 0 value).mem = v.mem := by
  have hwf1 := v.setReg_wf R.MTR_STATUS_MAINS_LOCK b 0 0 hwf
  have hwf2 := State.setReg_wf _ R.MTR_FREQ_MHZ mhz 0 0 hwf1
  have hl := Logged.tideLog ((v.setReg R.MTR_STATUS_MAINS_LOCK b).setReg R.MTR_FREQ_MHZ mhz) code 0 value none
  refine ⟨?_, ?_, ?_, ?_⟩
  · rw [hl.reg hwf2 _ _ _ (by decide), State.reg_setReg_apart hwf1 (by decide), State.reg_setReg_same _ _ _ _ _ hwf (by decide)]
    exact Nat.mod_eq_of_lt hb
  · rw [hl.reg hwf2 _ _ _ (by decide), State.reg_setReg_same _ _ _ _ _ hwf1 (by decide)]
    exact Nat.mod_eq_of_lt hm
  · rw [hl.eq]
    dsimp only
    rw [State.setReg_tide, State.setReg_tide]
  · rw [hl.mem, State.setReg_mem, State.setReg_mem]

end

end Sys2Proof.Machine

open Sys2Proof Sys2Proof.Machine

/-- Settles O53: samples, cycles, the lock on the mains and the windows of harmonics. -/
theorem tideMeasures : Obligations.TideMeasures := by
  intro s e dt hs he hrun
  have hregs : e.regs = s.regs := by rw [he, State.elapse_regs]
  have hmem : e.mem = s.mem := by rw [he, State.elapse_mem]
  have hwf : Sparse.wf 0#32 e.regs = true := hregs ▸ hs.1
  refine ⟨?_, ?_, ?_, ?_, ?_⟩
  · intro xs
    have hexec : exec (.meterSample dt xs) s = execMeterSample dt xs s := rfl
    rw [hexec, execMeterSample, ← he]
    dsimp only
    rw [if_pos hrun]
    have h1 := Metered.tideCals e xs
    generalize e.tideCals xs = r at h1 ⊢
    obtain ⟨cal, u⟩ := r
    have h2 := h1.trans (Metered.foldl (f := fun s j => s.tideSwitch j cal) (fun s j => .tideSwitch s j cal) (List.range 2) u)
    dsimp only at h2 ⊢
    generalize (List.range 2).foldl (fun s j => s.tideSwitch j cal) u = v at h2 ⊢
    generalize v.tideProducts cal = p
    have h3 := h2.trans (Metered.freeWithin v 500)
    generalize v.freeWithin 500 = x at h3 ⊢
    obtain ⟨k, w⟩ := x
    dsimp only at h3 ⊢
    have hmemw : w.mem = e.mem := by rw [h3.eq]
    have hcyc : w.tide.cycle = e.tide.cycle := by rw [h3.eq]
    have hen : w.tide.energy = e.tide.energy := by rw [h3.eq]
    have hew : w.tide.e = e.tide.e := by rw [h3.eq]
    generalize hy : ({ w with tide.cycle := w.tide.cycle.add tideSample p, tide.energy := w.tide.energy.add tideSample p, tide.last := p
                              tide.stamp := ((w.now : Int) - 1500000 + k).toNat, tide.quality := w.quality } : State) = y
    have hycyc : y.tide.cycle.w = e.tide.cycle.w + tideSample := by rw [← hy, ← hcyc]; rfl
    have hyen : y.tide.energy.w = e.tide.energy.w + tideSample := by rw [← hy, ← hen]; rfl
    have hye : y.tide.e = e.tide.e := by rw [← hy, ← hew]
    have hymem : y.mem = s.mem := by rw [← hy, ← hmem, ← hmemw]
    have h4 := Metered.foldl (f := fun s j => ((s.tideShare j false).tideLoose j p).tideEmit j)
      (fun s j => ((Metered.tideShare ..).trans (.tideLoose ..)).trans (.tideEmit ..)) (List.range 2) y
    refine ⟨_, rfl, ?_, ?_, ?_, sameMemory_of_mem ?_⟩
    · rw [h4.eq, ← hycyc]
    · rw [h4.eq, ← hyen]
    · rw [h4.eq, ← hye]
    · rw [h4.eq, ← hymem]
  · intro frac mhz ph hlock hlo hhi hend
    have hexec : exec (.cycleClose dt frac mhz ph) s = .next ((e.tideClose frac mhz ph).setReg R.MTR_FREQ_MHZ mhz) := by
      refine congrArg Host.Outcome.next ?_
      rw [← he, if_pos hrun, if_pos hlock, if_pos ⟨hlo, hhi, hend⟩]
    obtain ⟨htmem, hwin, hw, htwf⟩ := e.tideClose_spec frac mhz ph
    refine ⟨_, hexec, ?_, ?_, ?_, sameMemory_of_mem ?_⟩
    · rw [State.reg_setReg_same _ _ _ _ _ (htwf hwf) (by decide)]
      exact Nat.mod_eq_of_lt (by simp [R.MTR_FREQ_MHZ]; omega)
    · rw [State.setReg_tide, hwin]
    · rw [State.setReg_tide, hw]
    · rw [State.setReg_mem, htmem, hmem]
  · intro frac mhz ph hwire hlock hlo hhi
    have hexec : exec (.mainsLockChange dt true frac mhz ph) s = .next (((({ e.tideClose frac mhz ph with tide.windowBad := true } :
        State).setReg R.MTR_STATUS_MAINS_LOCK 1).setReg R.MTR_FREQ_MHZ mhz).tideLog 0x8B 0 mhz) := by
      refine congrArg Host.Outcome.next ?_
      rw [← he, if_pos ⟨hrun, hwire, by simp [hlock]⟩, if_pos rfl, if_pos ⟨hlo, hhi⟩]
    obtain ⟨htmem, -, -, htwf⟩ := e.tideClose_spec frac mhz ph
    generalize e.tideClose frac mhz ph = c at hexec htmem htwf
    generalize hv : ({ c with tide.windowBad := true } : State) = v at hexec
    have hvwf : Sparse.wf 0#32 v.regs = true := by rw [← hv]; exact htwf hwf
    obtain ⟨hshown, hfreq, hbad, hlmem⟩ := v.showMains_spec (b := 1) (mhz := mhz) (code := 0x8B) (value := mhz) hvwf
      (by decide) (by omega)
    refine ⟨_, hexec, ?_, hfreq, ?_, sameMemory_of_mem ?_⟩
    · rw [State.flag, hshown]
      rfl
    · rw [hbad, ← hv]
    · rw [hlmem, ← hv]
      exact htmem.trans hmem
  · intro frac mhz ph hwire hlock
    have hexec : exec (.mainsLockChange dt false frac mhz ph) s = .next (((({ e.tideClose tideSample (e.reg R.MTR_FREQ_MHZ) ph with tide.windowBad := true } :
        State).setReg R.MTR_STATUS_MAINS_LOCK 0).setReg R.MTR_FREQ_MHZ 0).tideLog 0x0B 0 (e.reg R.MTR_FREQ_MHZ)) := by
      refine congrArg Host.Outcome.next ?_
      rw [← he, if_pos ⟨hrun, hwire, by simp [hlock]⟩, if_neg Bool.false_ne_true]
    obtain ⟨htmem, -, -, htwf⟩ := e.tideClose_spec tideSample (e.reg R.MTR_FREQ_MHZ) ph
    generalize e.tideClose tideSample (e.reg R.MTR_FREQ_MHZ) ph = c at hexec htmem htwf
    generalize hv : ({ c with tide.windowBad := true } : State) = v at hexec
    have hvwf : Sparse.wf 0#32 v.regs = true := by rw [← hv]; exact htwf hwf
    obtain ⟨hshown, hfreq, hbad, hlmem⟩ := v.showMains_spec (b := 0) (mhz := 0) (code := 0x0B) (value := (e.reg R.MTR_FREQ_MHZ)) hvwf
      (by decide) (by omega)
    refine ⟨_, hexec, ?_, hfreq, ?_, sameMemory_of_mem ?_⟩
    · rw [State.flag, hshown]
      rfl
    · rw [hbad, ← hv]
    · rw [hlmem, ← hv]
      exact htmem.trans hmem
  · intro harm derived hwin hgood
    have hexec : exec (.harmonicWindow dt harm derived) s = execHarmonicWindow dt harm derived s := rfl
    rw [hexec, execHarmonicWindow, ← he]
    dsimp only
    rw [if_pos ⟨hrun, hwin⟩, if_neg (by simp [hgood]), hgood]
end


section
/-!
SUPPORT. The acoustic engine's status: what it shows, the causes of the anti-noise, and the levels of the mute.
-/

namespace Sys2Proof.Machine

open Sys2Proof

/-- The words in which the engine shows its state: ACU.STATUS and ACU.DUCK. -/
def acuShownWords : List (RegRow × Nat × Nat) := [(R.ACU_STATUS_SP_RUN, 0, 0), (R.ACU_DUCK_GAIN, 0, 0)]

theorem acuShownWords_apart {q : RegRow} {i j : Nat}
    (hq : q.at i j + 4 * q.words ≤ 0xF000240000 ∨ (0xF000240004 ≤ q.at i j ∧ q.at i j + 4 * q.words ≤ 0xF000240008) ∨
      0xF00024000C ≤ q.at i j) {x : RegRow × Nat × Nat} (hx : x ∈ acuShownWords) :
    q.at i j + 4 * q.words ≤ x.1.at x.2.1 x.2.2 ∨ x.1.at x.2.1 x.2.2 + 4 * x.1.words ≤ q.at i j := by
  have h1 : R.ACU_STATUS_SP_RUN.at 0 0 = 0xF000240000 := rfl
  have h2 : R.ACU_DUCK_GAIN.at 0 0 = 0xF000240008 := rfl
  have h3 : R.ACU_STATUS_SP_RUN.words = 1 := rfl
  have h4 : R.ACU_DUCK_GAIN.words = 1 := rfl
  simp only [acuShownWords, List.mem_cons, List.not_mem_nil, or_false] at hx
  obtain rfl | rfl := hx
  · rw [h1, h3]
    omega
  · rw [h2, h4]
    omega

/-- From `s` to `t` the engine's state has been shown: whether the sample path runs and the causes stand as before. -/
structure AcuShown (s t : State) : Prop where
  eq : t = { s with regs := t.regs }
  wf : Sparse.wf 0#32 t.regs = true
  same : SameRegistersBut acuShownWords s t
  run : t.reg R.ACU_STATUS_SP_RUN = s.reg R.ACU_STATUS_SP_RUN
  cause : t.reg R.ACU_STATUS_ANC_CAUSE = s.reg R.ACU_STATUS_ANC_CAUSE

section

variable {s t u : State}

theorem State.acuShow_shown (hwf : Sparse.wf 0#32 s.regs = true) : AcuShown s s.acuShow := by
  rw [State.acuShow]
  generalize ofBool (s.flag R.ACU_STATUS_SP_RUN && _) = v
  generalize hu : s.setReg R.ACU_STATUS_LOCKED v = u
  have hueq : u = { s with regs := u.regs } := by rw [← hu]; exact s.setReg_eq ..
  have huwf : Sparse.wf 0#32 u.regs = true := by rw [← hu]; exact s.setReg_wf _ _ _ _ hwf
  generalize u.ancState = a
  generalize hw : u.setReg R.ACU_STATUS_ANC_STATE a = w
  have hweq : w = { s with regs := w.regs } := by rw [← hw]; exact State.setReg_eq_of hueq ..
  have hwwf : Sparse.wf 0#32 w.regs = true := by rw [← hw]; exact u.setReg_wf _ _ _ _ huwf
  have hsu : SameRegistersBut acuShownWords s u := by
    rw [← hu]
    exact State.sameRegistersBut_setReg_word R.ACU_STATUS_LOCKED R.ACU_STATUS_SP_RUN hwf List.mem_cons_self (by decide) (by decide)
  have huw : SameRegistersBut acuShownWords u w := by
    rw [← hw]
    exact State.sameRegistersBut_setReg_word R.ACU_STATUS_ANC_STATE R.ACU_STATUS_SP_RUN huwf List.mem_cons_self (by decide) (by decide)
  refine ⟨State.setReg_eq_of hweq .., w.setReg_wf _ _ _ _ hwwf, (hsu.trans huw).trans
    (w.sameRegistersBut_setReg _ _ _ _ hwwf (List.mem_cons_of_mem _ List.mem_cons_self)), ?_, ?_⟩
  · rw [State.reg_setReg_apart hwwf (by decide), ← hw, State.reg_setReg_apart huwf (by decide), ← hu,
      State.reg_setReg_apart hwf (by decide)]
  · rw [State.reg_setReg_apart hwwf (by decide), ← hw, State.reg_setReg_apart huwf (by decide), ← hu,
      State.reg_setReg_apart hwf (by decide)]

theorem State.acuShow_acu (s : State) : s.acuShow.acu = s.acu := by
  rw [State.acuShow, State.setReg_acu, State.setReg_acu, State.setReg_acu]

/-- From `s` to `t` causes `on` have been added and `off` taken away, and the state shown. -/
structure AncSet (s : State) (on off : Nat) (t : State) : Prop where
  eq : t = { s with regs := t.regs, acu := { s.acu with a := t.acu.a, base := t.acu.base, aboveBase := t.acu.aboveBase } }
  wf : Sparse.wf 0#32 t.regs = true
  same : SameRegistersBut acuShownWords s t
  run : t.reg R.ACU_STATUS_SP_RUN = s.reg R.ACU_STATUS_SP_RUN
  cause : t.reg R.ACU_STATUS_ANC_CAUSE =
    ((s.reg R.ACU_STATUS_ANC_CAUSE ||| on) - ((s.reg R.ACU_STATUS_ANC_CAUSE ||| on) &&& off)) % 2 ^ 8

/-- What the ramps of the anti-noise take up with a change of cause. -/
def State.ancRamps (s : State) (on was is : Nat) : State :=
  if is &&& stopCauses != 0 then
    if bit on 6 then { s with acu.a := Ramp.at 0 }
    else if was &&& stopCauses != 0 then s else { s with acu.a := s.acu.a.slope 0 40 }
  else if was &&& stopCauses != 0 then
    { s with acu.a := s.acu.a.slope 32768 480
             acu.base := s.acu.lastEs.map fun (l : List Nat) => l.map fun e => (e, 0)
             acu.aboveBase := [] }
  else s

theorem State.ancCause_eq (s : State) (on off : Nat) :
    s.ancCause on off = ((s.setReg R.ACU_STATUS_ANC_CAUSE
      ((s.reg R.ACU_STATUS_ANC_CAUSE ||| on) - ((s.reg R.ACU_STATUS_ANC_CAUSE ||| on) &&& off))).ancRamps on
      (s.reg R.ACU_STATUS_ANC_CAUSE)
      ((s.reg R.ACU_STATUS_ANC_CAUSE ||| on) - ((s.reg R.ACU_STATUS_ANC_CAUSE ||| on) &&& off))).acuShow := by
  rw [State.ancCause, State.ancRamps]

theorem State.ancRamps_eq (s : State) (on was is : Nat) : s.ancRamps on was is =
    { s with acu := { s.acu with a := (s.ancRamps on was is).acu.a, base := (s.ancRamps on was is).acu.base,
                                 aboveBase := (s.ancRamps on was is).acu.aboveBase } } := by
  rw [State.ancRamps]
  split
  · split
    · rfl
    · split <;> rfl
  · split <;> rfl

theorem State.ancCause_set (hwf : Sparse.wf 0#32 s.regs = true) (on off : Nat) : AncSet s on off (s.ancCause on off) := by
  rw [State.ancCause_eq]
  generalize hc : (s.reg R.ACU_STATUS_ANC_CAUSE ||| on) - ((s.reg R.ACU_STATUS_ANC_CAUSE ||| on) &&& off) = c
  generalize hu : s.setReg R.ACU_STATUS_ANC_CAUSE c = u
  have hueq : u = { s with regs := u.regs } := by rw [← hu]; exact s.setReg_eq ..
  have huwf : Sparse.wf 0#32 u.regs = true := by rw [← hu]; exact s.setReg_wf _ _ _ _ hwf
  have hus : SameRegistersBut acuShownWords s u := by
    rw [← hu]
    exact State.sameRegistersBut_setReg_word R.ACU_STATUS_ANC_CAUSE R.ACU_STATUS_SP_RUN hwf List.mem_cons_self (by decide) (by decide)
  have hr := u.ancRamps_eq on (s.reg R.ACU_STATUS_ANC_CAUSE) c
  generalize u.ancRamps on (s.reg R.ACU_STATUS_ANC_CAUSE) c = w at hr ⊢
  have hwregs : w.regs = u.regs := by rw [hr]
  have hshown := State.acuShow_shown (s := w) (by rw [hwregs]; exact huwf)
  generalize w.acuShow = t at hshown ⊢
  refine ⟨hshown.eq.trans (by rw [hshown.eq, hr, hueq]), hshown.wf, hus.trans (hshown.same.of_regs hwregs.symm rfl), ?_, ?_⟩
  · rw [hshown.run, State.reg_of_regs hwregs, ← hu, State.reg_setReg_apart hwf (by decide)]
  · rw [hshown.cause, State.reg_of_regs hwregs, ← hu, State.reg_setReg_same _ _ _ _ _ hwf (by decide), hc]
    rfl

theorem AcuShown.reg (h : AcuShown s t) (q : RegRow) (i j : Nat)
    (hq : q.at i j + 4 * q.words ≤ 0xF000240000 ∨ (0xF000240004 ≤ q.at i j ∧ q.at i j + 4 * q.words ≤ 0xF000240008) ∨
      0xF00024000C ≤ q.at i j) : t.reg q i j = s.reg q i j :=
  h.same.reg q i j fun _ hx => acuShownWords_apart hq hx

theorem AncSet.mem {on off : Nat} (h : AncSet s on off t) : t.mem = s.mem := by rw [h.eq]

theorem AncSet.mute {on off : Nat} (h : AncSet s on off t) : t.acu.mute = s.acu.mute := by rw [h.eq]

/-- A register beside ACU.STATUS and ACU.DUCK reads as before. -/
theorem AncSet.reg {on off : Nat} (h : AncSet s on off t) (q : RegRow) (i j : Nat)
    (hq : q.at i j + 4 * q.words ≤ 0xF000240000 ∨ (0xF000240004 ≤ q.at i j ∧ q.at i j + 4 * q.words ≤ 0xF000240008) ∨
      0xF00024000C ≤ q.at i j) : t.reg q i j = s.reg q i j :=
  h.same.reg q i j fun _ hx => acuShownWords_apart hq hx

/-- A cause that is added stands. -/
theorem AncSet.testBit_on {on : Nat} (h : AncSet s on 0 t) {k : Nat} (hk : k < 8) (hon : on.testBit k = true) :
    (t.reg R.ACU_STATUS_ANC_CAUSE).testBit k = true := by
  rw [h.cause, Nat.and_zero, Nat.sub_zero, Nat.testBit_mod_two_pow, Nat.testBit_or, hon]
  simp [hk]

/-- Bits taken away leave the others. -/
theorem testBit_sub_and (a b i : Nat) : (a - (a &&& b)).testBit i = (a.testBit i && !b.testBit i) := by
  have hle : a &&& b ≤ a := Nat.and_le_left
  have hdiv : (a &&& b) / 2 = a / 2 &&& b / 2 := Nat.and_div_two
  have hmod := @Nat.and_mod_two_eq_one a b
  induction i generalizing a b with
  | zero =>
    rw [Nat.testBit_zero, Nat.testBit_zero, Nat.testBit_zero]
    have hiff : (a - (a &&& b)) % 2 = 1 ↔ a % 2 = 1 ∧ ¬ b % 2 = 1 := by omega
    rw [Bool.eq_iff_iff]
    simp [hiff]
  | succ i ih =>
    have hhalf : (a - (a &&& b)) / 2 = a / 2 - (a / 2 &&& b / 2) := by
      rw [← hdiv]
      omega
    rw [Nat.testBit_succ, Nat.testBit_succ, Nat.testBit_succ, hhalf]
    exact ih _ _ Nat.and_le_left Nat.and_div_two Nat.and_mod_two_eq_one

/-- A cause taken away is gone. -/
theorem AncSet.testBit_off {off : Nat} (h : AncSet s 0 off t) {k : Nat} (hoff : off.testBit k = true) :
    (t.reg R.ACU_STATUS_ANC_CAUSE).testBit k = false := by
  rw [h.cause, Nat.testBit_mod_two_pow, testBit_sub_and, hoff]
  simp

/-! ### The levels of the mute -/

/-- The asserted levels and their disagreement, as `muteLevels` shows them first. -/
def State.showMutes (s : State) (a b : Bool) : State :=
  let u := (s.setReg R.ACU_MUTE_A (ofBool a)).setReg R.ACU_MUTE_B (ofBool b)
  if a = b then { u with acu.disc := none }.setReg R.ACU_MUTE_DISC 0
  else if s.flag R.ACU_MUTE_A = a ∧ s.flag R.ACU_MUTE_B = b then u
  else { u with acu.disc := some u.tick }.setReg R.ACU_MUTE_DISC 0

theorem State.muteLevels_eq (s : State) (a b : Bool) :
    s.muteLevels a b =
      if (a || b) && !s.flag R.ACU_MUTE_MUTED then
        let u := ((s.showMutes a b).setReg R.ACU_MUTE_MUTED 1).incReg R.ACU_MUTES_COUNT
        { u with acu.mute := u.acu.mute.slope 0 40 }.ancCause 2 0
      else if s.flag R.ACU_MUTE_MUTED && !a && !b then
        let u := (s.showMutes a b).setReg R.ACU_MUTE_MUTED 0
        { u with acu.mute := u.acu.mute.slope 32768 480 }.ancCause 0 2
      else s.showMutes a b := by
  rw [State.muteLevels, State.showMutes]

/-- Both levels as shown, with the rest of ACU.MUTE as it was. -/
structure MutesShown (s : State) (a b : Bool) (t : State) : Prop where
  eq : t = { s with regs := t.regs, acu := { s.acu with disc := t.acu.disc } }
  wf : Sparse.wf 0#32 t.regs = true
  levelA : t.reg R.ACU_MUTE_A = ofBool a
  levelB : t.reg R.ACU_MUTE_B = ofBool b
  muted : t.reg R.ACU_MUTE_MUTED = s.reg R.ACU_MUTE_MUTED
  same : SameRegistersBut [(R.ACU_MUTE_A, 0, 0)] s t

theorem ofBool_lt (b : Bool) : ofBool b < 2 := by cases b <;> decide

theorem State.setMutes_shown (hwf : Sparse.wf 0#32 s.regs = true) (a b : Bool) :
    MutesShown s a b ((s.setReg R.ACU_MUTE_A (ofBool a)).setReg R.ACU_MUTE_B (ofBool b)) := by
  have heq := s.setReg_eq R.ACU_MUTE_A (ofBool a) 0 0
  have hwf1 := s.setReg_wf R.ACU_MUTE_A (ofBool a) 0 0 hwf
  have heq2 := State.setReg_eq_of heq R.ACU_MUTE_B (ofBool b) 0 0
  refine ⟨heq2.trans (by rw [State.setReg_acu, State.setReg_acu]), State.setReg_wf _ _ _ _ _ hwf1, ?_, ?_, ?_,
    (s.sameRegistersBut_setReg _ _ _ _ hwf List.mem_cons_self).trans
      (State.sameRegistersBut_setReg_word R.ACU_MUTE_B R.ACU_MUTE_A hwf1 List.mem_cons_self (by decide) (by decide))⟩
  · rw [State.reg_setReg_apart hwf1 (by decide), State.reg_setReg_same _ _ _ _ _ hwf (by decide)]
    exact Nat.mod_eq_of_lt (ofBool_lt a)
  · rw [State.reg_setReg_same _ _ _ _ _ hwf1 (by decide)]
    exact Nat.mod_eq_of_lt (ofBool_lt b)
  · rw [State.reg_setReg_apart hwf1 (by decide), State.reg_setReg_apart hwf (by decide)]

/-- A disagreement that ends, or begins to be timed, clears DISC. -/
theorem MutesShown.setDisc {a b : Bool} (h : MutesShown s a b t) (d : Option Nat) :
    MutesShown s a b (({ t with acu.disc := d } : State).setReg R.ACU_MUTE_DISC 0) := by
  generalize hu : ({ t with acu.disc := d } : State) = u
  have huregs : u.regs = t.regs := by rw [← hu]
  have huwf : Sparse.wf 0#32 u.regs = true := by rw [huregs]; exact h.wf
  have hacu : u.acu = { s.acu with disc := d } := by rw [← hu, h.eq]
  refine ⟨?_, u.setReg_wf _ _ _ _ huwf, ?_, ?_, ?_, (h.same.of_regs rfl huregs).trans
    (State.sameRegistersBut_setReg_word R.ACU_MUTE_DISC R.ACU_MUTE_A huwf List.mem_cons_self (by decide) (by decide))⟩
  · rw [State.setReg_acu, hacu, State.setReg_eq u, ← hu, h.eq]
  · rw [State.reg_setReg_apart huwf (by decide), State.reg_of_regs huregs, h.levelA]
  · rw [State.reg_setReg_apart huwf (by decide), State.reg_of_regs huregs, h.levelB]
  · rw [State.reg_setReg_apart huwf (by decide), State.reg_of_regs huregs, h.muted]

theorem State.showMutes_shown (hwf : Sparse.wf 0#32 s.regs = true) (a b : Bool) : MutesShown s a b (s.showMutes a b) := by
  have h := State.setMutes_shown hwf a b
  rw [State.showMutes]
  split
  · exact h.setDisc none
  split
  · exact h
  · exact h.setDisc _

/-- A mute that sets in: shown, counted, ramped down, and a cause of the anti-noise. -/
theorem State.muteLevels_onset (hwf : Sparse.wf 0#32 s.regs = true) {a b : Bool} (hab : (a || b) = true)
    (hm : s.flag R.ACU_MUTE_MUTED = false) :
    (s.muteLevels a b).reg R.ACU_MUTE_MUTED = 1 ∧ (s.muteLevels a b).reg R.ACU_MUTE_A = ofBool a ∧
      (s.muteLevels a b).reg R.ACU_MUTE_B = ofBool b ∧ ((s.muteLevels a b).reg R.ACU_STATUS_ANC_CAUSE).testBit 1 = true ∧
      (s.muteLevels a b).reg R.ACU_MUTES_COUNT = min (s.reg R.ACU_MUTES_COUNT + 1) (2 ^ R.ACU_MUTES_COUNT.width - 1) ∧
      (s.muteLevels a b).acu.mute = s.acu.mute.slope 0 40 ∧ (s.muteLevels a b).mem = s.mem := by
  have h := State.showMutes_shown hwf a b
  rw [State.muteLevels_eq, if_pos (by simp [hab, hm])]
  dsimp only
  generalize s.showMutes a b = v at h ⊢
  have hwf1 := v.setReg_wf R.ACU_MUTE_MUTED 1 0 0 h.wf
  have hwf2 := State.incReg_wf _ R.ACU_MUTES_COUNT 0 0 1 hwf1
  have hacu : ((v.setReg R.ACU_MUTE_MUTED 1).incReg R.ACU_MUTES_COUNT).acu = v.acu := by rw [State.incReg_acu, State.setReg_acu]
  have hmem : ((v.setReg R.ACU_MUTE_MUTED 1).incReg R.ACU_MUTES_COUNT).mem = v.mem := by rw [State.incReg_mem, State.setReg_mem]
  have hreg (q : RegRow) (hc : R.ACU_MUTES_COUNT.Apart q 0 0 0 0) (hq : R.ACU_MUTE_MUTED.Apart q 0 0 0 0) :
      ((v.setReg R.ACU_MUTE_MUTED 1).incReg R.ACU_MUTES_COUNT).reg q = v.reg q := by
    rw [State.incReg, State.reg_setReg_apart hwf1 hc, State.reg_setReg_apart h.wf hq]
  have hmuted : ((v.setReg R.ACU_MUTE_MUTED 1).incReg R.ACU_MUTES_COUNT).reg R.ACU_MUTE_MUTED = 1 := by
    rw [State.incReg, State.reg_setReg_apart hwf1 (by decide), State.reg_setReg_same _ _ _ _ _ h.wf (by decide)]
    rfl
  have hcount : ((v.setReg R.ACU_MUTE_MUTED 1).incReg R.ACU_MUTES_COUNT).reg R.ACU_MUTES_COUNT =
      min (s.reg R.ACU_MUTES_COUNT + 1) (2 ^ R.ACU_MUTES_COUNT.width - 1) := by
    rw [State.reg_incReg_same _ _ _ _ _ hwf1 (by decide), State.reg_setReg_apart h.wf (by decide),
      h.same.reg R.ACU_MUTES_COUNT 0 0 (by decide)]
  generalize (v.setReg R.ACU_MUTE_MUTED 1).incReg R.ACU_MUTES_COUNT = w at hwf2 hacu hmem hreg hmuted hcount ⊢
  generalize hx : ({ w with acu.mute := w.acu.mute.slope 0 40 } : State) = x
  have hxregs : x.regs = w.regs := by rw [← hx]
  have hset := State.ancCause_set (s := x) (by rw [hxregs]; exact hwf2) 2 0
  refine ⟨?_, ?_, ?_, hset.testBit_on (by decide) (by decide), ?_, ?_, ?_⟩
  · rw [hset.reg _ _ _ (by decide), State.reg_of_regs hxregs, hmuted]
  · rw [hset.reg _ _ _ (by decide), State.reg_of_regs hxregs, hreg _ (by decide) (by decide), h.levelA]
  · rw [hset.reg _ _ _ (by decide), State.reg_of_regs hxregs, hreg _ (by decide) (by decide), h.levelB]
  · rw [hset.reg _ _ _ (by decide), State.reg_of_regs hxregs, hcount]
  · rw [hset.mute, ← hx]
    dsimp only
    rw [hacu, h.eq]
  · rw [hset.mem, ← hx]
    dsimp only
    rw [hmem, h.eq]

/-- A mute that is released. -/
theorem State.muteLevels_release (hwf : Sparse.wf 0#32 s.regs = true) (hm : s.flag R.ACU_MUTE_MUTED = true) :
    (s.muteLevels false false).reg R.ACU_MUTE_MUTED = 0 ∧ (s.muteLevels false false).reg R.ACU_MUTE_A = 0 ∧
      (s.muteLevels false false).reg R.ACU_MUTE_B = 0 ∧ ((s.muteLevels false false).reg R.ACU_STATUS_ANC_CAUSE).testBit 1 = false ∧
      (s.muteLevels false false).acu.mute = s.acu.mute.slope 32768 480 ∧ (s.muteLevels false false).mem = s.mem := by
  have h := State.showMutes_shown hwf false false
  rw [State.muteLevels_eq, if_neg (by simp), if_pos (by simp [hm])]
  dsimp only
  generalize s.showMutes false false = v at h ⊢
  have hwf1 := v.setReg_wf R.ACU_MUTE_MUTED 0 0 0 h.wf
  have hacu : (v.setReg R.ACU_MUTE_MUTED 0).acu = v.acu := State.setReg_acu ..
  have hmem : (v.setReg R.ACU_MUTE_MUTED 0).mem = v.mem := State.setReg_mem ..
  have hmuted : (v.setReg R.ACU_MUTE_MUTED 0).reg R.ACU_MUTE_MUTED = 0 := State.reg_setReg_same _ _ _ _ _ h.wf (by decide)
  have hreg (q : RegRow) (hq : R.ACU_MUTE_MUTED.Apart q 0 0 0 0) : (v.setReg R.ACU_MUTE_MUTED 0).reg q = v.reg q :=
    State.reg_setReg_apart h.wf hq
  generalize v.setReg R.ACU_MUTE_MUTED 0 = w at hwf1 hacu hmem hmuted hreg ⊢
  generalize hx : ({ w with acu.mute := w.acu.mute.slope 32768 480 } : State) = x
  have hxregs : x.regs = w.regs := by rw [← hx]
  have hset := State.ancCause_set (s := x) (by rw [hxregs]; exact hwf1) 0 2
  refine ⟨?_, ?_, ?_, hset.testBit_off (by decide), ?_, ?_⟩
  · rw [hset.reg _ _ _ (by decide), State.reg_of_regs hxregs, hmuted]
  · rw [hset.reg _ _ _ (by decide), State.reg_of_regs hxregs, hreg _ (by decide), h.levelA]
    rfl
  · rw [hset.reg _ _ _ (by decide), State.reg_of_regs hxregs, hreg _ (by decide), h.levelB]
    rfl
  · rw [hset.mute, ← hx]
    dsimp only
    rw [hacu, h.eq]
  · rw [hset.mem, ← hx]
    dsimp only
    rw [hmem, h.eq]

end

/-! ### Ports -/

section

variable {s t : State}

/-- The status word stands below every port's registers. -/
theorem acuStatus_below {r : RegRow} (h : 0xF000240100 ≤ r.addr) (n : Nat) :
    R.ACU_STATUS_SP_RUN.at 0 0 + 4 * R.ACU_STATUS_SP_RUN.words ≤ r.at n 0 := by
  have h1 : R.ACU_STATUS_SP_RUN.at 0 0 = 0xF000240000 := rfl
  have h2 : R.ACU_STATUS_SP_RUN.words = 1 := rfl
  have h3 : r.at n 0 = r.addr + r.s1 * n + r.s2 * 0 := rfl
  rw [h1, h2, h3]
  omega

/-- Two fields of the status words of two ports. -/
theorem portStat_apart {r q : RegRow} (hr : r.addr = 0xF000240100) (hq : q.addr = 0xF000240100) (hr1 : r.s1 = 0x10) (hq1 : q.s1 = 0x10)
    (hr2 : r.s2 = 0) (hq2 : q.s2 = 0) (hrw : r.words = 1) (hqw : q.words = 1) (hw : 0 < q.width)
    (hb : q.lo + q.width ≤ r.lo ∨ r.lo + r.width ≤ q.lo) (i k : Nat) : r.Apart q i 0 k 0 := by
  simp only [RegRow.Apart, RegRow.at, hr, hq, hr1, hq1, hr2, hq2, hrw, hqw]
  rcases Nat.lt_trichotomy i k with h | rfl | h
  · left
    omega
  · exact .inr ⟨rfl, trivial, hw, hb⟩
  · left
    omega

theorem State.acuClock_set (hwf : Sparse.wf 0#32 s.regs = true) : ∃ on off, AncSet s on off s.acuClock := by
  rw [State.acuClock]
  split
  · exact ⟨_, _, State.ancCause_set hwf _ _⟩
  · exact ⟨_, _, State.ancCause_set hwf _ _⟩

/-- What a clock source that locks starts: the sample path and the masters' locks, and no register else. -/
structure ClockStarted (s t : State) : Prop where
  eq : t = { s with regs := t.regs }
  wf : Sparse.wf 0#32 t.regs = true
  fault : ∀ p, t.reg R.ACU_PORT_STAT_FAULT p = s.reg R.ACU_PORT_STAT_FAULT p
  locked : ∀ p, s.reg R.ACU_PORT_STAT_LOCKED p = 1 → t.reg R.ACU_PORT_STAT_LOCKED p = 1

theorem ClockStarted.setLocked {p : Nat} (h : ClockStarted s t) : ClockStarted s (t.setReg R.ACU_PORT_STAT_LOCKED 1 p) where
  eq := State.setReg_eq_of h.eq ..
  wf := t.setReg_wf _ _ _ _ h.wf
  fault q := by
    rw [State.reg_setReg_apart h.wf (portStat_apart rfl rfl rfl rfl rfl rfl rfl rfl (by decide) (by decide) p q), h.fault]
  locked q hq := by
    by_cases hpq : q = p
    · rw [hpq, State.reg_setReg_same _ _ _ _ _ h.wf (by decide)]
      rfl
    · rw [State.reg_setReg_other _ _ _ _ _ _ _ _ h.wf, h.locked q hq]
      simp only [RegRow.at, RegRow.words, R.ACU_PORT_STAT_LOCKED]
      omega

theorem State.clockStart_started (hwf : Sparse.wf 0#32 s.regs = true) (n : Nat) : ClockStarted s (s.clockStart n) ∧
    (field s.audio 0 1 = n + 1 → (s.clockStart n).reg R.ACU_STATUS_SP_RUN = 1) := by
  rw [State.clockStart]
  split
  · have hwf1 := s.setReg_wf R.ACU_STATUS_SP_RUN 1 0 0 hwf
    have hrun : (s.setReg R.ACU_STATUS_SP_RUN 1).reg R.ACU_STATUS_SP_RUN = 1 := State.reg_setReg_same _ _ _ _ _ hwf (by decide)
    have h1 : ClockStarted s (s.setReg R.ACU_STATUS_SP_RUN 1) := by
      refine ⟨s.setReg_eq .., hwf1, fun p => ?_, fun p hp => ?_⟩
      · exact State.reg_setReg_apart hwf (.inl (.inr (acuStatus_below (by decide) p)))
      · rw [State.reg_setReg_apart hwf (.inl (.inr (acuStatus_below (by decide) p))), hp]
    have hfold := List.foldlRecOn (motive := fun t => ClockStarted s t ∧ t.reg R.ACU_STATUS_SP_RUN = 1) (List.range 6)
      (fun s p => if portOn (audPort s.audio p) ∧ portMaster (audPort s.audio p) then s.setReg R.ACU_PORT_STAT_LOCKED 1 p else s)
      (b := s.setReg R.ACU_STATUS_SP_RUN 1) ⟨h1, hrun⟩ fun t ⟨ht, hr⟩ p _ => by
        split
        · exact ⟨ht.setLocked, by rw [State.reg_setReg_apart ht.wf (.inl (.inl (acuStatus_below (by decide) p))), hr]⟩
        · exact ⟨ht, hr⟩
    exact ⟨hfold.1, fun _ => hfold.2⟩
  · next h => exact ⟨⟨rfl, hwf, fun _ => rfl, fun _ h => h⟩, fun h' => absurd h' h⟩

theorem portStat_above {r : RegRow} (h : 0xF000240100 ≤ r.addr) (n : Nat) :
    r.at n 0 + 4 * r.words ≤ 0xF000240000 ∨ (0xF000240004 ≤ r.at n 0 ∧ r.at n 0 + 4 * r.words ≤ 0xF000240008) ∨
      0xF00024000C ≤ r.at n 0 := by
  rw [RegRow.at]
  omega

/-- A port shown locked, its fault over. -/
theorem State.clearFault_spec (s : State) (hwf : Sparse.wf 0#32 s.regs = true) (n : Nat) :
    let t := (s.setReg R.ACU_PORT_STAT_FAULT 0 n).setReg R.ACU_PORT_STAT_LOCKED 1 n
    Sparse.wf 0#32 t.regs = true ∧ t.reg R.ACU_PORT_STAT_LOCKED n = 1 ∧ t.reg R.ACU_PORT_STAT_FAULT n = 0 ∧
      t = { s with regs := t.regs } := by
  have hwf1 := s.setReg_wf R.ACU_PORT_STAT_FAULT 0 n 0 hwf
  refine ⟨State.setReg_wf _ _ _ _ _ hwf1, ?_, ?_, State.setReg_eq_of (s.setReg_eq ..) ..⟩
  · rw [State.reg_setReg_same _ _ _ _ _ hwf1 (by decide)]
    rfl
  · rw [State.reg_setReg_apart hwf1 (portStat_apart rfl rfl rfl rfl rfl rfl rfl rfl (by decide) (by decide) n n),
      State.reg_setReg_same _ _ _ _ _ hwf (by decide)]
    rfl

/-- A port shown in fault, its lock lost. -/
theorem State.setFault_spec (s : State) (hwf : Sparse.wf 0#32 s.regs = true) (n : Nat) :
    let t := (s.setReg R.ACU_PORT_STAT_LOCKED 0 n).setReg R.ACU_PORT_STAT_FAULT 1 n
    Sparse.wf 0#32 t.regs = true ∧ t.reg R.ACU_PORT_STAT_LOCKED n = 0 ∧ t.reg R.ACU_PORT_STAT_FAULT n = 1 ∧
      t.reg R.ACU_STATUS_SP_RUN = s.reg R.ACU_STATUS_SP_RUN ∧ t = { s with regs := t.regs } := by
  have hwf1 := s.setReg_wf R.ACU_PORT_STAT_LOCKED 0 n 0 hwf
  refine ⟨State.setReg_wf _ _ _ _ _ hwf1, ?_, ?_, ?_, State.setReg_eq_of (s.setReg_eq ..) ..⟩
  · rw [State.reg_setReg_apart hwf1 (portStat_apart rfl rfl rfl rfl rfl rfl rfl rfl (by decide) (by decide) n n),
      State.reg_setReg_same _ _ _ _ _ hwf (by decide)]
    rfl
  · rw [State.reg_setReg_same _ _ _ _ _ hwf1 (by decide)]
    rfl
  · rw [State.reg_setReg_apart hwf1 (.inl (.inl (acuStatus_below (by decide) n))),
      State.reg_setReg_apart hwf (.inl (.inl (acuStatus_below (by decide) n)))]

theorem State.audio_of_image (h : t.image = s.image) : t.audio = s.audio := State.sec_congr h 7

end

end Sys2Proof.Machine

open Sys2Proof Sys2Proof.Machine

/-- Settles O51: a port's clock is lost, locks again or for the first time, and its rate changes or settles. -/
theorem audioPorts : Obligations.AudioPorts := by
  intro s e dt n hs he hup
  have hregs : e.regs = s.regs := by rw [he, State.elapse_regs]
  have hmem : e.mem = s.mem := by rw [he, State.elapse_mem]
  have hwf : Sparse.wf 0#32 e.regs = true := hregs ▸ hs.1
  refine ⟨?_, ?_, ?_, ?_, ?_⟩
  · intro hfault
    generalize hv : e.setAcuPort n { e.acuPort n with since := e.tick } = v
    have hvregs : v.regs = e.regs := by rw [← hv, State.setAcuPort]
    have hvwf : Sparse.wf 0#32 v.regs = true := by rw [hvregs]; exact hwf
    have hvmem : v.mem = e.mem := by rw [← hv, State.setAcuPort]
    have hvaudio : v.audio = e.audio := by rw [← hv]; rfl
    obtain ⟨hwf2, hlock, hflt, hrun, heq⟩ := v.setFault_spec hvwf n
    generalize hw : (v.setReg R.ACU_PORT_STAT_LOCKED 0 n).setReg R.ACU_PORT_STAT_FAULT 1 n = w at hwf2 hlock hflt hrun heq
    have hwaudio : w.audio = e.audio := (State.audio_of_image (by rw [heq])).trans hvaudio
    have hexec : exec (.portLockLoss dt n) s = .next ((((if field e.audio 0 1 = n + 1 then w.setReg R.ACU_STATUS_SP_RUN 0 else w).acuClock).incReg
        R.ACU_PORT_FAULTS_COUNT n).raise 0x70 n 0) := by
      have hx : exec (.portLockLoss dt n) s = execPortLockLoss dt n s := rfl
      rw [hx, execPortLockLoss, ← he]
      dsimp only
      rw [if_pos hup, hv, hw, hwaudio, if_neg (by simp [hfault])]
    have hwmem : w.mem = s.mem := by rw [heq]; exact hvmem.trans hmem
    have hwrun : w.flag R.ACU_STATUS_SP_RUN = e.flag R.ACU_STATUS_SP_RUN := by rw [State.flag, State.flag, hrun, State.reg_of_regs hvregs]
    obtain ⟨x, hx, hxwf, hxlock, hxflt, hxrun, hxmem⟩ : ∃ x, x = (if field e.audio 0 1 = n + 1 then w.setReg R.ACU_STATUS_SP_RUN 0 else w) ∧
        Sparse.wf 0#32 x.regs = true ∧ x.reg R.ACU_PORT_STAT_LOCKED n = 0 ∧ x.reg R.ACU_PORT_STAT_FAULT n = 1 ∧
        x.flag R.ACU_STATUS_SP_RUN = (if field e.audio 0 1 = n + 1 then false else e.flag R.ACU_STATUS_SP_RUN) ∧ x.mem = s.mem := by
      refine ⟨_, rfl, ?_⟩
      split
      · refine ⟨w.setReg_wf _ _ _ _ hwf2, ?_, ?_, ?_, by rw [State.setReg_mem, hwmem]⟩
        · rw [State.reg_setReg_apart hwf2 (.inl (.inr (acuStatus_below (by decide) n))), hlock]
        · rw [State.reg_setReg_apart hwf2 (.inl (.inr (acuStatus_below (by decide) n))), hflt]
        · rw [State.flag, State.reg_setReg_same _ _ _ _ _ hwf2 (by decide)]
          rfl
      · exact ⟨hwf2, hlock, hflt, hwrun, hwmem⟩
    rw [← hx] at hexec
    obtain ⟨on, off, hset⟩ := State.acuClock_set hxwf
    refine ⟨_, hexec, ?_, ?_, ?_, sameMemory_of_mem ?_⟩
    · rw [State.flag, State.incReg, State.reg_setReg_sameElement _ R.ACU_PORT_FAULTS_COUNT R.ACU_PORT_STAT_FAULT _ n hset.wf rfl (by decide),
        hset.reg _ _ _ (portStat_above (by decide) n), hxflt]
      rfl
    · rw [State.flag, State.incReg, State.reg_setReg_sameElement _ R.ACU_PORT_FAULTS_COUNT R.ACU_PORT_STAT_LOCKED _ n hset.wf rfl (by decide),
        hset.reg _ _ _ (portStat_above (by decide) n), hxlock]
      rfl
    · rw [State.flag, State.incReg, State.reg_setReg_apart hset.wf (.inl (.inl (acuStatus_below (by decide) n))), hset.run]
      exact hxrun
    · rw [State.incReg_mem, hset.mem, hxmem]
  · intro hf hlate
    obtain ⟨hwf2, hlock, hflt, heq⟩ := e.clearFault_spec hwf n
    generalize hw : (e.setReg R.ACU_PORT_STAT_FAULT 0 n).setReg R.ACU_PORT_STAT_LOCKED 1 n = w at hwf2 hlock hflt heq
    obtain ⟨x, hx, hxregs, hxmem, hximage⟩ : ∃ x, x = (if (w.acuPort n).change.isNone ∧ (w.acuPort n).ramp.tgt = 0 then
        w.setAcuPort n { w.acuPort n with ramp := (w.acuPort n).ramp.slope 32768 480 } else w) ∧ x.regs = w.regs ∧ x.mem = w.mem ∧
        x.image = w.image := by
      refine ⟨_, rfl, ?_⟩
      split
      · exact ⟨rfl, rfl, rfl⟩
      · exact ⟨rfl, rfl, rfl⟩
    have hexec : exec (.portRelock dt n) s = .next (x.clockStart n).acuClock := by
      refine congrArg Host.Outcome.next ?_
      rw [← he, if_pos ⟨hup, hf, hlate⟩, hw, hx]
    have hxwf : Sparse.wf 0#32 x.regs = true := by rw [hxregs]; exact hwf2
    have hxaudio : x.audio = e.audio := State.audio_of_image (hximage.trans (by rw [heq]))
    obtain ⟨hstart, hrun⟩ := State.clockStart_started hxwf n
    obtain ⟨on, off, hset⟩ := State.acuClock_set hstart.wf
    refine ⟨_, hexec, ?_, ?_, fun hsrc => ?_, sameMemory_of_mem ?_⟩
    · rw [State.flag, hset.reg _ _ _ (portStat_above (by decide) n), hstart.fault, State.reg_of_regs hxregs, hflt]
      rfl
    · rw [State.flag, hset.reg _ _ _ (portStat_above (by decide) n), hstart.locked n (by rw [State.reg_of_regs hxregs, hlock])]
      rfl
    · rw [State.flag, hset.run, hrun (by rw [hxaudio]; exact hsrc)]
      rfl
    · have hwmem : w.mem = e.mem := by rw [heq]
      rw [hset.mem, hstart.eq]
      exact hxmem.trans (hwmem.trans hmem)
  · intro hsrc hlock
    generalize hv : e.setAcuPort n { e.acuPort n with since := e.tick } = v
    have hvregs : v.regs = e.regs := by rw [← hv, State.setAcuPort]
    have hvwf : Sparse.wf 0#32 v.regs = true := by rw [hvregs]; exact hwf
    have hvmem : v.mem = e.mem := by rw [← hv, State.setAcuPort]
    have hvaudio : v.audio = e.audio := by rw [← hv]; rfl
    have hwf1 := v.setReg_wf R.ACU_PORT_STAT_LOCKED 1 n 0 hvwf
    have hlocked : (v.setReg R.ACU_PORT_STAT_LOCKED 1 n).reg R.ACU_PORT_STAT_LOCKED n = 1 := State.reg_setReg_same _ _ _ _ _ hvwf (by decide)
    have haudio : (v.setReg R.ACU_PORT_STAT_LOCKED 1 n).audio = e.audio := (State.audio_of_image (State.setReg_image ..)).trans hvaudio
    obtain ⟨hstart, hrun⟩ := State.clockStart_started hwf1 n
    have hshown := State.acuShow_shown hstart.wf
    have hexec : exec (.portFirstLock dt n) s = .next ((v.setReg R.ACU_PORT_STAT_LOCKED 1 n).clockStart n).acuShow := by
      refine congrArg Host.Outcome.next ?_
      rw [← he, if_pos ⟨hup, hsrc, hlock⟩, hv]
    refine ⟨_, hexec, ?_, ?_, sameMemory_of_mem ?_⟩
    · rw [State.flag, hshown.reg _ _ _ (portStat_above (by decide) n), hstart.locked n hlocked]
      rfl
    · rw [State.flag, hshown.run, hrun (by rw [haudio]; exact hsrc)]
      rfl
    · rw [hshown.eq]
      dsimp only
      rw [hstart.eq]
      dsimp only
      rw [State.setReg_mem, hvmem, hmem]
  · intro sel hsel hramp hfault
    generalize hv : e.setAcuPort n { e.acuPort n with change := none, ramp := (e.acuPort n).ramp.slope 32768 480 } = v
    have hvregs : v.regs = e.regs := by rw [← hv, State.setAcuPort]
    have hvwf : Sparse.wf 0#32 v.regs = true := by rw [hvregs]; exact hwf
    have hvmem : v.mem = e.mem := by rw [← hv, State.setAcuPort]
    have hwf1 := v.setReg_wf R.ACU_PORT_STAT_ALT (ofBool sel) n 0 hvwf
    have hexec : exec (.rateSwitch dt n) s =
        .next ((v.setReg R.ACU_PORT_STAT_ALT (ofBool sel) n).incReg R.ACU_RATE_CHANGES_COUNT) := by
      refine congrArg Host.Outcome.next ?_
      rw [← he, hsel]
      dsimp only
      rw [if_pos ⟨hup, hramp, hfault⟩, hv]
    have hbelow : R.ACU_RATE_CHANGES_COUNT.at 0 0 + 4 * R.ACU_RATE_CHANGES_COUNT.words ≤ R.ACU_PORT_STAT_ALT.at n 0 := by
      simp only [RegRow.at, RegRow.words, R.ACU_RATE_CHANGES_COUNT, R.ACU_PORT_STAT_ALT]
      omega
    refine ⟨_, hexec, ?_, ?_, sameMemory_of_mem ?_, ?_⟩
    · rw [State.flag, State.incReg, State.reg_setReg_apart hwf1 (.inl (.inr hbelow)), State.reg_setReg_same _ _ _ _ _ hvwf (by decide)]
      cases sel <;> rfl
    · rw [State.reg_incReg_same _ _ _ _ _ hwf1 (by decide), State.reg_setReg_apart hvwf (.inl (.inl hbelow)), State.reg_of_regs hvregs]
    · rw [State.incReg_mem, State.setReg_mem, hvmem, hmem]
    · have h1 := v.sameRegistersBut_setReg (l := [(R.ACU_PORT_STAT_ALT, n, 0), (R.ACU_RATE_CHANGES_COUNT, 0, 0)]) R.ACU_PORT_STAT_ALT
        (ofBool sel) n 0 hvwf List.mem_cons_self
      have h2 := State.sameRegistersBut_setReg (l := [(R.ACU_PORT_STAT_ALT, n, 0), (R.ACU_RATE_CHANGES_COUNT, 0, 0)])
        (v.setReg R.ACU_PORT_STAT_ALT (ofBool sel) n) R.ACU_RATE_CHANGES_COUNT
        (min ((v.setReg R.ACU_PORT_STAT_ALT (ofBool sel) n).reg R.ACU_RATE_CHANGES_COUNT + 1) (2 ^ R.ACU_RATE_CHANGES_COUNT.width - 1)) 0 0 hwf1
        (List.mem_cons_of_mem _ List.mem_cons_self)
      exact (h1.trans h2).of_regs (hregs.symm.trans hvregs.symm) rfl
  · intro hmaster halt hfault
    generalize hv : e.setAcuPort n { e.acuPort n with change := none, ramp := Ramp.at 0, since := e.tick } = v
    have hvregs : v.regs = e.regs := by rw [← hv, State.setAcuPort]
    have hvwf : Sparse.wf 0#32 v.regs = true := by rw [hvregs]; exact hwf
    have hvmem : v.mem = e.mem := by rw [← hv, State.setAcuPort]
    have hvalt : v.flag R.ACU_PORT_STAT_ALT n = e.flag R.ACU_PORT_STAT_ALT n := by rw [State.flag, State.flag, State.reg_of_regs hvregs]
    have hwf1 := v.setReg_wf R.ACU_PORT_STAT_CHANGING 0 n 0 hvwf
    have hexec : exec (.slaveRateSettle dt n) s =
        .next ((v.setReg R.ACU_PORT_STAT_CHANGING 0 n).setReg R.ACU_PORT_STAT_ALT (ofBool !(v.flag R.ACU_PORT_STAT_ALT n)) n) := by
      refine congrArg Host.Outcome.next ?_
      rw [← he, if_pos ⟨hup, hmaster, halt, hfault⟩, ← hv]
    refine ⟨_, hexec, ?_, ?_, sameMemory_of_mem ?_, ?_⟩
    · rw [State.flag, State.reg_setReg_same _ _ _ _ _ hwf1 (by decide), hvalt]
      cases e.flag R.ACU_PORT_STAT_ALT n <;> rfl
    · rw [State.flag, State.reg_setReg_apart hwf1 (portStat_apart rfl rfl rfl rfl rfl rfl rfl rfl (by decide) (by decide) n n),
        State.reg_setReg_same _ _ _ _ _ hvwf (by decide)]
      rfl
    · rw [State.setReg_mem, State.setReg_mem, hvmem, hmem]
    · have h1 := State.sameRegistersBut_setReg_word (s := v) (l := [(R.ACU_PORT_STAT_ALT, n, 0)]) R.ACU_PORT_STAT_CHANGING R.ACU_PORT_STAT_ALT
        (v := 0) (i := n) (j := 0) hvwf List.mem_cons_self rfl (by decide)
      have h2 := State.sameRegistersBut_setReg (l := [(R.ACU_PORT_STAT_ALT, n, 0)]) (v.setReg R.ACU_PORT_STAT_CHANGING 0 n)
        R.ACU_PORT_STAT_ALT (ofBool !(v.flag R.ACU_PORT_STAT_ALT n)) n 0 hwf1 List.mem_cons_self
      exact (h1.trans h2).of_regs (hregs.symm.trans hvregs.symm) rfl
end


section
/-!
SUPPORT. Commands that end with a stored string, and the streams, slots and vision sources they change.
-/

namespace Sys2Proof.Machine

open Sys2Proof

/-- A store in the state that a command's work left, and the command's end: what stands in memory, and all that has changed beside it. -/
theorem Eff.write_finish {s e v : State} {id a : Nat} {c : Cmd} {bs : List Byte} (p : Nat) (hcmds : v.cmds = e.cmds) (hmem : v.mem = s.mem)
    (hw : v.wrote = none) (hwf : Sparse.wf 0#8 s.mem = true) (hc : e.cmd? id = some c) (hbad : v.badWords a bs.length = []) :
    ∃ t, Eff.write p a bs v = (.ok (), t) ∧ (t.finish id {}).Executed id 0 0 0 ∧ SameCommandsBut id e (t.finish id {}) ∧
      (t.finish id {}).bytes a bs.length = bs ∧ SameMemoryBut a bs.length s (t.finish id {}) ∧
      (t.finish id {}) = { v with mem := (t.finish id {}).mem, regs := (t.finish id {}).regs
                                  regulators := (t.finish id {}).regulators, cmds := (t.finish id {}).cmds } := by
  obtain ⟨t, ht, hst⟩ := Eff.write_stores (p := p) hw hbad
  obtain ⟨hx, ho, heq⟩ := State.finish_ends_of_cmds (d := {}) (n := 0) hc (hst.cmds.trans hcmds) (hst.wrote.trans hw)
  have hm : (t.finish id {}).mem = t.mem := by rw [heq]
  refine ⟨t, ht, hx, ho, ?_, sameMemoryBut_of_setBytes (hmem ▸ hwf) (hm.trans hst.mem) hmem, heq.trans (by rw [heq, hst.eq])⟩
  rw [State.bytes_of_mem hm]
  exact hst.bytes (hmem ▸ hwf)

/-- A stored word reads back. -/
theorem State.load_of_leBytes {s : State} {a k : Nat} (h : s.bytes a (leBytes 8 k).length = leBytes 8 k) (hk : k < 2 ^ 64) :
    s.load a 8 = k := by
  rw [leBytes_length] at h
  rw [State.load, h, leNat_leBytes, Nat.mod_eq_of_lt hk]

/-! ### Vision sources -/

theorem State.setHeld_eq (s : State) (kind n : Nat) (l : List Nat) :
    s.setHeld kind n l = { s with regs := (s.setHeld kind n l).regs
                                  vis.sources := Sparse.put {} s.vis.sources (256 * kind + n) { s.visSource kind n with held := l } } := by
  rw [State.setHeld]
  dsimp only
  split
  · exact State.setReg_eq ..
  · rfl

/-- The held buffers of a source that has items or held buffers. -/
theorem State.visSource_held {s t : State} {kind n : Nat} {l : List Nat} (h : t.vis.sources = (s.setHeld kind n l).vis.sources)
    (hne : (s.visSource kind n).items ≠ []) : (t.visSource kind n).held = l := by
  rw [State.setHeld_eq] at h
  rw [State.visSource, h, Sparse.get_put_of_ne]
  intro hd
  exact hne (congrArg VisSource.items hd)

/-! ### Random streams and text slots -/

theorem State.setStream_eq (s : State) (n : Nat) (x : Option Stream) :
    s.setStream n x = { s with regs := (s.setStream n x).regs, streams := Sparse.put none s.streams n x } := by
  rw [State.setStream]
  generalize hu : ({ s with streams := Sparse.put none s.streams n x } : State) = u
  rw [State.setBit_eq, ← hu]

theorem Eff.staging_good {s : State} (h : s.health = []) (base size : Nat) : Eff.staging base size s = (.ok (), s) := by
  rw [Eff.staging, h]
  rfl

section

variable {s t e : State} {id n : Nat} {c : Cmd}

theorem State.stream_setStream_same {x : Option Stream} (hwf : Sparse.wf none s.streams = true)
    (h : t.streams = (s.setStream n x).streams) : t.stream n = x := by
  rw [State.setStream_eq] at h
  rw [State.stream, h]
  exact Sparse.get_put_same _ _ hwf

theorem State.stream_setStream_other {x : Option Stream} {k : Nat} (hwf : Sparse.wf none s.streams = true)
    (h : t.streams = (s.setStream n x).streams) (hk : k ≠ n) : t.stream k = s.stream k := by
  rw [State.setStream_eq] at h
  rw [State.stream, h]
  exact Sparse.get_put_other _ hk hwf

theorem State.slotOf_setSlot_same {x : Slot} (hwf : Sparse.wf {} s.slots = true) (h : t.slots = (s.setSlot n x).slots) :
    t.slotOf n = x := by
  rw [State.slotOf, h]
  exact Sparse.get_put_same _ _ hwf

theorem State.slotOf_setSlot_other {x : Slot} {k : Nat} (hwf : Sparse.wf {} s.slots = true) (h : t.slots = (s.setSlot n x).slots)
    (hk : k ≠ n) : t.slotOf k = s.slotOf k := by
  rw [State.slotOf, h]
  exact Sparse.get_put_other _ hk hwf

/-- An action of `sel.stream` on the stream it names. -/
theorem State.runStream_eq {action : Nat} {f : Cmd → Nat → Eff Unit} (h : e.engine id 0x6C = some c)
    (ha : bits (c.word 1) 10 8 = action) :
    e.runStream id action f = e.runEngine id 0x6C fun c => (Eff.staging selectMem 0x200000).bind fun _ => f c (bits (c.word 1) 6 0) := by
  simp only [State.runStream, h, if_pos ha]

/-- An action of `tok.slot` on the slot it names. -/
theorem State.runSlot_eq {action : Nat} {f : Cmd → Nat → Eff Unit} (h : e.engine id 0x72 = some c)
    (ha : bits (c.word 1) 10 8 = action) :
    e.runSlot id action f = e.runEngine id 0x72 fun c => f c (bits (c.word 1) 6 0) := by
  simp only [State.runSlot, h, if_pos ha]

/-- An action of `sel.stream` that ends well, in memory that is good. -/
theorem State.runStream_ok {action : Nat} {f : Cmd → Nat → Eff Unit} {u : State} (h : e.engine id 0x6C = some c) (hw : e.wrote = none)
    (hab : c.aborted = false) (hh : e.health = []) (ha : bits (c.word 1) 10 8 = action) (hf : f c (bits (c.word 1) 6 0) e = (.ok (), u)) :
    e.runStream id action f = u.finish id {} := by
  rw [State.runStream_eq h ha]
  refine State.runEngine_ok h hw hab ?_
  rw [Eff.bind, Eff.staging_good hh]
  exact hf

/-- An action of `tok.slot` that ends well. -/
theorem State.runSlot_ok {action : Nat} {f : Cmd → Nat → Eff Unit} {u : State} (h : e.engine id 0x72 = some c) (hw : e.wrote = none)
    (hab : c.aborted = false) (ha : bits (c.word 1) 10 8 = action) (hf : f c (bits (c.word 1) 6 0) e = (.ok (), u)) :
    e.runSlot id action f = u.finish id {} := by
  rw [State.runSlot_eq h ha]
  exact State.runEngine_ok h hw hab hf

end

end Sys2Proof.Machine

open Sys2Proof Sys2Proof.Machine

/-- Settles O39: crops, holds and releases of items, and the boxes of a resize. -/
theorem visionCommands : Obligations.VisionCommands := by
  intro s e dt id c hs he hw hab
  have hmem : e.mem = s.mem := by rw [he, State.elapse_mem]
  have hwfm : Sparse.wf 0#8 s.mem = true := hs.2.1
  have hheld (l : List Nat) (b : Nat × Nat) (x : VisSource) (hx : x = e.visSource (bits (c.word 1) 2 0) (bits (c.word 1) 12 8))
      (hb : (x.items.find? fun i => i.2 == bits (c.word 2) 31 0) = some b) (hc : e.cmd? id = some c)
      (hbad : e.badWords (c.addr 3) 8 = []) (haddr : c.addr 3 ≠ 0) :
      ∃ t, (Eff.modify fun s => s.setHeld (bits (c.word 1) 2 0) (bits (c.word 1) 12 8) l).bind (fun _ => visResult c 0) e = (.ok (), t) ∧
        (t.finish id {}).Executed id 0 0 0 ∧ SameCommandsBut id e (t.finish id {}) ∧
        ((t.finish id {}).visSource (bits (c.word 1) 2 0) (bits (c.word 1) 12 8)).held = l ∧ (t.finish id {}).load (c.addr 3) 8 = 0 ∧
        SameMemoryBut (c.addr 3) 8 s (t.finish id {}) := by
    have heq := e.setHeld_eq (bits (c.word 1) 2 0) (bits (c.word 1) 12 8) l
    generalize hv : e.setHeld (bits (c.word 1) 2 0) (bits (c.word 1) 12 8) l = v at heq
    obtain ⟨t, ht, hx0, ho, hbytes, hbut, hteq⟩ := Eff.write_finish (s := s) (bs := leBytes 8 0) (a := c.addr 3) (v := v) c.part
      (by rw [heq]) (by rw [heq]; exact hmem) (by rw [heq]; exact hw) hwfm hc
      (by rw [leBytes_length, State.badWords_congr (s := e) (by rw [heq]) (by rw [heq]), hbad])
    refine ⟨t, ?_, hx0, ho, State.visSource_held (s := e) ?_ ?_, State.load_of_leBytes hbytes (by decide), ?_⟩
    · rw [Eff.bind, Eff.modify]
      dsimp only
      rw [hv, visResult, if_neg haddr, ht]
    · rw [hteq, hv]
    · rw [← hx]
      intro hnil
      rw [hnil] at hb
      cases hb
    · rw [leBytes_length] at hbut
      exact hbut
  refine ⟨fun hx => ?_, fun b seq x hx hxs hfind hcon hbad haddr => ?_, fun b seq x hx hxs hfind hcon hbad haddr => ?_,
    fun u d hx hr hd hu => ?_⟩
  · generalize hv : ({ e with vis.crops := (bits (c.word 1) 4 0, [bits (c.word 2) 15 0, bits (c.word 2) 31 16, bits (c.word 2) 47 32,
      bits (c.word 2) 63 48]) :: e.vis.crops.filter (fun x => x.1 != bits (c.word 1) 4 0) } : State) = v
    have hexec : exec (.vfeSetCrop dt id) s = .next (v.finish id {}) := by
      refine congrArg Host.Outcome.next ?_
      rw [← he, State.runEngine_ok hx hw hab (u := v) (by rw [← hv]; rfl)]
    obtain ⟨hx0, ho, heq⟩ := State.finish_ends_of_cmds (u := v) (d := {}) (n := 0) (State.engine_cmd? hx) (by rw [← hv]) (by rw [← hv]; exact hw)
    refine ⟨_, hexec, hx0, ho, ?_, ?_⟩
    · rw [heq, ← hv]
    · exact heq.trans (by rw [heq, ← hv])
  · obtain ⟨t, ht, hrest⟩ := hheld (b :: x.held) _ x hxs hfind (State.engine_cmd? hx) hbad haddr
    refine ⟨_, congrArg Host.Outcome.next ?_, hrest⟩
    rw [← he, State.runEngine_ok hx hw hab (u := t)]
    rw [Eff.bind, Eff.get]
    dsimp only
    rw [← hxs, hfind]
    dsimp only
    rw [if_neg (by simp only [hcon, Bool.false_eq_true, not_false_eq_true]), ht]
  · obtain ⟨t, ht, hrest⟩ := hheld (x.held.filter fun y => y != b) _ x hxs hfind (State.engine_cmd? hx) hbad haddr
    refine ⟨_, congrArg Host.Outcome.next ?_, hrest⟩
    rw [← he, State.runEngine_ok hx hw hab (u := t)]
    rw [Eff.bind, Eff.get]
    dsimp only
    rw [← hxs, hfind]
    dsimp only
    rw [if_pos hcon, ht]
  · refine finish_done hd hu (congrArg Host.Outcome.next ?_)
    rw [← he, State.runEngine_ok hx hw hab hr]

/-- Settles O46: each action of `sel.stream` on its stream. -/
theorem randomStreams : Obligations.RandomStreams := by
  intro s e dt id n c hs hst he hw hab hx hn hh
  have hmem : e.mem = s.mem := by rw [he, State.elapse_mem]
  have hwfm : Sparse.wf 0#8 s.mem = true := hs.2.1
  have hc := State.engine_cmd? hx
  have hset (v : State) (x : Option Stream) (hve : v = { e with regs := v.regs, regulators := v.regulators }) :
      ((v.setStream n x).finish id {}).Executed id 0 0 0 ∧ SameCommandsBut id e ((v.setStream n x).finish id {}) ∧
        ((v.setStream n x).finish id {}).stream n = x ∧ (∀ k, k ≠ n → ((v.setStream n x).finish id {}).stream k = e.stream k) ∧
        SameMemory s ((v.setStream n x).finish id {}) := by
    have heq := v.setStream_eq n x
    obtain ⟨hx0, ho, hteq⟩ := State.finish_ends_of_cmds (u := v.setStream n x) (d := {}) (n := 0) hc (by rw [heq, hve])
      (by rw [heq, hve]; exact hw)
    have hstr : ((v.setStream n x).finish id {}).streams = (e.setStream n x).streams := by
      rw [hteq, heq, e.setStream_eq, hve]
    refine ⟨hx0, ho, State.stream_setStream_same hst hstr, fun k hk => State.stream_setStream_other hst hstr hk, sameMemory_of_mem ?_⟩
    rw [hteq, heq, hve]
    exact hmem
  refine ⟨fun ha => ?_, fun ha => ?_, fun b hb ha => ⟨fun hcrc h60 h55 h54 => ?_, fun hcrc => ?_⟩, fun ha => ?_⟩
  · obtain ⟨hx0, ho, hsame, hother, hm⟩ := hset (e.countRd c.part (c.addr 2) 48) (some (drbgInstantiate (e.bytes (c.addr 2) 48))) (e.countRd_eq ..)
    refine ⟨_, congrArg Host.Outcome.next ?_, hx0, ho, hsame, hother, hm⟩
    rw [← he, State.runStream_ok hx hw hab hh ha]
    rw [Eff.bind, Eff.read_good hh]
    dsimp only
    rw [Eff.modify, hn]
  · obtain ⟨t, ht, hx0, ho, hbytes, hbut, hteq⟩ := Eff.write_finish (s := s) (bs := streamBytes (e.stream n)) (a := c.addr 2) (v := e)
      c.part rfl hmem hw hwfm hc (State.badWords_of_good hh _ _)
    refine ⟨_, congrArg Host.Outcome.next ?_, hx0, ho, by rw [hteq], hbytes, hbut⟩
    rw [← he, State.runStream_ok hx hw hab hh ha]
    rw [Eff.bind, Eff.get]
    dsimp only
    rw [← hn, ht]
  · obtain ⟨hx0, ho, hsame, -, hm⟩ := hset (e.countRd c.part (c.addr 2) 64) (some ⟨b.take 32, slice b 32 16, field b 48 6⟩) (e.countRd_eq ..)
    refine ⟨_, congrArg Host.Outcome.next ?_, hx0, ho, hsame, hm⟩
    rw [← he, State.runStream_ok hx hw hab hh ha]
    rw [Eff.bind, Eff.read_good hh]
    dsimp only
    rw [← hb, if_neg (by simp [hcrc, h60, h55, h54]), Eff.modify, if_pos h54, hn]
  · have hr := e.countRd_eq c.part (c.addr 2) 64
    generalize hv : e.countRd c.part (c.addr 2) 64 = v at hr
    obtain ⟨hx0, -, hteq⟩ := State.finish_ends_of_cmds (u := v) (d := { status := 0x14 }) (n := 0) hc (by rw [hr]) (by rw [hr]; exact hw)
    refine ⟨_, congrArg Host.Outcome.next ?_, hx0, by rw [hteq, hr], sameMemory_of_mem (by rw [hteq, hr]; exact hmem)⟩
    rw [← he, State.runStream_eq hx ha]
    refine State.runEngine_error hx hw hab ?_
    rw [Eff.bind, Eff.staging_good hh]
    dsimp only
    rw [Eff.bind, Eff.read_good hh]
    dsimp only
    rw [← hb, if_pos (Or.inl hcrc), hv]
    rfl
  · obtain ⟨hx0, ho, hsame, hother, hm⟩ := hset e none rfl
    refine ⟨_, congrArg Host.Outcome.next ?_, hx0, ho, hsame, hother, hm⟩
    rw [← he, State.runStream_ok hx hw hab hh ha]
    rw [Eff.modify, hn]

/-- Settles O49: the slots opened and closed, and the list of the live ones. -/
theorem textSlots : Obligations.TextSlots := by
  intro s e dt id c hs he hw hab hsl hh
  have hmem : e.mem = s.mem := by rw [he, State.elapse_mem]
  have hwfm : Sparse.wf 0#8 s.mem = true := hs.2.1
  have hans (v : State) (k : Nat) (hk : k < 2 ^ 64) (hve : v = { e with slots := v.slots }) (hc : e.cmd? id = some c) (haddr : c.addr 4 ≠ 0) :
      ∃ t, slotResult c 4 k v = (.ok (), t) ∧ (t.finish id {}).Executed id 0 0 0 ∧ SameCommandsBut id e (t.finish id {}) ∧
        (t.finish id {}).load (c.addr 4) 8 = k ∧ (t.finish id {}).slots = v.slots ∧ SameMemoryBut (c.addr 4) 8 s (t.finish id {}) := by
    obtain ⟨t, ht, hx0, ho, hbytes, hbut, hteq⟩ := Eff.write_finish (s := s) (bs := leBytes 8 k) (a := c.addr 4) (v := v)
      c.part (by rw [hve]) (by rw [hve]; exact hmem) (by rw [hve]; exact hw) hwfm hc
      (State.badWords_of_good (by rw [hve]; exact hh) _ _)
    rw [leBytes_length] at hbut
    exact ⟨t, by rw [slotResult, if_neg haddr, ht], hx0, ho, State.load_of_leBytes hbytes hk, by rw [hteq], hbut⟩
  refine ⟨fun n w hn hwd hx ha haddr => ⟨fun hact => ?_, fun hact => ?_⟩, fun n hn hx ha haddr hact hfin => ?_, fun l hl hx haddr => ?_⟩
  · obtain ⟨t, ht, hx0, ho, hload, hslots, hbut⟩ := hans (e.setSlot n
      { active := true, vocab := bits w 14 12, grammar := bits w 22 16, state := bits w 47 32, maxNew := bits w 63 48
        emitSpecial := bit w 15, out := c.addr 2, outSize := bits (c.word 3) 31 0, epoch := ((e.slotOf n).epoch + 1) % 65536 })
      0 (by decide) rfl (State.engine_cmd? hx) haddr
    refine ⟨_, congrArg Host.Outcome.next ?_, hx0, ho, hload, State.slotOf_setSlot_same hsl hslots,
      fun k hk => State.slotOf_setSlot_other hsl hslots hk, hbut⟩
    rw [← he, State.runSlot_ok hx hw hab (hwd ▸ ha)]
    rw [Eff.bind, Eff.get]
    dsimp only
    rw [← hn, if_neg (by simp [hact]), ← hwd, Eff.bind, Eff.modify]
    dsimp only
    rw [ht]
  · obtain ⟨t, ht, hx0, -, hload, hslots, hbut⟩ := hans e 1 (by decide) rfl (State.engine_cmd? hx) haddr
    refine ⟨_, congrArg Host.Outcome.next ?_, hx0, hload, hslots, hbut⟩
    rw [← he, State.runSlot_ok hx hw hab (hwd ▸ ha)]
    rw [Eff.bind, Eff.get]
    dsimp only
    rw [← hn, if_pos hact, ht]
  · obtain ⟨t, ht, hx0, ho, hload, hslots, hbut⟩ := hans (e.setSlot n { e.slotOf n with active := false })
      0 (by decide) rfl (State.engine_cmd? hx) haddr
    refine ⟨_, congrArg Host.Outcome.next ?_, hx0, ho, hload, State.slotOf_setSlot_same hsl hslots,
      fun k hk => State.slotOf_setSlot_other hsl hslots hk, hbut⟩
    rw [← he, State.runSlot_ok hx hw hab ha]
    rw [Eff.bind, Eff.get]
    dsimp only
    rw [← hn, if_neg (by simp [hact]), if_pos hfin]
    rw [Eff.bind]
    simp only [List.isEmpty_nil, if_true, Eff.pure, Eff.bind, Eff.modify, ht]
  · obtain ⟨t, ht, hx0, ho, hbytes, hbut, hteq⟩ := Eff.write_finish (s := s)
      (bs := l.flatMap fun n => leBytes 4 (n + 2 ^ 16 * (e.slotOf n).epoch)) (a := c.addr 1) (v := e)
      c.part rfl hmem hw hwfm (State.engine_cmd? hx) (State.badWords_of_good hh _ _)
    have hlen : (l.flatMap fun n => leBytes 4 (n + 2 ^ 16 * (e.slotOf n).epoch)).length = 4 * l.length := by
      simp only [List.length_flatMap, leBytes_length, List.map_const', List.sum_replicate_nat, Nat.mul_comm]
    rw [hlen] at hbytes hbut
    refine ⟨_, congrArg Host.Outcome.next ?_, hx0, ho, hbytes, hbut, by rw [hteq]⟩
    rw [← he, State.runEngine_ok hx hw hab (u := t)]
    rw [Eff.bind, Eff.get]
    dsimp only
    rw [← hl, Eff.bind, ht]
    dsimp only
    rw [slotResult, if_pos haddr]
    rfl
end


section
/-!
SUPPORT. The acoustic engine's commands: held buffers, hops as they are written, and the causes a command adds and takes away.
-/

namespace Sys2Proof.Machine

open Sys2Proof

section

variable {s e t v : State} {id n a : Nat} {c : Cmd}

/-- The byte counters of a partition stand in no word of a block of four. -/
theorem State.reg_countWr (hwf : Sparse.wf 0#32 s.regs = true) {f : RegRow} (h1 : f.s1 = 0x10) (h2 : f.s2 = 0) (hw : f.words = 1)
    (ha : f.addr % 0x10 = 0) (p a n i : Nat) : (s.countWr p a n).reg f i = s.reg f i := by
  unfold State.countWr
  split
  · refine (State.reg_of_regs (s := s.incReg R.PART_WR_BYTES_BYTES p 0 n)
      (t := (s.incReg R.PART_WR_BYTES_BYTES p 0 n).grantBytes (3 * p + 1) (s.charge a n)) rfl f i 0).trans ?_
    refine State.reg_incReg_other _ _ _ _ _ _ _ _ hwf ?_
    simp only [RegRow.at, h1, h2, hw]
    simp only [R.PART_WR_BYTES_BYTES, RegRow.words]
    omega
  · rfl

/-- A store charges its partition and changes no other register. -/
theorem Eff.write_regs {p : Nat} {bs : List Byte} (hw : v.wrote = none) (hbad : v.badWords a bs.length = [])
    (h : Eff.write p a bs v = (.ok (), t)) : t.regs = (v.countWr p a bs.length).regs := by
  have hc := v.countWr_eq p a bs.length
  rw [Eff.write, State.writeMem_good (by rw [hc]; exact hw) (by rw [hc]; exact hbad)] at h
  obtain ⟨-, rfl⟩ := Prod.mk.inj h
  rw [State.setBytes_eq]

/-- An answer of an acoustic command that asks for one. -/
theorem acuResult_finish {w k : Nat} (hk : k < 2 ^ 64) (hv : v = { e with regs := v.regs, acu := v.acu }) (hmem : e.mem = s.mem)
    (hw : e.wrote = none) (hwf : Sparse.wf 0#8 s.mem = true) (hc : e.cmd? id = some c) (hh : e.health = []) (haddr : c.addr w ≠ 0) :
    ∃ t, acuResult c w k v = (.ok (), t) ∧ (t.finish id {}).Executed id 0 0 0 ∧ SameCommandsBut id e (t.finish id {}) ∧
      (t.finish id {}).load (c.addr w) 8 = k ∧ SameMemoryBut (c.addr w) 8 s (t.finish id {}) ∧ (t.finish id {}).acu = v.acu ∧
      (t.finish id {}).regs = (v.countWr c.part (c.addr w) 8).regs := by
  have hvw : v.wrote = none := by rw [hv]; exact hw
  have hbad : v.badWords (c.addr w) (leBytes 8 k).length = [] := State.badWords_of_good (by rw [hv]; exact hh) _ _
  obtain ⟨t, ht, hx0, ho, hbytes, hbut, hteq⟩ := Eff.write_finish (s := s) (bs := leBytes 8 k) (a := c.addr w) (v := v)
    c.part (by rw [hv]) (by rw [hv]; exact hmem) hvw hwf hc hbad
  have hreg := Eff.write_regs hvw hbad ht
  rw [leBytes_length] at hbut hreg
  have htc : t.cmd? id = some c ∧ t.wrote = none := by
    obtain ⟨t', ht', hst⟩ := Eff.write_stores (p := c.part) hvw hbad
    rw [ht] at ht'
    obtain rfl : t = t' := (Prod.mk.inj ht').2
    exact ⟨(State.cmd?_of_cmds (hst.cmds.trans (by rw [hv])) id).trans hc, hst.wrote.trans hvw⟩
  obtain ⟨-, hregs, -⟩ := State.finish_fields (d := {}) (n := 0) htc.1 htc.2
  exact ⟨t, by rw [acuResult, if_neg haddr, ht], hx0, ho, State.load_of_leBytes hbytes hk, hbut, by rw [hteq], hregs.trans hreg⟩

/-- Held buffers of a capture that has items. -/
theorem State.setCapHeld_held {l : List Nat} (h : t.acu = (s.setCapHeld n l).acu) (hne : (s.capture n).items ≠ []) :
    (t.capture n).held = l := by
  rw [State.capture, h, State.setCapHeld, State.setReg_acu, State.setCapture]
  dsimp only
  rw [Sparse.get_put_of_ne]
  intro hd
  exact hne (congrArg Capture.items hd)

theorem State.setCapHeld_eq (s : State) (n : Nat) (l : List Nat) :
    s.setCapHeld n l = { s with regs := (s.setCapHeld n l).regs, acu := (s.setCapHeld n l).acu } := by
  rw [State.setCapHeld]
  exact (State.setReg_eq ..).trans (by rw [State.setReg_acu]; rfl)

/-- The staging of a hop in memory that is good. -/
theorem State.hopStaging_good (h : s.health = []) (rows : List (List Int)) : s.hopStaging rows = (false, rows, s) := by
  rw [State.hopStaging, Eff.staging_good h]

/-- An action of `acu.anc` without an answer: its work and its end. -/
theorem State.runAnc_eq {action : Nat} {f : Cmd → State → State} (hx : e.engine id 0x84 = some c) (hw : e.wrote = none)
    (hab : c.aborted = false) (ha : bits (c.word 1) 1 0 = action) (haddr : c.addr 2 = 0) :
    e.runAnc id action f = (f c e).finish id {} := by
  rw [State.runAnc, State.engine_cmd? hx]
  dsimp only
  rw [if_pos ha]
  refine State.runEngine_ok hx hw hab ?_
  simp only [Eff.bind, Eff.modify, ancResult, acuResult, Eff.get, if_pos haddr, Eff.pure]

/-- A command that changes the causes of the anti-noise: it ends, and the causes stand as set. -/
theorem AncSet.finish {on off : Nat} (h : AncSet e on off v) (hc : e.cmd? id = some c) (hw : e.wrote = none) (hmem : e.mem = s.mem) :
    (v.finish id {}).Executed id 0 0 0 ∧ SameCommandsBut id e (v.finish id {}) ∧
      (v.finish id {}).reg R.ACU_STATUS_ANC_CAUSE =
        ((e.reg R.ACU_STATUS_ANC_CAUSE ||| on) - ((e.reg R.ACU_STATUS_ANC_CAUSE ||| on) &&& off)) % 2 ^ 8 ∧
      SameMemory s (v.finish id {}) := by
  obtain ⟨hx0, ho, heq⟩ := State.finish_ends_of_cmds (u := v) (d := {}) (n := 0) hc (by rw [h.eq]) (by rw [h.eq]; exact hw)
  exact ⟨hx0, ho, (State.reg_of_regs (by rw [heq]) _ _ _).trans h.cause, sameMemory_of_mem (by rw [heq, h.mem, hmem])⟩

/-- A cause added to the eight. -/
theorem ancCause_add (x on : Nat) (hx : x < 2 ^ 8) (hon : on < 2 ^ 8) : ((x ||| on) - ((x ||| on) &&& 0)) % 2 ^ 8 = x ||| on := by
  rw [Nat.and_zero, Nat.sub_zero, Nat.mod_eq_of_lt (Nat.or_lt_two_pow hx hon)]

/-- The causes of `m` that stand taken away from the eight. -/
theorem ancCause_clear (x : Nat) : ((x ||| 0) - ((x ||| 0) &&& (0x7C &&& x))) % 2 ^ 8 = x &&& 0x83 := by
  apply Nat.eq_of_testBit_eq
  intro i
  rw [Nat.testBit_mod_two_pow, testBit_sub_and, Nat.or_zero, Nat.testBit_and, Nat.testBit_and]
  by_cases hi : i < 8
  · have hrest : ∀ j < 8, Nat.testBit 0x83 j = !Nat.testBit 0x7C j := by decide
    rw [hrest i hi, decide_eq_true hi, Bool.true_and]
    cases x.testBit i with
    | false => rfl
    | true => rw [Bool.true_and, Bool.true_and, Bool.and_true]
  · rw [Nat.testBit_lt_two_pow (x := 0x83) (Nat.lt_of_lt_of_le (by decide : 0x83 < 2 ^ 8) (Nat.pow_le_pow_right (by decide) (by omega)))]
    simp [hi]

end

end Sys2Proof.Machine

open Sys2Proof Sys2Proof.Machine

/-- Settles O52: holds, releases, ducks, rates, plays and hops, and the actions of `acu.anc`. -/
theorem acousticCommands : Obligations.AcousticCommands := by
  refine ⟨fun s e dt id c hs he hw hab hh => ?_, fun s e dt id c hs he hw hab haddr hx => ?_⟩
  · have hregs : e.regs = s.regs := by rw [he, State.elapse_regs]
    have hmem : e.mem = s.mem := by rw [he, State.elapse_mem]
    have hwf : Sparse.wf 0#32 e.regs = true := hregs ▸ hs.1
    have hwfm : Sparse.wf 0#8 s.mem = true := hs.2.1
    have hitems {n k : Nat} {b : Nat × Nat} (h : ((e.capture n).items.find? fun i => i.2 == k) = some b) : (e.capture n).items ≠ [] := by
      intro hnil
      rw [hnil] at h
      cases h
    refine ⟨?_, ?_, ?_, ?_, ?_, ?_⟩
    · intro n b seq hn hx hfind hcon haddr
      obtain ⟨t, ht, hx0, ho, hload, hbut, hacu, -⟩ := acuResult_finish (s := s) (v := e.setCapHeld n (b :: (e.capture n).held)) (k := 0)
        (by decide) (e.setCapHeld_eq ..) hmem hw hwfm (State.engine_cmd? hx) hh haddr
      refine ⟨_, congrArg Host.Outcome.next ?_, hx0, ho, State.setCapHeld_held hacu (hitems hfind), hload, hbut⟩
      rw [← he, State.runEngine_ok hx hw hab (u := t)]
      rw [Eff.bind, Eff.get]
      dsimp only
      rw [← hn, hfind]
      dsimp only
      rw [if_neg (by simp only [hcon, Bool.false_eq_true, not_false_eq_true]), Eff.bind, Eff.modify]
      exact ht
    · intro n b seq hn hx hfind hcon haddr
      obtain ⟨t, ht, hx0, ho, hload, hbut, hacu, -⟩ := acuResult_finish (s := s)
        (v := e.setCapHeld n ((e.capture n).held.filter fun y => y != b)) (k := 0)
        (by decide) (e.setCapHeld_eq ..) hmem hw hwfm (State.engine_cmd? hx) hh haddr
      refine ⟨_, congrArg Host.Outcome.next ?_, hx0, ho, State.setCapHeld_held hacu (hitems hfind), hload, hbut⟩
      rw [← he, State.runEngine_ok hx hw hab (u := t)]
      rw [Eff.bind, Eff.get]
      dsimp only
      rw [← hn, hfind]
      dsimp only
      rw [if_pos hcon, Eff.bind, Eff.modify]
      exact ht
    · intro hx
      generalize hu : ({ e with acu.duck := e.acu.duck.toward (bits (c.word 1) 15 0) (48 * bits (c.word 1) 31 16) } : State) = u
      have huregs : u.regs = e.regs := by rw [← hu]
      have hshown := State.acuShow_shown (s := u) (by rw [huregs]; exact hwf)
      generalize hv : u.acuShow = v at hshown
      obtain ⟨hx0, ho, heq⟩ := State.finish_ends_of_cmds (u := v) (d := {}) (n := 0) (State.engine_cmd? hx) (by rw [hshown.eq, ← hu])
        (by rw [hshown.eq, ← hu]; exact hw)
      refine ⟨_, congrArg Host.Outcome.next ?_, hx0, ho, ?_, sameMemory_of_mem ?_⟩
      · rw [← he, State.runEngine_ok hx hw hab (u := v)]
        rw [Eff.modify, hu, hv]
      · rw [heq, hshown.eq, ← hu]
      · rw [heq, hshown.eq, ← hu]
        exact hmem
    · intro n sel hn hn6 hsel hx haddr hchg hflt
      refine ⟨fun halt => ?_, fun halt => ?_⟩
      · generalize hu : e.setAcuPort n { e.acuPort n with change := some sel, ramp := (e.acuPort n).ramp.slope 0 480 } = u
        have hueq : u = { e with acu := u.acu } := by rw [← hu]; rfl
        have huwf : Sparse.wf 0#32 u.regs = true := by rw [hueq]; exact hwf
        have hwf1 := u.setReg_wf R.ACU_PORT_STAT_CHANGING 1 n 0 huwf
        obtain ⟨t, ht, hx0, ho, hload, hbut, hacu, hreg⟩ := acuResult_finish (s := s) (v := u.setReg R.ACU_PORT_STAT_CHANGING 1 n) (k := 0)
          (by decide) ((u.setReg_eq ..).trans (by rw [State.setReg_acu, hueq])) hmem hw hwfm (State.engine_cmd? hx) hh haddr
        have hport : (t.finish id {}).acuPort n = { e.acuPort n with change := some sel, ramp := (e.acuPort n).ramp.slope 0 480 } := by
          rw [State.acuPort, hacu, State.setReg_acu, ← hu, State.setAcuPort]
          exact Sparse.get_put_of_ne _ _ fun hd => by cases congrArg AcuPort.change hd
        refine ⟨_, congrArg Host.Outcome.next ?_, hx0, by rw [hport], by rw [hport], ?_, hload, hbut⟩
        · rw [← he, State.runEngine_ok hx hw hab (u := t)]
          rw [Eff.bind, Eff.get]
          dsimp only
          rw [← hn, ← hsel, if_neg (by simp only [hchg, Bool.false_eq_true, not_false_eq_true]),
            if_neg (by simp only [hflt, Bool.false_eq_true, not_false_eq_true]), if_neg halt, Eff.bind, Eff.modify, hu]
          exact ht
        · rw [State.flag, State.reg_of_regs hreg, State.reg_countWr hwf1 rfl rfl rfl rfl, State.reg_setReg_same _ _ _ _ _ huwf (by decide)]
          rfl
      · obtain ⟨t, ht, hx0, -, hload, hbut, hacu, -⟩ := acuResult_finish (s := s) (v := e) (k := 1)
          (by decide) rfl hmem hw hwfm (State.engine_cmd? hx) hh haddr
        refine ⟨_, congrArg Host.Outcome.next ?_, hx0, hacu, hload, hbut⟩
        rw [← he, State.runEngine_ok hx hw hab (u := t)]
        rw [Eff.bind, Eff.get]
        dsimp only
        rw [← hn, ← hsel, if_neg (by simp only [hchg, Bool.false_eq_true, not_false_eq_true]),
          if_neg (by simp only [hflt, Bool.false_eq_true, not_false_eq_true]), if_pos halt, ht]
    · intro x first n ty frames chans d b hfirst hn hty hframes hchans hxe hd hb hx hne haddr hroom
      have hbytes : b = e.bytes (c.addr 2) (frames * n * playSize ty) := by
        rw [hb, hxe]
        exact State.bytes_of_mem (by rw [State.countRd_eq]) _ _
      refine ⟨_, congrArg Host.Outcome.next ?_, rfl⟩
      rw [← he, State.runEngine_ok hx hw hab]
      dsimp only
      rw [← hfirst, ← hn, ← hty, ← hframes, Eff.bind, Eff.read_good hh, ← hbytes, ← hxe]
      dsimp only
      rw [Eff.bind, Eff.get]
      dsimp only
      rw [← hchans, hroom, if_neg Bool.false_ne_true, if_neg hne, Eff.bind, Eff.modify, ← hd]
      dsimp only
      rw [acuResult, if_pos haddr]
      rfl
    · intro cap ent h l b x hcap hxe hent hready hbuf hq hoff
      have hexec : exec (.hopComplete dt cap) s = execHopComplete dt cap s := rfl
      rw [hexec, execHopComplete, ← he]
      dsimp only
      rw [← hxe, hent, hready]
      dsimp only
      rw [hbuf]
      dsimp only
      rw [State.hopStaging_good hh, ← hxe]
      dsimp only
      rw [if_pos hq]
      generalize hbody : (h.rows.reverse.flatMap fun (r : List Int) => r.flatMap (hopSample (field ent 6 1))) = body
      have hu1 := State.writeMem_of_health hh (capAddr ent b + 64) body
      generalize (e.writeMem (capAddr ent b + 64) body).2 = u1 at hu1 ⊢
      generalize hws : ([3 + 2 ^ 8 * cap + 2 ^ 16 * h.quality + 2 ^ 32 * (x.seq % 2 ^ 32), h.first, h.first, _, 0, 0, e.now] ++ [0] : List Nat) = ws
      have hu2 := State.writeMem_of_health (s := u1) (by rw [hu1]; exact hh) (capAddr ent b) (wordsBytes ws)
      generalize (u1.writeMem (capAddr ent b) (wordsBytes ws)).2 = u2 at hu2 ⊢
      generalize hu3 : u2.setCapture cap { x with seq := x.seq + 1, items := x.items ++ [(b, x.seq % 2 ^ 32)], ready := l } = u3
      have hu3regs : u3.regs = e.regs := by rw [← hu3, State.setCapture, hu2, hu1]
      rw [State.fgComplete_counted (s := e) hwf hu3regs (by decide) hoff]
      have hcapt : (u3.incReg R.ACU_CAP_HOPS_COUNT cap).capture cap =
          { x with seq := x.seq + 1, items := x.items ++ [(b, x.seq % 2 ^ 32)], ready := l } := by
        rw [State.capture, State.incReg_acu, ← hu3, State.setCapture]
        exact Sparse.get_put_of_ne _ _ fun hd => by simpa using congrArg Capture.items hd
      obtain ⟨-, hhead, -⟩ := State.itemBytes_spec (ws := ws) (s := e) (u := u1) (t := u3.incReg R.ACU_CAP_HOPS_COUNT cap) (body := body)
        (by rw [hmem]; exact hwfm) (by rw [← hws]; rfl) (by rw [hu1]) (by rw [State.incReg_mem, ← hu3, State.setCapture, hu2])
      refine ⟨_, rfl, by rw [hcapt], by rw [hcapt], by rw [hcapt], ?_, ?_, ?_⟩
      · refine (State.load_wordsBytes hhead (i := 0) (by rw [← hws]; simp)).trans ?_
        subst hws
        rfl
      · refine (State.load_wordsBytes hhead (i := 1) (by rw [← hws]; simp)).trans ?_
        subst hws
        rfl
      · rw [State.reg_incReg_same _ _ _ _ _ (hu3regs ▸ hwf) (by decide), State.reg_of_regs hu3regs]
  · have hregs : e.regs = s.regs := by rw [he, State.elapse_regs]
    have hmem : e.mem = s.mem := by rw [he, State.elapse_mem]
    have hwf : Sparse.wf 0#32 e.regs = true := hregs ▸ hs.1
    have hlt : e.reg R.ACU_STATUS_ANC_CAUSE < 2 ^ 8 := e.reg_lt R.ACU_STATUS_ANC_CAUSE 0 0 (by decide)
    refine ⟨fun ha hre hcl => ?_, fun ha => ?_, fun ha => ?_⟩
    · obtain ⟨hx0, ho, hcause, hm⟩ := (State.ancCause_set hwf 0 (0x7C &&& e.reg R.ACU_STATUS_ANC_CAUSE)).finish (s := s)
        (State.engine_cmd? hx) hw hmem
      refine ⟨_, congrArg Host.Outcome.next ?_, hx0, ho, hcause.trans (ancCause_clear _), hm⟩
      have hquiet : ¬ (bit (c.word 1) 4 = true ∨ (0x7C &&& e.reg R.ACU_STATUS_ANC_CAUSE) &&& 0x60 ≠ 0) := by
        rw [hre, Nat.and_assoc, hcl]
        simp
      rw [← he, State.runAnc_eq hx hw hab ha haddr, State.ancClear, if_neg hquiet]
    · obtain ⟨hx0, ho, hcause, hm⟩ := (State.ancCause_set hwf 8 0).finish (s := s) (State.engine_cmd? hx) hw hmem
      refine ⟨_, congrArg Host.Outcome.next ?_, hx0, ho, hcause.trans (ancCause_add _ _ hlt (by decide)), hm⟩
      rw [← he, State.runAnc_eq hx hw hab ha haddr]
    · obtain ⟨hx0, ho, hcause, hm⟩ := (State.ancCause_set hwf 4 0).finish (s := s) (State.engine_cmd? hx) hw hmem
      refine ⟨_, congrArg Host.Outcome.next ?_, hx0, ho, hcause.trans (ancCause_add _ _ hlt (by decide)), hm⟩
      rw [← he, State.runAnc_eq hx hw hab ha haddr]
end


section
/-!
SUPPORT. The copies: one run of bytes, runs one after another that lie apart, and the runs of a whole destination.
-/

namespace Sys2Proof.Machine

open Sys2Proof

/-- The address `a` lies among the `n` from `b`. -/
def Within (b n a : Nat) : Prop := b ≤ a ∧ a < b + n

/-- The bytes of a list of runs. -/
def runsLen (l : List (Nat × Nat)) : Nat := (l.map Prod.snd).sum

/-- The bytes that stand in a list of runs. -/
def State.runBytes (s : State) (l : List (Nat × Nat)) : List Byte := l.flatMap fun x => s.bytes x.1 x.2

section

variable {s t u : State} {p a n dst : Nat}

theorem State.runBytes_length (s : State) (l : List (Nat × Nat)) : (s.runBytes l).length = runsLen l := by
  induction l with
  | nil => rfl
  | cons x l ih =>
    rw [State.runBytes, List.flatMap_cons, List.length_append, State.bytes_length, ← State.runBytes, ih]
    rfl

theorem State.runBytes_of_mem (h : t.mem = s.mem) (l : List (Nat × Nat)) : t.runBytes l = s.runBytes l := by
  simp only [State.runBytes, State.bytes_of_mem h]

theorem State.runBytes_congr {l : List (Nat × Nat)} (h : ∀ x ∈ l, ∀ a, Within x.1 x.2 a → t.byte a = s.byte a) :
    t.runBytes l = s.runBytes l := by
  induction l with
  | nil => rfl
  | cons x l ih =>
    rw [State.runBytes, State.runBytes, List.flatMap_cons, List.flatMap_cons, ← State.runBytes, ← State.runBytes,
      ih fun y hy => h y (List.mem_cons_of_mem _ hy), State.bytes_congr s t _ _ fun a h1 h2 => h x List.mem_cons_self a ⟨h1, h2⟩]

/-- A byte of a string that stands in memory. -/
theorem State.byte_of_bytes {l : List Byte} {k : Nat} (h : s.bytes a n = l) (hk : k < n) : s.byte (a + k) = l.getD k 0#8 := by
  subst h
  induction n generalizing a k with
  | zero => cases hk
  | succ n ih =>
    cases k with
    | zero => rfl
    | succ k =>
      rw [State.bytes, List.getD_cons_succ, ← ih (a := a + 1) (by omega)]
      congr 1
      omega

/-- Equal strings, byte by byte. -/
theorem State.byte_of_bytes_eq {b k : Nat} (h : t.bytes a n = s.bytes b n) (hk : k < n) : t.byte (a + k) = s.byte (b + k) := by
  rw [State.byte_of_bytes h hk, ← State.byte_of_bytes rfl hk]

/-- Rows of `n` bytes one after another, each by itself. -/
theorem State.bytes_rows {f : Nat → List Byte} {m i : Nat} (hf : ∀ i, (f i).length = n) (h : s.bytes a (m * n) = (List.range m).flatMap f)
    (hi : i < m) : s.bytes (a + i * n) n = f i := by
  induction m with
  | zero => cases hi
  | succ m ih =>
    rw [List.range_succ, List.flatMap_append, Nat.add_mul, Nat.one_mul, State.bytes_add] at h
    obtain ⟨hfront, hlast⟩ := List.append_inj h (by
      simp only [State.bytes_length, List.length_flatMap, hf, List.map_const', List.sum_replicate_nat, List.length_range])
    obtain rfl | hlt := Nat.eq_or_lt_of_le (Nat.le_of_lt_succ hi)
    · simpa using hlast
    · exact ih hfront hlt

theorem State.copyIn_good (h : s.health = []) (p : Nat) (l : List (Nat × Nat)) :
    ∃ t, s.copyIn p l = (s.runBytes l, {}, t) ∧ t = { s with regs := t.regs, regulators := t.regulators } := by
  induction l generalizing s with
  | nil => exact ⟨s, rfl, rfl⟩
  | cons x l ih =>
    have hc := s.countRd_eq p x.1 x.2
    generalize hv : s.countRd p x.1 x.2 = v at hc
    have hvh : v.health = [] := by rw [hc]; exact h
    have hvm : v.mem = s.mem := by rw [hc]
    obtain ⟨t, ht, heq⟩ := ih hvh
    refine ⟨t, ?_, heq.trans (by rw [hc])⟩
    rw [State.copyIn, hv, State.readMem_good (State.badWords_of_good hvh _ _)]
    dsimp only
    rw [ht, State.bytes_of_mem hvm, State.runBytes_of_mem hvm, State.runBytes, State.runBytes, List.flatMap_cons]

theorem State.copyOut_stores (hw : s.wrote = none) (h : s.health = []) (p dst : Nat) (bs : List Byte) :
    ∃ t, s.copyOut p dst bs = (bs.length, {}, t) ∧ s.Stores dst bs t := by
  have hc := s.countWr_eq p dst bs.length
  obtain ⟨t, ht, hst⟩ := Eff.write_stores (p := p) (a := dst) (bs := bs) hw (State.badWords_of_good h _ _)
  rw [Eff.write, State.writeMem_good (by rw [hc]; exact hw) (State.badWords_of_good (by rw [hc]; exact h) _ _)] at ht
  obtain ⟨-, rfl⟩ := Prod.mk.inj ht
  refine ⟨_, ?_, hst⟩
  rw [State.copyOut, State.writeMem_good (by rw [hc]; exact hw) (State.badWords_of_good (by rw [hc]; exact h) _ _)]

/-- One run: the bytes of its sources stand at its destination. -/
theorem State.copyRun_stores (hw : s.wrote = none) (h : s.health = []) (p dst : Nat) (l : List (Nat × Nat)) :
    ∃ t, s.copyRun p dst l = (runsLen l, {}, t) ∧ s.Stores dst (s.runBytes l) t := by
  obtain ⟨v, hv, hveq⟩ := State.copyIn_good h p l
  obtain ⟨t, ht, hst⟩ := State.copyOut_stores (s := v) (by rw [hveq]; exact hw) (by rw [hveq]; exact h) p dst (s.runBytes l)
  refine ⟨t, ?_, ⟨hst.eq.trans ?_⟩⟩
  · rw [State.copyRun, hv]
    dsimp only
    rw [ht, s.runBytes_length]
    rfl
  · have hm := State.setBytes_mem_congr (s := s) (t := v) (by rw [hveq]) dst (s.runBytes l)
    rw [hm, hveq]

/-- From `s` to `t` each run's sources stand at its destination, and nothing else of memory has changed. -/
structure State.Copied (s : State) (l : List (Nat × List (Nat × Nat))) (t : State) : Prop where
  eq : t = { s with mem := t.mem, regs := t.regs, regulators := t.regulators }
  wf : Sparse.wf 0#8 t.mem = true
  runs : ∀ x ∈ l, t.bytes x.1 (runsLen x.2) = s.runBytes x.2
  other : ∀ a, (∀ x ∈ l, ¬ Within x.1 (runsLen x.2) a) → t.byte a = s.byte a

/-- Runs whose destinations lie apart, from one another and from every source. -/
theorem State.copyRuns_copied {l : List (Nat × List (Nat × Nat))} (hw : s.wrote = none) (h : s.health = [])
    (hwf : Sparse.wf 0#8 s.mem = true) (hsrc : ∀ x ∈ l, ∀ y ∈ l, ∀ r ∈ y.2, ∀ a, Within x.1 (runsLen x.2) a → ¬ Within r.1 r.2 a)
    (hdst : l.Pairwise fun x y => ∀ a, Within x.1 (runsLen x.2) a → ¬ Within y.1 (runsLen y.2) a) :
    ∃ t, s.copyRuns p l = ((l.map fun x => runsLen x.2).sum, {}, t) ∧ s.Copied l t := by
  induction l generalizing s with
  | nil => exact ⟨s, rfl, rfl, hwf, (fun _ hx => by cases hx), fun _ _ => rfl⟩
  | cons x l ih =>
    obtain ⟨hx, hl⟩ := List.pairwise_cons.mp hdst
    obtain ⟨v, hv, hst⟩ := State.copyRun_stores hw h p x.1 x.2
    have hvwf : Sparse.wf 0#8 v.mem = true := by rw [hst.mem]; exact s.setBytes_wf _ _ hwf
    have hbut : SameMemoryBut x.1 (runsLen x.2) s v := by
      rw [← s.runBytes_length]
      exact sameMemoryBut_of_setBytes hwf hst.mem rfl
    have hout {a : Nat} (ha : ¬ Within x.1 (runsLen x.2) a) : v.byte a = s.byte a := hbut a (by
      rw [Within] at ha
      omega)
    obtain ⟨t, ht, hcop⟩ := ih (hst.wrote.trans hw) (by rw [hst.eq]; exact h) hvwf
      (fun y hy z hz => hsrc y (List.mem_cons_of_mem _ hy) z (List.mem_cons_of_mem _ hz)) hl
    refine ⟨t, ?_, hcop.eq.trans (by rw [hst.eq]), hcop.wf, fun y hy => ?_, fun a ha => ?_⟩
    · rw [State.copyRuns, hv]
      dsimp only
      rw [if_neg (by simp), ht]
      simp
    · obtain rfl | hyl := List.mem_cons.mp hy
      · rw [State.bytes_congr v t _ _ fun a h1 h2 => hcop.other a fun z hz => hx z hz a ⟨h1, h2⟩, ← s.runBytes_length]
        exact hst.bytes hwf
      · rw [hcop.runs y hyl]
        exact State.runBytes_congr fun r hr a ha => hout fun hxa => hsrc x List.mem_cons_self y hy r hr a hxa ha
    · rw [hcop.other a fun z hz => ha z (List.mem_cons_of_mem _ hz), hout (ha x List.mem_cons_self)]

/-- The parts of a whole destination are its rows. -/
theorem rowParts_whole {row : Nat} (m : Nat) (h : 0 < row) : rowParts row 0 (m * row) = (List.range m).map fun k => (k, 0, row) := by
  rw [rowParts]
  obtain rfl | hm := Nat.eq_zero_or_pos m
  · rw [if_pos (Or.inr (by omega))]
    rfl
  have hpos : 0 < m * row := Nat.mul_pos hm h
  have hcount : (m * row - 1) / row + 1 - 0 / row = m := by
    have hlast : (m * row - 1) / row = m - 1 := by
      rw [Nat.div_eq_iff h, Nat.sub_mul]
      have : row ≤ m * row := Nat.le_mul_of_pos_left _ hm
      omega
    rw [hlast, Nat.zero_div]
    omega
  rw [if_neg (by omega), hcount]
  refine List.map_congr_left fun k hk => ?_
  have hle : (k + 1) * row ≤ m * row := Nat.mul_le_mul_right _ (List.mem_range.mp hk)
  rw [Nat.add_mul, Nat.one_mul] at hle
  simp only [Nat.zero_div, Nat.zero_add, Nat.add_mul, Nat.one_mul]
  congr 2 <;> omega

theorem rowParts_empty (a b : Nat) : rowParts 0 a b = [] := if_pos (Or.inl rfl)

/-- The rows of a whole destination, each from its own runs, where they lie apart. -/
theorem State.copyRows_copied {row m : Nat} {f : Nat × Nat × Nat → Nat × List (Nat × Nat)} (hw : s.wrote = none) (h : s.health = [])
    (hwf : Sparse.wf 0#8 s.mem = true) (hlen : 0 < row → ∀ k, k < m → runsLen (f (k, 0, row)).2 = row)
    (hsrc : ∀ k k', k < m → k' < m → 0 < row → ∀ r ∈ (f (k', 0, row)).2, ∀ a, Within (f (k, 0, row)).1 row a → ¬ Within r.1 r.2 a)
    (hdst : ∀ k k', k < m → k' < m → k ≠ k' → ∀ a, Within (f (k, 0, row)).1 row a → ¬ Within (f (k', 0, row)).1 row a) :
    ∃ t, s.copyRuns p ((rowParts row 0 (m * row)).map f) = (m * row, {}, t) ∧
      t = { s with mem := t.mem, regs := t.regs, regulators := t.regulators } ∧
      (0 < row → ∀ k, k < m → t.bytes (f (k, 0, row)).1 row = s.runBytes (f (k, 0, row)).2) ∧
      ∀ a, (∀ k, k < m → ¬ Within (f (k, 0, row)).1 row a) → t.byte a = s.byte a := by
  obtain rfl | hrow := Nat.eq_zero_or_pos row
  · exact ⟨s, by rw [rowParts_empty, Nat.mul_zero]; rfl, rfl, fun h0 => absurd h0 (Nat.lt_irrefl 0), fun _ _ => rfl⟩
  have hmem {x : Nat × List (Nat × Nat)} (hx : x ∈ (List.range m).map fun k => f (k, 0, row)) : ∃ k, k < m ∧ f (k, 0, row) = x := by
    simpa using hx
  have hin {k : Nat} (hk : k < m) : f (k, 0, row) ∈ (List.range m).map fun k => f (k, 0, row) :=
    List.mem_map.mpr ⟨k, List.mem_range.mpr hk, rfl⟩
  obtain ⟨t, ht, hcop⟩ := State.copyRuns_copied (p := p) (l := (List.range m).map fun k => f (k, 0, row)) hw h hwf
    (fun x hx y hy r hr a ha => by
      obtain ⟨k, hk, rfl⟩ := hmem hx
      obtain ⟨k', hk', rfl⟩ := hmem hy
      rw [hlen hrow k hk] at ha
      exact hsrc k k' hk hk' hrow r hr a ha)
    (List.pairwise_map.mpr (List.pairwise_lt_range.imp_of_mem fun hx hy hlt a ha => by
      rw [hlen hrow _ (List.mem_range.mp hx)] at ha
      rw [hlen hrow _ (List.mem_range.mp hy)]
      exact hdst _ _ (List.mem_range.mp hx) (List.mem_range.mp hy) (Nat.ne_of_lt hlt) a ha))
  refine ⟨t, ?_, hcop.eq, fun _ k hk => ?_, fun a ha => hcop.other a fun x hx => ?_⟩
  · rw [rowParts_whole m hrow, List.map_map]
    refine Eq.trans ht ?_
    rw [List.map_map, List.map_congr_left (f := (fun x : Nat × List (Nat × Nat) => runsLen x.2) ∘ fun k => f (k, 0, row)) (g := fun _ => row) fun k hk => hlen hrow k (List.mem_range.mp hk), List.map_const',
      List.sum_replicate_nat, List.length_range]
  · rw [← hcop.runs _ (hin hk), hlen hrow k hk]
  · obtain ⟨k, hk, rfl⟩ := hmem hx
    rw [hlen hrow k hk]
    exact ha k hk

/-- The elements of a column of `r` elements of `n` bytes, as a transposition's row names them. -/
theorem transposeRuns {r n : Nat} (hn : 0 < n) (hr : 0 < r) (a w b : Nat) :
    ((List.range ((0 + r * n - 1) / n + 1 - 0 / n)).map fun k =>
      (a + (0 / n + k) * w + b + (max 0 ((0 / n + k) * n) - (0 / n + k) * n),
        min (0 + r * n) ((0 / n + k + 1) * n) - (0 / n + k) * n - (max 0 ((0 / n + k) * n) - (0 / n + k) * n))) =
      (List.range r).map fun k => (a + k * w + b, n) := by
  have hlast : (r * n - 1) / n = r - 1 := by
    rw [Nat.div_eq_iff hn, Nat.sub_mul]
    have : n ≤ r * n := Nat.le_mul_of_pos_left _ hr
    omega
  rw [Nat.zero_add, hlast, Nat.zero_div, show r - 1 + 1 - 0 = r by omega]
  refine List.map_congr_left fun k hk => ?_
  have hle : (k + 1) * n ≤ r * n := Nat.mul_le_mul_right _ (List.mem_range.mp hk)
  rw [Nat.add_mul, Nat.one_mul] at hle
  simp only [Nat.zero_add, Nat.add_mul, Nat.one_mul]
  congr 1 <;> omega

end

end Sys2Proof.Machine

open Sys2Proof Sys2Proof.Machine

/-- Settles O44: a copy is one run, a strided copy a run for each row, a transposition a run of elements for each column. -/
theorem copies : Obligations.Copies := by
  refine ⟨fun s e dt id n c hs he hw hab hbeg hck hh hn => ?_, fun s e dt id c hs he hw hab hbeg hck hh => ?_⟩
  · have hmem : e.mem = s.mem := by rw [he, State.elapse_mem]
    have hwfm : Sparse.wf 0#8 e.mem = true := hmem ▸ hs.2.1
    refine ⟨fun hx => ?_, fun hx => ?_⟩
    · obtain ⟨t, ht, hst⟩ := State.copyRun_stores hw hh c.part (c.addr 2) [(c.addr 1, n)]
      have hrun : e.runBytes [(c.addr 1, n)] = e.bytes (c.addr 1) n := List.append_nil _
      rw [hrun] at hst
      obtain ⟨hx0, ho, hbytes, hbut, hev⟩ := hst.finish (id := id) (d := {}) (n := n) rfl rfl rfl hw hwfm (State.engine_cmd? hx)
      rw [State.bytes_length] at hbytes hbut
      refine ⟨_, congrArg Host.Outcome.next ?_, hx0, ho, hbytes, fun a ha => (hbut a ha).trans (State.byte_of_mem hmem a),
        State.event_of_events hev⟩
      rw [← he, State.runLong_eq hx hw hab hbeg hck (n := n) (d := {}) (u := t)]
      simp only [Nat.add_zero, Nat.sub_zero, ← hn]
      rw [ht]
      rfl
    · generalize hbs : ((List.range n).map fun i => (leBytes 8 (c.word 1)).getD (i % 8) 0#8) = bs
      have hlen : bs.length = n := by simp [← hbs]
      obtain ⟨t, ht, hst⟩ := State.copyOut_stores hw hh c.part (c.addr 2) bs
      obtain ⟨hx0, ho, hbytes, hbut, hev⟩ := hst.finish (id := id) (d := {}) (n := n) rfl rfl rfl hw hwfm (State.engine_cmd? hx)
      rw [hlen] at hbytes hbut
      refine ⟨_, congrArg Host.Outcome.next ?_, hx0, ho, fun i hi => ?_, fun a ha => (hbut a ha).trans (State.byte_of_mem hmem a),
        State.event_of_events hev⟩
      · rw [← he, State.runLong_eq hx hw hab hbeg hck (n := n) (d := {}) (u := t)]
        simp only [Nat.add_zero, Nat.sub_zero, Nat.zero_add, ← hn]
        rw [hbs, ht, hlen]
      · rw [State.byte_of_bytes hbytes hi, ← hbs]
        simp [hi]
  · have hmem : e.mem = s.mem := by rw [he, State.elapse_mem]
    have hwfm : Sparse.wf 0#8 e.mem = true := hmem ▸ hs.2.1
    refine ⟨fun src dst len rows planes hlen hrows hplanes hsrc hdst hapart hx => ?_,
      fun src dst rows cols sz hdims hsrc hdst hapart hx => ?_⟩
    · have hdiv {k : Nat} (hk : k < planes * rows) : k / rows < planes ∧ k % rows < rows := by
        have hpos : 0 < rows := Nat.pos_of_ne_zero fun h0 => by simp [h0] at hk
        exact ⟨(Nat.div_lt_iff_lt_mul hpos).mpr hk, Nat.mod_lt _ hpos⟩
      have hat {q i : Nat} (hq : q < planes) (hi : i < rows) :
          q * rows + i < planes * rows ∧ (q * rows + i) / rows = q ∧ (q * rows + i) % rows = i := by
        have hle : (q + 1) * rows ≤ planes * rows := Nat.mul_le_mul_right _ hq
        rw [Nat.add_mul, Nat.one_mul] at hle
        refine ⟨by omega, ?_, ?_⟩
        · rw [Nat.mul_comm, Nat.mul_add_div (by omega), Nat.div_eq_of_lt hi, Nat.add_zero]
        · rw [Nat.mul_comm, Nat.mul_add_mod, Nat.mod_eq_of_lt hi]
      generalize hf : (fun x : Nat × Nat × Nat => (c.addr 2 + x.1 / rows * c.word 8 + x.1 % rows * c.word 6 + x.2.1,
        [(c.addr 1 + x.1 / rows * c.word 7 + x.1 % rows * c.word 5 + x.2.1, x.2.2)])) = f
      have hfk (k : Nat) : f (k, 0, len) = (dst (k / rows) (k % rows), [(src (k / rows) (k % rows), len)]) := by
        rw [← hf, hdst, hsrc]
        rfl
      obtain ⟨t, ht, hteq, hbytes, hother⟩ := State.copyRows_copied (s := e) (p := c.part) (row := len) (m := planes * rows) (f := f) hw hh hwfm
        (fun _ k _ => by rw [hfk]; exact Nat.add_zero _)
        (fun k k' hk hk' hpos r hr a ha => by
          rw [hfk] at hr ha
          rw [List.mem_singleton] at hr
          subst hr
          have := (hapart _ _ _ _ (hdiv hk').1 (hdiv hk').2 (hdiv hk).1 (hdiv hk).2).1
          simp only [Within] at ha ⊢
          omega)
        (fun k k' hk hk' hne a ha => by
          rw [hfk] at ha ⊢
          have hneq : (k / rows, k % rows) ≠ (k' / rows, k' % rows) := fun heq => hne (by
            obtain ⟨h1, h2⟩ := Prod.mk.inj heq
            rw [← Nat.div_add_mod k rows, ← Nat.div_add_mod k' rows, h1, h2])
          have := (hapart _ _ _ _ (hdiv hk).1 (hdiv hk).2 (hdiv hk').1 (hdiv hk').2).2.resolve_left hneq
          simp only [Within] at ha ⊢
          omega)
      have htot : stridedTotal c = planes * rows * len := by rw [stridedTotal, hplanes, hrows, hlen]
      obtain ⟨hx0, ho, heq⟩ := State.finish_ends_of_cmds (u := t) (d := {}) (n := stridedTotal c) (State.engine_cmd? hx) (by rw [hteq])
        (by rw [hteq]; exact hw)
      have hm : (t.finish id {} (stridedTotal c)).mem = t.mem := by rw [heq]
      refine ⟨_, congrArg Host.Outcome.next ?_, hx0, ho, fun q i k hq hi hk => ?_, fun a ha => ?_⟩
      · rw [← he, State.runLong_eq hx hw hab hbeg hck (n := stridedTotal c) (d := {}) (u := t)]
        dsimp only
        rw [← hrows, ← hlen, hf, htot]
        exact ht
      · obtain ⟨hlt, hdq, hmi⟩ := hat hq hi
        have hb := hbytes (by omega) _ hlt
        rw [hfk, hdq, hmi, State.runBytes, List.flatMap_singleton] at hb
        rw [State.byte_of_mem hm]
        exact State.byte_of_bytes_eq hb hk
      · rw [State.byte_of_mem hm]
        refine hother a fun k hk hin => ?_
        rw [hfk] at hin
        have := ha _ _ (hdiv hk).1 (hdiv hk).2
        simp only [Within] at hin
        omega
    · have hsz : 0 < sz := by
        have : sz = 2 ^ bits (c.word 3) 49 48 := (congrArg (fun x => x.2.2) hdims).symm
        rw [this]
        exact Nat.two_pow_pos _
      generalize hf : (fun x : Nat × Nat × Nat => (c.addr 2 + x.1 * c.word 5 + x.2.1,
        (List.range ((x.2.1 + x.2.2 - 1) / sz + 1 - x.2.1 / sz)).map fun k =>
          (c.addr 1 + (x.2.1 / sz + k) * c.word 4 + x.1 * sz + (max x.2.1 ((x.2.1 / sz + k) * sz) - (x.2.1 / sz + k) * sz),
            min (x.2.1 + x.2.2) ((x.2.1 / sz + k + 1) * sz) - (x.2.1 / sz + k) * sz -
              (max x.2.1 ((x.2.1 / sz + k) * sz) - (x.2.1 / sz + k) * sz)))) = f
      have hfk (hr : 0 < rows * sz) (j : Nat) : f (j, 0, rows * sz) = (dst j 0, (List.range rows).map fun i => (src i j, sz)) := by
        rw [← hf, hdst]
        dsimp only
        rw [transposeRuns hsz (Nat.pos_of_mul_pos_right hr)]
        simp only [hsrc, Nat.zero_mul, Nat.add_zero]
      have hwithin {j a : Nat} (ha : Within (dst j 0) (rows * sz) a) : ∃ i, i < rows ∧ Within (dst j i) sz a := by
        simp only [Within, hdst] at ha ⊢
        refine ⟨(a - dst j 0) / sz, ?_, ?_⟩
        · rw [Nat.div_lt_iff_lt_mul hsz, hdst]
          omega
        · have hmod := Nat.div_add_mod (a - dst j 0) sz
          have hlt := Nat.mod_lt (a - dst j 0) hsz
          rw [Nat.mul_comm] at hmod
          rw [hdst] at hmod hlt ⊢
          omega
      obtain ⟨t, ht, hteq, hbytes, hother⟩ := State.copyRows_copied (s := e) (p := c.part) (row := rows * sz) (m := cols) (f := f) hw hh hwfm
        (fun hr k _ => by
          rw [hfk hr]
          simp only [runsLen, List.map_map, Function.comp_def, List.map_const', List.sum_replicate_nat, List.length_range])
        (fun j j' hj hj' hr r hmem' a ha => by
          rw [hfk hr] at hmem' ha
          obtain ⟨i', hi', rfl⟩ := List.mem_map.mp hmem'
          obtain ⟨i, hi, hin⟩ := hwithin ha
          have := (hapart i' j' i j (List.mem_range.mp hi') hj' hi hj).1
          simp only [Within] at hin ⊢
          omega)
        (fun j j' hj hj' hne a ha => by
          have hr : 0 < rows * sz := by
            simp only [Within] at ha
            omega
          rw [hfk hr] at ha ⊢
          intro ha'
          obtain ⟨i, hi, hin⟩ := hwithin ha
          obtain ⟨i', hi', hin'⟩ := hwithin ha'
          have := (hapart i j i' j' hi hj hi' hj').2.resolve_left fun heq => hne (congrArg Prod.snd heq)
          simp only [Within] at hin hin'
          omega)
      obtain ⟨hx0, ho, heq⟩ := State.finish_ends_of_cmds (u := t) (d := {}) (n := rows * cols * sz) (State.engine_cmd? hx) (by rw [hteq])
        (by rw [hteq]; exact hw)
      have hm : (t.finish id {} (rows * cols * sz)).mem = t.mem := by rw [heq]
      have htot : rows * cols * sz = cols * (rows * sz) := by rw [Nat.mul_comm rows cols, Nat.mul_assoc]
      refine ⟨_, congrArg Host.Outcome.next ?_, hx0, ho, fun i j k hi hj hk => ?_, fun a ha => ?_⟩
      · rw [← he, State.runLong_eq hx hw hab hbeg hck (n := rows * cols * sz) (d := {}) (u := t)]
        dsimp only
        rw [hdims]
        dsimp only
        rw [hf, htot]
        exact ht
      · have hr : 0 < rows * sz := Nat.mul_pos (by omega) hsz
        have hb := hbytes hr j hj
        rw [hfk hr, State.runBytes, List.flatMap_map] at hb
        have hrow := State.bytes_rows (f := fun i => e.bytes (src i j) sz) (fun i => State.bytes_length ..) hb hi
        rw [State.byte_of_mem hm, show dst j i = dst j 0 + i * sz by rw [hdst, hdst, Nat.zero_mul, Nat.add_zero]]
        exact State.byte_of_bytes_eq hrow hk
      · rw [State.byte_of_mem hm]
        refine hother a fun j hj hin => ?_
        have hr : 0 < rows * sz := by
          simp only [Within] at hin
          omega
        rw [hfk hr] at hin
        obtain ⟨i, hi, hin'⟩ := hwithin hin
        have := ha i j hi hj
        simp only [Within] at hin'
        omega
end


section
/-!
SUPPORT. The debug port's accesses, in a port that allows its instruction.
-/

namespace Sys2Proof.Machine

open Sys2Proof

section

variable {s u : State} {a v : Nat}

/-- An instruction that the port takes changes only the port's own state. -/
theorem State.jtag_eq {code : Nat} (hok : s.jtagAllowed code = true) : s.jtag code = { s with dbg := (s.jtag code).dbg } := by
  rw [State.jtag_allowed hok]

theorem State.debugLevel_of_regs (h : u.regs = s.regs) : u.debugLevel = s.debugLevel := by
  rw [State.debugLevel, State.debugLevel, State.lifecycle, State.lifecycle, State.reg_of_regs h, State.reg_of_regs h]

theorem State.inHold_of_regs (h : u.regs = s.regs) : u.inHold = s.inHold := by
  rw [State.inHold, State.inHold, State.flag, State.flag, State.reg_of_regs h]

/-- A counter counts in the registers alone. -/
theorem State.incReg_eq_of_regs (h : u.regs = s.regs) (r : RegRow) : u.incReg r = { u with regs := (s.incReg r).regs } := by
  rw [State.incReg_eq]
  congr 1
  rw [State.incReg_eq', State.incReg_eq', h]

/-- A debug read of DRAM whose words are good. -/
theorem State.debugRead_dram (hmap : mapped a = false) (hdram : s.isDram a = true) (hbad : s.badWords a 4 = []) :
    s.debugRead a = (s.load a 4, 0, s) := by
  rw [State.debugRead, hmap, if_neg Bool.false_ne_true, if_pos (.inl hdram), hbad, List.any_nil, if_neg Bool.false_ne_true]

/-- A debug write of DRAM whose words are good, where level 2 holds the device. -/
theorem State.debugWrite_dram (hctrl : a ≠ R.DBG_CTRL_HOLD_REQ.at 0 0) (hmap : mapped a = false) (hlevel : s.debugLevel = 2)
    (hhold : s.inHold = true) (hdram : s.isDram a = true) (hbad : s.badWords a 4 = []) :
    s.debugWrite a v = (0, 0, { s.setBytes a (leBytes 4 v) with wrote := s.wrote.map fun l => (a, 4) :: l }) := by
  have halter : (s.debugLevel == 2 && s.inHold) = true ∧ (s.isDram a = true ∨ debugSram a = true) := by simp [hlevel, hhold, hdram]
  rw [State.debugWrite]
  dsimp only
  rw [if_neg hctrl, hmap, if_neg Bool.false_ne_true, if_pos halter, State.writeMem, leBytes_length, hbad]
  rfl

end

end Sys2Proof.Machine

open Sys2Proof Sys2Proof.Machine

/-- Settles O58: the unlock's nonce and answers, DBG_ACC in DRAM, and fuse writes. -/
theorem unlockAccessAndFuses : Obligations.UnlockAccessAndFuses := by
  intro s e dt hs he hon
  have hregs : e.regs = s.regs := by rw [he, State.elapse_regs]
  have hmem : e.mem = s.mem := by rw [he, State.elapse_mem]
  have hwf : Sparse.wf 0#32 e.regs = true := hregs ▸ hs.1
  have hwfm : Sparse.wf 0#8 e.mem = true := hmem ▸ hs.2.1
  have hallow {n : Nat} (h : 1 ≤ e.debugLevel) (hn : n = 0x11) : e.jtagAllowed n = true := by
    subst hn
    simp [State.jtagAllowed, h]
  have hacc (a data op : Nat) (x : Nat × Nat × State) (h : 1 ≤ e.debugLevel)
      (hx : ∀ u : State, u = { e with dbg := u.dbg, out := u.out } →
        (if op = 1 ∨ op = 2 then
          if a % 4 ≠ 0 ∨ 2 ^ 48 ≤ a then u.denied else if op = 1 then u.debugRead a else u.debugWrite a (data % 2 ^ 32)
        else (0, 0, u)) = (x.1, x.2.1, { x.2.2 with dbg := u.dbg, out := u.out })) :
      ∃ d o, exec (.dbgAcc dt a data op) s = .next { x.2.2 with dbg := d, out := o } ∧ d.accData = x.1 ∧ d.accStatus = x.2.1 := by
    have heq := State.jtag_eq (hallow h rfl)
    generalize hj : e.jtag 0x11 = j at heq
    generalize hu : j.emit (.tdo 88 (j.dbg.accData * 2 ^ 48 + j.dbg.accStatus * 2 ^ 82)) = u
    have hueq : u = { e with dbg := u.dbg, out := u.out } := by
      rw [← hu, State.emit, heq]
    refine ⟨{ u.dbg with accData := x.1, accStatus := x.2.1 }, u.out, congrArg Host.Outcome.next ?_, rfl, rfl⟩
    rw [← he, State.tap_allowed hon (hallow h rfl), hj, hu]
    dsimp only
    rw [hx u hueq]
  refine ⟨fun hlife => ?_, fun resp hlife => ⟨fun hlock hok => ?_, fun hok => ?_⟩, fun a data hlevel ha4 hlt hmap hdram hbad => ?_,
    fun a data hlevel hhold ha4 hlt hmap hdram hbad hctrl => ?_, fun a data op hlevel hop ha4 => ?_, fun f data verified hok href => ?_,
    fun f data verified hok href => ?_⟩
  · have hok : e.jtagAllowed 0x10 = true := by simp [State.jtagAllowed, hlife]
    have heq := State.jtag_eq hok
    have hir : (e.jtag 0x10).dbg.ir = 0x10 := by rw [State.jtag_allowed hok]; rfl
    generalize hj : e.jtag 0x10 = j at heq hir
    have hexec : exec (.dbgAuthCapture dt) s = .next ({ (j.freeBelow (2 ^ 256)).2.emit (.tdo 512 (leNat ((j.freeBelow (2 ^ 256)).2.challenge
        (leBytes 32 (j.freeBelow (2 ^ 256)).1)))) with dbg.nonce := some (leBytes 32 (j.freeBelow (2 ^ 256)).1) }) := by
      refine congrArg Host.Outcome.next ?_
      rw [← he, State.tap_allowed hon hok, hj]
    refine ⟨_, _, hexec, rfl, leBytes_length .., hir, ?_⟩
    rw [State.emit, State.freeBelow]
    dsimp only
    rw [heq]
  · have hjok : e.jtagAllowed 0x10 = true := by simp [State.jtagAllowed, hlife]
    have heq := State.jtag_eq hjok
    have hauth : (e.jtag 0x10).authOk resp = e.authOk resp := by rw [State.jtag_allowed hjok]; rfl
    generalize hj : e.jtag 0x10 = j at heq hauth
    have hlevel : field resp 0 1 ≤ 2 := by
      rw [State.authOk] at hok
      split at hok
      · simp only [Bool.and_eq_true, decide_eq_true_eq] at hok
        exact hok.1.1.1.2
      · cases hok
    generalize hu : ({ j with dbg.nonce := none } : State) = u
    have huregs : u.regs = e.regs := by rw [← hu, heq]
    have hexec : exec (.dbgAuthResponse dt resp) s = .next (u.setReg R.DBG_STATUS_LEVEL (field resp 0 1)) := by
      refine congrArg Host.Outcome.next ?_
      have hflag : j.flag R.DBG_STATUS_AUTH_LOCK = false := by
        rw [State.flag, State.reg_of_regs (s := e) (by rw [heq])]
        exact hlock
      rw [← he, State.tap_allowed hon hjok, hj]
      dsimp only
      rw [hauth, hok, hflag, Bool.not_false, Bool.and_true, if_pos rfl, hu]
    refine ⟨_, hexec, ?_, ?_, ?_, sameMemory_of_mem ?_⟩
    · rw [State.reg_setReg_same _ _ _ _ _ (huregs ▸ hwf) (by decide)]
      exact Nat.mod_eq_of_lt (Nat.lt_of_le_of_lt hlevel (by decide))
    · rw [State.setReg_dbg, ← hu]
    · exact (u.sameRegistersBut_setReg _ _ _ _ (huregs ▸ hwf) List.mem_cons_self).of_regs (huregs.trans hregs).symm rfl
    · rw [State.setReg_mem, ← hu, heq]
      exact hmem
  · have hjok : e.jtagAllowed 0x10 = true := by simp [State.jtagAllowed, hlife]
    have heq := State.jtag_eq hjok
    have hauth : (e.jtag 0x10).authOk resp = e.authOk resp := by rw [State.jtag_allowed hjok]; rfl
    have hrej : (e.jtag 0x10).dbg.rejects = e.dbg.rejects := by rw [State.jtag_allowed hjok]
    generalize hj : e.jtag 0x10 = j at heq hauth hrej
    generalize hu : ({ j with dbg.nonce := none } : State) = u
    have huregs : u.regs = e.regs := by rw [← hu, heq]
    have hincwf := u.incReg_wf R.DBG_AUTH_FAIL_COUNT 0 0 1 (huregs ▸ hwf)
    have hinclevel : (u.incReg R.DBG_AUTH_FAIL_COUNT).reg R.DBG_STATUS_LEVEL = e.reg R.DBG_STATUS_LEVEL := by
      rw [State.incReg, State.reg_setReg_apart (huregs ▸ hwf) (by decide), State.reg_of_regs huregs]
    generalize hv : ({ u.incReg R.DBG_AUTH_FAIL_COUNT with dbg.rejects := (u.incReg R.DBG_AUTH_FAIL_COUNT).dbg.rejects + 1 } : State) = v
    have hvregs : v.regs = (u.incReg R.DBG_AUTH_FAIL_COUNT).regs := by rw [← hv]
    have hvmem : v.mem = s.mem := by rw [← hv, State.incReg_mem, ← hu, heq]; exact hmem
    have hvrej : v.dbg.rejects = e.dbg.rejects + 1 := by rw [← hv, State.incReg_dbg, ← hu, ← hrej]
    have hunonce : u.dbg.nonce = none := by rw [← hu]
    have hvnonce : v.dbg.nonce = none := by
      rw [← hv, ← hunonce]
      exact congrArg (fun x => x.nonce) (u.incReg_dbg R.DBG_AUTH_FAIL_COUNT 0 0 1)
    have hexec : exec (.dbgAuthResponse dt resp) s =
        .next (if 3 ≤ v.dbg.rejects then v.setReg R.DBG_STATUS_AUTH_LOCK 1 else v) := by
      refine congrArg Host.Outcome.next ?_
      rw [← he, State.tap_allowed hon hjok, hj]
      dsimp only
      rw [hauth, hok, Bool.and_false, if_neg Bool.false_ne_true, ← hv, ← hu]
      rfl
    have hvlevel : v.reg R.DBG_STATUS_LEVEL = e.reg R.DBG_STATUS_LEVEL := (State.reg_of_regs hvregs _ _ _).trans hinclevel
    have hvwf : Sparse.wf 0#32 v.regs = true := hvregs ▸ hincwf
    by_cases h3 : 3 ≤ v.dbg.rejects
    · rw [if_pos h3] at hexec
      refine ⟨_, hexec, ?_, ?_, ?_, fun _ => ?_, sameMemory_of_mem ?_⟩
      · rw [State.setReg_dbg, hvnonce]
      · rw [State.setReg_dbg, hvrej]
      · rw [State.reg_setReg_apart hvwf (by decide), hvlevel]
      · rw [State.flag, State.reg_setReg_same _ _ _ _ _ hvwf (by decide)]
        rfl
      · rw [State.setReg_mem, hvmem]
    · rw [if_neg h3] at hexec
      exact ⟨_, hexec, hvnonce, hvrej, hvlevel, fun h2 => absurd h2 (by omega), sameMemory_of_mem hvmem⟩
  · obtain ⟨d, o, hexec, hdata, hstat⟩ := hacc a data 1 (e.load a 4, 0, e) hlevel fun u hu => by
      rw [if_pos (.inl rfl), if_neg (by omega), if_pos rfl, State.debugRead_dram hmap (by rw [hu]; exact hdram) (by rw [hu]; exact hbad),
        State.load_of_mem (s := e) (by rw [hu]), ← hu]
    exact ⟨_, hexec, hdata, hstat, sameMemory_of_mem hmem, rfl⟩
  · obtain ⟨d, o, hexec, hdata, hstat⟩ := hacc a data 2
      (0, 0, { e with mem := (e.setBytes a (leBytes 4 (data % 2 ^ 32))).mem, wrote := e.wrote.map fun l => (a, 4) :: l })
      (by omega) fun u hu => by
        have huregs : u.regs = e.regs := by rw [hu]
        have hstore := State.setBytes_mem_congr (s := e) (t := u) (by rw [hu]) a (leBytes 4 (data % 2 ^ 32))
        rw [if_pos (.inr rfl), if_neg (by omega), if_neg (by decide), State.debugWrite_dram hctrl hmap
          ((State.debugLevel_of_regs huregs).trans hlevel) ((State.inHold_of_regs huregs).trans hhold) (by rw [hu]; exact hdram)
          (by rw [hu]; exact hbad), State.setBytes_eq, hstore, hu]
    generalize ht : ({ e with mem := (e.setBytes a (leBytes 4 (data % 2 ^ 32))).mem, wrote := e.wrote.map fun l => (a, 4) :: l
                              dbg := d, out := o } : State) = t at hexec
    have htm : t.mem = (e.setBytes a (leBytes 4 (data % 2 ^ 32))).mem := by rw [← ht]
    refine ⟨_, hexec, by rw [← ht, hstat], ?_, ?_⟩
    · have hback := e.bytes_setBytes_same a (leBytes 4 (data % 2 ^ 32)) hwfm
      rw [leBytes_length] at hback
      rw [State.load, State.bytes_of_mem htm, hback, leNat_leBytes, Nat.mod_mod]
    · have hbut := sameMemoryBut_of_setBytes (u := s) hwfm htm hmem
      rw [leBytes_length] at hbut
      exact hbut
  · obtain ⟨d, o, hexec, hdata, hstat⟩ := hacc a data op (0, 1, e.incReg R.DBG_DENIED_COUNT) hlevel fun u hu => by
      have hinc := State.incReg_eq_of_regs (s := e) (u := u) (by rw [hu]) R.DBG_DENIED_COUNT
      rw [if_pos hop, if_pos (.inl ha4), State.denied, hinc, e.incReg_eq, hu]
    refine ⟨_, hexec, hstat, sameMemory_of_mem ?_, ?_⟩
    · rw [State.incReg_mem, hmem]
    · refine (State.reg_of_regs (s := e.incReg R.DBG_DENIED_COUNT)
        (t := { e.incReg R.DBG_DENIED_COUNT with dbg := d, out := o }) rfl _ _ _).trans ?_
      rw [State.reg_incReg_same _ _ _ _ _ hwf (by decide)]
  · have heq := State.jtag_eq hok
    have hir : (e.jtag 0x12).dbg.ir = 0x12 := by rw [State.jtag_allowed hok]; rfl
    generalize hj : e.jtag 0x12 = j at heq hir
    generalize hu : j.emit (.tdo 0 0) = u
    have hueq : u = { e with dbg := j.dbg, out := u.out } := by rw [← hu, State.emit, heq]
    have hrefu : u.fuseRefused f = false := by rw [hueq]; exact href
    generalize hv : ({ u with fuses := u.fuses.program f data, dbg.fieldDue := u.dbg.fieldDue || f == .lifecycle } : State) = v
    have hexec : exec (.fuse dt f data verified) s = .next (if verified then v else v.setReg R.DBG_STATUS_FUSE_ERR 1) := by
      refine congrArg Host.Outcome.next ?_
      rw [← he, State.tap_allowed hon hok, hj]
      dsimp only
      rw [hu, hrefu, if_neg Bool.false_ne_true, hv]
    have hvregs : v.regs = e.regs := by rw [← hv, hueq]
    have hvfuses : v.fuses = e.fuses.program f data := by rw [← hv, hueq]
    have hvir : v.dbg.ir = 0x12 := by rw [← hv, hueq]; exact hir
    have hvmem : v.mem = s.mem := by rw [← hv, hueq]; exact hmem
    cases verified with
    | true => exact ⟨_, hexec, hvfuses, hvir, (fun h => by cases h), fun _ => hvregs, sameMemory_of_mem hvmem⟩
    | false =>
      refine ⟨_, hexec, ?_, ?_, fun _ => ?_, (fun h => by cases h), sameMemory_of_mem ?_⟩
      · rw [if_neg Bool.false_ne_true, State.setReg_fuses, hvfuses]
      · rw [if_neg Bool.false_ne_true, State.setReg_dbg, hvir]
      · rw [if_neg Bool.false_ne_true, State.flag, State.reg_setReg_same _ _ _ _ _ (hvregs ▸ hwf) (by decide)]
        rfl
      · rw [if_neg Bool.false_ne_true, State.setReg_mem, hvmem]
  · have heq := State.jtag_eq hok
    generalize hj : e.jtag 0x12 = j at heq
    generalize hu : j.emit (.tdo 0 0) = u
    have hueq : u = { e with dbg := j.dbg, out := u.out } := by rw [← hu, State.emit, heq]
    have hrefu : u.fuseRefused f = true := by rw [hueq]; exact href
    have hexec : exec (.fuse dt f data verified) s = .next u := by
      refine congrArg Host.Outcome.next ?_
      rw [← he, State.tap_allowed hon hok, hj]
      dsimp only
      rw [hu, if_pos hrefu]
    exact ⟨_, hexec, by rw [hueq], by rw [hueq]⟩
end


section
/-!
SUPPORT. A camera frame: what its start, its lines and its end change.
-/

namespace Sys2Proof.Machine

open Sys2Proof

section

variable {s t u : State}

/-- A register above the block's first words, whatever its indices, leaves the service state. -/
theorem State.svc_setReg (hwf : Sparse.wf 0#32 s.regs = true) {r : RegRow} (h : 0xF000000010 ≤ r.addr) (v i j : Nat) :
    (s.setReg r v i j).svc = s.svc := by
  refine State.reg_setReg_other _ _ _ _ _ _ _ _ hwf ?_
  simp only [RegRow.at, RegRow.words, R.TOP_SVC_STATE]
  omega

/-- From `s` to `t` only the intake's sources, crops and items, registers beside the service state and free values have changed. -/
structure VisKept (s t : State) : Prop where
  eq : t = { s with regs := t.regs
                    freeCtr := t.freeCtr
                    vis := { s.vis with sources := t.vis.sources, crops := t.vis.crops, items := t.vis.items } }
  svc : Sparse.wf 0#32 s.regs = true → Sparse.wf 0#32 t.regs = true ∧ t.svc = s.svc

theorem VisKept.refl (s : State) : VisKept s s := ⟨rfl, fun h => ⟨h, rfl⟩⟩

theorem VisKept.trans (h : VisKept s t) (h' : VisKept t u) : VisKept s u where
  eq := h'.eq.trans (by rw [h.eq])
  svc hwf := by
    obtain ⟨ht, hst⟩ := h.svc hwf
    obtain ⟨hu, htu⟩ := h'.svc ht
    exact ⟨hu, htu.trans hst⟩

/-- No register has been touched. -/
theorem VisKept.of_regs (h : t = { s with freeCtr := t.freeCtr
                                          vis := { s.vis with sources := t.vis.sources, crops := t.vis.crops, items := t.vis.items } }) :
    VisKept s t := by
  have hregs : t.regs = s.regs := by rw [h]
  exact ⟨h.trans (by rw [hregs]), fun hwf => ⟨hregs ▸ hwf, State.reg_of_regs hregs _ _ _⟩⟩

theorem State.setReg_visKept (s : State) {r : RegRow} (h : 0xF000000010 ≤ r.addr) (v i j : Nat) : VisKept s (s.setReg r v i j) :=
  ⟨(s.setReg_eq ..).trans (by rw [State.setReg_vis, State.setReg_freeCtr]), fun hwf => ⟨s.setReg_wf _ _ _ _ hwf, State.svc_setReg hwf h v i j⟩⟩

theorem State.incReg_visKept (s : State) {r : RegRow} (h : 0xF000000010 ≤ r.addr) (i : Nat) : VisKept s (s.incReg r i) :=
  s.setReg_visKept h _ _ _

theorem State.setCropNow_visKept (s : State) (k : Nat) (c : Crop) : VisKept s (s.setCropNow k c) :=
  (((s.setReg_visKept (r := R.VFE_CH_CROP_XY_X) (by decide) _ _ _).trans (State.setReg_visKept _ (r := R.VFE_CH_CROP_XY_Y) (by decide) _ _ _)).trans
    (State.setReg_visKept _ (r := R.VFE_CH_CROP_WH_W) (by decide) _ _ _)).trans (State.setReg_visKept _ (r := R.VFE_CH_CROP_WH_H) (by decide) _ _ _)

theorem State.applyCrops_visKept (s : State) (n : Nat) : VisKept s (s.applyCrops n) :=
  List.foldlRecOn (motive := VisKept s) _ _ (VisKept.refl s) fun u hu c _ => by
    dsimp only
    split
    · exact (hu.trans (u.setCropNow_visKept _ _)).trans (VisKept.of_regs rfl)
    · exact hu

theorem State.visStart_visKept (s : State) (kind n : Nat) : VisKept s (s.visStart kind n).2 := by
  have hdrop (u : State) : VisKept u (u.visDrop kind n) := by
    rw [State.visDrop]
    split
    · exact u.incReg_visKept (by decide) n
    · split
      · exact u.incReg_visKept (by decide) n
      · exact u.incReg_visKept (by decide) n
  have hpick : VisKept s (s.visPick kind n).2 := by
    rw [State.visPick]
    split
    · exact VisKept.refl s
    · dsimp only
      split
      · exact VisKept.of_regs rfl
      · exact VisKept.refl s
  rw [State.visStart]
  split
  · next h => rwa [h] at hpick
  · next h =>
    rw [h] at hpick
    exact hpick.trans (hdrop _)

theorem State.visStarts_visKept (s : State) (l : List (List Byte)) : VisKept s (s.visStarts l).2 := by
  induction l generalizing s with
  | nil => exact VisKept.refl s
  | cons c l ih => exact (s.visStart_visKept 4 (field c 0 1)).trans (ih _)

/-- A frame opened on a stream with none, which is no depth stream: its own number, and nothing of it yet. -/
theorem State.openFrame_opened {n fn sub : Nat} {ent : List Byte} (hframe : (s.visStr n).frame = none) (hk : strKind ent ≠ 3) :
    ∃ (u : State) (f : VisFrame), VisKept s u ∧ f.fn = fn ∧ f.lines = [] ∧ f.bad = 0 ∧
      s.openFrame n ent fn sub = u.setVisStr n { frame := some f, armed := some u.now, set := (u.visStr n).set } := by
  rw [State.openFrame, State.closeFrame_none hframe]
  have h1 := s.applyCrops_visKept n
  generalize s.applyCrops n = u1 at h1 ⊢
  have h2 : VisKept s (u1.stamp sub 20).2 := h1.trans (VisKept.of_regs rfl)
  generalize u1.quality = q
  generalize u1.stamp sub 20 = p at h2 ⊢
  obtain ⟨fs, u2⟩ := p
  have h3 := h2.trans (u2.setReg_visKept (r := R.VFE_STR_LAST_FS_TIME) (by decide) fs n 0)
  generalize hu3 : u2.setReg R.VFE_STR_LAST_FS_TIME fs n = u3 at h3
  simp only [hu3, hk, decide_false, Bool.not_false, Bool.true_or, if_false, if_true, false_and]
  have h4 := h3.trans (u3.visStart_visKept 0 n)
  generalize u3.visStart 0 n = p4 at h4 ⊢
  obtain ⟨rec_, u4⟩ := p4
  have h5 := h4.trans (u4.visStarts_visKept (u4.visChansOf n))
  generalize u4.visStarts (u4.visChansOf n) = p5 at h5 ⊢
  obtain ⟨chans, u5⟩ := p5
  exact ⟨u5, { fn := fn, fs := fs, fsQuality := q, quality := q, record := rec_, chans := chans }, h5, rfl, rfl, rfl, rfl⟩

theorem VisKept.visStr (h : VisKept s t) (n : Nat) : t.visStr n = s.visStr n := by
  rw [State.visStr, State.visStr, h.eq]

/-- The stream whose frame has been opened or gone on. -/
theorem State.visStr_of_frame {n : Nat} {x : VisStream} (h : t.vis.streams = Sparse.put {} s.vis.streams n x)
    (hwf : Sparse.wf ({} : VisStream) s.vis.streams = true) : t.visStr n = x := by
  rw [State.visStr, h]
  exact Sparse.get_put_same _ _ hwf

/-- A line in its turn, in staging that is good. -/
theorem State.frameLine_kept {n sub : Nat} {ent : List Byte} {line : List Nat} {crcOk : Bool} {f : VisFrame} (hh : s.health = [])
    (hframe : (s.visStr n).frame = some f) (hroom : f.lines.length < strH ent) (hlen : line.length = lineLen ent) :
    ∃ (c : Nat) (g : VisFrame), s.frameLine n ent line crcOk sub =
        ({ s with freeCtr := c } : State).setVisStr n { s.visStr n with frame := some g } ∧
      g.lines = correctLine ent f.lines.length line :: f.lines ∧ g.bad = f.bad + (if crcOk then 0 else 1) ∧ g.fn = f.fn ∧
      g.record = f.record ∧ g.chans = f.chans := by
  have hbad : f.bad + ofBool (!crcOk) + ofBool (line.length != lineLen ent) = f.bad + (if crcOk then 0 else 1) := by
    rw [hlen, bne_self_eq_false]
    cases crcOk <;> rfl
  have hstage (c : Nat) : Eff.staging visionMem 0x400000 { s with freeCtr := c } = (.ok (), { s with freeCtr := c }) :=
    Eff.staging_good (s := { s with freeCtr := c }) hh ..
  rw [State.frameLine, hframe]
  dsimp only
  rw [if_neg (by omega), hbad]
  by_cases hstart : f.lines.length % field ent 5 1 = 0
  · rw [if_pos hstart]
    have hst : (s.stamp sub 20).2 = { s with freeCtr := s.freeCtr + 1 } := rfl
    generalize s.stamp sub 20 = p at hst ⊢
    obtain ⟨t, v⟩ := p
    subst hst
    dsimp only
    rw [hstage]
    exact ⟨_, _, rfl, rfl, rfl, rfl, rfl, rfl⟩
  · rw [if_neg hstart]
    dsimp only
    rw [Eff.staging_good hh]
    exact ⟨s.freeCtr, _, rfl, rfl, rfl, rfl, rfl, rfl⟩

/-- The items of a finished frame are queued, and nothing else changes. -/
theorem State.frameItems_eq (s : State) (n : Nat) (ent : List Byte) (f : VisFrame) (bad flags : Nat) (rows : List (List Nat)) :
    s.frameItems n ent f bad flags rows =
      { s with freeCtr := (s.frameItems n ent f bad flags rows).freeCtr, vis.items := (s.frameItems n ent f bad flags rows).vis.items } := by
  have hchan (u : State) (ref : Nat) (planes : List Img) :
      u.channelItems ent f bad flags ref planes = { u with vis.items := (u.channelItems ent f bad flags ref planes).vis.items } :=
    List.foldlRecOn (motive := fun v : State => v = { u with vis.items := v.vis.items }) _ _ rfl fun v hv x _ => by
      dsimp only
      split
      · exact hv
      · rw [hv]
  have href : (s.frameRef f).2 = { s with freeCtr := (s.frameRef f).2.freeCtr } := by
    rw [State.frameRef]
    split <;> rfl
  rw [State.frameItems]
  generalize s.frameRef f = p at href ⊢
  obtain ⟨ref, v⟩ := p
  dsimp only at href ⊢
  split
  · rw [hchan, href]
  · rw [hchan, State.stampTable, href]

end

end Sys2Proof.Machine

open Sys2Proof Sys2Proof.Machine

/-- Settles O37: the start, the lines and the end of a frame, and packets that cannot be used. -/
theorem cameraFrames : Obligations.CameraFrames := by
  intro s e dt port vc n ent hs he hon hmatch hn hn16 hk hh hwfv
  have hregs : e.regs = s.regs := by rw [he, State.elapse_regs]
  have hmem : e.mem = s.mem := by rw [he, State.elapse_mem]
  have hwf : Sparse.wf 0#32 e.regs = true := hregs ▸ hs.1
  have hecc : e.visEcc port false = e := if_neg Bool.false_ne_true
  refine ⟨fun fn sub hframe => ?_, fun f line crcOk sub hframe hroom hlen => ?_, fun f hframe hall hbad hlong => ?_, ?_, ?_⟩
  · obtain ⟨u, f, hu, hfn, hlines, hfbad, hopen⟩ := State.openFrame_opened (fn := fn) (sub := sub) hframe hk
    have hexec : exec (.csi2FrameStart dt port vc fn sub false) s = .next ((u.setVisStr n
        { frame := some f, armed := some u.now, set := (u.visStr n).set }).tmuxPulse 0x03 n) := by
      refine congrArg Host.Outcome.next ?_
      rw [← he, if_pos hon, hecc]
      dsimp only
      rw [hmatch]
      dsimp only
      rw [List.foldl_cons, List.foldl_nil, ← hn, hopen]
    have hstr := State.visStr_of_frame (s := u) (n := n) (x := { frame := some f, armed := some u.now, set := (u.visStr n).set })
      (t := (u.setVisStr n { frame := some f, armed := some u.now, set := (u.visStr n).set }).tmuxPulse 0x03 n) rfl (by rw [hu.eq]; exact hwfv)
    refine ⟨_, f, hexec, by rw [hstr], hfn, hlines, hfbad, ?_, sameMemory_of_mem ?_, (hu.svc hwf).2⟩
    · rw [hstr]
      dsimp only
      rw [hu.eq]
      rfl
    · refine Eq.trans ?_ hmem
      show u.mem = e.mem
      rw [hu.eq]
  · generalize hv : (if crcOk then e else e.incReg R.VFE_PORT_CRC_COUNT port) = v
    have hveq : v = { e with regs := v.regs } := by
      rw [← hv]
      split
      · rfl
      · exact e.incReg_eq ..
    have hsame : SameRegistersBut [(R.VFE_PORT_CRC_COUNT, port, 0)] s v := by
      rw [← hv]
      split
      · exact SameRegistersBut.of_regs (s := e) (fun _ _ => rfl) hregs.symm rfl
      · exact (e.sameRegistersBut_setReg _ _ _ _ hwf List.mem_cons_self).of_regs hregs.symm rfl
    have hvstr : v.visStr n = e.visStr n := by rw [hveq]; rfl
    obtain ⟨c, g, hline, hglines, hgbad, hgfn, hgrec, hgch⟩ := State.frameLine_kept (s := v) (n := n) (sub := sub) (crcOk := crcOk)
      (by rw [hveq]; exact hh) (hvstr ▸ hframe) hroom hlen
    have hexec : exec (.csi2LinePacket dt port vc (field ent 3 1) line crcOk false sub) s =
        .next (({ v with freeCtr := c } : State).setVisStr n { v.visStr n with frame := some g }) := by
      refine congrArg Host.Outcome.next ?_
      rw [← he, if_pos hon, hecc]
      dsimp only
      rw [hmatch, List.filter_cons_of_pos (by simp), List.filter_nil]
      dsimp only
      rw [List.foldl_cons, List.foldl_nil, ← hn, hv, hline]
    have hstr := State.visStr_of_frame (s := v) (n := n) (x := { v.visStr n with frame := some g })
      (t := ({ v with freeCtr := c } : State).setVisStr n { v.visStr n with frame := some g }) rfl (by rw [hveq]; exact hwfv)
    refine ⟨_, g, hexec, by rw [hstr], hglines, hgbad, hgfn, hgrec, hgch, sameMemory_of_mem ?_, hsame.of_regs rfl rfl⟩
    refine Eq.trans ?_ hmem
    show v.mem = e.mem
    rw [hveq]
  · generalize hu : (e.setVisStr n { e.visStr n with frame := none }).incReg R.VFE_STR_FRAMES_COUNT n = u
    have hueq : u = { e with regs := u.regs, vis.streams := Sparse.put {} e.vis.streams n { e.visStr n with frame := none } } := by
      rw [← hu, State.incReg_eq]
      rfl
    have hitems := u.frameItems_eq n ent f f.bad (itemFlags false false false false false false) (frameRows ent f)
    generalize hw : u.frameItems n ent f f.bad (itemFlags false false false false false false) (frameRows ent f) = w at hitems
    have hwregs : w.regs = u.regs := by rw [hitems]
    have hmarked : (decide (field ent 0x3C 2 < f.bad) || false || false || false) = false := by simp [hbad]
    have hexec : exec (.csi2FrameEnd dt port vc f.fn false) s = .next w := by
      refine congrArg Host.Outcome.next ?_
      rw [← he, if_pos hon, hecc]
      dsimp only
      rw [hmatch]
      dsimp only
      rw [List.foldl_cons, List.foldl_nil, ← hn, hframe, if_pos (by simp), State.closeFrame, hframe]
      dsimp only
      rw [hall, Nat.sub_self, hlong, if_neg hk]
      simp only [Nat.add_zero, ne_eq, not_true_eq_false, decide_false, Bool.or_false, hu]
      simp only [Bool.or_false] at hmarked
      rw [hmarked, if_neg Bool.false_ne_true, hw]
    refine ⟨_, hexec, ?_, ?_, ?_, sameMemory_of_mem ?_⟩
    · rw [State.visStr_of_frame (s := e) (n := n) (x := { e.visStr n with frame := none }) (by rw [hitems, hueq]) hwfv]
    · rw [State.reg_of_regs hwregs, ← hu, State.reg_incReg_same (e.setVisStr n { e.visStr n with frame := none }) _ _ _ _ hwf (by decide)]
      rfl
    · rw [← hu] at hwregs
      exact (State.sameRegistersBut_setReg (e.setVisStr n { e.visStr n with frame := none }) _ _ _ _ hwf List.mem_cons_self).of_regs hregs.symm hwregs
    · rw [hitems, hueq]
      exact hmem
  · refine congrArg Host.Outcome.next ?_
    rw [← he, if_pos hon, if_pos rfl]
  · refine congrArg Host.Outcome.next ?_
    rw [← he, if_pos hon, if_neg Bool.false_ne_true]
end


section
/-!
SUPPORT. The intake of requests and the release of response items: what each takes, and the windows it changes.
-/

namespace Sys2Proof.Machine

open Sys2Proof

section

variable {s e u : State} {i n q : Nat}

/-- A counter of the intake stands in no word of a ring. -/
theorem State.ring_incIntake (hwf : Sparse.wf 0#32 s.regs = true) (hq : q < 512) {r : RegRow} (h1 : 0xF0000B0000 ≤ r.addr) :
    (s.incReg r).ring q = s.ring q := by
  have hother (f : RegRow) (ha : f.addr < 0xF000090000) (hs1 : f.s1 ≤ 0x40) (hs2 : f.s2 = 0) (hw : f.words = 1) :
      (s.incReg r).reg f q = s.reg f q := by
    refine State.reg_incReg_other _ _ _ _ _ _ _ _ hwf (.inl ?_)
    simp only [RegRow.at, hs2, hw]
    have : f.s1 * q ≤ 0x40 * q := Nat.mul_le_mul_right _ hs1
    omega
  simp only [State.ring, State.qState, State.qSize, State.wptr, State.rptr, State.gen, hother R.QUE_STATE_STATE (by decide) (by decide) rfl rfl,
    hother R.QUE_CFG_LOG2_SLOTS (by decide) (by decide) rfl rfl, hother R.QUE_WPTR_WPTR (by decide) (by decide) rfl rfl,
    hother R.QUE_RPTR_RPTR (by decide) (by decide) rfl rfl, hother R.QUE_STATE_GEN (by decide) (by decide) rfl rfl]

theorem State.release_wf (hwf : Sparse.wf 0#32 s.regs = true) (q n : Nat) : Sparse.wf 0#32 (s.release q n).regs = true := by
  have hrptr := s.setReg_wf R.QUE_RPTR_RPTR (s.ptrAdd q (s.rptr q) n) q 0 hwf
  rw [State.release]
  split
  · exact State.setReg_wf _ _ _ _ _ hrptr
  · split
    · exact State.setReg_wf _ _ _ _ _ hrptr
    · exact hrptr

/-- The request taken by the intake leaves its queue, or its direct item: registers and interfaces change. -/
theorem State.intakeTake_eq {r : Request} (h : e.intakeTake = some (r, u)) (hwf : Sparse.wf 0#32 e.regs = true) :
    u = { e with regs := u.regs, ifaces := u.ifaces } ∧ Sparse.wf 0#32 u.regs = true := by
  simp only [State.intakeTake] at h
  split at h
  · cases h
  generalize (if e.noQueues then none else e.intakeNext) = queued at h
  split at h
  · obtain ⟨-, rfl⟩ := Prod.mk.inj (Option.some.inj h)
    exact ⟨rfl, hwf⟩
  · cases h
  · split at h
    · obtain ⟨-, hu⟩ := Prod.mk.inj (Option.some.inj h)
      rw [← hu]
      exact ⟨by rw [State.release_eq], State.release_wf hwf ..⟩
    · cases h

theorem State.unlessDuplicate_none {r : Request} {f : State → State} (h : u.entry? i r.reqId = none) : u.unlessDuplicate r i f = f u := by
  rw [State.unlessDuplicate, h]

/-- An item, accepted or not, changes memory and registers. -/
theorem State.produce_snd_eq (s : State) (q : Nat) (item : List (List Byte)) :
    (s.produce q item).2 = { s with mem := (s.produce q item).2.mem, regs := (s.produce q item).2.regs } := by
  rw [State.produce]
  split
  · rw [State.doorbell_snd_eq, State.putSlots_eq]
  · rw [State.incReg_eq, State.doorbell_snd_eq]

theorem State.answer_windows (s : State) (iface word0 status dup detail : Nat) (body : List Byte) :
    (s.answer iface word0 status dup detail body).windows = s.windows := by
  rw [State.answer]
  split
  · rw [State.produce_snd_eq]
  · rfl

/-- The window that a nonempty list of entries becomes. -/
theorem State.window_setWindow {w : List WinEntry} (hw : w ≠ []) (i : Nat) : (s.setWindow i w).window i = w :=
  Sparse.get_put_of_ne _ _ hw

theorem updateFirst_ne_nil {α : Type} {p : α → Bool} {f : α → α} {l : List α} (h : l ≠ []) : updateFirst p f l ≠ [] := by
  cases l with
  | nil => exact absurd rfl h
  | cons a l =>
    rw [updateFirst]
    split <;> exact List.cons_ne_nil _ _

/-- An item that its queue takes, of at most 2^16 slots: WPTR is advanced by its slots. -/
theorem State.wptr_produce {item : List (List Byte)} (hwf : Sparse.wf 0#32 s.regs = true) (hlog : s.reg R.QUE_CFG_LOG2_SLOTS q ≤ 16)
    (h : s.doorbellCause q (s.ptrAdd q (s.wptr q) item.length) (s.gen q) = 0) :
    (s.produce q item).2.wptr q = s.ptrAdd q (s.wptr q) item.length := by
  obtain ⟨st, hring, -⟩ := s.ring_doorbell_of_accepted q _ (s.gen q) hwf (Nat.lt_of_lt_of_le (s.ptrAdd_lt ..) (s.two_qSize_le q hlog)) h
  rw [State.produce_eq h]
  exact (State.reg_of_regs rfl _ _ _).trans (congrArg RingView.wptr hring)

end

end Sys2Proof.Machine

open Sys2Proof Sys2Proof.Machine

/-- Settles O36: submits, duplicates, aborts of unknown requests, and response items. -/
theorem requestsAndResponses : Obligations.RequestsAndResponses := by
  intro s e u dt r hs he
  have hregs : e.regs = s.regs := by rw [he, State.elapse_regs]
  have hmem : e.mem = s.mem := by rw [he, State.elapse_mem]
  have hwf : Sparse.wf 0#32 e.regs = true := hregs ▸ hs.1
  refine ⟨?_, ?_, ?_, ?_⟩
  · intro i ent q htake htype hj hi hent hrights hroute hq hq512
    have hx : exec (.submit dt) s = execSubmit dt s := rfl
    rw [hx, execSubmit, ← he, State.intake_pass htake (by simp [htype]) hj, ← hi, State.unlessDuplicate_none hent, State.withRights_pass hrights,
      hroute]
    dsimp only
    rw [← hq]
    refine ⟨fun hbusy => by rw [if_pos hbusy], fun hbusy hjob hlog hcause => ?_⟩
    obtain ⟨hueq, huwf⟩ := State.intakeTake_eq htake hwf
    have hjob' : (field ent 2 1 == 1) = false := by simp [hjob]
    rw [hjob', Bool.false_and, Bool.or_false, if_neg (by simp [hbusy]), State.submit]
    rw [← hq, hjob']
    have hring : (u.incReg R.PART_INTAKE_ACCEPT_COUNT).ring q = u.ring q := State.ring_incIntake huwf hq512 (by decide)
    have hinceq := u.incReg_eq R.PART_INTAKE_ACCEPT_COUNT 0 0 1
    have hincwf := u.incReg_wf R.PART_INTAKE_ACCEPT_COUNT 0 0 1 huwf
    generalize u.incReg R.PART_INTAKE_ACCEPT_COUNT = v at hring hinceq hincwf
    have hwin : v.window i = u.window i := by rw [hinceq]; rfl
    have hvw : v.wptr q = u.wptr q := congrArg RingView.wptr hring
    rw [if_neg Bool.false_ne_true, hvw, State.openEntry, hwin]
    dsimp only
    generalize hnew : (if 1024 ≤ (u.window i).length then (u.window i).drop 1 else u.window i) ++
      [{ reqId := r.reqId, route := r.routeNo, iface := r.iface, word0 := r.word 0, isAbort := false, seqno := none
         itemQ := q, itemPtr := u.wptr q }] = new
    have hne : new ≠ [] := by rw [← hnew]; simp
    generalize hw : v.setWindow i new = w
    have hwregs : w.regs = v.regs := by rw [← hw]; rfl
    have hwring : w.ring q = u.ring q := (State.ring_of_regs hwregs q).trans hring
    have hadd : w.ptrAdd q (w.wptr q) r.item.length = u.ptrAdd q (u.wptr q) r.item.length := by
      exact congrArg (fun x : RingView => (x.wptr + r.item.length) % (2 * x.size)) hwring
    have hwlog : w.reg R.QUE_CFG_LOG2_SLOTS q ≤ 16 := by
      have hsize : 2 ^ w.reg R.QUE_CFG_LOG2_SLOTS q = 2 ^ u.reg R.QUE_CFG_LOG2_SLOTS q := congrArg RingView.size hwring
      exact (Nat.pow_le_pow_iff_right (a := 2) (by decide)).mp (hsize ▸ Nat.pow_le_pow_right (by decide) hlog)
    have hwcause : w.doorbellCause q (w.ptrAdd q (w.wptr q) r.item.length) (w.gen q) = 0 := by
      rw [hadd, State.doorbellCause_of_ring hwring, show w.gen q = u.gen q from congrArg RingView.gen hwring]
      exact hcause
    have hpair : (w.produce q r.item).1 = true := by
      simp only [State.produce, hwcause, if_true]
    rw [hpair, if_neg (by simp), if_neg Bool.false_ne_true]
    have hpw := State.wptr_produce (hwregs ▸ hincwf) hwlog hwcause
    have hpeq := w.produce_snd_eq q r.item
    refine ⟨_, rfl, hpw.trans hadd, ?_, ?_⟩
    · rw [State.window, hpeq]
      exact (congrArg (fun x => State.window x i) hw.symm).trans (State.window_setWindow hne i)
    · rw [hpeq, ← hw]
      show v.cmds = e.cmds
      rw [hinceq, hueq]
  · intro i x htake htype hj hi hent
    have hx : exec (.submit dt) s = execSubmit dt s := rfl
    rw [hx, execSubmit, ← he, State.intake_pass htake (by simp [htype]) hj, ← hi, State.unlessDuplicate, hent]
  · intro i x htake htype hj hrights hi hent htarget hbusy hxe
    have hx : exec (.abort dt) s = execAbort dt s := rfl
    obtain ⟨hueq, huwf⟩ := State.intakeTake_eq htake hwf
    have hring : (u.incReg R.PART_INTAKE_ACCEPT_COUNT).ring 0 = u.ring 0 := State.ring_incIntake huwf (by decide) (by decide)
    have hwptr : (u.incReg R.PART_INTAKE_ACCEPT_COUNT).wptr 0 = u.wptr 0 := congrArg RingView.wptr hring
    rw [hx, execAbort, ← he, State.intake_pass htake (by simp [htype]) hj, ← hi, State.unlessDuplicate_none hent, State.withRights_pass hrights,
      htarget]
    dsimp only
    rw [if_neg (by simp [hbusy]), hxe, hwptr]
    rfl
  · intro q n h route happ hnet hact hq hlog hslots hroute hh
    have hexec : exec (.responseItem dt q) s = .next (e.takeResponse q) := by
      refine congrArg Host.Outcome.next ?_
      rw [← he, if_pos ⟨happ, hnet, hact⟩]
    obtain ⟨st, hring, -⟩ := e.ring_release q n hwf (e.two_qSize_le q hlog)
    have hsame := e.sameRegistersBut_release q n hwf
    have hveq := e.release_eq q n
    have hvwf : Sparse.wf 0#32 (e.release q n).regs = true := State.release_wf hwf _ _
    simp only [State.takeResponse, hslots, hroute, ← hh] at hexec
    generalize e.release q n = v at hexec hring hsame hveq hvwf
    have hclient (k : Nat) : v.client k = e.client k := by rw [hveq]; rfl
    have hwin (i : Nat) : v.window i = e.window i := by rw [hveq]; rfl
    rw [hclient] at hexec
    refine ⟨fun hnone => ?_, fun i c x hcl hfind hst => ?_⟩
    · rw [hnone] at hexec
      refine ⟨_, hexec, ?_, sameMemory_of_mem ?_, ?_⟩
      · exact (congrArg RingView.rptr (State.ring_incIntake hvwf hq (by decide))).trans (congrArg RingView.rptr hring)
      · rw [State.incReg_mem, hveq, hmem]
      · rw [State.reg_incReg_same _ _ _ _ _ hvwf (by decide), hsame.reg R.PART_INTAKE_ORPHAN_COUNT 0 0 fun x hxl => ?_]
        simp only [List.mem_cons, List.not_mem_nil, or_false] at hxl
        obtain rfl | rfl := hxl <;> simp only [RegRow.at, RegRow.words, R.PART_INTAKE_ORPHAN_COUNT, R.QUE_STATE_STATE, R.QUE_RPTR_RPTR] <;> omega
    · rw [hcl] at hexec
      dsimp only at hexec
      rw [hwin, hfind] at hexec
      dsimp only at hexec
      rw [if_pos hst] at hexec
      refine ⟨_, hexec, ?_⟩
      have hw : (v.answer x.iface x.word0 (field h 12 1) 0 (field h 24 8) (e.itemBody q (field h 8 4))).window i = e.window i := by
        rw [State.window, State.answer_windows]
        exact hwin i
      rw [hw]
      refine State.window_setWindow (updateFirst_ne_nil fun hnil => ?_) i
      rw [hnil] at hfind
      cases hfind
end


section
/-!
SUPPORT. Orbit time: its state, the measure of a Sync message, and the rate that the servo sets.
-/

namespace Sys2Proof.Machine

open Sys2Proof

section

variable {s t u : State}

/-- Orbit's state as set: the counts of near and far Syncs begin again. -/
theorem State.setOrbit_eq (s : State) (v : Nat) :
    s.setOrbit v = { s with regs := (s.setReg R.TIME_STATUS_STATE v).regs, orbit := { s.orbit with near := 0, far := 0 } } := by
  rw [State.setOrbit, State.setReg_eq]

theorem State.setOrbit_regs (s : State) (v : Nat) : (s.setOrbit v).regs = (s.setReg R.TIME_STATUS_STATE v).regs := rfl

theorem State.setOrbit_wf (hwf : Sparse.wf 0#32 s.regs = true) (v : Nat) : Sparse.wf 0#32 (s.setOrbit v).regs = true :=
  s.setReg_wf R.TIME_STATUS_STATE v 0 0 hwf

/-- A field beside Orbit's state reads as before. -/
theorem State.reg_setOrbit_apart (hwf : Sparse.wf 0#32 s.regs = true) {q : RegRow} (h : R.TIME_STATUS_STATE.Apart q 0 0 0 0) (v : Nat) :
    (s.setOrbit v).reg q = s.reg q :=
  (State.reg_of_regs (s.setOrbit_regs v) q 0 0).trans (State.reg_setReg_apart hwf h)

theorem State.reg_setOrbit_same (hwf : Sparse.wf 0#32 s.regs = true) {v : Nat} (hv : v < 8) : (s.setOrbit v).reg R.TIME_STATUS_STATE = v := by
  refine (State.reg_of_regs (s.setOrbit_regs v) _ 0 0).trans ?_
  rw [State.reg_setReg_same _ _ _ _ _ hwf (by decide)]
  exact Nat.mod_eq_of_lt hv

theorem clampInt_natAbs (m : Nat) (x : Int) : (clampInt (-(m : Int)) m x).natAbs ≤ m := by
  rw [clampInt]
  omega

/-- The servo sets a rate correction of at most 250 ppm, and changes no other register. -/
theorem State.servo_spec (hwf : Sparse.wf 0#32 s.regs = true) :
    s.servo = { s with regs := s.servo.regs, freeCtr := s.servo.freeCtr, orbit := { s.orbit with freq := s.servo.orbit.freq } } ∧
      (signed 32 (s.servo.reg R.TIME_RATE_CORR)).natAbs ≤ 250000 ∧
      ∀ q : RegRow, R.TIME_RATE_CORR.Apart q 0 0 0 0 → s.servo.reg q = s.reg q := by
  have hservo : s.servo = { ({ s with freeCtr := s.freeCtr + 1 + 1 } : State).setReg R.TIME_RATE_CORR
      (unsigned 32 (clampInt (-(maxCorr : Int)) maxCorr (Config.freeInt s.freeCtr))) with
        orbit.freq := clampInt (-(maxCorr : Int)) maxCorr (Config.freeInt (s.freeCtr + 1)) } := rfl
  have hc := clampInt_natAbs maxCorr (Config.freeInt s.freeCtr)
  generalize clampInt (-(maxCorr : Int)) maxCorr (Config.freeInt s.freeCtr) = c at hservo hc
  generalize hu : ({ s with freeCtr := s.freeCtr + 1 + 1 } : State) = u at hservo
  have huregs : u.regs = s.regs := by rw [← hu]
  have hrate : s.servo.reg R.TIME_RATE_CORR = unsigned 32 c := by
    refine (State.reg_of_regs (s := u.setReg R.TIME_RATE_CORR (unsigned 32 c)) (by rw [hservo]) _ 0 0).trans ?_
    rw [State.reg_setReg_same _ _ _ _ _ (huregs ▸ hwf) (by decide)]
    exact Nat.mod_eq_of_lt (unsigned_lt ..)
  refine ⟨?_, ?_, fun q hq => ?_⟩
  · rw [hservo, State.setReg_eq, ← hu]
  · have hmax : maxCorr = 250000 := rfl
    rw [hrate, signed_unsigned (by omega) (by omega)]
    exact hc
  · refine (State.reg_of_regs (s := u.setReg R.TIME_RATE_CORR (unsigned 32 c)) (by rw [hservo]) _ 0 0).trans ?_
    rw [State.reg_setReg_apart (huregs ▸ hwf) hq, State.reg_of_regs huregs]

/-- The first Sync after power-on steps Orbit time. -/
structure Stepped (s : State) (m : SyncMsg) (t : State) : Prop where
  eq : t = { s with regs := t.regs, freeCtr := t.freeCtr, orbit := { s.orbit with now := m.time % 2 ^ 64, sub := 0 } }
  wf : Sparse.wf 0#32 t.regs = true
  stepped : t.flag R.TIME_STATUS_STEPPED = true
  port : t.reg R.TIME_STATUS_PORT = s.reg R.TIME_STATUS_PORT
  gm : t.reg R.TIME_GM_ID_ID = m.gm % 2 ^ 64

theorem State.measure_stepped {m : SyncMsg} (hwf : Sparse.wf 0#32 s.regs = true) (hst : s.flag R.TIME_STATUS_STEPPED = false)
    (harm : s.boot.armedOnce = false) : (s.measure m).1 = 0 ∧ Stepped s m (s.measure m).2 := by
  generalize hu : ({ s with freeCtr := s.freeCtr + 1 } : State) = u
  have hstamp : s.stamp 0 8 = ((s.stamp 0 8).1, u) := by rw [← hu]; rfl
  have huregs : u.regs = s.regs := by rw [← hu]
  have huwf : Sparse.wf 0#32 u.regs = true := huregs ▸ hwf
  have hvwf := u.setReg_wf R.TIME_GM_ID_ID m.gm 0 0 huwf
  have hflag : (u.setReg R.TIME_GM_ID_ID m.gm).flag R.TIME_STATUS_STEPPED = false := by
    rw [State.flag, State.reg_setReg_apart huwf (by decide), State.reg_of_regs huregs]
    exact hst
  have hboot : (u.setReg R.TIME_GM_ID_ID m.gm).boot = s.boot := by rw [State.setReg_boot, ← hu]
  rw [State.measure, hstamp]
  dsimp only
  rw [if_pos ⟨hflag, by rw [hboot]; exact harm⟩]
  generalize hw : ({ u.setReg R.TIME_GM_ID_ID m.gm with orbit.now := m.time % 2 ^ 64, orbit.sub := 0 } : State) = w
  have hwregs : w.regs = (u.setReg R.TIME_GM_ID_ID m.gm).regs := by rw [← hw]
  have hwwf : Sparse.wf 0#32 w.regs = true := hwregs ▸ hvwf
  have hw1 := w.setReg_wf R.TIME_STATUS_STEPPED 1 0 0 hwwf
  refine ⟨rfl, ?_, State.setReg_wf _ _ _ _ _ hw1, ?_, ?_, ?_⟩
  · rw [State.setReg_eq (w.setReg ..), State.setReg_eq w, ← hw, State.setReg_eq u, ← hu]
  · rw [State.flag, State.reg_setReg_apart hw1 (by decide), State.reg_setReg_same _ _ _ _ _ hwwf (by decide)]
    rfl
  · rw [State.reg_setReg_apart hw1 (by decide), State.reg_setReg_apart hwwf (by decide), State.reg_of_regs hwregs,
      State.reg_setReg_apart huwf (by decide), State.reg_of_regs huregs]
  · rw [State.reg_setReg_apart hw1 (by decide), State.reg_setReg_apart hwwf (by decide), State.reg_of_regs hwregs,
      State.reg_setReg_same _ _ _ _ _ huwf (by decide)]
    rfl

/-- One message comes in its turn whether its port is preferred or not. -/
theorem State.syncOrder_single (s : State) (m : SyncMsg) :
    (([m].filter fun m => s.syncPreferred m.port) ++ ([m].filter fun m => !s.syncPreferred m.port)).foldl (fun s m => s.sync m) s = s.sync m := by
  cases h : s.syncPreferred m.port <;> simp [h]

end

end Sys2Proof.Machine

open Sys2Proof Sys2Proof.Machine

/-- Settles O18: the first Sync, a switch of port, holdover and its end. -/
theorem orbitDiscipline : Obligations.OrbitDiscipline := by
  intro s e dt hs he hpor
  have hregs : e.regs = s.regs := by rw [he, State.elapse_regs]
  have hmem : e.mem = s.mem := by rw [he, State.elapse_mem]
  have hwf : Sparse.wf 0#32 e.regs = true := hregs ▸ hs.1
  refine ⟨fun m hen h1 h2 hst harm => ?_, fun a ha hstate hold hen hfresh hgm => ?_, fun a ha hstate hold hfresh => ?_, fun hstate hlim => ?_⟩
  · have hport : m.port < 2 := by
      rw [State.syncEnabled, Bool.and_eq_true, decide_eq_true_eq] at hen
      exact hen.1
    generalize hu : (e.setSyncPort m.port ⟨m.gm, some e.tick, m.timeout⟩) = u
    have hueq : u = { e with orbit := u.orbit } := by
      rw [← hu, State.setSyncPort]
      split <;> rfl
    have huregs : u.regs = e.regs := by rw [hueq]
    have huwf : Sparse.wf 0#32 u.regs = true := huregs ▸ hwf
    have hvwf := u.setReg_wf R.TIME_STATUS_PORT m.port 0 0 huwf
    obtain ⟨hoff, hstep⟩ := State.measure_stepped (s := u.setReg R.TIME_STATUS_PORT m.port) (m := m) hvwf
      (by rw [State.flag, State.reg_setReg_apart huwf (by decide), State.reg_of_regs huregs]; exact hst)
      (by rw [State.setReg_boot, hueq]; exact harm)
    have hsync : e.sync m = (((u.setReg R.TIME_STATUS_PORT m.port).measure m).2.setOrbit 1).servo := by
      rw [State.sync, if_neg (by simp [hen]), hu]
      dsimp only
      rw [State.reg_of_regs huregs, if_neg (by simp [h1, h2]), hoff]
      rfl
    generalize ((u.setReg R.TIME_STATUS_PORT m.port).measure m).2 = v at hstep hsync
    have hwwf := State.setOrbit_wf hstep.wf 1
    obtain ⟨hseq, hrate, hsreg⟩ := State.servo_spec hwwf
    have hoeq := v.setOrbit_eq 1
    have hexec : exec (.syncReceived dt [m]) s = .next (v.setOrbit 1).servo := by
      refine congrArg Host.Outcome.next ?_
      rw [← he, if_neg hpor, State.syncOrder_single, hsync]
    refine ⟨_, hexec, ?_, ?_, ?_, ?_, ?_, hrate, sameMemory_of_mem ?_⟩
    · rw [State.now, hseq, hoeq, hstep.eq]
    · rw [State.flag, hsreg _ (by decide), State.reg_setOrbit_apart hstep.wf (by decide)]
      exact hstep.stepped
    · rw [hsreg _ (by decide), State.reg_setOrbit_same hstep.wf (by decide)]
    · rw [hsreg _ (by decide), State.reg_setOrbit_apart hstep.wf (by decide), hstep.port, State.reg_setReg_same _ _ _ _ _ huwf (by decide)]
      exact Nat.mod_eq_of_lt hport
    · rw [hsreg _ (by decide), State.reg_setOrbit_apart hstep.wf (by decide), hstep.gm]
    · rw [hseq, hoeq, hstep.eq, State.setReg_mem, hueq, hmem]
  · have hexec : exec (.syncReceiptTimeout dt) s = .next ((e.setReg R.TIME_STATUS_PORT (1 - a)).incReg R.TIME_TALLY_PORT_SWITCH) := by
      refine congrArg Host.Outcome.next ?_
      rw [← he, ← ha, if_pos ⟨hstate, hold⟩, if_pos ⟨hen, hfresh, hgm⟩]
    have hwf1 := e.setReg_wf R.TIME_STATUS_PORT (1 - a) 0 0 hwf
    refine ⟨_, hexec, ?_, ?_, ?_, ?_⟩
    · rw [State.incReg, State.reg_setReg_apart hwf1 (by decide), State.reg_setReg_same _ _ _ _ _ hwf (by decide)]
      exact Nat.mod_eq_of_lt (show 1 - a < 2 by omega)
    · rw [State.incReg, State.reg_setReg_apart hwf1 (by decide), State.reg_setReg_apart hwf (by decide)]
    · rw [State.reg_incReg_same _ _ _ _ _ hwf1 (by decide), State.reg_setReg_apart hwf (by decide)]
      rfl
    · exact State.setReg_eq_of (e.setReg_eq ..) ..
  · have hexec : exec (.syncReceiptTimeout dt) s = .next ({ ((e.setReg R.TIME_RATE_CORR (unsigned 32 e.orbit.heldRate)).setOrbit 3).incReg
        R.TIME_TALLY_SYNC_LOSS with orbit.holdAt := e.tick }) := by
      refine congrArg Host.Outcome.next ?_
      rw [← he, ← ha, if_pos ⟨hstate, hold⟩, if_neg (by simp [hfresh])]
      dsimp only
      rw [State.setReg_tick]
    have hwf1 := e.setReg_wf R.TIME_RATE_CORR (unsigned 32 e.orbit.heldRate) 0 0 hwf
    have hwf2 := State.setOrbit_wf hwf1 3
    generalize hu : (e.setReg R.TIME_RATE_CORR (unsigned 32 e.orbit.heldRate)).setOrbit 3 = u at hexec hwf2
    have hueq : u = { e with regs := u.regs, orbit := u.orbit } := by
      rw [← hu, State.setOrbit_eq, State.setReg_eq e]
    generalize ht : ({ u.incReg R.TIME_TALLY_SYNC_LOSS with orbit.holdAt := e.tick } : State) = t at hexec
    have htregs : t.regs = (u.incReg R.TIME_TALLY_SYNC_LOSS).regs := by rw [← ht]
    refine ⟨_, hexec, ?_, ?_, by rw [← ht], ?_⟩
    · rw [State.reg_of_regs htregs, State.incReg, State.reg_setReg_apart hwf2 (by decide), ← hu, State.reg_setOrbit_same hwf1 (by decide)]
    · rw [State.reg_of_regs htregs, State.incReg, State.reg_setReg_apart hwf2 (by decide), ← hu, State.reg_setOrbit_apart hwf1 (by decide),
        State.reg_setReg_same _ _ _ _ _ hwf (by decide)]
      exact Nat.mod_eq_of_lt (unsigned_lt ..)
    · rw [← ht, State.incReg_eq, hueq]
  · have hexec : exec (.holdLimitExpire dt) s = .next (e.setOrbit 4) := by
      refine congrArg Host.Outcome.next ?_
      rw [← he, if_pos ⟨hstate, hlim⟩]
    exact ⟨_, hexec, State.reg_setOrbit_same hwf (by decide), e.setOrbit_eq 4⟩
end


section
/-!
SUPPORT. Fusion groups: frames pending and ready, and the descriptor of a whole frame.
-/

namespace Sys2Proof.Machine

open Sys2Proof

section

variable {s t u : State} {g : Nat}

theorem State.group_setGroup {x : FgGroup} (hx : x ≠ {}) (g : Nat) : (s.setGroup g x).group g = x := Sparse.get_put_of_ne _ _ hx

theorem State.group_of_groups (h : t.groups = s.groups) (g : Nat) : t.group g = s.group g := by rw [State.group, State.group, h]

/-- Frames made ready keep their instants. -/
theorem map_ready_t (l : List FgFrame) (n : Nat) (fix : FgFrame → FgFrame) (hfix : ∀ f, (fix f).t = f.t) :
    (l.map fun f => if f.t = n then fix f else f).map (·.t) = l.map (·.t) := by
  rw [List.map_map]
  refine List.map_congr_left fun f _ => ?_
  rw [Function.comp_apply]
  split
  · exact hfix f
  · rfl

/-- A frame as it turns ready (R65, R67): early and as it is, or at its deadline with the held items of absent members. -/
def State.readied (s : State) (g t : Nat) (early : Bool) (f : FgFrame) : FgFrame :=
  if early then { f with ready := some true } else
  let add := ((s.fgMembers g).filter fun m => s.flag R.TIME_FG_MEMBER_HOLD g m).filterMap fun m =>
    if f.items.any (fun e => e.1 == m) then none else
    match (s.group g).lastItem t m with
    | some i => if (t : Int) - i.ref ≤ s.reg R.TIME_FG_HOLD_HOLD_MAX g then some (m, i) else none
    | none => none
  { f with items := f.items ++ add, held := add.map (·.1), ready := some false }

theorem State.fgReady_eq (s : State) (g n : Nat) (early : Bool) :
    s.fgReady g n early = s.setGroup g { s.group g with
      frames := (s.group g).frames.map fun f => if f.t = n then s.readied g n early f else f } := rfl

theorem State.readied_ready (s : State) (g n : Nat) (early : Bool) (f : FgFrame) :
    (s.readied g n early f).t = f.t ∧ (s.readied g n early f).ready = some early := by
  cases early <;> exact ⟨rfl, rfl⟩

/-- What a frame's turning ready changes: the group's frames, of the same instants. -/
theorem State.fgReady_spec {n : Nat} {early : Bool} (hne : (s.group g).frames ≠ []) :
    ∃ fr, (s.fgReady g n early).group g = { s.group g with frames := fr } ∧ fr.map (·.t) = (s.group g).frames.map (·.t) ∧
      (∀ x ∈ fr, x.t = n → x.ready = some early) ∧ s.fgReady g n early = { s with groups := (s.fgReady g n early).groups } := by
  rw [State.fgReady_eq]
  refine ⟨_, State.group_setGroup (fun hd => hne ?_) g, map_ready_t _ n _ fun f => (s.readied_ready g n early f).1, fun x hx hxt => ?_, rfl⟩
  · simpa using congrArg FgGroup.frames hd
  · obtain ⟨f, -, rfl⟩ := List.mem_map.mp hx
    split at hxt
    · rw [if_pos ‹_›]
      exact (s.readied_ready g n early f).2
    · exact absurd hxt ‹_›

/-- The check of a frame that may be whole changes at most its group's frames. -/
theorem State.fgCheck_spec {n : Nat} (hne : (s.group g).frames ≠ []) :
    ∃ fr, (s.fgCheck g n).group g = { s.group g with frames := fr } ∧ fr.map (·.t) = (s.group g).frames.map (·.t) ∧
      s.fgCheck g n = { s with groups := (s.fgCheck g n).groups } := by
  rw [State.fgCheck]
  split
  · split
    · obtain ⟨fr, hg, ht, -, heq⟩ := State.fgReady_spec (n := n) (early := true) hne
      exact ⟨fr, hg, ht, heq⟩
    · exact ⟨_, rfl, rfl, rfl⟩
  · exact ⟨_, rfl, rfl, rfl⟩

theorem FgFrame.place_t (f : FgFrame) (m : Nat) (x : FgItem) : (f.place m x).2.t = f.t := by
  rw [FgFrame.place]
  split <;> rfl

/-- The kept items placed in a new frame (R66), with how many of them were superseded. -/
def placeKept (l : List (Nat × FgItem)) (r : Nat × FgFrame) : Nat × FgFrame :=
  l.foldl (fun (r : Nat × FgFrame) e => let p := r.2.place e.1 e.2; (if p.1 then r.1 + 1 else r.1, p.2)) r

/-- Kept items placed in a new frame leave its instant. -/
theorem placeKept_t (l : List (Nat × FgItem)) (r : Nat × FgFrame) : (placeKept l r).2.t = r.2.t := by
  induction l generalizing r with
  | nil => rfl
  | cons e l ih =>
    rw [placeKept, List.foldl_cons, ← placeKept, ih]
    exact r.2.place_t e.1 e.2

/-- From `s` to `t` the absences of group `g` have been counted, and nothing else has changed. -/
structure AbsenceCounted (s : State) (g : Nat) (t : State) : Prop where
  eq : t = { s with groups := t.groups }
  group : (t.group g).frames = (s.group g).frames ∧ (t.group g).seq = (s.group g).seq ∧ (t.group g).overrun = (s.group g).overrun

/-- A frame with every member present counts no absence that raises. -/
theorem State.fgAbsences_present {f : FgFrame} (hseq : (s.group g).seq ≠ 0)
    (h : ∀ m ∈ s.fgMembers g, (f.items.any fun x => x.1 == m) = true) : AbsenceCounted s g (s.fgAbsences g f) :=
  List.foldlRecOn (motive := AbsenceCounted s g) _ _ ⟨rfl, rfl, rfl, rfl⟩ fun u hu m hm => by
    dsimp only
    rw [if_pos (h m hm)]
    have hgr := State.group_setGroup (s := u) (x := { u.group g with absent := Sparse.put 0 (u.group g).absent m 0 })
      (fun hd => hseq (hu.group.2.1.symm.trans (congrArg FgGroup.seq hd))) g
    refine ⟨?_, ?_⟩
    · rw [State.setGroup, hu.eq]
    · rw [hgr]
      exact hu.group

theorem State.fgMembers_congr (h : ∀ m, m < 8 → t.reg R.TIME_FG_MEMBER_USED g m = s.reg R.TIME_FG_MEMBER_USED g m) :
    t.fgMembers g = s.fgMembers g :=
  List.filter_congr fun m hm => by rw [State.flag, State.flag, h m (List.mem_range.mp hm)]

/-- An item that its queue takes. -/
theorem State.produce_fst {q : Nat} {item : List (List Byte)}
    (h : s.doorbellCause q (s.ptrAdd q (s.wptr q) item.length) (s.gen q) = 0) : (s.produce q item).1 = true := by
  simp only [State.produce, h, if_true]

theorem State.produce_wf {q : Nat} {item : List (List Byte)} (hwf : Sparse.wf 0#32 s.regs = true)
    (h : s.doorbellCause q (s.ptrAdd q (s.wptr q) item.length) (s.gen q) = 0) : Sparse.wf 0#32 (s.produce q item).2.regs = true := by
  rw [State.produce_eq h, State.doorbell_snd_of_accepted _ _ _ _ h]
  have hwf1 := s.setReg_wf R.QUE_WPTR_WPTR (s.ptrAdd q (s.wptr q) item.length) q 0 hwf
  dsimp only
  split
  · exact State.setReg_wf _ _ _ _ _ hwf1
  · exact hwf1

/-- A register below the queues, once an item has been committed. -/
theorem State.reg_produce {q : Nat} {item : List (List Byte)} (hwf : Sparse.wf 0#32 s.regs = true)
    (h : s.doorbellCause q (s.ptrAdd q (s.wptr q) item.length) (s.gen q) = 0) (f : RegRow) (i j : Nat)
    (hf : f.at i j + 4 * f.words ≤ 0xF000088000) : (s.produce q item).2.reg f i j = s.reg f i j := by
  have hsame := s.sameRegistersBut_doorbell_of_accepted q _ _ hwf h
  have hregs : (s.produce q item).2.regs = (s.doorbell q (s.ptrAdd q (s.wptr q) item.length) (s.gen q)).2.regs := by rw [State.produce_eq h]
  refine (State.reg_of_regs hregs f i j).trans (hsame.reg f i j fun x hx => ?_)
  simp only [List.mem_cons, List.not_mem_nil, or_false] at hx
  have h1 : R.QUE_WPTR_WPTR.at q 0 = 0xF00008800C + 0x40 * q := by simp only [RegRow.at, R.QUE_WPTR_WPTR]; omega
  have h2 : R.QUE_STATE_STATE.at q 0 = 0xF000088014 + 0x40 * q := by simp only [RegRow.at, R.QUE_STATE_STATE]; omega
  obtain rfl | rfl := hx
  · rw [h1]
    omega
  · rw [h2]
    omega

end

end Sys2Proof.Machine

open Sys2Proof Sys2Proof.Machine

/-- Settles O19: frames pending, ready and emitted, or discarded where their queue has no room. -/
theorem fusionGroups : Obligations.FusionGroups := by
  refine ⟨fun s e dt g hs he hg hon => ⟨fun n hnext hdue => ?_, fun f hf hdue => ?_⟩,
    fun s e dt g q ev f rest hs he hg hon hfr hready hall hq hev => ⟨fun hroom hcause hlt hwait => ?_, fun hact hfull => ?_⟩⟩
  · have hregs : e.regs = s.regs := by rw [he, State.elapse_regs]
    have hwf : Sparse.wf 0#32 e.regs = true := hregs ▸ hs.1
    generalize hr : placeKept (e.group g).kept (0, { t := n }) = r
    have hrt : r.2.t = n := by rw [← hr]; exact placeKept_t _ _
    generalize hx : ({ e.group g with frames := (e.group g).frames ++ [r.2], kept := [], next := some (n + e.fgPeriod g) } : FgGroup) = x
    generalize hw : (e.setGroup g x).incReg R.TIME_FG_SUPERSEDED_COUNT g 0 r.1 = w
    have hweq : w = { e with regs := w.regs, groups := (e.setGroup g x).groups } := by
      rw [← hw, State.incReg_eq]
      rfl
    have hwg : w.group g = x := by
      rw [State.group_of_groups (s := e.setGroup g x) (by rw [hweq])]
      exact State.group_setGroup (fun hd => by subst hx; cases congrArg FgGroup.next hd) g
    obtain ⟨fr, hgr, ht, heq⟩ := State.fgCheck_spec (s := w) (g := g) (n := n) (by rw [hwg, ← hx]; simp)
    have hexec : exec (.fgFramePending dt g) s = .next (w.fgCheck g n) := by
      refine congrArg Host.Outcome.next ?_
      rw [← he, hnext]
      dsimp only
      rw [if_pos ⟨hg, hon, hdue⟩, ← hw, ← hx, ← hr]
      rfl
    refine ⟨_, hexec, ?_, ?_, ?_, heq.trans (by rw [heq, hweq]), ?_⟩
    · rw [hgr, hwg, ← hx]
    · rw [hgr, ht, hwg, ← hx, List.map_append, List.map_singleton, hrt]
    · rw [hgr, hwg, ← hx]
    · have hsame := State.sameRegistersBut_setReg (l := [(R.TIME_FG_SUPERSEDED_COUNT, g, 0)]) (e.setGroup g x) R.TIME_FG_SUPERSEDED_COUNT
        (min ((e.setGroup g x).reg R.TIME_FG_SUPERSEDED_COUNT g 0 + r.1) (2 ^ R.TIME_FG_SUPERSEDED_COUNT.width - 1)) g 0 hwf List.mem_cons_self
      rw [← State.incReg, hw] at hsame
      exact hsame.of_regs hregs.symm (by rw [heq])
  · have hne : (e.group g).frames ≠ [] := fun hnil => by
      rw [hnil] at hf
      cases hf
    obtain ⟨fr, hgr, ht, hrd, heq⟩ := State.fgReady_spec (n := f.t) (early := false) hne
    refine ⟨_, congrArg Host.Outcome.next ?_, ?_, ?_, heq⟩
    · rw [← he, hf]
      dsimp only
      rw [if_pos ⟨hg, hon, hdue⟩]
    · rw [hgr, ← ht]
    · rw [hgr]
      exact hrd
  · have hregs : e.regs = s.regs := by rw [he, State.elapse_regs]
    have hwf : Sparse.wf 0#32 e.regs = true := hregs ▸ hs.1
    have hwfe : Sparse.wf 0#32 e.events = true := by rw [he, State.elapse_events]; exact hs.2.2.2.2.2.2
    generalize hitem : ((List.range 3).map fun i => wordsBytes (((e.descriptor g (e.group g) f).drop (8 * i)).take 8)) = item
    have hlen : item.length = 3 := by rw [← hitem]; rfl
    rw [← hlen] at hcause
    have hfst := State.produce_fst hcause
    have hpeq := e.produce_snd_eq q item
    have hpwf := State.produce_wf hwf hcause
    have hpreg := State.reg_produce hwf hcause
    generalize hv : (e.produce q item).2 = v at hpeq hpwf hpreg
    generalize hx : ({ e.group g with
      frames := rest, seq := (e.group g).seq + 1
      carried := ((e.group g).carried.filter fun e => !f.items.any fun y => y.1 == e.1) ++ f.items, overrun := false } : FgGroup) = x
    generalize hp : (v.setGroup g x).tmuxPulse 0x02 g = p
    have hpregs : p.regs = v.regs := by rw [← hp]; rfl
    have hpwf' : Sparse.wf 0#32 p.regs = true := hpregs ▸ hpwf
    generalize hw : p.incReg R.TIME_FG_EMITTED_COUNT g = w
    have hweq : w = { p with regs := w.regs } := by rw [← hw]; exact p.incReg_eq ..
    have hevent : w.event ev = e.event ev := State.event_of_events (by rw [hweq, ← hp, hpeq]; rfl) ev
    have hwwait : w.waiters ev = [] := (State.waiters_of_cmds (by rw [hweq, ← hp, hpeq]; rfl) ev).trans hwait
    have hfield (q : RegRow) (i j : Nat) (h1 : q.at i j + 4 * q.words ≤ 0xF000088000) : p.reg q i j = e.reg q i j := by
      rw [State.reg_of_regs hpregs, hpreg q i j h1]
    have hmembers (m : Nat) (hm : m < 8) : w.reg R.TIME_FG_MEMBER_USED g m = e.reg R.TIME_FG_MEMBER_USED g m := by
      rw [← hw, State.reg_incReg_other _ _ _ _ _ _ _ _ hpwf', hfield]
      · simp only [RegRow.at, RegRow.words, R.TIME_FG_MEMBER_USED]
        omega
      · left
        simp only [RegRow.at, RegRow.words, R.TIME_FG_MEMBER_USED, R.TIME_FG_EMITTED_COUNT]
        omega
    have hwwfe : Sparse.wf 0#32 w.events = true := by rw [hweq, ← hp, hpeq]; exact hwfe
    have hadd : w.addEvent ev 1 = w.setEvent ev (e.event ev + 1) := by
      rw [State.addEvent_eq (by rw [hevent]; exact hlt) hwwait, hevent]
      rfl
    have hgroup : (w.setEvent ev (e.event ev + 1)).group g = x := by
      rw [State.group_of_groups (s := v.setGroup g x) (by rw [State.setEvent, hweq, ← hp]; rfl)]
      exact State.group_setGroup (fun hd => by subst hx; cases congrArg FgGroup.seq hd) g
    have hcount := State.fgAbsences_present (s := w.setEvent ev (e.event ev + 1)) (g := g) (f := f)
      (by rw [hgroup, ← hx]; exact Nat.succ_ne_zero _)
      (by
        rw [State.fgMembers_congr (s := e) (t := w.setEvent ev (e.event ev + 1)) fun m hm => (State.reg_of_regs rfl _ _ _).trans (hmembers m hm)]
        exact hall)
    have hexec : exec (.fgDescriptorEmit dt g) s = .next ((w.setEvent ev (e.event ev + 1)).fgAbsences g f) := by
      refine congrArg Host.Outcome.next ?_
      rw [← he, hfr]
      have hevw : eventIndex ((v.setGroup g x).reg R.TIME_FG_CFG_PART g) ((v.setGroup g x).reg R.TIME_FG_CFG_EVENT g)
          ((v.setGroup g x).flag R.TIME_FG_CFG_GLOBAL g) = ev := by
        have hreg (q : RegRow) (h1 : q.at g 0 + 4 * q.words ≤ 0xF000088000) : (v.setGroup g x).reg q g = e.reg q g :=
          (State.reg_of_regs (s := v) (t := v.setGroup g x) rfl q g 0).trans (hpreg q g 0 h1)
        have hbelow : R.TIME_FG_CFG_PART.at g 0 + 4 * R.TIME_FG_CFG_PART.words ≤ 0xF000088000 := by
          simp only [RegRow.at, RegRow.words, R.TIME_FG_CFG_PART]
          omega
        rw [hev, State.flag, State.flag, hreg R.TIME_FG_CFG_PART hbelow, hreg R.TIME_FG_CFG_EVENT hbelow, hreg R.TIME_FG_CFG_GLOBAL hbelow]
      have hnotfull : ¬ (e.qState q ≠ qDisabled ∧ e.qState q ≠ qFenced ∧ e.qFree q < 3) := fun h => by omega
      dsimp only
      rw [if_pos ⟨hg, hon, hready⟩, ← hq, if_neg hnotfull, hitem, hfst, hv, if_pos rfl, Bool.not_true, hx, hevw, hp, hw, hadd]
    obtain ⟨hfrm, hseq, hover⟩ := hcount.group
    refine ⟨_, hexec, ?_, ?_, ?_, ?_, ?_⟩
    · rw [hfrm, hgroup, ← hx]
    · rw [hseq, hgroup, ← hx]
    · rw [hover, hgroup, ← hx]
    · rw [State.event_of_events (s := w.setEvent ev (e.event ev + 1)) (by rw [hcount.eq]) ev, State.event_setEvent _ _ _ _ hwwfe, if_pos rfl, Nat.mod_eq_of_lt hlt]
    · rw [State.reg_of_regs (s := w) (by rw [hcount.eq]; rfl), ← hw, State.reg_incReg_same _ _ _ _ _ hpwf' (by decide), hfield]
      simp only [RegRow.at, RegRow.words, R.TIME_FG_EMITTED_COUNT]
      omega
  · have hregs : e.regs = s.regs := by rw [he, State.elapse_regs]
    have hmem : e.mem = s.mem := by rw [he, State.elapse_mem]
    have hwf : Sparse.wf 0#32 e.regs = true := hregs ▸ hs.1
    generalize hx : ({ e.group g with
      frames := rest, seq := (e.group g).seq + 1
      carried := ((e.group g).carried.filter fun e => !f.items.any fun y => y.1 == e.1) ++ f.items, overrun := true } : FgGroup) = x
    generalize hw : (e.setGroup g x).incReg R.TIME_FG_OVERRUN_COUNT g = w
    have hweq : w = { e with regs := w.regs, groups := (e.setGroup g x).groups } := by
      rw [← hw, State.incReg_eq]
      rfl
    have hmembers (m : Nat) (hm : m < 8) : w.reg R.TIME_FG_MEMBER_USED g m = e.reg R.TIME_FG_MEMBER_USED g m := by
      rw [← hw, State.reg_incReg_other (e.setGroup g x) _ _ _ _ _ _ _ hwf]
      · rfl
      · left
        simp only [RegRow.at, RegRow.words, R.TIME_FG_MEMBER_USED, R.TIME_FG_OVERRUN_COUNT]
        omega
    have hgroup : w.group g = x := by
      rw [State.group_of_groups (s := e.setGroup g x) (by rw [hweq])]
      exact State.group_setGroup (fun hd => by subst hx; cases congrArg FgGroup.seq hd) g
    have hcount := State.fgAbsences_present (s := w) (g := g) (f := f) (by rw [hgroup, ← hx]; exact Nat.succ_ne_zero _)
      (by rw [State.fgMembers_congr hmembers]; exact hall)
    have hexec : exec (.fgDescriptorEmit dt g) s = .next (w.fgAbsences g f) := by
      refine congrArg Host.Outcome.next ?_
      rw [← he, hfr]
      have hfullq : e.qState q ≠ qDisabled ∧ e.qState q ≠ qFenced ∧ e.qFree q < 3 := by
        rw [hact]
        exact ⟨by decide, by decide, hfull⟩
      dsimp only
      rw [if_pos ⟨hg, hon, hready⟩, ← hq, if_pos hfullq, if_neg Bool.false_ne_true, Bool.not_false, hx, hw]
    obtain ⟨hfrm, hseq, hover⟩ := hcount.group
    refine ⟨_, hexec, ?_, ?_, ?_, sameMemory_of_mem ?_, ?_⟩
    · rw [hfrm, hgroup, ← hx]
    · rw [hseq, hgroup, ← hx]
    · rw [hover, hgroup, ← hx]
    · rw [hcount.eq, hweq]
      exact hmem
    · rw [State.reg_of_regs (s := w) (by rw [hcount.eq]), ← hw, State.reg_incReg_same (e.setGroup g x) _ _ _ _ hwf (by decide)]
      rfl
end


section
/-!
SUPPORT. A state in which two commands bear one number, and a thread picks a third.
-/

namespace Sys2Proof.Machine

open Sys2Proof

/-- A PARTITIONS section of one partition, with every thread and queue in it and threads 0 to 7 in its own. -/
def onePartition : List Byte :=
  [1#8] ++ List.replicate 65 0#8 ++ leBytes 2 0xFFFF ++ leBytes 1 0xFF ++ List.replicate 7 0#8 ++ leBytes 2 0x3FF ++ List.replicate 242 0#8

/-- Queue 40 is active with one slot committed. -/
def queueOfOne : State :=
  ((({ State.reset with regs := [] } : State).setReg R.QUE_STATE_STATE 2 40).setReg R.QUE_CFG_LOG2_SLOTS 4 40).setReg R.QUE_WPTR_WPTR 1 40
    |>.setReg R.QUE_PRIO_PRIORITY 1 40

/-- A `seq.nop` of queue 41 under execution on thread 5, with a count of units done. -/
def commandOne (n : Nat) : Cmd :=
  { id := 0, queue := 41, thread := 5, part := 0, seqno := 0, depth := 0, offset := 0, root := 0, words := [0, 0], stage := .exec, units := n }

/-- Thread 0 may pick the command at the head of queue 40, while two commands bear the number 0. -/
def twoOfANumber : State :=
  { queueOfOne with
    running := true, applied := true, image := some ⟨[], [], [⟨2, 0, onePartition⟩]⟩, mem := [], nextId := 1
    cmds := [commandOne 0, commandOne 1] }

end Sys2Proof.Machine

open Sys2Proof Sys2Proof.Machine

/-- Refutes O23: of two commands with one number, only the first is found by it, before the pick as after it. -/
theorem not_threadsPick : ¬ Obligations.ThreadsPick := by
  intro h
  obtain ⟨u, c, -, -, -, -, -, -, -, -, -, -, hkept, -⟩ := h twoOfANumber (twoOfANumber.elapse 0) 0 0 40 0 1 0
    ((twoOfANumber.elapse 0).fetch { part := (twoOfANumber.elapse 0).qPart 40, inJob := false, depth := 0, left := 16 }
      ((twoOfANumber.elapse 0).ringSlots 40 0 1))
    (by simp only [State.Canonical]; decide +kernel) rfl (by decide) (by decide +kernel) (by decide +kernel) (by decide +kernel)
    (by decide +kernel) (by decide +kernel) (by decide +kernel) rfl (by decide +kernel) (by decide +kernel) (by decide +kernel)
    (by decide +kernel)
  have hcmds : (twoOfANumber.elapse 0).cmds = [commandOne 0, commandOne 1] := by decide +kernel
  rw [hcmds] at hkept
  have hfirst : u.cmd? 0 = some (commandOne 0) := hkept _ List.mem_cons_self
  have hsecond : u.cmd? 0 = some (commandOne 1) := hkept _ (List.mem_cons_of_mem _ List.mem_cons_self)
  exact absurd (hfirst.symm.trans hsecond) (by decide +kernel)
end


section
/-!
SUPPORT. The end of a command: what its going lets go on, and that it makes no command.
-/

namespace Sys2Proof.Machine

open Sys2Proof

section

variable {s t u : State}

/-- From `s` to `t` commands have gone on or ended, and none has come: queues, threads and jobs follow. -/
structure WorkMoved (s t : State) : Prop where
  eq : t = { s with regs := t.regs, cmds := t.cmds, threads := t.threads, jobs := t.jobs }
  ids : ∀ x ∈ t.cmds, ∃ y ∈ s.cmds, y.id = x.id

theorem WorkMoved.refl (s : State) : WorkMoved s s := ⟨rfl, fun x hx => ⟨x, hx, rfl⟩⟩

theorem WorkMoved.trans (h : WorkMoved s t) (h' : WorkMoved t u) : WorkMoved s u where
  eq := h'.eq.trans (by rw [h.eq])
  ids x hx := by
    obtain ⟨y, hy, hyx⟩ := h'.ids x hx
    obtain ⟨z, hz, hzy⟩ := h.ids y hy
    exact ⟨z, hz, hzy.trans hyx⟩

/-- No command has been touched. -/
theorem WorkMoved.of_cmds (h : t = { s with regs := t.regs, threads := t.threads, jobs := t.jobs }) : WorkMoved s t := by
  have hcmds : t.cmds = s.cmds := by rw [h]
  exact ⟨h.trans (by rw [hcmds]), fun x hx => ⟨x, hcmds ▸ hx, rfl⟩⟩

/-- A command that was not there is not there. -/
theorem WorkMoved.cmd?_none (h : WorkMoved s t) {k : Nat} (hk : s.cmd? k = none) : t.cmd? k = none := by
  rw [State.cmd?, List.find?_eq_none] at hk ⊢
  intro x hx
  obtain ⟨y, hy, hyx⟩ := h.ids x hx
  rw [← hyx]
  exact hk y hy

theorem updateFirst_ids {x : Cmd} (l : List Cmd) : ∀ z ∈ updateFirst (fun y => y.id == x.id) (fun _ => x) l, ∃ y ∈ l, y.id = z.id := by
  induction l with
  | nil => exact fun _ hz => by cases hz
  | cons a l ih =>
    rw [updateFirst]
    split
    · next ha =>
      intro z hz
      obtain rfl | hzl := List.mem_cons.mp hz
      · exact ⟨a, List.mem_cons_self, by simpa using ha⟩
      · exact ⟨z, List.mem_cons_of_mem _ hzl, rfl⟩
    · intro z hz
      obtain rfl | hzl := List.mem_cons.mp hz
      · exact ⟨z, List.mem_cons_self, rfl⟩
      · obtain ⟨y, hy, hyz⟩ := ih z hzl
        exact ⟨y, List.mem_cons_of_mem _ hy, hyz⟩

theorem State.setCmd_workMoved (s : State) (x : Cmd) : WorkMoved s (s.setCmd x) := ⟨rfl, updateFirst_ids s.cmds⟩

theorem State.setThread_workMoved (s : State) (n : Nat) (x : Thread) : WorkMoved s (s.setThread n x) := WorkMoved.of_cmds rfl

theorem State.boundary_workMoved (s : State) (n : Nat) : WorkMoved s (s.boundary n) := s.setThread_workMoved n _

theorem State.idleCheck_workMoved (s : State) (q : Nat) : WorkMoved s (s.idleCheck q) := by
  rw [State.idleCheck]
  split
  · exact WorkMoved.of_cmds (by rw [State.setQState, State.setReg_eq])
  · exact WorkMoved.refl s

theorem State.enterExec_workMoved (s : State) (c : Cmd) : WorkMoved s (s.enterExec c) := by
  have h1 := (s.setCmd_workMoved { c with stage := .exec, start := s.tick }).trans (State.boundary_workMoved _ c.thread)
  rw [State.enterExec]
  generalize (s.setCmd { c with stage := .exec, start := s.tick }).boundary c.thread = u at h1 ⊢
  split
  · exact (h1.trans (u.setThread_workMoved _ _)).trans (WorkMoved.of_cmds rfl)
  · exact h1.trans (WorkMoved.of_cmds rfl)

theorem State.releaseFences_workMoved (s : State) : WorkMoved s s.releaseFences :=
  List.foldlRecOn (motive := WorkMoved s) _ _ (WorkMoved.refl s) fun u hu c _ => by
    split
    · exact hu.trans (u.enterExec_workMoved c)
    · exact hu

theorem State.cutFrames_workMoved (s : State) (n : Nat) (l : List Frame) : WorkMoved s (s.cutFrames n l) := by
  induction l generalizing s with
  | nil => exact WorkMoved.refl s
  | cons f l ih =>
    rw [State.cutFrames.eq_def]
    dsimp only
    split
    · split
      · exact s.setThread_workMoved _ _
      · split
        · exact WorkMoved.refl s
        · rename_i g _ _ _
          refine WorkMoved.trans (t := { s with cmds := (s.cmds.filter fun c : Cmd => c.id != f.call).map fun c : Cmd =>
                                           if c.call = some f.call then { c with call := some g.call } else c })
            ⟨rfl, fun x hx => ?_⟩ (ih _)
          obtain ⟨y, hy, rfl⟩ := List.mem_map.mp hx
          refine ⟨y, (List.mem_filter.mp hy).1, ?_⟩
          split <;> rfl
    · exact WorkMoved.refl s

theorem State.returnList_workMoved (s : State) (n : Nat) : WorkMoved s (s.returnList n) := by
  rw [State.returnList]
  generalize hu : (if (s.thread n).cur.isNone then s.cutFrames n (s.thread n).frames else s) = u
  have h : WorkMoved s u := by
    rw [← hu]
    split
    · exact s.cutFrames_workMoved n _
    · exact WorkMoved.refl s
  split
  · split
    · split
      · exact (h.trans (u.setCmd_workMoved _)).trans (State.setThread_workMoved _ _ _)
      · exact h.trans (u.setThread_workMoved _ _)
    · exact h
  · exact h

theorem State.returnLists_workMoved (s : State) : WorkMoved s s.returnLists :=
  List.foldlRecOn (motive := WorkMoved s) _ _ (WorkMoved.refl s) fun u hu n _ => hu.trans (u.returnList_workMoved n)

/-- What the end of a command lets go on. -/
theorem State.letGoOn_workMoved (s : State) (q : Nat) : WorkMoved s (s.idleCheck q).releaseFences.returnLists :=
  ((s.idleCheck_workMoved q).trans (State.releaseFences_workMoved _)).trans (State.returnLists_workMoved _)

theorem State.cmd?_dropCmd (s : State) (k : Nat) : (s.dropCmd k).cmd? k = none := by
  rw [State.cmd?, List.find?_eq_none, State.dropCmd]
  intro x hx
  simpa using (List.mem_filter.mp hx).2

/-- Nothing waits where nothing waited before a command went. -/
theorem State.waiters_dropCmd {k ev : Nat} (h : s.waiters ev = []) : (s.dropCmd k).waiters ev = [] := by
  have hnone : ∀ l : List Cmd, sortBy (fun a b => decide (a.start < b.start ∨ (a.start = b.start ∧ a.thread ≤ b.thread))) l = [] → l = [] :=
    fun l hl => by
      cases l with
      | nil => rfl
      | cons a l =>
        rw [sortBy, List.foldr_cons] at hl
        generalize l.foldr _ [] = m at hl
        cases m with
        | nil => cases hl
        | cons b m =>
          rw [insertBy] at hl
          split at hl <;> cases hl
  have hfilter := hnone _ h
  rw [State.waiters, State.dropCmd]
  dsimp only
  rw [List.filter_filter, List.filter_eq_nil_iff.mpr fun c hc => by
    have := List.filter_eq_nil_iff.mp hfilter c hc
    simp only [Bool.and_eq_true, not_and] at this ⊢
    exact fun h1 => absurd h1.2 (this h1.1)]
  rfl

end

end Sys2Proof.Machine

open Sys2Proof Sys2Proof.Machine

/-- Settles O24: completion without a record, checkpoints, and the commit of a held record. -/
theorem completionAndCheckpoints : Obligations.CompletionAndCheckpoints := by
  refine ⟨fun s e dt id c hs he hc hdone hab hst hnot hck hheld hjobs hmute => ?_, fun s e dt hs he => ⟨?_, ?_⟩⟩
  · have hmem : e.mem = s.mem := by rw [he, State.elapse_mem]
    have hwfe : Sparse.wf 0#32 e.events = true := by rw [he, State.elapse_events]; exact hs.2.2.2.2.2.2
    have hid : c.id = id := State.cmd?_id hc
    generalize hu : e.releaseThread c = u
    have hueq : u = { e with threads := u.threads } := by
      rw [← hu, State.releaseThread]
      split <;> rfl
    have hout : c.outcome = 0 := by rw [Cmd.outcome, hab, if_neg Bool.false_ne_true, hst]
    have hdrain (v : State) (h : v.held = []) : v.drainAll = v := State.drain_of_no_held h _
    have hjob (v : State) (h : v.jobs = []) : v.job? c.part = none := by rw [State.job?, h]; rfl
    have hexec : exec (.commandComplete dt id) s = .next (u.retire c).drainAll := by
      refine congrArg Host.Outcome.next ?_
      rw [← he, hc]
      dsimp only
      rw [if_pos hdone, State.complete, hu]
      have hstops : stops c.status = false := by rw [hst]; decide
      simp [hstops, hck, hout, hnot]
    refine ⟨fun hsig => ?_, fun ev hsig hev hlt hwait => ?_⟩
    · have hret : u.retire c = ((u.dropCmd c.id).idleCheck c.queue).releaseFences.returnLists := by
        rw [State.retire, hsig, Bool.false_and, Bool.false_and, Bool.false_and, if_neg Bool.false_ne_true, hjob _ (by rw [State.dropCmd, hueq]; exact hjobs)]
      have hmoved := State.letGoOn_workMoved (u.dropCmd c.id) c.queue
      rw [← hret] at hmoved
      have hheld' : (u.retire c).held = [] := by rw [hmoved.eq, State.dropCmd, hueq]; exact hheld
      rw [hdrain _ hheld'] at hexec
      refine ⟨_, hexec, ?_, hheld', sameMemory_of_mem ?_, State.event_of_events ?_⟩
      · rw [← hid]
        exact hmoved.cmd?_none (u.cmd?_dropCmd c.id)
      · rw [hmoved.eq, State.dropCmd, hueq]
        exact hmem
      · rw [hmoved.eq, State.dropCmd, hueq]
    · have hdrop : (u.dropCmd c.id).event ev = e.event ev ∧ (u.dropCmd c.id).waiters ev = [] :=
        ⟨State.event_of_events (by rw [State.dropCmd, hueq]) ev,
          State.waiters_dropCmd ((State.waiters_of_cmds (s := e) (by rw [hueq]) ev).trans hwait)⟩
      have hadd : (u.dropCmd c.id).addEvent ev 1 = (u.dropCmd c.id).setEvent ev (e.event ev + 1) := by
        rw [State.addEvent_eq (by rw [hdrop.1]; exact hlt) hdrop.2, hdrop.1]
        rfl
      generalize hv : (u.dropCmd c.id).setEvent ev (e.event ev + 1) = v at hadd
      have hveq : v = { u with cmds := (u.dropCmd c.id).cmds, events := v.events } := by rw [← hv]; rfl
      have hevent (k : Nat) : v.event k = if k = ev then (e.event ev + 1) % 2 ^ 32 else e.event k := by
        rw [← hv, State.event_setEvent _ _ _ _ (by rw [State.dropCmd, hueq]; exact hwfe),
          State.event_of_events (s := e) (by rw [State.dropCmd, hueq]) k]
      have hret : u.retire c = (v.idleCheck c.queue).releaseFences.returnLists := by
        rw [State.retire, hsig, hab, hmute, hst, ← hev, hadd, if_pos (by decide), hjob _ (by rw [hveq, hueq]; exact hjobs)]
      have hmoved := State.letGoOn_workMoved v c.queue
      rw [← hret] at hmoved
      rw [hdrain _ (by rw [hmoved.eq, hveq, hueq]; exact hheld)] at hexec
      have htevent (k : Nat) : (u.retire c).event k = v.event k := State.event_of_events (by rw [hmoved.eq]) k
      refine ⟨_, hexec, ?_, ?_, fun k hk => ?_, sameMemory_of_mem ?_⟩
      · rw [← hid]
        exact hmoved.cmd?_none ((State.cmd?_of_cmds (s := u.dropCmd c.id) (by rw [hveq]) c.id).trans (u.cmd?_dropCmd c.id))
      · rw [htevent, hevent, if_pos rfl, Nat.mod_eq_of_lt hlt]
      · rw [htevent, hevent, if_neg hk]
      · rw [hmoved.eq, hveq, hueq]
        exact hmem
  · intro id c hc hstage hck hbeg hab hstop hfen hnot hbad hw
    have hmem : e.mem = s.mem := by rw [he, State.elapse_mem]
    have hwf : Sparse.wf 0#32 e.regs = true := by rw [he, State.elapse_regs]; exact hs.1
    have hwfm : Sparse.wf 0#8 s.mem = true := hs.2.1
    generalize hbs : leBytes 8 (c.units % 2 ^ 48 + 2 ^ 48 * c.op + 2 ^ 63 * ofBool false) = bs
    have hlen : bs.length = 8 := by rw [← hbs, leBytes_length]
    obtain ⟨t, ht, hst⟩ := Eff.write_stores (p := c.part) (a := c.progress) (bs := bs) hw (by rw [hlen]; exact hbad)
    have htregs := Eff.write_regs hw (by rw [hlen]; exact hbad) ht
    have hprog : e.progressWord c false = t := by
      have hc := e.countWr_eq c.part c.progress bs.length
      rw [Eff.write, State.writeMem_good (by rw [hc]; exact hw) (by rw [hc, hlen]; exact hbad)] at ht
      rw [State.progressWord, hbs, ← hlen, State.writeMem_good (by rw [hc]; exact hw) (by rw [hc, hlen]; exact hbad)]
      exact (Prod.mk.inj ht).2
    have hstate : t.qState c.queue = e.qState c.queue :=
      (congrArg RingView.state (State.ring_of_regs htregs c.queue)).trans (congrArg RingView.state (e.ring_countWr _ _ _ c.queue hwf))
    have hhalt : (!c.aborted && c.depth == 0 && (c.stopping || (decide (c.queue < 512) && t.qState c.queue == qFenced))) = false := by
      simp [hstop, hstate, hfen]
    generalize hx : ({ c with stage := .exec } : Cmd) = x
    have hexec : exec (.checkpoint dt id) s = .next (t.setCmd x) := by
      have hx' : exec (.checkpoint dt id) s = execCheckpoint dt id s := rfl
      rw [hx', execCheckpoint, ← he, hc]
      dsimp only
      rw [if_pos ⟨hstage, hck, hbeg⟩, hprog, hhalt, hx, hab, hnot]
      rfl
    have hid : c.id = id := State.cmd?_id hc
    have htc : t.cmd? id = some c := (State.cmd?_of_cmds hst.cmds id).trans hc
    have hxid : x.id = id := by rw [← hx]; exact hid
    have htm : (t.setCmd x).mem = t.mem := rfl
    refine ⟨_, hexec, State.cmd?_setCmd_same htc hxid, fun k hk => ?_, ?_, ?_⟩
    · rw [sameCommandsBut_setCmd (s := t) hxid k hk, State.cmd?_of_cmds hst.cmds k]
    · have hb := hst.bytes (hmem ▸ hwfm)
      rw [hlen] at hb
      rw [State.load, State.bytes_of_mem htm, hb, ← hbs, leNat_leBytes]
      rfl
    · have hbut := sameMemoryBut_of_setBytes (u := s) (hmem ▸ hwfm) hst.mem hmem
      rw [hlen] at hbut
      exact fun a ha => (State.byte_of_mem htm a).trans (hbut a ha)
  · intro cq r hrun hheld hcq hne hfin hopen hroom hcause
    have hmem : e.mem = s.mem := by rw [he, State.elapse_mem]
    have hwf : Sparse.wf 0#32 e.regs = true := by rw [he, State.elapse_regs]; exact hs.1
    have hwfm : Sparse.wf 0#8 s.mem = true := hs.2.1
    subst hcq
    obtain ⟨t, hst, hcommit⟩ := State.commitRec_stores hheld hne hwf hcause
    rw [hfin] at hcommit
    have hcommit' : e.commitRec r = t := hcommit
    have htheld : t.held = [] := by rw [hst.eq]
    have hexec : exec (.cqRecordRelease dt r.cq) s = .next t := by
      refine congrArg Host.Outcome.next ?_
      rw [← he, if_pos ⟨hrun, by simp [hheld]⟩, State.drainAll_single hheld hopen hroom (by rw [hcommit', htheld]), hcommit']
    have hlen : (slice (wordsBytes r.words) 0 64).length = 64 := by
      have htake : ((wordsBytes r.words).drop 0 |>.take 64).length ≤ 64 := List.length_take_le ..
      rw [slice, List.length_append, List.length_replicate, Nat.add_sub_of_le htake]
    have hb := hst.bytes (hmem ▸ hwfm)
    have hbut := sameMemoryBut_of_setBytes (u := s) (hmem ▸ hwfm) hst.mem hmem
    rw [hlen] at hb hbut
    exact ⟨_, hexec, htheld, hb, hbut⟩
end


section
/-!
SUPPORT. What the operations around a fault keep: neither what stands in the device, nor the control registers, move when
answers are committed, records are written or engines are stopped.
-/

namespace Sys2Proof.Machine

open Sys2Proof

/-- What stands in the device while records are written, entries are closed and units are stopped or powered. -/
def State.standing (s : State) : (List Cmd × List (Nat × Thread) × Bool × Option Image × Bool × Nat × Bool) ×
    (Phase × Nat × Bool × Bool × Option Nat × Option Verdict) ×
    (Bool × Option Nat × ResetPhase × List Latch × Nat × Nat × Option Nat) :=
  ((s.cmds, s.threads, s.running, s.image, s.queuesLost, s.tick, s.power.porstN),
    (s.boot.phase, s.boot.since, s.boot.warmDue, s.boot.warmOnPg, s.boot.pgSince, s.boot.verdict),
    (s.hub.faultN, s.hub.outFrom, s.hub.reset, s.hub.latches, s.hub.recSeq, s.hub.served, s.hub.changed))

/-- A field of the control registers that no record, answer or stop shows in: of TOP, of SAFE but its count of records, of RST
its state, and of PWR, CLK and BOOT. -/
@[reducible] def RegRow.Spared (r : RegRow) (i j : Nat) : Prop :=
  r.at i j + 4 * r.words ≤ 0x00F000010000 ∨ (0x00F000020000 ≤ r.at i j ∧ r.at i j + 4 * r.words ≤ 0x00F000020010) ∨
    (0x00F000020014 ≤ r.at i j ∧ r.at i j + 4 * r.words ≤ 0x00F00003000C) ∨
    (0x00F000040000 ≤ r.at i j ∧ r.at i j + 4 * r.words ≤ 0x00F000080000)

/-- A field outside those. -/
@[reducible] def RegRow.Aside (r : RegRow) (i j : Nat) : Prop :=
  0x00F000080000 ≤ r.at i j ∨ (0x00F000010000 ≤ r.at i j ∧ r.at i j + 4 * r.words ≤ 0x00F000020000) ∨
    (0x00F000020010 ≤ r.at i j ∧ r.at i j + 4 * r.words ≤ 0x00F000020014) ∨
    (0x00F00003000C ≤ r.at i j ∧ r.at i j + 4 * r.words ≤ 0x00F000040000)

/-- Nothing that stands changes, and no control register. -/
structure Spares (s t : State) : Prop where
  standing : t.standing = s.standing
  regs : Sparse.wf 0#32 s.regs = true →
    Sparse.wf 0#32 t.regs = true ∧ ∀ (r : RegRow) (i j : Nat), r.Spared i j → t.reg r i j = s.reg r i j

section

variable {s₀ s t : State}

theorem Spares.refl (s : State) : Spares s s := ⟨rfl, fun h => ⟨h, fun _ _ _ _ => rfl⟩⟩

theorem Spares.trans {u : State} (h : Spares s t) (h' : Spares t u) : Spares s u :=
  ⟨h'.standing.trans h.standing, fun hwf => ⟨(h'.regs (h.regs hwf).1).1, fun r i j hr =>
    ((h'.regs (h.regs hwf).1).2 r i j hr).trans ((h.regs hwf).2 r i j hr)⟩⟩

theorem Spares.reg (h : Spares s t) (hwf : Sparse.wf 0#32 s.regs = true) {r : RegRow} {i j : Nat} (hr : r.Spared i j) :
    t.reg r i j = s.reg r i j := (h.regs hwf).2 r i j hr

theorem Spares.flag (h : Spares s t) (hwf : Sparse.wf 0#32 s.regs = true) {r : RegRow} {i j : Nat} (hr : r.Spared i j) :
    t.flag r i j = s.flag r i j := by rw [State.flag, State.flag, h.reg hwf hr]

theorem Spares.svc (h : Spares s t) (hwf : Sparse.wf 0#32 s.regs = true) : t.svc = s.svc := h.reg hwf (by decide)

theorem Spares.same (h : Spares s₀ s) (e : t.standing = s.standing ∧ t.regs = s.regs) : Spares s₀ t :=
  h.trans ⟨e.1, fun hwf => ⟨e.2 ▸ hwf, fun r i j _ => State.reg_of_regs e.2 r i j⟩⟩

theorem Spares.ite {c : Prop} {_ : Decidable c} {a b : State} (ha : Spares s₀ a) (hb : Spares s₀ b) :
    Spares s₀ (if c then a else b) := by
  split
  · exact ha
  · exact hb

theorem Spares.ite_snd {α : Type} {c : Prop} {_ : Decidable c} {a b : α × State} (ha : Spares s₀ a.2) (hb : Spares s₀ b.2) :
    Spares s₀ (if c then a else b).2 := by
  split
  · exact ha
  · exact hb

theorem Spares.fold {α : Type} {f : State → α → State} {l : List α} (hf : ∀ x, ∀ a ∈ l, Spares s₀ x → Spares s₀ (f x a))
    (h : Spares s₀ s) : Spares s₀ (l.foldl f s) :=
  List.foldlRecOn (motive := Spares s₀) _ _ h fun x hx a ha => hf x a ha hx

theorem State.setReg_standing (s : State) (r : RegRow) (v i j : Nat) : (s.setReg r v i j).standing = s.standing := by
  rw [State.setReg_eq]
  rfl

/-- The write of a field that stands aside. -/
theorem Spares.setAside {r : RegRow} {v i j : Nat} (h : Spares s₀ s) (hr : r.Aside i j) : Spares s₀ (s.setReg r v i j) :=
  h.trans ⟨s.setReg_standing r v i j, fun hwf => ⟨s.setReg_wf r v i j hwf, fun q k l hq =>
    s.reg_setReg_other r q v i j k l hwf (by unfold RegRow.Aside RegRow.Spared at *; omega)⟩⟩

theorem Spares.incAside {r : RegRow} {i j n : Nat} (h : Spares s₀ s) (hr : r.Aside i j) : Spares s₀ (s.incReg r i j n) :=
  h.setAside hr

/-- The write of a register of the units, which all lie above the control registers. -/
theorem Spares.setReg {r : RegRow} {v i j : Nat} (h : Spares s₀ s) (hr : 0x00F000080000 ≤ r.addr) :
    Spares s₀ (s.setReg r v i j) := h.setAside (.inl (by rw [RegRow.at]; omega))

theorem Spares.incReg {r : RegRow} {i j n : Nat} (h : Spares s₀ s) (hr : 0x00F000080000 ≤ r.addr) :
    Spares s₀ (s.incReg r i j n) := h.setReg hr

theorem Spares.setBytes {a : Nat} {bs : List Byte} (h : Spares s₀ s) : Spares s₀ (s.setBytes a bs) := by
  induction bs generalizing s a with
  | nil => exact h
  | cons b bs ih => exact ih (h.same ⟨rfl, rfl⟩)

theorem Spares.scramble {a n : Nat} (h : Spares s₀ s) : Spares s₀ (s.scramble a n) := h.setBytes.same ⟨rfl, rfl⟩

theorem Spares.clearMem {lo hi : Nat} (h : Spares s₀ s) : Spares s₀ (s.clearMem lo hi) := h.same ⟨rfl, rfl⟩

/-! ### Queues, answers and records -/

theorem Spares.setQState {q v : Nat} (h : Spares s₀ s) : Spares s₀ (s.setQState q v) := h.setReg (by decide)

theorem Spares.putSlots {q p : Nat} {l : List (List Byte)} (h : Spares s₀ s) : Spares s₀ (s.putSlots q p l) := by
  induction l generalizing s p with
  | nil => exact h
  | cons b bs ih => exact ih h.setBytes

theorem Spares.doorbell {q wptr gen : Nat} (h : Spares s₀ s) : Spares s₀ (s.doorbell q wptr gen).2 :=
  .ite_snd (.ite (h.setReg (by decide)).setQState (h.setReg (by decide))) (.ite_snd (h.incReg (by decide)) (h.incReg (by decide)))

theorem Spares.produce {q : Nat} {item : List (List Byte)} (h : Spares s₀ s) : Spares s₀ (s.produce q item).2 :=
  .ite_snd (.doorbell (.ite h.putSlots h)) (.incReg (.doorbell (.ite h.putSlots h)) (by decide))

theorem Spares.release {q n : Nat} (h : Spares s₀ s) : Spares s₀ (s.release q n) :=
  .ite (h.setReg (by decide)).setQState (.ite (h.setReg (by decide)).setQState (h.setReg (by decide)))

theorem Spares.record {q : Nat} {words : List Nat} (h : Spares s₀ s) : Spares s₀ (s.record q words) := .produce (.ite h.release h)

theorem Spares.answer {iface word0 status dup detail : Nat} {body : List Byte} (h : Spares s₀ s) :
    Spares s₀ (s.answer iface word0 status dup detail body) := .ite h.produce (h.same ⟨rfl, rfl⟩)

theorem Spares.closeEntry {i : Nat} {e : WinEntry} {status detail : Nat} (h : Spares s₀ s) :
    Spares s₀ (s.closeEntry i e status detail) := h.answer.same ⟨rfl, rfl⟩

theorem Spares.closeAll (h : Spares s₀ s) : Spares s₀ s.closeAll :=
  .fold (fun _ _ _ h1 => .fold (fun _ _ _ h2 => .ite h2.closeEntry h2) h1) h

theorem Spares.takeResponse {q : Nat} (h : Spares s₀ s) : Spares s₀ (s.takeResponse q) := by
  unfold State.takeResponse
  extract_lets
  split
  · extract_lets u
    have hu : Spares s₀ u := h.release
    split
    · exact hu.incReg (by decide)
    · split
      · exact hu.incReg (by decide)
      · extract_lets v
        have hv : Spares s₀ v := hu.answer
        split
        · exact hv.same ⟨rfl, rfl⟩
        · exact hu.incReg (by decide)
  · exact h

theorem Spares.takeResponses {q n : Nat} (h : Spares s₀ s) : Spares s₀ (s.takeResponses q n) := by
  induction n generalizing s with
  | zero => exact h
  | succ n ih => exact .ite (ih h.takeResponse) h

theorem Spares.sendCommitted (h : Spares s₀ s) : Spares s₀ s.sendCommitted := .fold (fun _ _ _ h1 => h1.takeResponses) h

theorem Spares.saveQueue {i n : Nat} (h : Spares s₀ s) : Spares s₀ (s.saveQueue i n) := by
  induction n generalizing s with
  | zero => exact h
  | succ n ih =>
    unfold State.saveQueue
    split
    · exact ih (h.release.same ⟨rfl, rfl⟩)
    · exact h

theorem Spares.saveAnswers (h : Spares s₀ s) : Spares s₀ s.saveAnswers := .same (.fold (fun _ _ _ h1 => .ite h1 h1.saveQueue) h) ⟨rfl, rfl⟩

theorem Spares.plogWrite {e : PlogEntry} (h : Spares s₀ s) : Spares s₀ (s.plogWrite e) := by
  unfold State.plogWrite
  extract_lets _ _ u
  have hu : Spares s₀ u := h.same ⟨by simp only [State.standing, u]; rfl, rfl⟩
  exact hu.setAside (by decide)

theorem Spares.plog {e : PlogEntry} (h : Spares s₀ s) : Spares s₀ (s.plog e) := .ite (h.same ⟨rfl, rfl⟩) h.plogWrite

theorem Spares.plogFlush (h : Spares s₀ s) : Spares s₀ s.plogFlush := .ite h (.fold (fun _ _ _ h1 => h1.plogWrite) (h.same ⟨rfl, rfl⟩))

theorem Spares.supersede {mech addr attempts : Nat} (h : Spares s₀ s) : Spares s₀ (s.supersede mech addr attempts) :=
  h.record.plog.incAside (by decide)

theorem Spares.supersedeReissue (h : Spares s₀ s) : Spares s₀ s.supersedeReissue := .fold (fun _ _ _ h1 => h1.supersede) (h.same ⟨rfl, rfl⟩)

theorem Spares.startRecord {outcome code section_ : Nat} (h : Spares s₀ s) : Spares s₀ (s.startRecord outcome code section_) :=
  h.same ⟨rfl, rfl⟩

theorem Spares.writeBootRec {r : BootRec} (h : Spares s₀ s) : Spares s₀ (s.writeBootRec r) := by
  unfold State.writeBootRec
  split
  · exact .ite (h.same ⟨rfl, rfl⟩) (h.same ⟨rfl, rfl⟩)
  · exact h.same ⟨rfl, rfl⟩
  · exact h.same ⟨rfl, rfl⟩
  · exact h.same ⟨rfl, rfl⟩

theorem Spares.unseal (h : Spares s₀ s) : Spares s₀ s.unseal := by
  unfold State.unseal
  split
  · exact h.same ⟨rfl, rfl⟩
  · exact h

/-! ### Units that stop -/

theorem Spares.visLose {kind n b : Nat} (h : Spares s₀ s) : Spares s₀ (s.visLose kind n b) := by
  unfold State.visLose
  extract_lets _ u
  have hu : Spares s₀ u := h.same ⟨rfl, rfl⟩
  split
  · exact hu.scramble
  · exact hu

theorem Spares.stopVision (h : Spares s₀ s) : Spares s₀ s.stopVision :=
  .setReg (.same (.fold (fun _ _ _ h1 => .fold (fun _ _ _ h2 => h2.visLose) h1) h) ⟨rfl, rfl⟩) (by decide)

theorem Spares.stopGroups (h : Spares s₀ s) : Spares s₀ s.stopGroups := by
  unfold State.stopGroups
  extract_lets u
  have hu : Spares s₀ u := .fold (fun _ g hg h1 => h1.incAside (by
    have := List.mem_range.mp hg
    simp only [RegRow.Aside, RegRow.at, RegRow.words, R.TIME_FG_DISCARD_COUNT]
    omega)) h
  clear_value u
  have hnone : Spares s₀ { u with groups := [] } := hu.same ⟨rfl, rfl⟩
  exact hnone.setAside (by decide)

theorem Spares.acuShow (h : Spares s₀ s) : Spares s₀ s.acuShow := ((h.setReg (by decide)).setReg (by decide)).setReg (by decide)

theorem Spares.ancCause {on off : Nat} (h : Spares s₀ s) : Spares s₀ (s.ancCause on off) := by
  unfold State.ancCause
  extract_lets _ _ u _ _ _ v
  have hu : Spares s₀ u := h.setReg (by decide)
  clear_value u
  have hv : Spares s₀ v := .ite (.ite (hu.same ⟨rfl, rfl⟩) (.ite hu (hu.same ⟨rfl, rfl⟩))) (.ite (hu.same ⟨rfl, rfl⟩) hu)
  exact hv.acuShow

theorem Spares.zeroDomain {d : Nat} (h : Spares s₀ s) : Spares s₀ (s.zeroDomain d) := by
  unfold State.zeroDomain
  extract_lets u v w
  have hu : Spares s₀ u := .fold (fun _ _ _ h1 => h1.clearMem) h
  clear_value u
  have hv : Spares s₀ v := .ite (hu.same ⟨rfl, rfl⟩) hu
  clear_value v
  have hnone : Spares s₀ { v with acu := {} } := hv.same ⟨rfl, rfl⟩
  have hw : Spares s₀ w := .ite ((hnone.setReg (by decide)).setReg (by decide)) hv
  clear_value w
  exact hw.same ⟨rfl, rfl⟩

theorem Spares.capLose {c : Nat} {k : CapHop} (h : Spares s₀ s) : Spares s₀ (s.capLose c k) := by
  unfold State.capLose
  split
  · exact h.scramble
  · exact h

theorem Spares.acuNotInService (h : Spares s₀ s) : Spares s₀ s.acuNotInService := by
  unfold State.acuNotInService
  extract_lets _ v _ _
  have hv : Spares s₀ v := .fold (fun _ _ _ h1 => .fold (fun _ _ _ h2 => h2.capLose) (by split; exact h1.capLose; exact h1)) h.ancCause
  clear_value v
  exact .setReg (hv.same ⟨rfl, rfl⟩) (by decide)

end

/-! ### Stopping the engines -/

/-- A state whose engines are stopped: no thread, no command, nothing that runs. -/
@[reducible] def State.halted (s : State) : State := { s with cmds := [], threads := [], running := false }

theorem State.halted_standing (s : State) : s.halted.standing = (([], [], false, s.standing.1.2.2.2), s.standing.2) := rfl

/-- Stopping the engines leaves no thread and no command, and beside them nothing that stands changes. -/
theorem State.stopEngines_spares (s : State) : Spares s.halted s.stopEngines := by
  have hvision : Spares s s.stopVision := (Spares.refl s).stopVision
  have hjobs : Spares s ((List.range 4).foldl (fun s p => s.setReg R.PART_JOB_ACTIVE 0 p) s.stopVision) :=
    .fold (fun _ _ _ h1 => h1.setReg (by decide)) hvision
  have hregs : s.stopEngines.regs = ((List.range 4).foldl (fun s p => s.setReg R.PART_JOB_ACTIVE 0 p) s.stopVision).regs := rfl
  have hhalted : s.stopEngines.standing =
      ((List.range 4).foldl (fun s p => s.setReg R.PART_JOB_ACTIVE 0 p) s.stopVision).halted.standing := rfl
  generalize (List.range 4).foldl (fun s p => s.setReg R.PART_JOB_ACTIVE 0 p) s.stopVision = u at hjobs hregs hhalted
  refine ⟨hhalted.trans ?_, fun hwf => ⟨hregs ▸ (hjobs.regs hwf).1, fun r i j hr => ?_⟩⟩
  · rw [u.halted_standing, s.halted_standing, hjobs.standing]
  · exact (State.reg_of_regs hregs r i j).trans (((hjobs.regs hwf).2 r i j hr).trans (State.reg_of_regs (t := s) (s := s.halted) rfl r i j))
end Sys2Proof.Machine
end


section
/-!
SUPPORT. What a raise does: the service state it leaves, and the image in use.
-/

namespace Sys2Proof.Machine

open Sys2Proof

/-- Nothing that stands changes, whatever becomes of the registers. -/
def Stands (s t : State) : Prop := t.standing = s.standing

section

variable {s₀ s t : State}

theorem Stands.refl (s : State) : Stands s s := rfl

theorem Stands.then (h : Stands s₀ s) (h' : Spares s t) : Stands s₀ t := h'.standing.trans h

theorem Stands.same (h : Stands s₀ s) (hs : t.standing = s.standing) : Stands s₀ t := hs.trans h

theorem Stands.ite {c : Prop} {_ : Decidable c} {a b : State} (ha : Stands s₀ a) (hb : Stands s₀ b) :
    Stands s₀ (if c then a else b) := by
  split
  · exact ha
  · exact hb

theorem Stands.fold {α : Type} {f : State → α → State} {l : List α} (hf : ∀ x a, Stands s₀ x → Stands s₀ (f x a))
    (h : Stands s₀ s) : Stands s₀ (l.foldl f s) :=
  List.foldlRecOn (motive := Stands s₀) _ _ h fun x hx a _ => hf x a hx

theorem Stands.setReg {r : RegRow} {v i j : Nat} (h : Stands s₀ s) : Stands s₀ (s.setReg r v i j) := (s.setReg_standing r v i j).trans h

theorem Stands.incReg {r : RegRow} {i j n : Nat} (h : Stands s₀ s) : Stands s₀ (s.incReg r i j n) := h.setReg

theorem Stands.setBit {r : RegRow} {n : Nat} {v : Bool} {i j : Nat} (h : Stands s₀ s) : Stands s₀ (s.setBit r n v i j) := h.setReg

theorem Stands.setSvc {c : Nat} (h : Stands s₀ s) : Stands s₀ (s.setSvc c) := h.setReg.setReg

theorem Stands.zeroDomain {d : Nat} (h : Stands s₀ s) : Stands s₀ (s.zeroDomain d) := h.then (Spares.refl s).zeroDomain

theorem Stands.powerCore {n : Nat} {on : Bool} (h : Stands s₀ s) : Stands s₀ (s.powerCore n on) := h.setBit.setReg

theorem Stands.powerOn {d : Nat} (h : Stands s₀ s) : Stands s₀ (s.powerOn d) := by
  unfold State.powerOn
  extract_lets u _ v w
  have hu : Stands s₀ u := h.setBit.zeroDomain
  clear_value u
  have hv : Stands s₀ v := hu.same rfl
  have hw : Stands s₀ w := .fold (fun _ _ h1 => h1.powerCore) hv
  exact .ite h (.ite hw.setBit (.ite hv.setBit.setBit (.ite hv.setBit (.ite hv.setBit hv))))

theorem Stands.dropIface {d : Nat} (h : Stands s₀ s) : Stands s₀ (s.dropIface d) := by
  unfold State.dropIface
  extract_lets u _ v _
  have hu : Stands s₀ u := .fold (fun _ _ h1 => h1.setReg) h
  have hv : Stands s₀ v := .fold (fun _ _ h1 => .ite h1.setReg h1) h
  clear_value u v
  exact .ite (hu.same rfl) (.ite h.setReg.setReg.setReg (.ite (hv.same rfl) h))

theorem Stands.powerOff {d : Nat} (h : Stands s₀ s) : Stands s₀ (s.powerOff d) := by
  unfold State.powerOff
  extract_lets u _ v w x
  have hu : Stands s₀ u := h.setBit.zeroDomain
  clear_value u
  have hv : Stands s₀ v := hu.same rfl
  have hw : Stands s₀ w := .ite (.fold (fun _ _ h1 => h1.powerCore) hv) hv
  have hx : Stands s₀ x := hw.dropIface
  exact .ite h (.fold (fun _ _ h1 => .ite h1.setBit h1) hx)

end

theorem State.image_of_standing {s t : State} (h : Stands s t) : t.image = s.image := congrArg (fun x => x.1.2.2.2.1) h

/-- The image in use is still in use, or none is. -/
def State.ImageKept (s t : State) : Prop := t.image = s.image ∨ t.image = none

theorem State.ImageKept.trans {s t u : State} (h : s.ImageKept t) (h' : t.ImageKept u) : s.ImageKept u :=
  h'.elim (fun e => h.elim (fun e' => .inl (e.trans e')) fun e' => .inr (e.trans e')) .inr

theorem State.ImageKept.of_stands {s t : State} (h : Stands s t) : s.ImageKept t := .inl (State.image_of_standing h)

theorem State.ImageKept.ite {s a b : State} {c : Prop} {_ : Decidable c} (ha : s.ImageKept a) (hb : s.ImageKept b) :
    s.ImageKept (if c then a else b) := by
  split
  · exact ha
  · exact hb

theorem State.stopEngines_image (s : State) : s.stopEngines.image = s.image := State.image_of_standing (s := s.halted) s.stopEngines_spares.standing

/-! ### Entering SAFE -/

/-- SAFE is entered: SAFE_FAULT_N is low and every engine is stopped; the image stays in use. -/
theorem State.enterSafe_spec (s : State) (src inst : Nat) (hwf : Sparse.wf 0#32 s.regs = true) :
    (s.enterSafe src inst).svc = 2 ∧ (s.enterSafe src inst).hub.faultN = false ∧ (s.enterSafe src inst).cmds = [] ∧
      (s.enterSafe src inst).threads = [] ∧ (s.enterSafe src inst).running = false ∧ (s.enterSafe src inst).image = s.image := by
  unfold State.enterSafe
  extract_lets a _ b c d e f g
  have ha : Spares s a := .fold (fun _ p hp h1 => by
    have := List.mem_range.mp hp
    refine ((h1.setAside ?_).setAside ?_).setAside ?_ <;>
      simp only [RegRow.Aside, RegRow.at, RegRow.words, R.RST_LAST_JOB_ACTIVE, R.RST_LAST_JOB_QUEUE, R.RST_LAST_ELAPSED_US] <;> omega)
    (Spares.refl s)
  have hawf := (ha.regs hwf).1
  have haimage : a.image = s.image := State.image_of_standing ha.standing
  clear_value a
  have hbfault : b.hub.faultN = false := rfl
  have hbimage : b.image = s.image := haimage
  have hbwf : Sparse.wf 0#32 b.regs = true := hawf
  clear_value b
  have hc : Stands b c := (Stands.refl b).setReg
  have hcwf : Sparse.wf 0#32 c.regs = true := b.setReg_wf _ _ _ _ hbwf
  clear_value c
  have hd : Stands b d := hc.setSvc.incReg
  have hcwf' : Sparse.wf 0#32 (c.setReg R.TOP_SVC_STATE 2).regs = true := c.setReg_wf _ _ _ _ hcwf
  have hcwf'' : Sparse.wf 0#32 (c.setSvc 2).regs = true := State.setReg_wf _ _ _ _ _ hcwf'
  have hdwf : Sparse.wf 0#32 d.regs = true := State.incReg_wf _ _ _ _ _ hcwf''
  have hdsvc : d.svc = 2 := (State.reg_setReg_apart hcwf'' (by decide)).trans
    ((State.reg_setReg_apart hcwf' (by decide)).trans (State.reg_setReg_same _ _ _ _ _ hcwf (by decide)))
  clear_value d
  have he : Spares d e := ((Spares.refl d).setAside (by decide)).setAside (by decide)
  have hf : Spares d f := he.setAside (by decide)
  have hg : Spares d g := hf.sendCommitted.closeAll
  clear_value e f g
  have hsuper : Spares d g.supersedeReissue := hg.supersedeReissue
  have hbefore : g.supersedeReissue.standing = b.standing := Stands.then hd hsuper
  generalize g.supersedeReissue = v at *
  have hvwf : Sparse.wf 0#32 v.halted.regs = true := (hsuper.regs hdwf).1
  have hend : Spares v.halted v.stopEngines.stopGroups.acuNotInService := v.stopEngines_spares.stopGroups.acuNotInService
  have hsvc : v.stopEngines.stopGroups.acuNotInService.svc = 2 := (hend.svc hvwf).trans ((hsuper.svc hdwf).trans hdsvc)
  have hstanding := hend.standing
  simp only [State.standing, Prod.mk.injEq] at hstanding hbefore
  obtain ⟨⟨hcmds, hthreads, hrunning, himage, -⟩, -, hfault, -⟩ := hstanding
  obtain ⟨⟨-, -, -, himage', -⟩, -, hfault', -⟩ := hbefore
  exact ⟨hsvc, hfault.trans (hfault'.trans hbfault), hcmds, hthreads, hrunning, himage.trans (himage'.trans hbimage)⟩

/-! ### The image in use -/

theorem Stands.attemptRecords {s₀ s : State} (h : Stands s₀ s) (outcome code section_ : Nat) (r : BootRec) :
    Stands s₀ ((s.startRecord outcome code section_).writeBootRec r) := h.then (Spares.refl s).startRecord.writeBootRec

theorem State.enterConfigFault_image (s : State) : s.enterConfigFault.image = s.image := by
  unfold State.enterConfigFault
  extract_lets keep u _ _ _ _ v
  have hu : Stands s u := .fold (fun _ _ h1 => .ite h1.powerOn h1.powerOff) (.refl s)
  have hv : v.image = s.image := (State.image_of_standing hu :)
  exact (State.image_of_standing (Stands.refl v).setSvc).trans hv

/-- A failed attempt leaves no image in use; where no attempt is under way nothing happens. -/
theorem State.attemptFail_image (s : State) (code section_ : Nat) : s.ImageKept (s.attemptFail code section_) := by
  unfold State.attemptFail
  extract_lets _ _ a b c _ d e f g _ _ _ u v _ _ w x
  have hd : d.image = none := rfl
  have hf : Stands d f := Stands.then (s := e) ((Stands.refl d).then (Spares.refl d).startRecord) (Spares.refl e).plog
  have hg : Stands d g := (Stands.refl d).setReg
  have hu : Stands d u := hg.setReg
  have hv : Stands d v := hu.setReg.setReg
  have hw : Stands d w := hg.attemptRecords ..
  have hx : Stands d x := hw.then (Spares.refl w).plog
  have hwarm := (State.image_of_standing (hf.then (Spares.writeBootRec (r := f.bootRecord) (.refl f)))).trans hd
  refine .ite (.inl rfl) (.ite (.inr hwarm) (.ite (.inr ?_) (.ite (.inr ?_) (.inr ?_))))
  · exact (State.image_of_standing (hv.attemptRecords ..)).trans hd
  · exact (x.enterConfigFault_image.trans (State.image_of_standing hx)).trans hd
  · exact (State.image_of_standing (hg.attemptRecords ..)).trans hd

theorem State.stopAll_image (s : State) : s.unseal.stopEngines.stopGroups.image = s.image :=
  (State.image_of_standing (s := s.unseal.stopEngines) (Spares.refl _).stopGroups.standing).trans
    ((State.stopEngines_image _).trans (State.image_of_standing (Spares.refl s).unseal.standing))

/-- The registers of SAFE that a reaction writes first. -/
def State.noteFault (s : State) (src inst : Nat) : State :=
  ((s.setReg R.SAFE_LAST_SOURCE src).setReg R.SAFE_LAST_INSTANCE inst).setReg R.SAFE_LAST_TIME_TIME s.now

/-- A reaction of class OUT holds the island first. -/
def State.noteOut (s : State) (react : Nat) : State :=
  if react = 2 then
    ({ s with hub.outFrom := some (s.hub.outFrom.getD s.svc), hub.changed := some s.tick }).setReg R.SAFE_STATUS_LATCH 1
  else s

/-- What a reaction does in the service state `svc`. -/
def State.reactIn (s : State) (svc src inst react : Nat) : State :=
  if svc = 1 then s.enterSafe src inst
  else if svc = 0 then
    if react = 2 then { s.unseal.stopEngines.stopGroups with boot.phase := .idle }
    else if src = 0x80 then s
    else if s.boot.phase = .step then { s with hub.changed := some s.tick }.attemptFail 0x12
    else s
  else s

theorem State.react_eq (s : State) (src inst : Nat) {react : Nat} (h : react ≠ 0) :
    s.react src inst react = ((s.noteFault src inst).noteOut react).reactIn (s.noteFault src inst).svc src inst react := by
  rw [State.react, if_neg h]
  rfl

theorem State.noteFault_wf (s : State) (src inst : Nat) (hwf : Sparse.wf 0#32 s.regs = true) :
    Sparse.wf 0#32 (s.noteFault src inst).regs = true :=
  State.setReg_wf _ _ _ _ _ (State.setReg_wf _ _ _ _ _ (s.setReg_wf _ _ _ _ hwf))

theorem State.noteOut_wf (s : State) (react : Nat) (hwf : Sparse.wf 0#32 s.regs = true) : Sparse.wf 0#32 (s.noteOut react).regs = true := by
  unfold State.noteOut
  split
  · exact State.setReg_wf _ _ _ _ _ hwf
  · exact hwf

theorem State.noteOut_image (s : State) (react : Nat) : (s.noteOut react).image = s.image := by
  unfold State.noteOut
  split
  · rw [State.setReg_eq]
  · rfl

theorem State.reactIn_image (s : State) (svc src inst react : Nat) (hwf : Sparse.wf 0#32 s.regs = true) :
    s.ImageKept (s.reactIn svc src inst react) := by
  have hsafe : s.ImageKept (s.enterSafe src inst) := .inl (s.enterSafe_spec src inst hwf).2.2.2.2.2
  have hfail : s.ImageKept (({ s with hub.changed := some s.tick } : State).attemptFail 0x12) :=
    State.attemptFail_image { s with hub.changed := some s.tick } _ _
  have hsame : s.ImageKept s := .inl rfl
  unfold State.reactIn
  split
  · exact hsafe
  · split
    · split
      · have hstop := s.stopAll_image
        generalize s.unseal.stopEngines.stopGroups = u at hstop
        exact .inl hstop
      · exact .ite hsame (.ite hfail hsame)
    · exact hsame

theorem State.react_image (s : State) (src inst react : Nat) (hwf : Sparse.wf 0#32 s.regs = true) :
    s.ImageKept (s.react src inst react) := by
  by_cases hzero : react = 0
  · rw [State.react, if_pos hzero]
    exact .inl rfl
  · rw [s.react_eq src inst hzero]
    have hnote : (s.noteFault src inst).image = s.image := State.image_of_standing (Stands.refl s).setReg.setReg.setReg
    exact .trans (.inl ((State.noteOut_image _ _).trans hnote)) (State.reactIn_image _ _ _ _ _ (State.noteOut_wf _ _ (s.noteFault_wf src inst hwf)))

/-- A raise leaves the image in use, or none. -/
theorem State.raise_image (s : State) (src inst detail : Nat) (hwf : Sparse.wf 0#32 s.regs = true) :
    s.ImageKept (s.raise src inst detail) := by
  unfold State.raise
  extract_lets u react before l _ v
  have hu : s.ImageKept u := .of_stands (Stands.refl s).incReg
  have huwf : Sparse.wf 0#32 u.regs = true := s.incReg_wf _ _ _ _ hwf
  have hv : s.ImageKept v := hu.trans (State.react_image { u with hub.latches := u.hub.latches ++ [l] } _ _ _ huwf)
  exact .ite hu (.ite hv hv)
end Sys2Proof.Machine
end


section
/-!
SUPPORT. The judgement of a block's clamps leaves the image in use, or none.
-/

namespace Sys2Proof.Machine

open Sys2Proof

theorem State.govTrip_image (s : State) (o : Nat) (mid : Bool) (hs : s.Canonical) : s.ImageKept (s.govTrip o mid) := by
  unfold State.govTrip
  extract_lets _ _ u v
  have hu : s.ImageKept u ∧ u.Canonical := ⟨.inl rfl, hs⟩
  have hv : Stands u v ∧ v.Canonical :=
    ⟨(Spares.ite (Spares.refl u).ancCause (.refl u)).standing, (Keeps.ite (Keeps.refl u).ancCause (.refl u)).canonical hu.2⟩
  have hinc : v.ImageKept (v.incReg R.ACU_GOV_TRIPS_COUNT) := .of_stands (Stands.refl v).incReg
  exact ((hu.1.trans (.of_stands hv.1)).trans hinc).trans (State.raise_image _ _ _ _ (v.incReg_wf _ _ _ _ hv.2.1))

/-- Judging the clamps of a block leaves the image in use, or none. -/
theorem State.judgeClamps_image (s : State) (k : SoundBlock) (hs : s.Canonical) : s.ImageKept (s.judgeClamps k) := by
  refine (List.foldlRecOn (motive := fun x => s.ImageKept x ∧ x.Canonical) _ _ ⟨.inl rfl, hs⟩ fun x hx o _ => ?_).1
  extract_lets limit many g quiet
  by_cases harmed : g.armed = true
  · rw [if_pos harmed]
    by_cases hmany : many = true
    · rw [if_pos hmany]
      exact ⟨hx.1.trans (x.govTrip_image o false hx.2), (Keeps.refl x).govTrip.canonical hx.2⟩
    · rwa [if_neg hmany]
  · rw [if_neg harmed]
    exact ⟨hx.1, hx.2⟩

/-- Without an image in use no loudspeaker is configured. -/
theorem State.audSpks_of_imageKept {s t : State} (h : s.ImageKept t) (hs : audSpks s.audio = 0) : audSpks t.audio = 0 := by
  rcases h with hsame | hnone
  · rwa [State.audio_of_image hsame]
  · have hempty : t.audio = [] := by rw [State.audio, State.sec, hnone]
    rw [hempty]
    rfl

end Sys2Proof.Machine

open Sys2Proof Sys2Proof.Machine

/-- Settles O50: sample frames, the end of a block, and the priority mute. -/
theorem samplePathAndMutes : Obligations.SamplePathAndMutes := by
  intro s e dt hs he
  have hregs : e.regs = s.regs := by rw [he, State.elapse_regs]
  have hmem : e.mem = s.mem := by rw [he, State.elapse_mem]
  have hwf : Sparse.wf 0#32 e.regs = true := hregs ▸ hs.1
  refine ⟨?_, ?_, ?_, ?_, ?_, ?_⟩
  · intro inputs padA padB residue deadline readback hrun
    have hexec : exec (.sampleFrame dt inputs padA padB residue deadline readback) s =
      execSampleFrame dt inputs padA padB residue deadline readback s := rfl
    rw [hexec, execSampleFrame, ← he]
    dsimp only
    rw [if_pos hrun]
    exact ⟨_, rfl, congrArg Acoustic.frame (State.acuShow_acu _)⟩
  · intro inputs padA padB residue deadline readback hrun
    have hexec : exec (.sampleFrame dt inputs padA padB residue deadline readback) s =
      execSampleFrame dt inputs padA padB residue deadline readback s := rfl
    rw [hexec, execSampleFrame, ← he]
    dsimp only
    rw [if_neg (by simp [hrun])]
  · intro k hblock hspks
    have hexec : exec (.audioBlockEnd dt) s = execAudioBlockEnd dt s := rfl
    rw [hexec, execAudioBlockEnd, ← he, hblock]
    have hc : ({ e with acu.block := none } : State).Canonical := he ▸ (by simpa [State.Canonical] using hs)
    have hkept := State.judgeClamps_image _ k hc
    dsimp only
    rw [if_pos (State.audSpks_of_imageKept hkept hspks)]
  · intro b hrun hmuted
    cases b with
    | true =>
      generalize hu : ({ e with acu.rawB := true } : State) = u
      have huregs : u.regs = e.regs := by rw [← hu]
      have hexec : exec (.priorityMuteOnset dt true) s = .next (u.muteLevels (e.flag R.ACU_MUTE_A) true) := by
        refine congrArg Host.Outcome.next ?_
        rw [← he, if_pos hrun, if_pos rfl, ← hu]
      have humuted : u.flag R.ACU_MUTE_MUTED = false := by rw [State.flag, State.reg_of_regs huregs]; exact hmuted
      obtain ⟨hm, -, hb, hcause, hcount, hmute, hmem'⟩ := State.muteLevels_onset (s := u) (a := e.flag R.ACU_MUTE_A) (b := true)
        (huregs ▸ hwf) (Bool.or_true _) humuted
      refine ⟨_, hexec, ?_, ?_, hcause, ?_, ?_, sameMemory_of_mem ?_⟩
      · rw [State.flag, hm]
        rfl
      · rw [if_pos rfl, State.flag, hb]
        rfl
      · rw [hcount, State.reg_of_regs huregs]
      · rw [hmute, ← hu]
      · rw [hmem', ← hu]
        exact hmem
    | false =>
      generalize hu : ({ e with acu.rawA := true } : State) = u
      have huregs : u.regs = e.regs := by rw [← hu]
      have hexec : exec (.priorityMuteOnset dt false) s = .next (u.muteLevels true (e.flag R.ACU_MUTE_B)) := by
        refine congrArg Host.Outcome.next ?_
        rw [← he, if_pos hrun, if_neg Bool.false_ne_true, ← hu]
      have humuted : u.flag R.ACU_MUTE_MUTED = false := by rw [State.flag, State.reg_of_regs huregs]; exact hmuted
      obtain ⟨hm, ha, -, hcause, hcount, hmute, hmem'⟩ := State.muteLevels_onset (s := u) (a := true) (b := e.flag R.ACU_MUTE_B)
        (huregs ▸ hwf) (Bool.true_or _) humuted
      refine ⟨_, hexec, ?_, ?_, hcause, ?_, ?_, sameMemory_of_mem ?_⟩
      · rw [State.flag, hm]
        rfl
      · rw [if_neg Bool.false_ne_true, State.flag, ha]
        rfl
      · rw [hcount, State.reg_of_regs huregs]
      · rw [hmute, ← hu]
      · rw [hmem', ← hu]
        exact hmem
  · intro hrun hmuted
    generalize hu : ({ e with acu.rawA := false, acu.rawB := false } : State) = u
    have huregs : u.regs = e.regs := by rw [← hu]
    have hexec : exec (.muteRelease dt) s = .next (u.muteLevels false false) := by
      refine congrArg Host.Outcome.next ?_
      rw [← he, if_pos hrun, ← hu]
    have humuted : u.flag R.ACU_MUTE_MUTED = true := by rw [State.flag, State.reg_of_regs huregs]; exact hmuted
    obtain ⟨hm, ha, hb, hcause, hmute, hmem'⟩ := State.muteLevels_release (s := u) (huregs ▸ hwf) humuted
    refine ⟨_, hexec, ?_, ?_, ?_, hcause, ?_, sameMemory_of_mem ?_⟩
    · rw [State.flag, hm]
      rfl
    · rw [State.flag, ha]
      rfl
    · rw [State.flag, hb]
      rfl
    · rw [hmute, ← hu]
    · rw [hmem', ← hu]
      exact hmem
  · intro at_ hdisc hflag hlate
    have hexec : exec (.muteDiscrepancy dt) s = .next (((e.setReg R.ACU_MUTE_DISC 1).incReg R.ACU_DISC_FAULTS_COUNT).raise 0x75 0 0) := by
      refine congrArg Host.Outcome.next ?_
      rw [← he, hdisc]
      dsimp only
      rw [if_pos ⟨hflag, hlate⟩]
    have hwf1 := e.setReg_wf R.ACU_MUTE_DISC 1 0 0 hwf
    refine ⟨_, hexec, ?_, State.setReg_eq_of (e.setReg_eq ..) ..⟩
    rw [State.flag, State.incReg, State.reg_setReg_apart hwf1 (by decide), State.reg_setReg_same _ _ _ _ _ hwf (by decide)]
    rfl
end


section
/-!
SUPPORT. A raise of a source whose latch is not set.
-/

namespace Sys2Proof.Machine

open Sys2Proof

/-- The latch that a raise sets. -/
def State.faultLatch (s : State) (src inst detail : Nat) : Latch :=
  { src := src, time := s.now, quality := s.quality, inst := inst, detail := detail, react := s.reg R.SAFE_FAULT_CFG_REACT src
    first := false, before := s.svc, after := stateAfter s.svc (s.reg R.SAFE_FAULT_CFG_REACT src), tick := s.tick }

/-- The latches set in the tick in which the hub began a change are marked first. -/
def State.markFirst (s : State) : State :=
  if s.hub.changed = some s.tick then
    { s with hub.latches := s.hub.latches.map fun x => if x.tick = s.tick then { x with first := true } else x }
  else s

theorem State.latched_incReg (s : State) (r : RegRow) (i j n src : Nat) : (s.incReg r i j n).latched src = s.latched src := by
  rw [State.latched, State.incReg_hub, State.latched]

/-- The raise of a source whose latch is not set: it is counted, its latch is set, and the reaction follows. -/
theorem State.raise_eq (s : State) (src inst detail : Nat) (h : s.latched src = false) :
    s.raise src inst detail =
      (({ s.incReg R.SAFE_FAULT_COUNT_COUNT src with
          hub.latches := s.hub.latches ++ [(s.incReg R.SAFE_FAULT_COUNT_COUNT src).faultLatch src inst detail] } : State).react src inst
        ((s.incReg R.SAFE_FAULT_COUNT_COUNT src).reg R.SAFE_FAULT_CFG_REACT src)).markFirst := by
  rw [State.raise, State.latched_incReg, if_neg (by simp [h]), State.incReg_hub]
  rfl

theorem State.raise_latched (s : State) (src inst detail : Nat) (h : s.latched src = true) :
    s.raise src inst detail = s.incReg R.SAFE_FAULT_COUNT_COUNT src := by
  rw [State.raise, State.latched_incReg, if_pos h]

theorem State.markFirst_eq (s : State) : s.markFirst = { s with hub.latches := s.markFirst.hub.latches } := by
  unfold State.markFirst
  split <;> rfl

/-- Marking the first latches sets and clears none. -/
theorem State.latched_markFirst (s : State) (src : Nat) : s.markFirst.latched src = s.latched src := by
  unfold State.markFirst
  split
  · rw [State.latched, State.latched, List.any_map]
    congr 1
    funext x
    rw [Function.comp_apply]
    split <;> rfl
  · rfl

theorem State.reg_faultCfg_incReg {s : State} {src : Nat} (hwf : Sparse.wf 0#32 s.regs = true) :
    (s.incReg R.SAFE_FAULT_COUNT_COUNT src).reg R.SAFE_FAULT_CFG_REACT src = s.reg R.SAFE_FAULT_CFG_REACT src :=
  State.reg_incReg_other _ _ _ _ _ _ _ _ hwf (.inl (by
    simp only [RegRow.at, RegRow.words, R.SAFE_FAULT_COUNT_COUNT, R.SAFE_FAULT_CFG_REACT]
    omega))

theorem State.svc_noteFault {s : State} (src inst : Nat) (hwf : Sparse.wf 0#32 s.regs = true) : (s.noteFault src inst).svc = s.svc := by
  have hwf1 := s.setReg_wf R.SAFE_LAST_SOURCE src 0 0 hwf
  have hwf2 := State.setReg_wf _ R.SAFE_LAST_INSTANCE inst 0 0 hwf1
  exact (State.reg_setReg_apart hwf2 (by decide)).trans ((State.reg_setReg_apart hwf1 (by decide)).trans (State.reg_setReg_apart hwf (by decide)))

end Sys2Proof.Machine

open Sys2Proof Sys2Proof.Machine

/-- Settles O33: a raise by its source's latch and the reaction configured for it. -/
theorem faultHub : Obligations.FaultHub := by
  intro u src inst detail hwf _
  have hwf1 := u.incReg_wf R.SAFE_FAULT_COUNT_COUNT src 0 1 hwf
  refine ⟨u.raise_latched src inst detail, fun hlatch hreact => ?_, fun hlatch hsvc hreact => ?_⟩
  · rw [u.raise_eq src inst detail hlatch, State.reg_faultCfg_incReg hwf, hreact, State.react, if_pos rfl]
    have hsvc : (u.incReg R.SAFE_FAULT_COUNT_COUNT src).svc = u.svc :=
      State.reg_incReg_other _ _ _ _ _ _ _ _ hwf (.inl (by
        simp only [RegRow.at, RegRow.words, R.SAFE_FAULT_COUNT_COUNT, R.TOP_SVC_STATE]
        omega))
    refine ⟨?_, ?_, ?_, sameMemory_of_mem ?_⟩
    · rw [State.latched_markFirst, State.latched]
      simp [State.faultLatch]
    · rw [State.markFirst_eq]
      exact hsvc
    · rw [State.markFirst_eq]
      exact State.incReg_cmds ..
    · rw [State.markFirst_eq]
      exact State.incReg_mem ..
  · rw [u.raise_eq src inst detail hlatch, State.reg_faultCfg_incReg hwf, hreact, State.react_eq _ _ _ (by decide)]
    have hsvc1 : (u.incReg R.SAFE_FAULT_COUNT_COUNT src).svc = 1 :=
      (State.reg_incReg_other _ _ _ _ _ _ _ _ hwf (.inl (by
        simp only [RegRow.at, RegRow.words, R.SAFE_FAULT_COUNT_COUNT, R.TOP_SVC_STATE]
        omega))).trans hsvc
    generalize u.incReg R.SAFE_FAULT_COUNT_COUNT src = v at hwf1 hsvc1 ⊢
    generalize hw : ({ v with hub.latches := u.hub.latches ++ [v.faultLatch src inst detail] } : State) = w
    have hwwf : Sparse.wf 0#32 w.regs = true := by rw [← hw]; exact hwf1
    have hwsvc : w.svc = 1 := by rw [← hw]; exact hsvc1
    rw [State.noteOut, if_neg (by decide), State.reactIn, if_pos ((State.svc_noteFault src inst hwwf).trans hwsvc)]
    obtain ⟨hsafe, hfault, hcmds, hthreads, hrunning, -⟩ := (w.noteFault src inst).enterSafe_spec src inst (w.noteFault_wf src inst hwwf)
    generalize (w.noteFault src inst).enterSafe src inst = x at *
    rw [State.markFirst_eq]
    exact ⟨hsafe, hfault, hcmds, hthreads, hrunning⟩
end


section
/-!
SUPPORT. Fault records, the count of entries into SAFE, and the loss of the compute domains.
-/

namespace Sys2Proof.Machine

open Sys2Proof

section

variable {s₀ s : State}

/-- The hub with other latches and another number of the next record. -/
def State.withLatches (s : State) (ls : List Latch) (n : Nat) : State := { s with hub.latches := ls, hub.recSeq := n }

theorem State.withLatches_standing (s : State) (ls : List Latch) (n : Nat) : (s.withLatches ls n).standing =
    (s.standing.1, s.standing.2.1, s.standing.2.2.1, s.standing.2.2.2.1, s.standing.2.2.2.2.1, ls, n, s.standing.2.2.2.2.2.2.2) := rfl

theorem Spares.withLatches {t : State} (h : Spares s t) (ls : List Latch) (n : Nat) : Spares (s.withLatches ls n) (t.withLatches ls n) := by
  refine ⟨?_, fun hwf => ⟨(h.regs hwf).1, fun r i j hr => (State.reg_of_regs (s := t) (t := t.withLatches ls n) rfl r i j).trans
    (((h.regs hwf).2 r i j hr).trans (State.reg_of_regs (s := s.withLatches ls n) (t := s) rfl r i j))⟩⟩
  rw [t.withLatches_standing, s.withLatches_standing, h.standing]

theorem State.latches_of_standing {t : State} (h : Stands s t) : t.hub.latches = s.hub.latches := congrArg (fun x => x.2.2.2.2.2.1) h

/-- A fault record takes its source's latch and a sequence number from the hub. -/
theorem State.writeFaultRecord_spares (s : State) (l : Latch) :
    Spares (s.withLatches (s.hub.latches.filter fun x => x.src != l.src) (s.hub.recSeq + 1)) (s.writeFaultRecord l) := by
  unfold State.writeFaultRecord
  extract_lets seq words _ u v
  have hu : Spares (s.withLatches (s.hub.latches.filter fun x => x.src != l.src) (s.hub.recSeq + 1)) u := Spares.refl u
  have hv : Spares (s.withLatches (s.hub.latches.filter fun x => x.src != l.src) (s.hub.recSeq + 1)) v := hu.record.incAside (by decide)
  exact .ite hv hv.plog

/-- The records of several latches clear just these latches; nothing else that stands changes. -/
theorem State.writeFaultRecords_spares (s : State) (ls : List Latch) :
    ∃ n, Spares (s.withLatches (s.hub.latches.filter fun x => ls.all fun l => x.src != l.src) n)
      (ls.foldl (fun s l => s.writeFaultRecord l) s) := by
  induction ls generalizing s with
  | nil =>
    have hall : (s.hub.latches.filter fun x => ([] : List Latch).all fun l => x.src != l.src) = s.hub.latches :=
      List.filter_eq_self.mpr fun _ _ => rfl
    refine ⟨s.hub.recSeq, ?_⟩
    rw [hall]
    exact Spares.refl s
  | cons l ls ih =>
    obtain ⟨n, hn⟩ := ih (s.writeFaultRecord l)
    have hone := s.writeFaultRecord_spares l
    have hlatches : (s.writeFaultRecord l).hub.latches = s.hub.latches.filter fun x => x.src != l.src :=
      State.latches_of_standing hone.standing
    rw [hlatches, List.filter_filter] at hn
    refine ⟨n, Spares.trans (hone.withLatches _ n) ?_⟩
    have hfilter : (s.hub.latches.filter fun x => (l :: ls).all fun l => x.src != l.src) =
        s.hub.latches.filter fun x => (ls.all fun l => x.src != l.src) && (x.src != l.src) :=
      List.filter_congr fun x _ => by rw [List.all_cons, Bool.and_comm]
    rw [hfilter]
    exact hn

/-- The records that the island's restart writes: of every latch, the hub's persistent-log entries first. -/
def State.writeAllRecords (s : State) : State := s.hub.latches.foldl (fun s l => s.writeFaultRecord l) s.plogFlush

theorem State.writeAllRecords_spares (s : State) : ∃ n, Spares (s.withLatches [] n) s.writeAllRecords := by
  obtain ⟨n, hn⟩ := s.plogFlush.writeFaultRecords_spares s.hub.latches
  have hempty : (s.hub.latches.filter fun x => s.hub.latches.all fun l => x.src != l.src) = [] := by
    rw [List.filter_eq_nil_iff]
    intro x hx hall
    simpa using List.all_eq_true.mp hall x hx
  have hflush := (Spares.refl s).plogFlush
  rw [State.latches_of_standing hflush.standing, hempty] at hn
  exact ⟨n, (hflush.withLatches [] n).trans hn⟩

theorem State.countEntry_stands (s : State) : Stands s s.countEntry := by
  unfold State.countEntry
  extract_lets _ _ u v _
  have hu : Stands s u := List.foldrRecOn (motive := Stands s) _ _ (.refl s) fun x hx _ _ => hx.setReg
  exact hu.setReg.setReg

theorem State.reg_countEntry {s : State} (hwf : Sparse.wf 0#32 s.regs = true) {r : RegRow} (hr : r.Spared 0 0)
    (hcount : R.RST_STATUS_ESC_COUNT.Apart r 0 0 0 0) : s.countEntry.reg r = s.reg r := by
  unfold State.countEntry
  extract_lets _ _ u v _
  have hu : Spares s u := List.foldrRecOn (motive := Spares s) _ _ (.refl s) fun x hx i hi => hx.setAside (by
    have := List.mem_range.mp hi
    simp only [RegRow.Aside, RegRow.at, RegRow.words, R.RST_ESC_TIME_TIME]
    omega)
  have hv : Spares s v := hu.setAside (by decide)
  exact (State.reg_setReg_apart (hv.regs hwf).1 hcount).trans (hv.reg hwf hr)

theorem Stands.resetRegs {lo hi : Nat} (h : Stands s₀ s) : Stands s₀ (s.resetRegs lo hi) :=
  h.same (by simp only [State.standing, State.resetRegs])

theorem Stands.computeLoss (h : Stands s₀ s) : Stands s₀ s.computeLoss := by
  unfold State.computeLoss
  extract_lets a b c d e f
  have ha : Stands s₀ a := h.resetRegs
  have hb : Stands s₀ b := .fold (fun _ _ h1 => h1.setReg) ha
  have hd : Stands s₀ d := Stands.resetRegs (s := c) hb.resetRegs
  have he : Stands s₀ e := .fold (fun _ _ h1 => h1.resetRegs) hd
  have hf : Stands s₀ f := .fold (fun _ _ h1 => .ite h1 h1.resetRegs) he
  exact .fold (fun _ _ h1 => h1.zeroDomain) hf

/-- The compute reset asserted: the queues are lost and every engine is stopped. -/
theorem State.assertReset_spec (s : State) (hs : s.Canonical) : s.assertReset.flag R.RST_STATUS_ASSERTED = true ∧
    s.assertReset.queuesLost = true ∧ s.assertReset.running = false ∧ s.assertReset.cmds = [] ∧ s.assertReset.threads = [] := by
  unfold State.assertReset
  extract_lets _ u
  have hlost : u.queuesLost = true := rfl
  have huc : u.Canonical := (Keeps.refl s).saveAnswers.same.canonical hs
  clear_value u
  have hstop : Stands u.halted u.stopEngines := u.stopEngines_spares.standing
  have hloss : Stands u.halted u.stopEngines.computeLoss := hstop.computeLoss
  have hlwf : Sparse.wf 0#32 u.stopEngines.computeLoss.regs = true := ((Keeps.refl u).stopEngines.computeLoss.canonical huc).1
  generalize u.stopEngines.computeLoss = v at *
  have hend : Stands u.halted ((v.setReg R.RST_STATUS_ASSERTED 1).incReg R.RST_COUNTS_RESETS) := hloss.setReg.incReg
  have hwf1 := v.setReg_wf R.RST_STATUS_ASSERTED 1 0 0 hlwf
  have hset : ((v.setReg R.RST_STATUS_ASSERTED 1).incReg R.RST_COUNTS_RESETS).reg R.RST_STATUS_ASSERTED = 1 := by
    rw [State.incReg, State.reg_setReg_apart hwf1 (by decide)]
    exact State.reg_setReg_same _ _ _ _ _ hlwf (by decide)
  generalize (v.setReg R.RST_STATUS_ASSERTED 1).incReg R.RST_COUNTS_RESETS = w at *
  simp only [Stands, State.standing, Prod.mk.injEq] at hend
  obtain ⟨⟨hcmds, hthreads, hrunning, -, hqueues, -⟩, -⟩ := hend
  refine ⟨?_, hqueues.trans hlost, hrunning, hcmds, hthreads⟩
  rw [State.flag, hset]
  rfl

theorem State.zeroDomain_ifaces (s : State) (d : Nat) : (s.zeroDomain d).ifaces = s.ifaces := by
  unfold State.zeroDomain
  extract_lets u v w
  have hu : u.ifaces = s.ifaces := List.foldlRecOn (motive := fun x : State => x.ifaces = s.ifaces) _ _ rfl fun x hx m _ => hx
  clear_value u
  have hv : v.ifaces = s.ifaces := by
    unfold v
    split <;> exact hu
  clear_value v
  show w.ifaces = s.ifaces
  unfold w
  split
  · rw [State.setReg_ifaces, State.setReg_ifaces]
    exact hv
  · exact hv

theorem State.zeroDomains_spares (s : State) (ds : List Nat) : Spares s (ds.foldl (fun s d => s.zeroDomain d) s) ∧
    (ds.foldl (fun s d => s.zeroDomain d) s).ifaces = s.ifaces :=
  List.foldlRecOn (motive := fun x : State => Spares s x ∧ x.ifaces = s.ifaces) _ _ ⟨.refl s, rfl⟩ fun x hx d _ =>
    ⟨hx.1.zeroDomain, (x.zeroDomain_ifaces d).trans hx.2⟩

end

end Sys2Proof.Machine

open Sys2Proof Sys2Proof.Machine

/-- Settles O32: the record of the oldest latch, the island's restart, and the compute reset. -/
theorem faultRecordsAndComputeReset : Obligations.FaultRecordsAndComputeReset := by
  intro s e dt hs he
  have hregs : e.regs = s.regs := by rw [he, State.elapse_regs]
  have hwf : Sparse.wf 0#32 e.regs = true := hregs ▸ hs.1
  refine ⟨fun l rest hlatches hdead hout hnet hreset => ?_, fun before hout => ?_, fun before hout hbefore => ?_,
    fun hdue hdead hout => ?_, fun at_ hat hlate hdead hout hwaiting hbell => ?_⟩
  · have hexec : exec (.faultRecordWrite dt) s = .next (e.plogFlush.writeFaultRecord l) := by
      have hx : exec (.faultRecordWrite dt) s = execFaultRecordWrite dt s := rfl
      have hflushed := (Spares.refl e).plogFlush.standing
      have hone := (e.plogFlush.writeFaultRecord_spares l).standing
      have hphase : (e.plogFlush.writeFaultRecord l).hub.reset = e.hub.reset :=
        (congrArg (fun x => x.2.2.2.2.1) hone).trans (congrArg (fun x => x.2.2.2.2.1) hflushed)
      rw [hx, execFaultRecordWrite, ← he]
      dsimp only
      rw [if_neg (by simp [hdead, hout, hnet]), hlatches]
      dsimp only
      rw [hphase, if_neg hreset]
    have hflush := (Spares.refl e).plogFlush
    have hone := e.plogFlush.writeFaultRecord_spares l
    have hflushed := hflush.standing
    have hstanding := hone.standing
    simp only [State.standing, State.withLatches, Prod.mk.injEq] at hstanding hflushed
    obtain ⟨⟨hcmds, -⟩, -, -, -, -, hrest, hseq, -⟩ := hstanding
    obtain ⟨⟨hcmds', -⟩, -, -, -, -, hrest', hseq', -⟩ := hflushed
    refine ⟨_, hexec, ?_, ?_, (hone.svc (hflush.regs hwf).1).trans (hflush.svc hwf), hcmds.trans hcmds'⟩
    · rw [hrest, hrest', hlatches]
    · rw [hseq, hseq']
  · have hx : exec (.islandRestart dt false) s = execIslandRestart dt false s := rfl
    rw [hx, execIslandRestart, ← he]
    dsimp only
    rw [hout]
    rfl
  · have hx : exec (.islandRestart dt true) s = execIslandRestart dt true s := rfl
    generalize hu : ({ e with hub.outFrom := none, hub.served := e.tick } : State).setReg R.SAFE_STATUS_ISLAND_RESTARTED 1 = u
    have hexec : exec (.islandRestart dt true) s =
        .next (if u.writeAllRecords.hub.reset = .undecided then u.writeAllRecords.countEntry else u.writeAllRecords) := by
      rw [hx, execIslandRestart, ← he]
      dsimp only
      rw [hout]
      dsimp only
      rw [if_neg (by simp), hu, if_pos hbefore, State.writeAllRecords]
    have huwf : Sparse.wf 0#32 u.regs = true := by
      rw [← hu]
      exact State.setReg_wf _ _ _ _ _ hwf
    have huflag : u.reg R.SAFE_STATUS_ISLAND_RESTARTED = 1 := by
      rw [← hu]
      exact State.reg_setReg_same _ _ _ _ _ hwf (by decide)
    have huout : u.hub.outFrom = none ∧ u.hub.served = e.tick := by
      rw [← hu, State.setReg_hub]
      exact ⟨rfl, rfl⟩
    obtain ⟨n, hn⟩ := u.writeAllRecords_spares
    generalize u.writeAllRecords = v at hn hexec
    have hvflag : v.reg R.SAFE_STATUS_ISLAND_RESTARTED = 1 := (hn.reg huwf (by decide)).trans ((State.reg_of_regs (s := u) rfl ..).trans huflag)
    have hstanding := hn.standing
    have hvhub : v.hub.outFrom = none ∧ v.hub.served = e.tick ∧ v.hub.latches = [] := by
      simp only [State.standing, State.withLatches, Prod.mk.injEq] at hstanding
      obtain ⟨-, -, -, houtv, -, hlatchv, -, hservedv, -⟩ := hstanding
      exact ⟨houtv.trans huout.1, hservedv.trans huout.2, hlatchv⟩
    refine ⟨_, hexec, ?_⟩
    split
    · have hcount := v.countEntry_stands
      have hcounted : v.countEntry.reg R.SAFE_STATUS_ISLAND_RESTARTED = 1 :=
        (State.reg_countEntry (hn.regs huwf).1 (by decide) (by decide)).trans hvflag
      simp only [Stands, State.standing, Prod.mk.injEq] at hcount
      obtain ⟨-, -, -, houtc, -, hlatchc, -, hservedc, -⟩ := hcount
      refine ⟨houtc.trans hvhub.1, hservedc.trans hvhub.2.1, hlatchc.trans hvhub.2.2, ?_⟩
      rw [State.flag, hcounted]
      rfl
    · refine ⟨hvhub.1, hvhub.2.1, hvhub.2.2, ?_⟩
      rw [State.flag, hvflag]
      rfl
  · have hexec : exec (.computeResetAssert dt) s = .next { e.assertReset with hub.reset := .asserted e.tick } := by
      have hx : exec (.computeResetAssert dt) s = execComputeResetAssert dt s := rfl
      rw [hx, execComputeResetAssert, ← he]
      dsimp only
      rw [if_pos ⟨hdue, hdead, hout⟩]
    obtain ⟨hflag, hqueues, hrunning, hcmds, hthreads⟩ := e.assertReset_spec (he ▸ (by simpa [State.Canonical] using hs))
    generalize e.assertReset = u at *
    refine ⟨_, hexec, rfl, ?_, hqueues, hrunning, hcmds, hthreads⟩
    rw [State.flag] at hflag ⊢
    rwa [State.reg_of_regs (s := u) (t := { u with hub.reset := .asserted e.tick }) rfl]
  · generalize hu : ({ e with hub.reset := .none, boot.warmDue := e.flag R.PWR_PMIC_PG, boot.warmOnPg := !e.flag R.PWR_PMIC_PG } : State).setReg
      R.RST_STATUS_ASSERTED 0 = u
    have hexec : exec (.computeResetRelease dt) s = .next ([1, 2, 3, 4, 5, 7, 8, 9].foldl (fun s d => s.zeroDomain d) u).releaseHeld := by
      have hx : exec (.computeResetRelease dt) s = execComputeResetRelease dt s := rfl
      rw [hx, execComputeResetRelease, ← he]
      dsimp only
      rw [hat]
      dsimp only
      rw [if_pos ⟨hlate, hdead, hout⟩, hu]
    have huwf : Sparse.wf 0#32 u.regs = true := by
      rw [← hu]
      exact State.setReg_wf _ _ _ _ _ hwf
    have huflag : u.reg R.RST_STATUS_ASSERTED = 0 := by
      rw [← hu]
      exact State.reg_setReg_same _ _ _ _ _ hwf (by decide)
    have huhub : u.hub.reset = .none ∧ u.boot.warmDue = e.flag R.PWR_PMIC_PG ∧ u.boot.warmOnPg = !e.flag R.PWR_PMIC_PG := by
      rw [← hu, State.setReg_hub, State.setReg_boot]
      exact ⟨rfl, rfl, rfl⟩
    have huifaces : u.ifaces = e.ifaces := by rw [← hu, State.setReg_ifaces]
    obtain ⟨hv, hvifaces⟩ := u.zeroDomains_spares [1, 2, 3, 4, 5, 7, 8, 9]
    generalize [1, 2, 3, 4, 5, 7, 8, 9].foldl (fun s d => s.zeroDomain d) u = v at hexec hv hvifaces
    have hstanding := hv.standing
    simp only [State.standing, Prod.mk.injEq] at hstanding
    obtain ⟨-, ⟨-, -, hdue, hpg, -⟩, -, -, hreset, -⟩ := hstanding
    have hheld : v.releaseHeld = { v with ifaces.waiting := [] } := by
      rw [huifaces] at hvifaces
      rw [State.releaseHeld, hvifaces, hwaiting, List.foldl_nil, hbell]
    rw [hheld] at hexec
    refine ⟨_, hexec, hreset.trans huhub.1, ?_, hdue.trans huhub.2.1, hpg.trans huhub.2.2⟩
    have hflag : v.reg R.RST_STATUS_ASSERTED = 0 := (hv.reg huwf (by decide)).trans huflag
    have hregs' : ({ v with ifaces.waiting := [] } : State).regs = v.regs := rfl
    rw [State.flag, State.reg_of_regs hregs', hflag]
    rfl
end


section
/-!
SUPPORT. Several registers written one after another, and the state in which a cold start begins.
-/

namespace Sys2Proof.Machine

open Sys2Proof

/-! ### Several registers written -/

def State.writeRows (s : State) (l : List (RegRow × Nat)) : State := l.foldl (fun s x => s.setReg x.1 x.2) s

/-- Every register of the list stands apart from one. -/
def apartFrom (q : RegRow) (l : List RegRow) : Bool := l.all fun x => decide (x.Apart q 0 0 0 0)

theorem State.writeRows_eq (s : State) (l : List (RegRow × Nat)) : s.writeRows l = { s with regs := (s.writeRows l).regs } := by
  induction l generalizing s with
  | nil => rfl
  | cons x l ih =>
    have hfirst : s.writeRows (x :: l) = (s.setReg x.1 x.2).writeRows l := rfl
    rw [hfirst, ih, State.setReg_eq]

theorem State.writeRows_wf {s : State} {l : List (RegRow × Nat)} (hwf : Sparse.wf 0#32 s.regs = true) :
    Sparse.wf 0#32 (s.writeRows l).regs = true :=
  List.foldlRecOn (motive := fun x : State => Sparse.wf 0#32 x.regs = true) _ _ hwf fun x hx _ _ => x.setReg_wf _ _ _ _ hx

theorem State.reg_writeRows_apart {s : State} {l : List (RegRow × Nat)} {q : RegRow} (hwf : Sparse.wf 0#32 s.regs = true)
    (h : apartFrom q (l.map Prod.fst) = true) : (s.writeRows l).reg q = s.reg q := by
  have hone := List.all_eq_true.mp h
  exact (List.foldlRecOn (motive := fun x : State => Sparse.wf 0#32 x.regs = true ∧ x.reg q = s.reg q) _ _ ⟨hwf, rfl⟩ fun x hx y hy =>
    ⟨x.setReg_wf _ _ _ _ hx.1, (State.reg_setReg_apart hx.1 (of_decide_eq_true (hone y.1 (List.mem_map_of_mem hy)))).trans hx.2⟩).2

/-- A register holds what was written to it, where those written later stand apart. -/
theorem State.reg_writeRows {s : State} (before after : List (RegRow × Nat)) {r : RegRow} {v : Nat} (hwf : Sparse.wf 0#32 s.regs = true)
    (h : apartFrom r (after.map Prod.fst) = true) (hw : 0 < r.width) : (s.writeRows (before ++ (r, v) :: after)).reg r = v % 2 ^ r.width := by
  have hsplit : s.writeRows (before ++ (r, v) :: after) = ((s.writeRows before).setReg r v).writeRows after := List.foldl_append
  have hwf' := State.writeRows_wf (l := before) hwf
  rw [hsplit, State.reg_writeRows_apart (State.setReg_wf _ _ _ _ _ hwf') h]
  exact State.reg_setReg_same _ _ _ _ _ hwf' hw

/-! ### The cold start -/

/-- A register word outside the registers kept reads as before they were kept. -/
theorem State.regWord_keepRegs {s old : State} {lo hi a : Nat} (hwf : Sparse.wf 0#32 s.regs = true) (ha : a < lo ∨ hi ≤ a) :
    (s.keepRegs old lo hi).regWord a = s.regWord a := by
  have hfold (l : List (Nat × Word32)) (hl : ∀ p ∈ l, p.1 ≠ a) (m : List (Nat × Word32)) (hm : Sparse.wf 0#32 m = true) :
      Sparse.get 0#32 (l.foldl (fun m p => Sparse.put 0#32 m p.1 p.2) m) a = Sparse.get 0#32 m a := by
    induction l generalizing m with
    | nil => rfl
    | cons p l ih =>
      rw [List.foldl_cons, ih (fun q hq => hl q (List.mem_cons_of_mem _ hq)) _ (Sparse.put_wf _ _ hm),
        Sparse.get_put_other _ (fun h => hl p List.mem_cons_self h.symm) hm]
  rw [State.regWord, State.regWord, State.keepRegs, hfold _ ?_ _ (Sparse.clear_wf _ _ hwf), Sparse.get_clear _ _ _ hwf, if_neg (by omega)]
  intro p hp
  have := (List.mem_filter.mp hp).2
  simp only [decide_eq_true_eq] at this
  omega

theorem State.reg_keepRegs {s old : State} {lo hi : Nat} {r : RegRow} {i j : Nat} (hwf : Sparse.wf 0#32 s.regs = true)
    (h : r.at i j + 4 * r.words ≤ lo ∨ hi ≤ r.at i j) : (s.keepRegs old lo hi).reg r i j = s.reg r i j := by
  rw [State.reg, State.reg, State.regWords_congr s _ _ _ fun x _ _ => State.regWord_keepRegs hwf (by omega)]

/-- The state in which a cold start begins, before the registers that it writes. -/
def State.coldBase (s : State) (retry : Bool) : State :=
  let n := s.survive.keepRegs s 0x00F000250000 0x00F000260000
  { n with tide := s.unseal.tide, power.mainSince := s.power.mainSince
           hub.served := s.tick, hub.plogNext := plogNextOf s.fram
           boot := { n.boot with phase := .step, since := s.tick, begun := s.tick }
           dbg := { n.dbg with holdStart := s.flag R.DBG_CTRL_HOLD_REQ || n.fuses.lifecycle == 0 ||
                                     n.fuses.lifecycle == 3 || (retry && s.dbg.holdStart) } }

/-- The registers of the always-on inputs, which a cold start carries over. -/
def inputRegs : List RegRow := [R.PWR_AON_MAIN_VALID, R.PWR_AON_BAK_VALID, R.PWR_AON_ON_BAK, R.PWR_AON_WARN, R.PWR_PMIC_PG]

def State.inputRows (s : State) : List (RegRow × Nat) := inputRegs.map fun r => (r, s.reg r)

/-- The other registers that a cold start may write. -/
def coldRegs : List RegRow :=
  [R.DBG_STATUS_LIFECYCLE, R.RST_PLOG_COUNT_NEXT, R.BOOT_SVN_FUSED, R.BOOT_SVN_REVOKED, R.TOP_SVC_TIDE_RUN, R.BOOT_STATUS_SEALED,
    R.BOOT_SEAL_CRC_CRC]

/-- What a cold start writes to them. -/
def State.coldRows (s : State) : List (RegRow × Nat) :=
  [(R.DBG_STATUS_LIFECYCLE, s.lifeFuses.lifecycle), (R.RST_PLOG_COUNT_NEXT, plogNextOf s.fram), (R.BOOT_SVN_FUSED, s.lifeFuses.svn),
    (R.BOOT_SVN_REVOKED, ((List.range 4).map fun i => if s.lifeFuses.revoked.contains i then 2 ^ i else 0).sum)] ++
  if s.tideRun then [(R.TOP_SVC_TIDE_RUN, 1), (R.BOOT_STATUS_SEALED, 1), (R.BOOT_SEAL_CRC_CRC, s.reg R.BOOT_SEAL_CRC_CRC)] else []

theorem State.coldStart_eq (s : State) (retry : Bool) :
    s.coldStart retry = (s.coldBase retry).writeRows (s.inputRows ++ s.coldRows) := by
  have hfuses : (s.coldBase retry).fuses = s.lifeFuses := rfl
  have hplog : (s.coldBase retry).hub.plogNext = plogNextOf s.fram := by simp only [State.coldBase]
  unfold State.coldStart
  extract_lets _ _ _ _ _ n a b c d f
  have hn : n = s.coldBase retry := by
    unfold State.coldBase
    rfl
  clear_value n
  subst hn
  unfold State.coldRows
  by_cases h : s.tideRun = true
  · simp only [if_pos h, a, b, c, d, f, State.writeRows, State.inputRows, inputRegs, List.map_cons, List.map_nil, List.cons_append, List.nil_append,
      List.foldl_cons, List.foldl_nil, State.setReg_hub, State.setReg_fuses, hfuses, hplog]
  · simp only [if_neg h, a, b, c, d, f, State.writeRows, State.inputRows, inputRegs, List.map_cons, List.map_nil, List.cons_append, List.nil_append,
      List.append_nil, List.foldl_cons, List.foldl_nil, State.setReg_hub, State.setReg_fuses, hfuses, hplog]

/-- What stands at its reset value beside what survives. -/
theorem State.survive_reset (s : State) : s.survive.boot.phase = .por ∧ s.survive.tide = {} ∧ s.survive.cmds = [] ∧
    s.survive.hub.faultN = false ∧ s.survive.flash = s.flash ∧ s.survive.ufs = s.ufs ∧ s.survive.fuses.keyHash = s.fuses.keyHash := by
  simp only [State.survive, State.reset, State.lifeFuses, and_self]

theorem State.survive_regs (s : State) : s.survive.regs = regsReset := by simp only [State.survive, State.reset]

theorem State.stopGroups_groups (s : State) : s.stopGroups.groups = [] := by
  rw [State.stopGroups, State.setReg_groups]

theorem State.coldBase_regs (s : State) (retry : Bool) :
    (s.coldBase retry).regs = (s.survive.keepRegs s 0x00F000250000 0x00F000260000).regs := by
  simp only [State.coldBase]

theorem State.coldBase_kept (s : State) (retry : Bool) : (s.coldBase retry).boot.phase = .step ∧
    (s.coldBase retry).power.porstN = s.power.porstN ∧ (s.coldBase retry).now = 0 ∧ (s.coldBase retry).fram = s.fram ∧
    (s.coldBase retry).flash = s.flash ∧ (s.coldBase retry).ufs = s.ufs := by
  simp only [State.coldBase, State.keepRegs, State.survive, State.reset, State.now, and_self]

theorem State.coldBase_wf {s : State} (retry : Bool) (hs : s.Canonical) : Sparse.wf 0#32 (s.coldBase retry).regs = true := by
  rw [State.coldBase_regs]
  exact ((Advances.survive.then (Keeps.refl _).keepRegs).canonical hs).1

/-- A register below those kept stands at its reset value where a cold start begins. -/
theorem State.reg_coldBase {s : State} (retry : Bool) (hs : s.Canonical) {r : RegRow} (h : r.at 0 0 + 4 * r.words ≤ 0x00F000250000) :
    (s.coldBase retry).reg r = fieldIn regsReset r 0 0 := by
  rw [State.reg_of_regs (s.coldBase_regs retry), State.reg_keepRegs (Advances.survive.canonical hs).1 (.inl h), State.reg_eq, s.survive_regs]

theorem apartFrom_append {q : RegRow} {l m : List RegRow} (hl : apartFrom q l = true) (hm : apartFrom q m = true) :
    apartFrom q (l ++ m) = true := by
  rw [apartFrom, List.all_append, Bool.and_eq_true]
  exact ⟨hl, hm⟩

theorem State.map_inputRows (s : State) (l : List RegRow) : (l.map fun r => (r, s.reg r)).map Prod.fst = l := by
  rw [List.map_map]
  exact List.map_id l

theorem apartFrom_coldRows (s : State) {q : RegRow} (h : apartFrom q coldRegs = true) : apartFrom q (s.coldRows.map Prod.fst) = true := by
  have hfour : apartFrom q (coldRegs.take 4) = true := List.all_eq_true.mpr fun x hx => List.all_eq_true.mp h x (List.mem_of_mem_take hx)
  unfold State.coldRows
  split
  · exact h
  · exact hfour

/-- A register that a cold start does not write stands at its reset value. -/
theorem State.reg_coldStart {s : State} (retry : Bool) (hs : s.Canonical) {r : RegRow} (h : r.at 0 0 + 4 * r.words ≤ 0x00F000250000)
    (hinput : apartFrom r inputRegs = true) (hcold : apartFrom r coldRegs = true) :
    (s.coldStart retry).reg r = fieldIn regsReset r 0 0 := by
  have hall : apartFrom r ((s.inputRows ++ s.coldRows).map Prod.fst) = true := by
    rw [List.map_append, State.inputRows, State.map_inputRows]
    exact apartFrom_append hinput (apartFrom_coldRows s hcold)
  rw [State.coldStart_eq, State.reg_writeRows_apart (State.coldBase_wf retry hs) hall, State.reg_coldBase retry hs h]

/-- A cold start carries the always-on inputs over. -/
theorem State.reg_coldStart_input {s : State} (retry : Bool) (hs : s.Canonical) (before after : List RegRow) {r : RegRow}
    (hinput : inputRegs = before ++ r :: after) (hw : 0 < r.width) (hafter : apartFrom r after = true) (hcold : apartFrom r coldRegs = true) :
    (s.coldStart retry).reg r = s.reg r := by
  have hall : apartFrom r ((after.map (fun r => (r, s.reg r)) ++ s.coldRows).map Prod.fst) = true := by
    rw [List.map_append, State.map_inputRows]
    exact apartFrom_append hafter (apartFrom_coldRows s hcold)
  rw [State.coldStart_eq, State.inputRows, hinput, List.map_append, List.map_cons, List.append_assoc, List.cons_append,
    State.reg_writeRows _ _ (State.coldBase_wf retry hs) hall hw, Nat.mod_eq_of_lt (s.reg_lt r 0 0 hw)]

/-- What a cold start begins with: step AON in STARTING, Orbit time 0, and the stores kept. -/
theorem State.coldStart_spec {s : State} (retry : Bool) (hs : s.Canonical) :
    (s.coldStart retry).boot.phase = .step ∧ (s.coldStart retry).svc = 0 ∧ (s.coldStart retry).reg R.BOOT_STATUS_STEP = 0 ∧
      (s.coldStart retry).power.porstN = s.power.porstN ∧ (s.coldStart retry).now = 0 ∧ (s.coldStart retry).fram = s.fram ∧
      (s.coldStart retry).flash = s.flash ∧ (s.coldStart retry).ufs = s.ufs := by
  have hreset : fieldIn regsReset R.TOP_SVC_STATE 0 0 = 0 ∧ fieldIn regsReset R.BOOT_STATUS_STEP 0 0 = 0 := by decide +kernel
  have hsvc : (s.coldStart retry).svc = 0 := (State.reg_coldStart retry hs (by decide) (by decide) (by decide)).trans hreset.1
  have hstep : (s.coldStart retry).reg R.BOOT_STATUS_STEP = 0 :=
    (State.reg_coldStart retry hs (by decide) (by decide) (by decide)).trans hreset.2
  obtain ⟨hphase, hrest⟩ := s.coldBase_kept retry
  refine ⟨?_, hsvc, hstep, ?_⟩ <;> rw [State.coldStart_eq, State.writeRows_eq] <;> generalize s.coldBase retry = b at *
  · exact hphase
  · exact hrest

end Sys2Proof.Machine

open Sys2Proof Sys2Proof.Machine

/-- Settles O9: power-on reset, PORST_N, and the cold starts that they begin. -/
theorem alwaysOnResetRows : Obligations.AlwaysOnResetRows := by
  intro s e dt hs he
  have hc : e.Canonical := he ▸ (by simpa [State.Canonical] using hs)
  have hregs : e.regs = s.regs := by rw [he, State.elapse_regs]
  have hstores : e.fram = s.fram ∧ e.flash = s.flash ∧ e.ufs = s.ufs := by
    rw [he, State.elapse_fram, State.elapse_flash, State.elapse_ufs]
    exact ⟨rfl, rfl, rfl⟩
  refine ⟨fun main bak hpor hvalid hporst => ?_, fun hpor => ?_, fun low hlow hpor => ?_, fun hsvc hpor => ?_⟩
  · generalize hw : (e.setReg R.PWR_AON_MAIN_VALID (ofBool main)).setReg R.PWR_AON_BAK_VALID (ofBool bak) = w
    generalize hu : w.setReg R.PWR_AON_ON_BAK (ofBool (!main)) = u
    generalize hv : ({ u with power.mainSince := if main then some w.tick else none } : State) = v
    have hexec : exec (.powerOnResetRelease dt main bak) s = .next (v.coldStart false) := by
      have hx : exec (.powerOnResetRelease dt main bak) s = execPowerOnResetRelease dt main bak s := rfl
      have hporstN : u.power.porstN = true := by
        rw [← hu, ← hw, State.setReg_power, State.setReg_power, State.setReg_power]
        exact hporst
      have hinput : main = true ∨ bak = true := by simpa using hvalid
      rw [hx, execPowerOnResetRelease, ← he]
      dsimp only
      rw [if_pos ⟨hpor, hinput⟩, hw, hu]
      exact congrArg Host.Outcome.next ((if_pos hporstN).trans (congrArg (State.coldStart · false) hv))
    have hvregs : v.regs = u.regs := by rw [← hv]
    have hvc : v.Canonical := by
      rw [← hv, ← hu, ← hw]
      exact ((Keeps.refl e).setReg.setReg.setReg.same.canonical hc :)
    have hvstores : v.fram = e.fram ∧ v.flash = e.flash ∧ v.ufs = e.ufs := by
      rw [← hv, ← hu, ← hw, State.setReg_eq, State.setReg_eq, State.setReg_eq]
      exact ⟨rfl, rfl, rfl⟩
    have hwf1 := e.setReg_wf R.PWR_AON_MAIN_VALID (ofBool main) 0 0 hc.1
    have hwf2 := State.setReg_wf _ R.PWR_AON_BAK_VALID (ofBool bak) 0 0 hwf1
    have hmain : v.reg R.PWR_AON_MAIN_VALID = ofBool main := by
      rw [State.reg_of_regs hvregs, ← hu, ← hw, State.reg_setReg_apart hwf2 (by decide), State.reg_setReg_apart hwf1 (by decide),
        State.reg_setReg_same _ _ _ _ _ hc.1 (by decide)]
      cases main <;> rfl
    have hbak : v.reg R.PWR_AON_BAK_VALID = ofBool bak := by
      rw [State.reg_of_regs hvregs, ← hu, ← hw, State.reg_setReg_apart hwf2 (by decide), State.reg_setReg_same _ _ _ _ _ hwf1 (by decide)]
      cases bak <;> rfl
    have honbak : v.reg R.PWR_AON_ON_BAK = ofBool (!main) := by
      rw [State.reg_of_regs hvregs, ← hu, ← hw, State.reg_setReg_same _ _ _ _ _ hwf2 (by decide)]
      cases main <;> rfl
    have hflag (b : Bool) : (ofBool b != 0) = b := by cases b <;> rfl
    obtain ⟨hphase, hsvc, hstep, -, hnow, hfram, hflash, hufs⟩ := State.coldStart_spec (s := v) false hvc
    refine ⟨_, hexec, hphase, hsvc, hstep, ?_, ?_, ?_, hnow, (hfram.trans hvstores.1).trans hstores.1,
      (hflash.trans hvstores.2.1).trans hstores.2.1, (hufs.trans hvstores.2.2).trans hstores.2.2⟩
    · rw [State.flag, State.reg_coldStart_input false hvc [] _ rfl (by decide) (by decide) (by decide), hmain, hflag]
    · rw [State.flag, State.reg_coldStart_input false hvc [_] _ rfl (by decide) (by decide) (by decide), hbak, hflag]
    · rw [State.flag, State.reg_coldStart_input false hvc [_, _] _ rfl (by decide) (by decide) (by decide), honbak, hflag]
  · generalize hu : (e.tide.commits.foldl (fun (s : State) (c : TideCommit) =>
      match c.begun with
      | some (copy, _, _) =>
        { s with fram := setCellBytes s.fram (0x200 * copy) (leBytes 512 (Config.freeNat s.freeCtr)), freeCtr := s.freeCtr + 1 }
      | none => s) e) = u
    have hexec : exec (.powerOnResetEntry dt) s = .next (u.survive.setReg R.PWR_PMIC_PG (e.reg R.PWR_PMIC_PG)) := by
      have hx : exec (.powerOnResetEntry dt) s = execPowerOnResetEntry dt s := rfl
      rw [hx, execPowerOnResetEntry, ← he]
      dsimp only
      rw [if_neg hpor, ← hu] <;> rfl
    have hkept : u.flash = e.flash ∧ u.ufs = e.ufs ∧ u.fuses = e.fuses := by
      rw [← hu]
      refine List.foldlRecOn (motive := fun x : State => x.flash = e.flash ∧ x.ufs = e.ufs ∧ x.fuses = e.fuses) _ _ ⟨rfl, rfl, rfl⟩
        fun x hx c _ => ?_
      cases c.begun <;> exact hx
    obtain ⟨hflash, hufs, hfuses⟩ := hkept
    obtain ⟨hphase, htide, hcmds, hfault, hsflash, hsufs, hhash⟩ := u.survive_reset
    have hswf : Sparse.wf 0#32 u.survive.regs = true := u.survive_regs ▸ regsReset_wf
    have hssvc : u.survive.svc = 0 := by
      have hreset : fieldIn regsReset R.TOP_SVC_STATE 0 0 = 0 := by decide +kernel
      rw [State.svc, State.reg_eq, u.survive_regs, hreset]
    generalize u.survive = v at *
    have hpg : (v.setReg R.PWR_PMIC_PG (e.reg R.PWR_PMIC_PG)).reg R.PWR_PMIC_PG = s.reg R.PWR_PMIC_PG := by
      rw [State.reg_setReg_same _ _ _ _ _ hswf (by decide), Nat.mod_eq_of_lt (e.reg_lt R.PWR_PMIC_PG 0 0 (by decide)), State.reg_of_regs hregs]
    have hsvc : (v.setReg R.PWR_PMIC_PG (e.reg R.PWR_PMIC_PG)).svc = 0 := (State.reg_setReg_apart hswf (by decide)).trans hssvc
    refine ⟨_, hexec, ?_, hsvc, ?_, ?_, ?_, hpg, ?_, ?_, ?_⟩
    · rw [State.setReg_boot, hphase]
    · rw [State.setReg_tide, htide]
    · rw [State.setReg_cmds, hcmds]
    · rw [State.setReg_hub, hfault]
    · rw [State.setReg_fuses, hhash, hfuses, he, State.elapse_fuses]
    · rw [State.setReg_flash, hsflash, hflash, hstores.2.1]
    · rw [State.setReg_ufs, hsufs, hufs, hstores.2.2]
  · have hexec : exec (.porstNRelease dt low) s = .next (({ e with power.porstN := true } : State).coldStart false) := by
      have hx : exec (.porstNRelease dt low) s = execPorstNRelease dt low s := rfl
      rw [hx, execPorstNRelease, ← he]
      dsimp only
      rw [if_neg (by omega), if_neg hpor]
    obtain ⟨hphase, hsvc, hstep, hporst, hnow, hfram, hflash, hufs⟩ := State.coldStart_spec (s := { e with power.porstN := true }) false hc
    exact ⟨_, hexec, hphase, hsvc, hstep, hporst, hnow, hfram.trans hstores.1, hflash.trans hstores.2.1, hufs.trans hstores.2.2⟩
  · generalize hu : ({ e with power.porstN := false } : State) = u
    have hexec : exec (.porstNAssert dt) s = .next
        { u.unseal.supersedeReissue.stopEngines.stopGroups with boot.phase := .porst, boot.pgSince := none } := by
      have hx : exec (.porstNAssert dt) s = execPorstNAssert dt s := rfl
      have hsvc' : ({ e with power.porstN := false } : State).svc = 0 := (State.reg_of_regs (s := e) rfl ..).trans hsvc
      rw [hx, execPorstNAssert, ← he]
      dsimp only
      rw [if_pos ⟨hsvc', hpor⟩, ← hu]
    have hporst : u.power.porstN = false := by rw [← hu]
    have hbefore := ((Spares.refl u).unseal.supersedeReissue).standing
    have hend := (u.unseal.supersedeReissue.stopEngines_spares.stopGroups).standing
    have hgroups := u.unseal.supersedeReissue.stopEngines.stopGroups_groups
    generalize u.unseal.supersedeReissue.stopEngines.stopGroups = w at *
    generalize u.unseal.supersedeReissue = v at *
    simp only [State.standing, Prod.mk.injEq] at hbefore hend
    obtain ⟨⟨-, -, -, -, -, -, hpin⟩, -⟩ := hbefore
    obtain ⟨⟨hcmds, -, hrunning, -, -, -, hpin'⟩, -⟩ := hend
    exact ⟨_, hexec, rfl, hpin'.trans (hpin.trans hporst), hcmds, hrunning, hgroups⟩
end


section
/-!
SUPPORT. A failed attempt of a warm start, and the loss of PMIC_PG.
-/

namespace Sys2Proof.Machine

open Sys2Proof

/-- The registers of BOOT.FAIL that a failed attempt writes. -/
def State.failRows (s : State) (code section_ : Nat) (step : Nat) : List (RegRow × Nat) :=
  [(R.BOOT_FAIL_CODE, code), (R.BOOT_FAIL_STEP, step), (R.BOOT_FAIL_SLOT, s.reg R.BOOT_STATUS_SLOT),
    (R.BOOT_FAIL_WARM, ofBool (s.flag R.BOOT_STATUS_WARM)), (R.BOOT_FAIL_SECTION, if 3 ≤ code ∧ code ≤ 9 then section_ else 0)]

theorem State.writeRows_running (s : State) (l : List (RegRow × Nat)) : (s.writeRows l).running = s.running := by rw [State.writeRows_eq]

/-- An attempt abandoned: what it handed to Tide is taken back, and every engine is stopped. -/
def State.abandon (s : State) : State := s.unseal.supersedeReissue.stopEngines.stopGroups

/-- Every engine is stopped; the control registers are as they were. -/
theorem State.abandon_spares (s : State) : Spares s.halted s.abandon := by
  have hbefore := (Spares.refl s).unseal.supersedeReissue
  have hstop := s.unseal.supersedeReissue.stopEngines_spares.stopGroups
  unfold State.abandon
  generalize s.unseal.supersedeReissue = u at *
  generalize u.stopEngines.stopGroups = v at *
  have hhalted : Spares s.halted u.halted := by
    refine ⟨?_, fun hwf => ⟨(hbefore.regs hwf).1, fun r i j hr => ?_⟩⟩
    · rw [u.halted_standing, s.halted_standing, hbefore.standing]
    · exact (State.reg_of_regs (s := u) (t := u.halted) rfl r i j).trans
        (((hbefore.regs hwf).2 r i j hr).trans (State.reg_of_regs (s := s.halted) (t := s) rfl r i j))
  exact hhalted.trans hstop

/-- The registers of a failed attempt are written. -/
def State.failWrites (s : State) (code section_ : Nat) : State :=
  s.abandon.writeRows (s.failRows code section_ (s.abandon.reg R.BOOT_STATUS_STEP))

/-- A failed attempt before its records: the device waits to try again, and no image is in use. -/
def State.failed (s : State) (code section_ : Nat) : State :=
  { s.failWrites code section_ with boot.since := (s.failWrites code section_).tick, boot.phase := .retry, image := none }

/-- The failed attempt of a warm start is recorded. -/
theorem State.attemptFail_spares {s : State} (code section_ : Nat) (hphase : s.boot.phase = .step) (hsvc : s.svc = 0)
    (hwarm : s.flag R.BOOT_STATUS_WARM = true) : Spares (s.failed code section_) (s.attemptFail code section_) := by
  unfold State.attemptFail
  rw [if_neg (by simp [hphase, hsvc])]
  extract_lets _ _ a b c _ d e f g
  have hd : d = s.failed code section_ := by
    simp only [State.failed, State.failWrites, State.writeRows, State.failRows, List.foldl_cons, List.foldl_nil, State.abandon, d, c, b, a]
    rfl
  rw [if_pos hwarm]
  have hf : Spares d f := (Spares.startRecord (.refl d) : Spares d e).plog
  exact hd ▸ hf.writeBootRec

/-- The failed attempt of a warm start: the failure is shown, and the device waits to try again. -/
theorem State.attemptFail_warm {s : State} (code section_ : Nat) (hs : s.Canonical) (hphase : s.boot.phase = .step) (hsvc : s.svc = 0)
    (hwarm : s.flag R.BOOT_STATUS_WARM = true) :
    (s.attemptFail code section_).boot.phase = .retry ∧ (s.attemptFail code section_).boot.since = (s.attemptFail code section_).tick ∧
      (s.attemptFail code section_).reg R.BOOT_FAIL_CODE = code % 256 ∧
      (s.attemptFail code section_).reg R.BOOT_FAIL_STEP = s.reg R.BOOT_STATUS_STEP ∧ (s.attemptFail code section_).svc = 0 ∧
      (s.attemptFail code section_).running = false := by
  have hend := State.attemptFail_spares code section_ hphase hsvc hwarm
  have habandon := s.abandon_spares
  obtain ⟨hawf, hareg⟩ := habandon.regs hs.1
  have hregs : (s.failed code section_).regs = (s.failWrites code section_).regs := rfl
  have hwwf : Sparse.wf 0#32 (s.failWrites code section_).regs = true := State.writeRows_wf hawf
  have hcode : (s.failWrites code section_).reg R.BOOT_FAIL_CODE = code % 256 := State.reg_writeRows [] _ hawf
    (show apartFrom R.BOOT_FAIL_CODE [R.BOOT_FAIL_STEP, R.BOOT_FAIL_SLOT, R.BOOT_FAIL_WARM, R.BOOT_FAIL_SECTION] = true by decide) (by decide)
  have hstep : (s.failWrites code section_).reg R.BOOT_FAIL_STEP = s.reg R.BOOT_STATUS_STEP := by
    have hsame : s.abandon.reg R.BOOT_STATUS_STEP = s.reg R.BOOT_STATUS_STEP :=
      (hareg R.BOOT_STATUS_STEP 0 0 (by decide)).trans (State.reg_of_regs (s := s) (t := s.halted) rfl ..)
    have hwritten : (s.failWrites code section_).reg R.BOOT_FAIL_STEP = s.abandon.reg R.BOOT_STATUS_STEP % 2 ^ R.BOOT_FAIL_STEP.width :=
      State.reg_writeRows [(R.BOOT_FAIL_CODE, code)] _ hawf
        (show apartFrom R.BOOT_FAIL_STEP [R.BOOT_FAIL_SLOT, R.BOOT_FAIL_WARM, R.BOOT_FAIL_SECTION] = true by decide) (by decide)
    rw [hwritten, hsame]
    exact Nat.mod_eq_of_lt (s.reg_lt R.BOOT_STATUS_STEP 0 0 (by decide))
  have hsvc0 : (s.failWrites code section_).svc = 0 := by
    have hsame : s.abandon.svc = 0 := (hareg R.TOP_SVC_STATE 0 0 (by decide)).trans ((State.reg_of_regs (s := s) (t := s.halted) rfl ..).trans hsvc)
    exact (State.reg_writeRows_apart hawf rfl).trans hsame
  have hrunning : (s.failWrites code section_).running = false := by
    have hstanding := habandon.standing
    simp only [State.standing, Prod.mk.injEq] at hstanding
    obtain ⟨⟨-, -, hrun, -⟩, -⟩ := hstanding
    rw [State.failWrites, State.writeRows_running, hrun]
  have hwaits : (s.failed code section_).boot.phase = .retry ∧ (s.failed code section_).boot.since = (s.failed code section_).tick ∧
      (s.failed code section_).running = (s.failWrites code section_).running := by
    unfold State.failed
    exact ⟨rfl, rfl, rfl⟩
  generalize s.failed code section_ = u at *
  generalize s.failWrites code section_ = w at *
  generalize s.attemptFail code section_ = v at *
  have hreg (r : RegRow) (hr : r.Spared 0 0) : v.reg r = w.reg r := (hend.reg (hregs ▸ hwwf) hr).trans (State.reg_of_regs hregs ..)
  have hstanding := hend.standing
  simp only [State.standing, Prod.mk.injEq] at hstanding
  obtain ⟨⟨-, -, hrun, -, -, htick, -⟩, ⟨hretry, hsince, -⟩, -⟩ := hstanding
  exact ⟨hretry.trans hwaits.1, (hsince.trans hwaits.2.1).trans htick.symm, (hreg _ (by decide)).trans hcode, (hreg _ (by decide)).trans hstep,
    (hreg R.TOP_SVC_STATE (by decide)).trans hsvc0, (hrun.trans hwaits.2.2).trans hrunning⟩

end Sys2Proof.Machine
end


section
/-!
SUPPORT. The steps of a start as the registers show them, and the fall of PMIC_PG.
-/

namespace Sys2Proof.Machine

open Sys2Proof

/-- A step is in progress in STARTING. -/
theorem State.inStep_iff {s : State} {k : Nat} :
    s.inStep k = true ↔ s.boot.phase = .step ∧ s.svc = 0 ∧ s.reg R.BOOT_STATUS_STEP = k ∧ s.boot.pgSince = none := by
  simp [State.inStep, and_assoc]

/-- The times of the steps cleared, which are shown apart from the start's other registers. -/
theorem State.reg_clearStepTimes {s : State} (hwf : Sparse.wf 0#32 s.regs = true) {q : RegRow}
    (h : ∀ c ∈ List.range 11, R.BOOT_STEP_US_US.Apart q c 0 0 0) :
    ((List.range 11).foldl (fun s k => s.setReg R.BOOT_STEP_US_US 0 k) s).reg q = s.reg q :=
  State.reg_setRegs_apart (f := fun _ => 0) hwf h

/-- The registers that a warm start writes. -/
def State.warmWrites (s : State) : State :=
  ((List.range 11).foldl (fun s k => s.setReg R.BOOT_STEP_US_US 0 k) (((s.setSvc 0).setReg R.BOOT_STATUS_WARM 1).incReg R.BOOT_TALLY_WARM)).setReg
    R.BOOT_STATUS_STEP 2

/-- A warm start is counted and shown, at step SELECT of STARTING. -/
theorem State.warmWrites_spec {s : State} (hwf : Sparse.wf 0#32 s.regs = true) :
    s.warmWrites.svc = 0 ∧ s.warmWrites.reg R.BOOT_STATUS_STEP = 2 ∧ s.warmWrites.reg R.BOOT_STATUS_WARM = 1 ∧
      s.warmWrites.reg R.BOOT_TALLY_WARM = min (s.reg R.BOOT_TALLY_WARM + 1) 65535 ∧ s.warmWrites.mem = s.mem := by
  have hwf1 := s.setReg_wf R.TOP_SVC_STATE 0 0 0 hwf
  have hwf2 : Sparse.wf 0#32 (s.setSvc 0).regs = true := State.setReg_wf _ R.TOP_SVC_TIME_TIME s.now 0 0 hwf1
  have hwf3 := State.setReg_wf _ R.BOOT_STATUS_WARM 1 0 0 hwf2
  have hwf4 := State.incReg_wf _ R.BOOT_TALLY_WARM 0 0 1 hwf3
  have hwf5 : Sparse.wf 0#32 ((List.range 11).foldl (fun s k => s.setReg R.BOOT_STEP_US_US 0 k)
      (((s.setSvc 0).setReg R.BOOT_STATUS_WARM 1).incReg R.BOOT_TALLY_WARM)).regs = true :=
    State.setRegs_wf hwf4 R.BOOT_STEP_US_US (fun _ => 0) _
  have hsvc : (s.setSvc 0).svc = 0 :=
    (State.reg_setReg_apart hwf1 (by decide)).trans (State.reg_setReg_same _ _ _ _ _ hwf (by decide))
  have htally : (s.setSvc 0).reg R.BOOT_TALLY_WARM = s.reg R.BOOT_TALLY_WARM :=
    (State.reg_setReg_apart hwf1 (by decide)).trans (State.reg_setReg_apart hwf (by decide))
  unfold State.warmWrites
  refine ⟨?_, State.reg_setReg_same _ _ _ _ _ hwf5 (by decide), ?_, ?_, ?_⟩
  · rw [State.svc, State.reg_setReg_apart hwf5 (by decide), State.reg_clearStepTimes hwf4 (by decide), State.incReg,
      State.reg_setReg_apart hwf3 (by decide), State.reg_setReg_apart hwf2 (by decide)]
    exact hsvc
  · rw [State.reg_setReg_apart hwf5 (by decide), State.reg_clearStepTimes hwf4 (by decide), State.incReg,
      State.reg_setReg_apart hwf3 (by decide), State.reg_setReg_same _ _ _ _ _ hwf2 (by decide)]
    rfl
  · rw [State.reg_setReg_apart hwf5 (by decide), State.reg_clearStepTimes hwf4 (by decide), State.reg_incReg_same _ _ _ _ _ hwf3 (by decide),
      State.reg_setReg_apart hwf2 (by decide), htally]
    rfl
  · have hclear := State.setRegs_mem (((s.setSvc 0).setReg R.BOOT_STATUS_WARM 1).incReg R.BOOT_TALLY_WARM)
      R.BOOT_STEP_US_US (fun _ => 0) (List.range 11)
    rw [State.setReg_mem]
    refine hclear.trans ?_
    rw [State.incReg_mem, State.setReg_mem, State.setSvc, State.setReg_mem, State.setReg_mem]

/-- SELECT begins. -/
theorem State.beginSelect_spec {s : State} (hwf : Sparse.wf 0#32 s.regs = true) :
    s.beginSelect.reg R.BOOT_STATUS_STEP = 2 ∧ s.beginSelect.boot.since = s.beginSelect.tick ∧ s.beginSelect.boot.pgSince = none ∧
      s.beginSelect.reg R.PWR_PMIC_PG = s.reg R.PWR_PMIC_PG ∧ s.beginSelect.mem = s.mem := by
  have hregs : s.beginSelect.regs = (s.setReg R.BOOT_STATUS_STEP 2).regs := rfl
  refine ⟨?_, rfl, rfl, ?_, State.setReg_mem ..⟩
  · rw [State.reg_of_regs hregs]
    exact State.reg_setReg_same _ _ _ _ _ hwf (by decide)
  · rw [State.reg_of_regs hregs, State.reg_setReg_apart hwf (by decide)]

theorem State.loseDram_standing (s : State) : s.loseDram.standing = s.standing := rfl

/-- The engines stopped at a fall of PMIC_PG, and every domain without power. -/
def State.unpower (s : State) (kept : Bool) : State :=
  let s := (List.range 15).foldl (fun s d => s.powerOff d) s.stopEngines.computeLoss
  if kept then s else s.loseDram

theorem State.unpower_stands (s : State) (kept : Bool) : Stands s.halted (s.unpower kept) := by
  unfold State.unpower
  extract_lets u
  have hstop : Stands s.halted s.stopEngines := s.stopEngines_spares.standing
  have hu : Stands s.halted u := .fold (fun _ _ h1 => h1.powerOff) hstop.computeLoss
  split
  · exact hu
  · exact hu.same u.loseDram_standing

end Sys2Proof.Machine

open Sys2Proof Sys2Proof.Machine

/-- Settles O13: time-outs and retries of a start, warm starts, and the edges of PMIC_PG. -/
theorem retriesAndWarmStarts : Obligations.RetriesAndWarmStarts := by
  refine ⟨fun s e dt hs he => ?_, fun s e dt hs he => ?_⟩
  · have hc : e.Canonical := he ▸ (by simpa [State.Canonical] using hs)
    have hstores : e.fram = s.fram ∧ e.flash = s.flash ∧ e.ufs = s.ufs := by
      rw [he, State.elapse_fram, State.elapse_flash, State.elapse_ufs]
      exact ⟨rfl, rfl, rfl⟩
    obtain ⟨hphase, hsvc, hstep, -, hnow, hfram, hflash, hufs⟩ := State.coldStart_spec (s := e) true hc
    refine ⟨fun k hin hover hlast hlinks hwarm => ?_, fun hretry hlate => ?_, fun hback hlate => ?_⟩
    · have hexec : exec (.startStepTimeout dt) s = .next (e.attemptFail 0x11) := by
        have hx : exec (.startStepTimeout dt) s = execStartStepTimeout dt s := rfl
        have hk : e.reg R.BOOT_STATUS_STEP = k := (State.inStep_iff.mp hin).2.2.1
        rw [hx, execStartStepTimeout, ← he]
        rw [hk, if_pos ⟨hin, hover, fun h => hlast h.1⟩, State.stepTimeout, hk, if_neg fun h => hlinks h.1]
      obtain ⟨hphase, hsvc, hk, -⟩ := State.inStep_iff.mp hin
      obtain ⟨hretry, hsince, hcode, hfail, hstarting, hrunning⟩ := State.attemptFail_warm 0x11 0 hc hphase hsvc hwarm
      exact ⟨_, hexec, hretry, hsince, hcode, hfail.trans hk, hstarting, hrunning⟩
    · have hexec : exec (.startRetryDelayExpire dt) s = .next (e.coldStart true) := by
        have hx : exec (.startRetryDelayExpire dt) s = execStartRetryDelayExpire dt s := rfl
        rw [hx, execStartRetryDelayExpire, ← he]
        rw [if_pos ⟨hretry, hlate⟩]
      exact ⟨_, hexec, hphase, hsvc, hstep, hnow, hfram.trans hstores.1, hflash.trans hstores.2.1, hufs.trans hstores.2.2⟩
    · have hexec : exec (.pmicPgReturnWaitExpire dt) s = .next (e.coldStart true) := by
        have hx : exec (.pmicPgReturnWaitExpire dt) s = execPmicPgReturnWaitExpire dt s := rfl
        rw [hx, execPmicPgReturnWaitExpire, ← he]
        rw [if_pos ⟨hback, hlate⟩]
      exact ⟨_, hexec, hphase, hsvc, hstep, hnow, hfram.trans hstores.1, hflash.trans hstores.2.1, hufs.trans hstores.2.2⟩
  · have hregs : e.regs = s.regs := by rw [he, State.elapse_regs]
    have hmem : e.mem = s.mem := by rw [he, State.elapse_mem]
    have hwf : Sparse.wf 0#32 e.regs = true := hregs ▸ hs.1
    refine ⟨fun hsafe hdue hpg hout => ?_, fun hpg hphase => ⟨fun w hsince hstep => ?_, fun hsince hwaits => ?_⟩, fun hpg hphase => ?_,
      fun kept hpg hphase => ?_⟩
    · have hexec : exec (.warmStart dt) s = .next { e.warmWrites with
          boot.phase := .step, boot.since := e.warmWrites.tick, boot.begun := e.warmWrites.tick, boot.warmDue := false, boot.pgSince := none
          dbg.holdStart := false } := by
        have hx : exec (.warmStart dt) s = execWarmStart dt s := rfl
        rw [hx, execWarmStart, ← he]
        dsimp only
        rw [if_pos ⟨hsafe, hdue, hpg, hout⟩, State.warmWrites]
      obtain ⟨hsvc, hstep, hwarm, htally, hwmem⟩ := State.warmWrites_spec hwf
      generalize e.warmWrites = u at *
      generalize hv : ({ u with
          boot.phase := .step, boot.since := u.tick, boot.begun := u.tick, boot.warmDue := false, boot.pgSince := none
          dbg.holdStart := false } : State) = v at hexec
      have hvregs : v.regs = u.regs := by rw [← hv]
      have hvboot : v.boot.phase = .step ∧ v.boot.warmDue = false ∧ v.mem = u.mem := by
        rw [← hv]
        exact ⟨rfl, rfl, rfl⟩
      have hreg (r : RegRow) : v.reg r = u.reg r := State.reg_of_regs hvregs r 0 0
      refine ⟨_, hexec, (hreg _).trans hsvc, hvboot.1, (hreg _).trans hstep, ?_, ?_, hvboot.2.1,
        sameMemory_of_mem (hvboot.2.2.trans (hwmem.trans hmem))⟩
      · rw [State.warm, State.flag, hreg, hwarm]
        rfl
      · rw [hreg, htally, State.reg_of_regs hregs]
    · generalize hu : e.setReg R.PWR_PMIC_PG 1 = u
      generalize hv : u.setReg R.PWR_PG_WAIT_US_US (min (u.reg R.PWR_PG_WAIT_US_US + (u.tick - w) / 25) (2 ^ 32 - 1)) = v
      have huboot : u.boot = e.boot := by rw [← hu, State.setReg_boot]
      have hexec : exec (.pmicPgRise dt) s = .next v.beginSelect := by
        have hx : exec (.pmicPgRise dt) s = execPmicPgRise dt s := rfl
        rw [hx, execPmicPgRise, ← he]
        dsimp only
        rw [if_neg (by simp [hpg]), hu, huboot, if_neg hphase, hsince]
        dsimp only
        rw [if_pos hstep, hv]
      have huwf : Sparse.wf 0#32 u.regs = true := by
        rw [← hu]
        exact e.setReg_wf _ _ _ _ hwf
      have hvwf : Sparse.wf 0#32 v.regs = true := by
        rw [← hv]
        exact u.setReg_wf _ _ _ _ huwf
      have hvpg : v.reg R.PWR_PMIC_PG = 1 := by
        rw [← hv, State.reg_setReg_apart huwf (by decide), ← hu]
        exact State.reg_setReg_same _ _ _ _ _ hwf (by decide)
      have hvmem : v.mem = s.mem := by rw [← hv, State.setReg_mem, ← hu, State.setReg_mem, hmem]
      obtain ⟨hselect, hbegun, hnone, hkept, hselmem⟩ := State.beginSelect_spec hvwf
      refine ⟨_, hexec, ?_, hselect, hnone, hbegun, sameMemory_of_mem (hselmem.trans hvmem)⟩
      rw [State.flag, hkept, hvpg]
      rfl
    · generalize hu : e.setReg R.PWR_PMIC_PG 1 = u
      have huboot : u.boot = e.boot := by rw [← hu, State.setReg_boot]
      have hexec : exec (.pmicPgRise dt) s = .next { u with boot.warmOnPg := false, boot.warmDue := true } := by
        have hx : exec (.pmicPgRise dt) s = execPmicPgRise dt s := rfl
        rw [hx, execPmicPgRise, ← he]
        dsimp only
        rw [if_neg (by simp [hpg]), hu, huboot, if_neg hphase, hsince]
        dsimp only
        rw [if_pos hwaits]
      have hregs' : ({ u with boot.warmOnPg := false, boot.warmDue := true } : State).regs = u.regs := rfl
      refine ⟨_, hexec, ?_, rfl, rfl, sameMemory_of_mem (?_ : u.mem = s.mem)⟩
      · rw [State.flag, State.reg_of_regs hregs', ← hu, State.reg_setReg_same _ _ _ _ _ hwf (by decide)]
        rfl
      · rw [← hu, State.setReg_mem, hmem]
    · generalize hu : e.setReg R.PWR_PMIC_PG 1 = u
      have huboot : u.boot = e.boot := by rw [← hu, State.setReg_boot]
      have hexec : exec (.pmicPgRise dt) s = .next { u with boot.phase := .pgBack, boot.since := u.tick } := by
        have hx : exec (.pmicPgRise dt) s = execPmicPgRise dt s := rfl
        rw [hx, execPmicPgRise, ← he]
        dsimp only
        rw [if_neg (by simp [hpg]), hu, huboot, if_pos hphase]
      refine ⟨_, hexec, rfl, rfl, sameMemory_of_mem (?_ : u.mem = s.mem)⟩
      rw [← hu, State.setReg_mem, hmem]
    · have hwf1 := e.setReg_wf R.PWR_PMIC_PG 0 0 0 hwf
      generalize hu : (((e.setReg R.PWR_PMIC_PG 0).incReg R.PWR_PMIC_FALLS).raise 0x80 0 0) = u
      generalize hv : ({ u.saveAnswers with queuesLost := true } : State) = v
      have hvlost : v.queuesLost = true := by rw [← hv]
      have hstands := v.unpower_stands kept
      generalize hw : v.unpower kept = w at *
      have hwstands : w.queuesLost = true ∧ w.running = false ∧ w.cmds = [] := by
        simp only [Stands, State.standing, Prod.mk.injEq] at hstands
        obtain ⟨⟨hcmds, -, hrunning, -, hlost, -⟩, -⟩ := hstands
        exact ⟨hlost.trans hvlost, hrunning, hcmds⟩
      have hexec : exec (.pmicPgFall dt kept) s = .next (if w.svc = 0 then
          match w.boot.phase with
          | .step => { w.abandon with boot.phase := .pgLost, boot.pgSince := none }
          | .pgBack => { w with boot.phase := .pgLost }
          | _ => w
        else if w.boot.warmDue then { w with boot.warmDue := false, boot.warmOnPg := true } else w) := by
        have hx : exec (.pmicPgFall dt kept) s = execPmicPgFall dt kept s := rfl
        rw [hx, execPmicPgFall, ← he]
        dsimp only
        rw [if_neg (by simp [hpg]), if_neg (by rw [State.setReg_boot]; exact hphase), ← hw, State.unpower, ← hv, ← hu] <;> rfl
      refine ⟨_, hexec, ?_⟩
      split
      · split
        · have habandon := w.abandon_spares.standing
          generalize w.abandon = x at *
          simp only [State.standing, Prod.mk.injEq] at habandon
          obtain ⟨⟨hcmds, -, hrunning, -, hlost, -⟩, -⟩ := habandon
          exact ⟨hlost.trans hwstands.1, hrunning, hcmds⟩
        · exact hwstands
        · exact hwstands
      · split
        · exact hwstands
        · exact hwstands
end


section
/-!
SUPPORT. A warm start at DONE whose anti-noise awaits its coefficients, while their saved copy holds a word that cannot be corrected.
-/

namespace Sys2Proof.Machine

open Sys2Proof

/-- The registers of a warm start that has armed its groups, with cause 6 of the anti-noise set; source 0x50 is of class D. -/
def armedRegs : State :=
  (((((({ State.reset with regs := [] } : State).setReg R.BOOT_STATUS_STEP 0xA).setReg R.BOOT_STATUS_WARM 1).setReg R.TIME_STATUS_ARMED 1).setReg
    R.ACU_STATUS_BP_RUN 1).setReg R.ACU_STATUS_ANC_CAUSE 0x40).setReg R.SAFE_FAULT_CFG_REACT 1 0x50

/-- One reference, one loudspeaker and one tap are configured, and the one saved coefficient cannot be read. -/
def armedUnreadable : State :=
  { armedRegs with
    boot.phase := .step
    image := some ⟨[], [], [⟨7, 0, [0#8, 1#8, 1#8, 0#8, 1#8, 0#8]⟩]⟩
    health := [(wHome, .uncorrectable)] }

end Sys2Proof.Machine

open Sys2Proof Sys2Proof.Machine

/-- Refutes O12: at DONE the anti-noise reads its saved coefficients, and a word that cannot be corrected there is a fault of
class D, which takes the device that has just entered IN_SERVICE to SAFE. -/
theorem not_armAndDone : ¬ Obligations.ArmAndDone := by
  intro h
  obtain ⟨-, -, hdone⟩ := h armedUnreadable (armedUnreadable.elapse 0) 0 (by simp only [State.Canonical]; decide +kernel) rfl
  obtain ⟨t, ht, hsvc, -⟩ := hdone (by decide +kernel) (by decide +kernel) (by decide +kernel) (by decide +kernel)
  have hsafe : ∀ u, exec (.startDone 0) armedUnreadable = .next u → u.svc = 2 := by
    intro u hu
    obtain rfl := Host.Outcome.next.inj hu
    decide +kernel
  exact absurd ((hsafe t ht).symm.trans hsvc) (by decide)
end


section
/-!
SUPPORT. A start in step SEAL whose image holds a sealed section, while Tide does not run.
-/

namespace Sys2Proof.Machine

open Sys2Proof

/-- Step SEAL of a cold start, with a sealed section in the image and nothing in the ferroelectric RAM. -/
def sealingFirst : State :=
  { ({ State.reset with regs := [] } : State).setReg R.BOOT_STATUS_STEP 4 with
    boot.phase := .step
    image := some ⟨[], [], [⟨8, 0, [0#8]⟩]⟩ }

end Sys2Proof.Machine

open Sys2Proof Sys2Proof.Machine

/-- Refutes O10: where Tide does not run, SEAL starts it with the section at once, and nothing is kept to be taken back. -/
theorem not_startStepsPassInOrder : ¬ Obligations.StartStepsPassInOrder := by
  intro h
  obtain ⟨-, -, -, hseal, -⟩ := h sealingFirst (sealingFirst.elapse 0) 0 (by simp only [State.Canonical]; decide +kernel) rfl
    (by decide +kernel)
  obtain ⟨t, ht, -, hkept⟩ := hseal (by decide +kernel)
  have hnone : ∀ u, exec (.sealStep 0) sealingFirst = .next u → u.boot.sealBefore = none := by
    intro u hu
    obtain rfl := Host.Outcome.next.inj hu
    decide +kernel
  exact absurd ((hnone t ht).symm.trans hkept) (by simp)
end


section
/-!
SUPPORT. The end of a step, and the steps SELECT, DRAM and BRINGUP.
-/

namespace Sys2Proof.Machine

open Sys2Proof

theorem State.runStep_eq {s : State} {k : Nat} {f : State → State} (hin : s.inStep k = true) (hlimit : s.overLimit = false) :
    s.runStep k f = f s := by
  rw [State.runStep, if_neg (not_not_intro hin), if_neg (by simp [hlimit])]

theorem State.nextStep_eq (s : State) (k : Nat) :
    s.nextStep k = { s with regs := (s.nextStep k).regs, boot := { s.boot with since := s.tick } } := by
  rw [State.nextStep, State.stepTime, State.setReg_eq, State.setReg_eq]

theorem State.nextStep_regs (s : State) (k : Nat) : (s.nextStep k).regs = (s.stepTime.setReg R.BOOT_STATUS_STEP k).regs := rfl

theorem State.stepTime_wf (s : State) (hwf : Sparse.wf 0#32 s.regs = true) : Sparse.wf 0#32 s.stepTime.regs = true :=
  s.setReg_wf _ _ _ _ hwf

/-- The next step begins now. -/
theorem State.nextStep_step {s : State} {k : Nat} (hwf : Sparse.wf 0#32 s.regs = true) (hk : k < 16) :
    (s.nextStep k).reg R.BOOT_STATUS_STEP = k := by
  rw [State.reg_of_regs (s.nextStep_regs k), State.reg_setReg_same _ _ _ _ _ (s.stepTime_wf hwf) (by decide)]
  exact Nat.mod_eq_of_lt hk

theorem State.nextStep_since (s : State) (k : Nat) : (s.nextStep k).boot.since = (s.nextStep k).tick := by
  rw [State.nextStep_eq]

/-- Beside the step and the time of the last one, no register changes. -/
theorem State.reg_nextStep {s : State} {k : Nat} (hwf : Sparse.wf 0#32 s.regs = true) {q : RegRow}
    (htime : ∀ i < 16, R.BOOT_STEP_US_US.Apart q i 0 0 0) (hstep : R.BOOT_STATUS_STEP.Apart q 0 0 0 0) :
    (s.nextStep k).reg q = s.reg q := by
  rw [State.reg_of_regs (s.nextStep_regs k), State.reg_setReg_apart (s.stepTime_wf hwf) hstep, State.stepTime,
    State.reg_setReg_apart hwf (htime _ (s.reg_lt R.BOOT_STATUS_STEP 0 0 (by decide)))]

/-! ### SELECT -/

/-- The slot of a cold start whose last attempts did not fail. -/
def State.bestSlot (s : State) : Nat := if s.eligibleGen 1 ≤ s.eligibleGen 0 then 0 else 1

/-- What SELECT shows of the two slots. -/
def State.shownSlots (s : State) : State :=
  (({ s with boot.gens := (hdrGen (s.slotBytes 0 256), hdrGen (s.slotBytes 1 256)) } : State).setReg R.BOOT_SLOT_A_GEN_GEN
    (s.eligibleGen 0)).setReg R.BOOT_SLOT_B_GEN_GEN (s.eligibleGen 1)

theorem State.shownSlots_eq (s : State) : s.shownSlots = { s with
    regs := s.shownSlots.regs, boot.gens := (hdrGen (s.slotBytes 0 256), hdrGen (s.slotBytes 1 256)) } := by
  rw [State.shownSlots, State.setReg_eq, State.setReg_eq]

theorem State.shownSlots_wf {s : State} (hwf : Sparse.wf 0#32 s.regs = true) : Sparse.wf 0#32 s.shownSlots.regs = true :=
  State.setReg_wf _ _ _ _ _ (State.setReg_wf { s with boot.gens := (hdrGen (s.slotBytes 0 256), hdrGen (s.slotBytes 1 256)) } _ _ _ _ hwf)

theorem State.shownSlots_fails {s : State} (hwf : Sparse.wf 0#32 s.regs = true) :
    s.shownSlots.reg R.BOOT_STATUS_FAILS = s.reg R.BOOT_STATUS_FAILS := by
  have hgens : ({ s with boot.gens := (hdrGen (s.slotBytes 0 256), hdrGen (s.slotBytes 1 256)) } : State).regs = s.regs := rfl
  unfold State.shownSlots
  generalize ({ s with boot.gens := (hdrGen (s.slotBytes 0 256), hdrGen (s.slotBytes 1 256)) } : State) = u at *
  have huwf : Sparse.wf 0#32 u.regs = true := hgens ▸ hwf
  rw [State.reg_setReg_apart (u.setReg_wf _ _ _ _ huwf) (by decide), State.reg_setReg_apart huwf (by decide), State.reg_of_regs hgens]

/-- SELECT has taken its slot. -/
def State.selected (s : State) : State := s.shownSlots.setReg R.BOOT_STATUS_SLOT s.bestSlot

theorem State.selected_slot {s : State} (hwf : Sparse.wf 0#32 s.regs = true) : s.selected.reg R.BOOT_STATUS_SLOT = s.bestSlot := by
  rw [State.selected, State.reg_setReg_same _ _ _ _ _ (State.shownSlots_wf hwf) (by decide), State.bestSlot]
  split <;> rfl

/-- SELECT of a cold start, with or without failed attempts before it. -/
def State.chosen (s : State) : State :=
  if s.shownSlots.reg R.BOOT_STATUS_FAILS = 0 ∧ ¬ (s.eligibleGen 0 = 0 ∧ s.eligibleGen 1 = 0) then s.selected else s.shownSlots

theorem State.selectSlot_true (s : State) : s.selectSlot true =
    if (if s.chosen.reg R.BOOT_STATUS_SLOT = 0 then s.eligibleGen 0 else s.eligibleGen 1) = 0 then s.chosen.attemptFail 0x01
    else s.chosen.nextStep 3 := by
  unfold State.chosen State.selected State.shownSlots State.bestSlot State.selectSlot
  rw [if_neg (by decide)]

/-- SELECT takes the slot with the greater eligible generation where no attempt has failed. -/
theorem State.selectSlot_eq {s : State} (hwf : Sparse.wf 0#32 s.regs = true) (hfails : s.reg R.BOOT_STATUS_FAILS = 0)
    (hgens : ¬ (s.eligibleGen 0 = 0 ∧ s.eligibleGen 1 = 0)) : s.selectSlot true = s.selected.nextStep 3 := by
  have hgen : (if s.bestSlot = 0 then s.eligibleGen 0 else s.eligibleGen 1) ≠ 0 := by
    unfold State.bestSlot
    split
    · rw [if_pos rfl]
      omega
    · rw [if_neg (by decide)]
      omega
  have hchosen : s.chosen = s.selected := if_pos ⟨(State.shownSlots_fails hwf).trans hfails, hgens⟩
  rw [State.selectSlot_true, hchosen, State.selected_slot hwf, if_neg hgen]

/-! ### DRAM -/

theorem State.scramble_regs (s : State) (a n : Nat) : (s.scramble a n).regs = s.regs := State.setBytes_regs ..

/-- The verified copy is written to memory; no register changes. -/
theorem State.copyImage_regs (s : State) (m : Image) (slot : Nat) : (s.copyImage m slot).regs = s.regs := by
  unfold State.copyImage
  extract_lets home u v
  have hv : v.regs = s.regs := State.setBytes_regs ..
  refine List.foldlRecOn (motive := fun x : State => x.regs = s.regs) _ _ hv fun x hx y _ => ?_
  split
  · exact (State.scramble_regs ..).trans ((State.setBytes_regs ..).trans hx)
  · exact hx

/-- DRAM that has been trained is shown so. -/
theorem State.initDram_trained {s : State} (hwf : Sparse.wf 0#32 s.regs = true) :
    Sparse.wf 0#32 s.initDram.regs = true ∧ s.initDram.reg R.MEMC_STATUS_TRAINED = 1 := by
  unfold State.initDram
  extract_lets ecc u v
  have hwf1 := s.setReg_wf R.MEMC_STATUS_TRAINED 1 0 0 hwf
  have hu : Sparse.wf 0#32 u.regs = true ∧ u.reg R.MEMC_STATUS_TRAINED = 1 :=
    ⟨State.setReg_wf _ _ _ _ _ hwf1, (State.reg_setReg_apart hwf1 (by decide)).trans (State.reg_setReg_same _ _ _ _ _ hwf (by decide))⟩
  have hvregs : v.regs = u.regs :=
    List.foldlRecOn (motive := fun x : State => x.regs = u.regs) _ _ rfl fun x hx y _ => (State.clearMem_regs ..).trans hx
  have hv : Sparse.wf 0#32 v.regs = true ∧ v.reg R.MEMC_STATUS_TRAINED = 1 := ⟨hvregs ▸ hu.1, (State.reg_of_regs hvregs ..).trans hu.2⟩
  clear_value v
  split
  · next m w _ _ =>
      have hcopy := v.copyImage_regs m w.slot
      generalize v.copyImage m w.slot = x at hcopy
      exact ⟨hcopy ▸ hv.1, (State.reg_of_regs (s := v) hcopy ..).trans hv.2⟩
  · exact hv

end Sys2Proof.Machine

open Sys2Proof Sys2Proof.Machine

/-- Settles O11: the steps SELECT, DRAM and BRINGUP that pass. -/
theorem selectDramAndBringupPass : Obligations.SelectDramAndBringupPass := by
  intro s e dt hs he hlimit
  have hc : e.Canonical := he ▸ (by simpa [State.Canonical] using hs)
  have hmem : e.mem = s.mem := by rw [he, State.elapse_mem]
  refine ⟨fun u hu hin hcold hfails hgens => ?_, fun u hu hc hin hcold => ?_, fun kats drbg sio hin hrun hlists => ?_⟩
  · have huwf : Sparse.wf 0#32 u.regs = true := hu ▸ ((Keeps.refl e).powerAll.canonical hc).1
    have hexec : exec (.selectStep dt true) s = .next (u.selected.nextStep 3) := by
      have hx : exec (.selectStep dt true) s = execSelectStep dt true s := rfl
      rw [hx, execSelectStep, ← he, State.runStep_eq hin hlimit]
      dsimp only
      rw [← hu, if_pos (by simp [hcold]), State.selectSlot_eq huwf hfails hgens]
    have hswf : Sparse.wf 0#32 u.selected.regs = true := State.setReg_wf _ _ _ _ _ (State.shownSlots_wf huwf)
    refine ⟨_, hexec, State.nextStep_step hswf (by decide), ?_, ?_⟩
    · rw [State.reg_nextStep hswf (by decide) (by decide)]
      exact State.selected_slot huwf
    · rw [State.nextStep_eq, State.selected, State.setReg_boot, State.shownSlots_eq]
  · have huwf := hc.1
    have hexec : exec (.dramStep dt true) s = .next (u.initDram.nextStep 6) := by
      have hx : exec (.dramStep dt true) s = execDramStep dt true s := rfl
      rw [hx, execDramStep, ← he, State.runStep_eq hin hlimit]
      dsimp only
      rw [← hu, if_neg (by simp [hcold]), if_pos rfl]
    obtain ⟨hdwf, htrained⟩ := State.initDram_trained huwf
    refine ⟨_, hexec, State.nextStep_step hdwf (by decide), ?_, State.nextStep_since ..⟩
    rw [State.reg_nextStep hdwf (by decide) (by decide), htrained]
  · generalize hu : ({ e with grants := true, orbit.armAt := e.tick } : State) = u
    have hexec : exec (.bringupStep dt kats drbg sio) s = .next (u.nextStep 0xA) := by
      have hx : exec (.bringupStep dt kats drbg sio) s = execBringupStep dt kats drbg sio s := rfl
      rw [hx, execBringupStep, ← he, State.runStep_eq hin hlimit]
      dsimp only
      rw [if_pos hrun, State.onward, if_pos hin, if_neg (by simp [hlists]), State.endBringup, ← hu]
    have huwf : Sparse.wf 0#32 u.regs = true := by
      rw [← hu]
      exact hc.1
    have hkept : u.grants = true ∧ u.orbit.armAt = u.tick ∧ u.mem = s.mem := by
      rw [← hu]
      exact ⟨rfl, rfl, hmem⟩
    refine ⟨_, hexec, State.nextStep_step huwf (by decide), ?_, ?_, State.nextStep_since .., sameMemory_of_mem ?_⟩ <;> rw [State.nextStep_eq]
    · exact hkept.1
    · exact hkept.2.1
    · exact hkept.2.2
end
